-- ==== Sys2Proof/Word.lean ====
section
/-! DEFINITION. The word types of the block and their plainest arithmetic. -/
namespace Sys2Proof

/-- A byte of memory, flash or a frame. -/
abbrev Byte := BitVec 8
/-- A Prenyx word (R62). -/
abbrev Word := BitVec 32
/-- A doubleword: a device register (R9), a bank word (R223). -/
abbrev DWord := BitVec 64
/-- A physical address (R17). -/
abbrev PAddr := BitVec 40

end Sys2Proof
end

