-- ==== Sys2Proof/Syntax.lean ====
section
/-! DEFINITION. The commands of the block: one constructor of `Instr` per row of spec/opcode_table.json, with the
row's operands, and the operand types they use. -/
namespace Sys2Proof

/-- A general or floating-point register number (R62, R63). -/
abbrev Reg := BitVec 5

/-- Lane `i` of triad `t` (R16); in SPLIT mode the core at position `i` (R130). -/
structure LaneId where
  t : Fin 32
  i : Fin 3
  deriving DecidableEq, Repr

/-- The length of the encoding executed: a 16-bit or a 32-bit instruction (R86, R113). -/
inductive Form where
  | half | full
  deriving DecidableEq, Repr

/-- The scope of a `CACHE` instruction (R106). -/
inductive Scope where
  | address | setWay | range
  deriving DecidableEq, Repr

/-- Who makes a device register access (R392, R421). -/
inductive Agent where
  | part (p : BitVec 6)
  | manager
  | host
  | miller
  deriving DecidableEq, Repr

/-- To whom a contained fault is attributed (R402). -/
inductive Attr where
  | part (p : BitVec 6)
  | manager
  deriving DecidableEq, Repr

/-- A local error of a lane before its instruction retires (R145). -/
inductive LocalError where
  | controlStore (addr : BitVec 13) (persists : Bool)
  | registerFile (persists : Bool)
  | l1 (icache : Bool) (line : BitVec 34)
  deriving DecidableEq, Repr

/-- A register a debugger writes in lane 0 (R159). -/
inductive DebugReg where
  | g (n : BitVec 5) | f (n : BitVec 5) | pc | control (num : BitVec 12)
  deriving DecidableEq, Repr

/-- An event source of R167. -/
inductive EventSrc where
  | fault (s : Fin 20) | timer (k : Fin 4) | queue (q : BitVec 12) | pps | sweep | host (v : BitVec 4)
  deriving DecidableEq, Repr

/-- A frame arriving on a lane, as the lane's protocol engine sees it: an Ethernet frame from destination address
through FCS (R317), a CAN FD frame (R328), the octets of an HDLC frame after unstuffing, address through FCS (R331), or
the characters of a plain asynchronous frame with the number of those in error (R332). -/
inductive RxFrame where
  | eth (bytes : List Byte)
  | can (ide : Bool) (id : BitVec 29) (fdf brs esi remote : Bool) (data : List Byte)
  | hdlc (octets : List Byte) (aborted : Bool)
  | async (octets : List Byte) (errs : BitVec 12)
  deriving DecidableEq, Repr

/-- The target of an abort (R311). -/
inductive AbortTarget where
  | queue (q : BitVec 12) | path (n : BitVec 10) | part (p : BitVec 6)
  deriving DecidableEq, Repr

/-- The content of a `HEART` (R426); `ring` names the neighbour link of a cascade, `watch` a pair's leat otherwise. -/
structure HeartMsg where
  primary : Bool
  joining : Bool
  takeovers : BitVec 16
  imageSeq : BitVec 32
  cmac : BitVec 64
  cseq : BitVec 64
  ring : Option (Fin 2)
  deriving DecidableEq, Repr

/-- A channel decision of the primary (R427). -/
inductive ChnDec where
  | sequence (n : BitVec 10) (q : BitVec 12)
  | recvTimeout (q : BitVec 12)
  | waitEnd (q : BitVec 12)
  | abortStop (q : BitVec 12) (step : BitVec 8)
  | tagGrant (q : BitVec 12)
  deriving DecidableEq, Repr

/-- A forwarded host write or management command (R427). -/
inductive ExtWrite where
  | hostMem (addr : PAddr) (bytes : List Byte)
  | hostDoorbell (q : BitVec 12) (v : BitVec 16)
  | abort (tgt : AbortTarget)
  | brakePart (p : BitVec 6)
  | brakeDevice
  | partReset (p : BitVec 6)
  deriving DecidableEq, Repr

/-- Copy traffic of a rejoin (R444). -/
inductive RejoinMsg where
  | mem (addr : PAddr) (bytes : List Byte)
  | retx (n : BitVec 10) (seq : BitVec 32) (frame : List Byte)
  | checkpoint (t : Fin 32) (retired : BitVec 64) (storeSeq readSeq : BitVec 32) (words : List (BitVec 32))
  | path (n : BitVec 10) (epoch : BitVec 16) (txseq rxnext : BitVec 32)
  | queue (q : BitVec 12) (hrhead trtail gen : BitVec 16)
  | timer (t : Fin 32) (k : Fin 4) (due : BitVec 64)
  | event (t : Fin 32) (n : BitVec 16)
  | evcfg (t : Fin 32) (v : BitVec 64)
  | journal (words : List (BitVec 64))
  | finished
  deriving DecidableEq, Repr

/-- A frame carried around the cascade ring (R446). -/
inductive RelayMsg where
  | toImporter (n : BitVec 10) (time : BitVec 64) (frame : List Byte)
  | toExporter (e : BitVec 6) (frame : List Byte)
  | transit (dest : BitVec 2) (frame : List Byte)
  deriving DecidableEq, Repr

/-- A `GLOBAL` message of a cascade (R445, R447, R448). -/
inductive GlobalMsg where
  | barrierArrive (dev : BitVec 2) (members arrived : BitVec 8)
  | barrierRelease
  | snapshot (addr : PAddr)
  | reset
  deriving DecidableEq, Repr

/-- The straps and inputs sampled when `PORST_N` is released (R452, R506, R511, R43). -/
structure BootPins where
  bootSel : BitVec 3
  pairRole : Bool
  casId : BitVec 2
  testMode : Bool
  corePg : Bool
  refclk : Bool
  deriving DecidableEq, Repr

/-- What the start-up tests of step 8 of R458 found. -/
structure StartUpResult where
  failedCores : List (Fin 104)
  snoopOk : Bool
  loaderOk : Bool
  switchOk : Bool
  collectorOk : Bool
  sluice : List (Fin 32 × Byte)
  brakeReqLow : Bool
  deriving DecidableEq, Repr

/-- A management command frame after its type byte and CMD byte (R480). -/
structure MgtFrame where
  flags : Byte
  len : BitVec 16
  mepoch : BitVec 16
  seq : BitVec 32
  payload : List Byte
  tag : List Byte
  deriving DecidableEq, Repr

/-- The commands (spec/opcode_table.json, one constructor per row). -/
inductive Instr where
  /-- ADD (R93): Adds two general registers into the destination. -/
  | add (l : LaneId) (f : Form) (d a b : Reg)
  /-- SUB (R93): Subtracts one general register from another. -/
  | sub (l : LaneId) (d a b : Reg)
  /-- ADDC (R114): Adds two registers and the carry bit and updates CY. -/
  | addc (l : LaneId) (d a b : Reg)
  /-- SUBC (R114): Subtracts with borrow from CY and updates CY. -/
  | subc (l : LaneId) (d a b : Reg)
  /-- AND (R93): Bitwise and of two registers. -/
  | and (l : LaneId) (d a b : Reg)
  /-- OR (R93): Bitwise or of two registers. -/
  | or (l : LaneId) (d a b : Reg)
  /-- XOR (R93): Bitwise exclusive or of two registers. -/
  | xor (l : LaneId) (d a b : Reg)
  /-- SHL (R93): Shifts left by a register count. -/
  | shl (l : LaneId) (d a b : Reg)
  /-- SHR (R93): Shifts right with zero fill by a register count. -/
  | shr (l : LaneId) (d a b : Reg)
  /-- SHRA (R93): Shifts right with sign fill by a register count. -/
  | shra (l : LaneId) (d a b : Reg)
  /-- SHL_IMMEDIATE (R94): Shifts left by an immediate count under OPC 0x02. -/
  | shlImmediate (l : LaneId) (d a : Reg) (n : BitVec 5)
  /-- SHR_IMMEDIATE (R94): Shifts right with zero fill by an immediate count. -/
  | shrImmediate (l : LaneId) (d a : Reg) (n : BitVec 5)
  /-- SHRA_IMMEDIATE (R94): Shifts right with sign fill by an immediate count. -/
  | shraImmediate (l : LaneId) (d a : Reg) (n : BitVec 5)
  /-- SETLT (R93): Sets the destination to 1 when the first source is below the second, signed. -/
  | setlt (l : LaneId) (d a b : Reg)
  /-- SETLTU (R93): Sets the destination to 1 when the first source is below the second, unsigned. -/
  | setltu (l : LaneId) (d a b : Reg)
  /-- MOV (R93): Copies a general register. -/
  | mov (l : LaneId) (f : Form) (d a : Reg)
  /-- CLZ (R93): Counts leading zero bits of a register. -/
  | clz (l : LaneId) (d a : Reg)
  /-- MUL (R115): Writes the low word of the product. -/
  | mul (l : LaneId) (d a b : Reg)
  /-- MULHS (R115): Writes the high word of the signed product. -/
  | mulhs (l : LaneId) (d a b : Reg)
  /-- MULHU (R115): Writes the high word of the unsigned product. -/
  | mulhu (l : LaneId) (d a b : Reg)
  /-- MULW (R115): Writes the full signed 64-bit product to a register pair. -/
  | mulw (l : LaneId) (d a b : Reg)
  /-- MULWU (R115): Writes the full unsigned 64-bit product to a register pair. -/
  | mulwu (l : LaneId) (d a b : Reg)
  /-- DIV (R116): Writes the signed quotient with the saturating special cases. -/
  | div (l : LaneId) (d a b : Reg)
  /-- DIVU (R116): Writes the unsigned quotient with the special cases. -/
  | divu (l : LaneId) (d a b : Reg)
  /-- REM (R116): Writes the signed remainder with the sign of the dividend. -/
  | rem (l : LaneId) (d a b : Reg)
  /-- REMU (R116): Writes the unsigned remainder. -/
  | remu (l : LaneId) (d a b : Reg)
  /-- ADDI (R95): Adds a sign-extended immediate. -/
  | addi (l : LaneId) (f : Form) (d a : Reg) (i : BitVec 16)
  /-- ANDI (R95): Ands a sign-extended immediate. -/
  | andi (l : LaneId) (d a : Reg) (i : BitVec 16)
  /-- ORI (R95): Ors a zero-extended immediate. -/
  | ori (l : LaneId) (d a : Reg) (i : BitVec 16)
  /-- XORI (R95): Xors a zero-extended immediate. -/
  | xori (l : LaneId) (d a : Reg) (i : BitVec 16)
  /-- LHI (R95): Loads an immediate shifted left by 11. -/
  | lhi (l : LaneId) (d : Reg) (u : BitVec 21)
  /-- LD_B (R96): Loads a sign-extended byte with a load delay. -/
  | ldB (l : LaneId) (d a : Reg) (off : BitVec 13)
  /-- LD_H (R96): Loads a sign-extended halfword with a load delay. -/
  | ldH (l : LaneId) (d a : Reg) (off : BitVec 13)
  /-- LD_W (R96): Loads a word with a load delay. -/
  | ldW (l : LaneId) (f : Form) (d a : Reg) (off : BitVec 13)
  /-- LD_D (R96): Loads a doubleword into a register pair without a delay slot. -/
  | ldD (l : LaneId) (d a : Reg) (off : BitVec 13)
  /-- LD_BU (R96): Loads a zero-extended byte. -/
  | ldBu (l : LaneId) (d a : Reg) (off : BitVec 13)
  /-- LD_HU (R96): Loads a zero-extended halfword. -/
  | ldHu (l : LaneId) (d a : Reg) (off : BitVec 13)
  /-- LD_F (R96): Loads a word into a floating-point register. -/
  | ldF (l : LaneId) (d a : Reg) (off : BitVec 13)
  /-- ST_B (R96): Stores the low byte of a register. -/
  | stB (l : LaneId) (b a : Reg) (off : BitVec 13)
  /-- ST_H (R96): Stores the low halfword of a register. -/
  | stH (l : LaneId) (b a : Reg) (off : BitVec 13)
  /-- ST_W (R96): Stores a register word. -/
  | stW (l : LaneId) (f : Form) (b a : Reg) (off : BitVec 13)
  /-- ST_D (R96): Stores a register pair as a doubleword. -/
  | stD (l : LaneId) (b a : Reg) (off : BitVec 13)
  /-- ST_F (R96): Stores a floating-point register. -/
  | stF (l : LaneId) (b a : Reg) (off : BitVec 13)
  /-- BR_EQ (R97): Branches when two registers are equal. -/
  | brEq (l : LaneId) (a b : Reg) (off : BitVec 13)
  /-- BR_NE (R97): Branches when two registers differ. -/
  | brNe (l : LaneId) (a b : Reg) (off : BitVec 13)
  /-- BR_LT (R97): Branches when the first register is below the second, signed. -/
  | brLt (l : LaneId) (a b : Reg) (off : BitVec 13)
  /-- BR_GE (R97): Branches when the first register is at or above the second, signed. -/
  | brGe (l : LaneId) (a b : Reg) (off : BitVec 13)
  /-- BR_LTU (R97): Branches when below, unsigned. -/
  | brLtu (l : LaneId) (a b : Reg) (off : BitVec 13)
  /-- BR_GEU (R97): Branches when at or above, unsigned. -/
  | brGeu (l : LaneId) (a b : Reg) (off : BitVec 13)
  /-- BR_Z (R97): Branches when a register is zero. -/
  | brZ (l : LaneId) (f : Form) (a : Reg) (off : BitVec 13)
  /-- BR_NZ (R97): Branches when a register is nonzero. -/
  | brNz (l : LaneId) (f : Form) (a : Reg) (off : BitVec 13)
  /-- JMP (R98): Jumps by a halfword offset. -/
  | jmp (l : LaneId) (off : BitVec 26)
  /-- CALL (R98): Jumps by an offset and writes the return address to lk. -/
  | call (l : LaneId) (off : BitVec 26)
  /-- JMPR (R98): Jumps to the address in a register. -/
  | jmpr (l : LaneId) (a : Reg)
  /-- CALLR (R98): Calls the address in a register and writes lk. -/
  | callr (l : LaneId) (a : Reg)
  /-- RET (R98): Jumps to lk. -/
  | ret (l : LaneId) (f : Form)
  /-- CALLM (R77): Pushes the return address and masked registers, then calls the target. -/
  | callm (l : LaneId) (t : Reg) (mask : BitVec 16)
  /-- RETM (R77): Pops masked registers and lk, then returns. -/
  | retm (l : LaneId) (mask : BitVec 16)
  /-- TRAP (R100): Raises the TRAP exception with a trap number. -/
  | trap (l : LaneId) (f : Form) (n : BitVec 8)
  /-- XRET (R83): Returns from an exception, restoring STATUS and applying the load-delay shadow. -/
  | xret (l : LaneId)
  /-- BRK (R100): Raises BREAKPOINT, or halts the triad when a debugger holds it. -/
  | brk (l : LaneId)
  /-- WAITEV (R101): Waits until an event is pending. -/
  | waitev (l : LaneId)
  /-- WAITTURN (R102): Reads the latest turn hint and sleeps for its estimated wait. -/
  | waitturn (l : LaneId) (d : Reg)
  /-- SAMPLE (R103): Reads lane-local state on a SPLIT core, or raises LANE_LOCAL in a triad. -/
  | sample (l : LaneId) (d : Reg) (sel : BitVec 5)
  /-- CRD (R68): Reads a control register. -/
  | crd (l : LaneId) (d : Reg) (num : BitVec 12)
  /-- CWR (R67): Writes a control register under the level rules. -/
  | cwr (l : LaneId) (num : BitVec 12) (a : Reg)
  /-- FENCE_SL (R238): Waits until earlier stores are visible before later loads. -/
  | fenceSl (l : LaneId)
  /-- FENCE_D (R238): Waits until earlier device-typed writes have completed. -/
  | fenceD (l : LaneId)
  /-- FENCE_ALL (R238): Waits for all earlier accesses and an empty store buffer. -/
  | fenceAll (l : LaneId)
  /-- FENCE_I (R239): Drains stores and invalidates the instruction caches and fetched instructions. -/
  | fenceI (l : LaneId)
  /-- BARWAIT (R242): Arrives at a barrier group round and waits for all members. -/
  | barwait (l : LaneId) (g : BitVec 4)
  /-- CACHE_CLEAN (R187): Waits for earlier stores to the lines in scope to be acknowledged. -/
  | cacheClean (l : LaneId) (scope : Scope) (icache : Bool) (a b : Reg)
  /-- CACHE_INVALIDATE (R187): Marks the lines in scope invalid. -/
  | cacheInvalidate (l : LaneId) (scope : Scope) (icache : Bool) (a b : Reg)
  /-- CACHE_CLEAN_INVALIDATE (R187): Cleans and then invalidates the lines in scope. -/
  | cacheCleanInvalidate (l : LaneId) (scope : Scope) (icache : Bool) (a b : Reg)
  /-- TLBINV_ADDRESS (R204): Invalidates TLB entries translating one address. -/
  | tlbinvAddress (l : LaneId) (a : Reg)
  /-- TLBINV_ADDRESS_SPACE (R204): Invalidates the entries of one ASID. -/
  | tlbinvAddressSpace (l : LaneId) (a : Reg)
  /-- TLBINV_ALL (R204): Invalidates every TLB and walk cache entry of the partition. -/
  | tlbinvAll (l : LaneId)
  /-- TLBINV_WALK_CACHE (R204): Invalidates the walk cache entries of the partition. -/
  | tlbinvWalkCache (l : LaneId)
  /-- TBEGIN (R252): Opens a transaction or deepens one. -/
  | tbegin (l : LaneId) (x : BitVec 15)
  /-- TEND (R265): Closes one transaction level and at depth 1 presents the commit record. -/
  | tend (l : LaneId)
  /-- TABORT (R108): Aborts the open transaction with an explicit code. -/
  | tabort (l : LaneId) (c : BitVec 8)
  /-- TSTAT (R108): Reads TXSTATUS into a register. -/
  | tstat (l : LaneId) (d : Reg)
  /-- FADD (R118): Adds two binary32 values. -/
  | fadd (l : LaneId) (d a b : Reg)
  /-- FSUB (R118): Subtracts two binary32 values. -/
  | fsub (l : LaneId) (d a b : Reg)
  /-- FMUL (R118): Multiplies two binary32 values. -/
  | fmul (l : LaneId) (d a b : Reg)
  /-- FDIV (R119): Divides two binary32 values. -/
  | fdiv (l : LaneId) (d a b : Reg)
  /-- FSQRT (R121): Takes the square root of a binary32 value. -/
  | fsqrt (l : LaneId) (d a : Reg)
  /-- FMINN (R122): Returns minimumNumber of two values. -/
  | fminn (l : LaneId) (d a b : Reg)
  /-- FMAXN (R122): Returns maximumNumber of two values. -/
  | fmaxn (l : LaneId) (d a b : Reg)
  /-- FCOPYSIGN (R120): Takes the magnitude of A and the sign of B. -/
  | fcopysign (l : LaneId) (d a b : Reg)
  /-- FNEGSIGN (R120): Takes the magnitude of A and the inverted sign of B. -/
  | fnegsign (l : LaneId) (d a b : Reg)
  /-- FXORSIGN (R120): Takes the magnitude of A and the xor of both signs. -/
  | fxorsign (l : LaneId) (d a b : Reg)
  /-- FCMP_EQ (R122): Writes 1 when two values are equal. -/
  | fcmpEq (l : LaneId) (d a b : Reg)
  /-- FCMP_LT (R122): Writes 1 when A is below B. -/
  | fcmpLt (l : LaneId) (d a b : Reg)
  /-- FCMP_LE (R122): Writes 1 when A is at or below B. -/
  | fcmpLe (l : LaneId) (d a b : Reg)
  /-- FCLASS (R122): Writes the class mask of a value. -/
  | fclass (l : LaneId) (d a : Reg)
  /-- FTOI (R123): Converts a value to a signed integer. -/
  | ftoi (l : LaneId) (d a : Reg)
  /-- FTOU (R123): Converts a value to an unsigned integer. -/
  | ftou (l : LaneId) (d a : Reg)
  /-- ITOF (R123): Converts a signed integer to binary32. -/
  | itof (l : LaneId) (d a : Reg)
  /-- UTOF (R123): Converts an unsigned integer to binary32. -/
  | utof (l : LaneId) (d a : Reg)
  /-- FMOVG (R63): Copies floating-point bits to a general register. -/
  | fmovg (l : LaneId) (d a : Reg)
  /-- GMOVF (R63): Copies general register bits to a floating-point register. -/
  | gmovf (l : LaneId) (d a : Reg)
  /-- FMADD (R124): Computes A times B plus C with one rounding. -/
  | fmadd (l : LaneId) (d a b c : Reg)
  /-- FMSUB (R124): Computes A times B minus C with one rounding. -/
  | fmsub (l : LaneId) (d a b c : Reg)
  /-- FNMADD (R124): Computes the negated fused multiply-add. -/
  | fnmadd (l : LaneId) (d a b c : Reg)
  /-- REGISTER_WRITE (R25): Performs a write to a device register that has no row of its own, under its access types and R7. -/
  | registerWrite (ag : Agent) (addr : BitVec 40) (v : BitVec 64)
  /-- GOVERNOR_TICK (R45): Every 10 us compares the speed index with the floor and steps the commanded voltage. -/
  | governorTick (mons : List (BitVec 12))
  /-- AVSBUS_TRANSACTION_END (R48): An AVSBus write completes or goes unacknowledged. -/
  | avsbusTransactionEnd (ack : Bool) (meas : BitVec 10)
  /-- AVSBUS_RETRY (R48): After AVSERR the governor retries every 1 ms. -/
  | avsbusRetry (ack : Bool) (meas : BitVec 10)
  /-- FLOORMISS (R47): The speed index stays below the floor for 20 us at 0.90 V. -/
  | floormiss (mons : List (BitVec 12))
  /-- UNDERV (R48): Measured VDD_CORE falls below 0.60 V and a fatal fault is raised. -/
  | underv
  /-- RECAL (R51): A write of 1 to GOV_CTRL.RECAL starts recalibration. -/
  | recal (ag : Agent)
  /-- RECALIBRATION_END (R51): Recalibration ends and RECALBUSY clears. -/
  | recalibrationEnd (mons : List (BitVec 12))
  /-- GOV_FLOOR_WRITE (R49): A floor write is performed only within BASE to 2,400. -/
  | govFloorWrite (ag : Agent) (v : BitVec 64)
  /-- REFCLK_LOSS (R42): REFCLK25 absent for 2 us sets LOSS and raises a fatal fault. -/
  | refclkLoss
  /-- REFCLK_DRIFT (R42): REFCLK25 outside 200 ppm for 1 ms sets DRIFT. -/
  | refclkDrift
  /-- REFCLK_RELOCK (R42): The time base relocks after REFCLK25 returns and sets LOCK. -/
  | refclkRelock
  /-- CONTROL_STORE_REPAIR_END (R58): The repair from the DRAM copy finishes and the instruction is retried or the lane fails. -/
  | controlStoreRepairEnd (l : LaneId) (ok : Bool)
  /-- CONTROL_STORE_SCRUB (R60): One control-store word is scrubbed per 4,096 steps. -/
  | controlStoreScrub (core : Fin 104) (addr : BitVec 13)
  /-- STORE_RECORD (R133): A lane delivers a store record to the sluice, which votes and forwards it. -/
  | storeRecord (l : LaneId)
  /-- DIGEST_RECORD (R138): A lane delivers a digest to the sluice, which votes it and sets the checkpoint. -/
  | digestRecord (l : LaneId)
  /-- COMMIT_RECORD (R266): A lane presents its commit record, which is voted under R133. -/
  | commitRecord (l : LaneId)
  /-- STRAGGLER_TIMEOUT (R141): A lane owes records for 50 us and counts as failed. -/
  | stragglerTimeout (l : LaneId)
  /-- INSTRUCTION_RETRY (R145): A local error rewinds the lane to the start of the instruction and retries it. -/
  | instructionRetry (l : LaneId) (err : LocalError)
  /-- REBUILD_READMISSION (R147): The rebuilt lane forms its readmission digest and resumes or fails. -/
  | rebuildReadmission (t : Fin 32) (ok : Bool)
  /-- SPARE_SWAP_END (R149): The spare's control-store compare ends and it is readmitted. -/
  | spareSwapEnd (t : Fin 32) (ok : Bool)
  /-- RESTART_DIGEST (R152): After a whole-triad restart the restart digests are compared. -/
  | restartDigest (t : Fin 32) (bad : BitVec 3)
  /-- RESTART_WINDOW_END (R150): RSTUSED clears RSTWIN ms after it was set. -/
  | restartWindowEnd (t : Fin 32)
  /-- TRIAD_RESET (R153): CLU_TCTL.RESET restarts the triad under R152. -/
  | triadReset (ag : Agent) (t : Fin 32)
  /-- SPLIT_CORE_RESET (R131): CLU_TCTL.RESET with ONE resets one SPLIT core. -/
  | splitCoreReset (ag : Agent) (t : Fin 32) (pos : BitVec 2)
  /-- TRIAD_REBUILD (R163): CLU_TCTL.REBUILD starts a rebuild of the named lane. -/
  | triadRebuild (ag : Agent) (t : Fin 32) (pos : BitVec 2)
  /-- SLURUN (R156): CLU_TCTL.SLURUN requests a sluice test. -/
  | slurun (ag : Agent) (t : Fin 32)
  /-- SLUICE_TEST_PERIOD (R156): The periodic sluice test falls due every SLUPER x 10 ms. -/
  | sluiceTestPeriod (t : Fin 32)
  /-- DEBUG_HALT (R158): A debugger halt request halts all lanes at one agreed count. -/
  | debugHalt (t : Fin 32)
  /-- DEBUG_SINGLE_STEP (R158): All lanes advance one instruction and halt again. -/
  | debugSingleStep (t : Fin 32)
  /-- DEBUG_REGISTER_WRITE (R159): A debugger register write to lane 0 is replayed into lanes 1 and 2. -/
  | debugRegisterWrite (t : Fin 32) (r : DebugReg) (v : BitVec 32)
  /-- DEBUG_MEMORY_WRITE (R159): A debugger memory write passes the sluice unvoted with DBG set. -/
  | debugMemoryWrite (t : Fin 32) (addr : BitVec 40) (be : BitVec 8) (v : BitVec 64)
  /-- DEBUG_RELEASE (R160): The debugger releases the triad and a forced digest point is taken. -/
  | debugRelease (t : Fin 32)
  /-- EVENT_PENDING (R165): An event trigger sets its pending bit and opens a delivery round. -/
  | eventPending (l : LaneId) (src : EventSrc)
  /-- LANE_COUNT_REPORT (R165): A lane stops at a delivery opportunity and reports its retired count. -/
  | laneCountReport (l : LaneId)
  /-- DELIVERY_COUNT_REACHED (R165): All lanes reach count C and take the selected event or decision. -/
  | deliveryCountReached (t : Fin 32)
  /-- TIMER_FIRE (R179): An event timer fires when TIM_NOW reaches DUE. -/
  | timerFire (t : Fin 32) (k : Fin 4)
  /-- EXTERNAL_INVALIDATION (R172): Another agent's store enters the triad's invalidation queue and checks read sets. -/
  | externalInvalidation (t : Fin 32) (src : Option LaneId) (line : BitVec 34)
  /-- INVALIDATION_ROUND (R172): A round is opened within 1 us of an invalidation entering an empty queue. -/
  | invalidationRound (t : Fin 32)
  /-- BIN_FILL (R173): A line fetched for a miss returns and is stored as a bin snapshot. -/
  | binFill (l : LaneId) (line : BitVec 34)
  /-- L1_FILL (R186): An outstanding fill returns data and is installed or skipped. -/
  | l1Fill (l : LaneId) (icache : Bool) (line : BitVec 34)
  /-- AGREED_READ_REQUEST (R176): A lane presents an agreed-read request, performed once when two agree. -/
  | agreedReadRequest (l : LaneId)
  /-- AGREED_READ_RESULT (R176): The access returns and its result is buffered and logged. -/
  | agreedReadResult (t : Fin 32)
  /-- SWEEP_LINE (R189): The sweep visits the next line of a range request. -/
  | sweepLine (c : Fin 8)
  /-- SPECULATIVE_WALK (R203): The fetch unit or prefetcher walks a page ahead of retirement. -/
  | speculativeWalk (l : LaneId) (fetch : Bool) (va : BitVec 32)
  /-- CLU_L1CTL_WRITE (R193): Writing an enable bit disables or re-enables a triad's cache. -/
  | cluL1ctlWrite (ag : Agent) (t : Fin 32) (v : BitVec 64)
  /-- BANK_HANDOVER (R213): A BNK_OWNER write starts a bank handover. -/
  | bankHandover (ag : Agent) (n : Fin 64) (v : BitVec 64)
  /-- BANK_HANDOVER_END (R213): The handover completes and the new owner takes effect. -/
  | bankHandoverEnd (n : Fin 64)
  /-- BIT_SET_ALIAS_STORE (R215): The bank ors a value into a word indivisibly. -/
  | bitSetAliasStore (ag : Agent) (addr : BitVec 40) (v : BitVec 64)
  /-- BIT_CLEAR_ALIAS_STORE (R215): The bank clears bits of a word indivisibly. -/
  | bitClearAliasStore (ag : Agent) (addr : BitVec 40) (v : BitVec 64)
  /-- BANK_SCRUB (R218): The background scrub checks one line every 16 us of idle port. -/
  | bankScrub (addr : BitVec 40)
  /-- DRAM_REGION_FILL (R221): One 1 MiB DRAM region is zero-filled. -/
  | dramRegionFill (port : Fin 2) (region : BitVec 15)
  /-- PATROL_SCRUB (R222): Patrol scrub reads the next DRAM line. -/
  | patrolScrub (port : Fin 2) (line : BitVec 29)
  /-- DEVICE_WRITE_TIMEOUT (R246): A device-typed write has no response after LIMIT us and completes with an error. -/
  | deviceWriteTimeout (l : LaneId)
  /-- DEVICE_WRITE_RESPONSE (R246): A device-typed write's response arrives, ordinary or error. -/
  | deviceWriteResponse (l : LaneId)
  /-- DEVICE_LOAD_TIMEOUT (R523): A device-typed load has no response after LIMIT us and ends in LOAD_ACCESS. -/
  | deviceLoadTimeout (l : LaneId)
  /-- COMMIT_RING_ROOM (R274): A commit waiting for ring space finds its entry fits. -/
  | commitRingRoom (l : LaneId)
  /-- COMMIT_HOLD_END (R268): An earlier commit ends step 6 and a waiting overlapping publish proceeds. -/
  | commitHoldEnd (l : LaneId)
  /-- DOORBELL_ADVANCE (R287): A write matching a DOORBELL word notifies the millrace. -/
  | doorbellAdvance (q : BitVec 12)
  /-- HEADRACE_ENTRY_TAKE (R288): A queue with work takes its oldest headrace entry on a free channel processor. -/
  | headraceEntryTake (cp : Fin 16)
  /-- SEND (R297): Hands a frame to the path's lane egress. -/
  | send (q : BitVec 12)
  /-- RECV (R294): Waits for a frame on the path and writes it to a buffer. -/
  | recv (q : BitVec 12)
  /-- WAIT (R294): Waits for a time, an empty path or a doorbell advance. -/
  | wait (q : BitVec 12)
  /-- SEAL (R349): Runs a sealing cipher job, building the WCP frame in mode 0. -/
  | seal (q : BitVec 12)
  /-- OPEN (R351): Runs an opening cipher job and releases plaintext only if the tag is true. -/
  | openStep (q : BitVec 12)
  /-- SQUEEZE (R362): Compresses the source into Worlon blocks. -/
  | squeeze (q : BitVec 12)
  /-- EXPAND (R368): Expands and verifies Worlon blocks. -/
  | expand (q : BitVec 12)
  /-- COPY (R294): Copies source to destination, truncating if needed. -/
  | copy (q : BitVec 12)
  /-- JUMP (R294): Continues the program at another step by condition. -/
  | jump (q : BitVec 12)
  /-- NOTIFY (R294): Posts a completion entry on the tailrace. -/
  | notify (q : BitVec 12)
  /-- MARK (R294): Writes a 32-byte mark record. -/
  | mark (q : BitVec 12)
  /-- TAILRACE_POLL (R287): The millrace rereads TRHEAD while the tailrace is full. -/
  | tailracePoll (q : BitVec 12)
  /-- TAG_GRANT (R299): A parked step waiting for a tag or store room is served. -/
  | tagGrant (q : BitVec 12)
  /-- CIPHER_JOB_START (R352): The hopper starts a waiting job on a free AES core. -/
  | cipherJobStart
  /-- CIPHER_JOB_END (R352): A cipher job finishes on its core. -/
  | cipherJobEnd (k : Fin 16)
  /-- COMPRESSION_JOB_START (R369): The millstone starts a waiting job on a free core. -/
  | compressionJobStart
  /-- COMPRESSION_JOB_END (R372): A compression job finishes on its core. -/
  | compressionJobEnd (k : Fin 8)
  /-- RECV_TIMEOUT (R294): A RECV deadline passes and the step ends TIMEOUT. -/
  | recvTimeout (q : BitVec 12)
  /-- WAIT_EXPIRY (R294): A WAIT step's time condition is met or its mode 2 limit passes. -/
  | waitExpiry (q : BitVec 12)
  /-- FRAME_RECEIVED (R284): A frame arriving on a lane is matched to a path or dropped. -/
  | frameReceived (ln : BitVec 8) (f : RxFrame)
  /-- DATA (R303): A received WCP DATA frame is checked, deduplicated and delivered. -/
  | data (n : BitVec 10) (f : List (BitVec 8))
  /-- ACK (R303): A received WCP ACK releases covered frames and their tags. -/
  | ack (n : BitVec 10) (f : List (BitVec 8))
  /-- SAFE (R303): A received WCP SAFE frame is handled as a data frame. -/
  | safe (n : BitVec 10) (f : List (BitVec 8))
  /-- SYNC (R305): A received SYNC sets or answers the path's epoch exchange. -/
  | sync (n : BitVec 10) (f : List (BitVec 8))
  /-- RETRANSMISSION_TIMEOUT (R302): The retransmission interval passes and unacknowledged frames are resent. -/
  | retransmissionTimeout (n : BitVec 10)
  /-- ACKDLY_EXPIRY (R304): The acknowledgement delay passes and an ACK is sent. -/
  | ackdlyExpiry (n : BitVec 10)
  /-- SYNC_REPEAT (R305): An unanswered SYNC is repeated every retransmission interval. -/
  | syncRepeat (n : BitVec 10)
  /-- EPOCH_RESERVATION_PROGRAM (R306): The miller programs a raised epoch reservation into flash. -/
  | epochReservationProgram
  /-- EPOCH_RESERVATION_END (R306): The reservation program completes and waiting epoch rises proceed. -/
  | epochReservationEnd
  /-- EGRESS_TRANSMIT_END (R298): A frame leaves or is discarded at the egress and its non-WCP tag returns. -/
  | egressTransmitEnd (ln : BitVec 8)
  /-- QUEUE_ABORT (R311): QUE_CMD.ABORT aborts a queue. -/
  | queueAbort (ag : Agent) (q : BitVec 12)
  /-- PATH_ABORT (R311): CHN_PATHCTL.ABORT aborts a path and raises its epoch. -/
  | pathAbort (ag : Agent) (n : BitVec 10)
  /-- ABORT_WORK_STOPPED (R311): Cancelled programs and jobs have stopped and the ABORTED completion is posted. -/
  | abortWorkStopped (tgt : AbortTarget)
  /-- LINK_LOSS (R322): A SerDes lane loses lock and LINK clears. -/
  | linkLoss (n : Fin 24)
  /-- LINK_UP (R322): A retrain completes and the lane is up. -/
  | linkUp (n : Fin 24)
  /-- RETRAIN (R322): LAN_CTL.RETRAIN starts a full retrain. -/
  | retrain (ag : Agent) (n : Fin 24)
  /-- LOOP (R323): A LAN_CTL.LOOP write selects a loopback unless a path names the lane. -/
  | loop (ag : Agent) (n : Fin 24) (v : BitVec 2)
  /-- PAUSE (R317): A received PAUSE frame is consumed by the MAC or dropped. -/
  | pause (n : Fin 24) (quanta : BitVec 16)
  /-- PTP_SET (R324): A write to TIM_PTP sets the PTP clock. -/
  | ptpSet (ag : Agent) (v : BitVec 64)
  /-- PTP_STEP (R324): A write to TIM_PTPSTEP adds a signed amount to the PTP clock. -/
  | ptpStep (ag : Agent) (v : BitVec 64)
  /-- TXTS_READ (R326): A read of LAN_TXTS removes the oldest timestamp entry. -/
  | txtsRead (ag : Agent) (n : Fin 24)
  /-- PPS_OUT_RISE (R327): PPS_OUT rises when TIM_PTP reaches a whole second. -/
  | ppsOutRise
  /-- PPS_OUT_FALL (R327): PPS_OUT falls after WIDTH us. -/
  | ppsOutFall
  /-- PPS_IN_EDGE (R327): A rising edge of PPS_IN captures both clocks and may raise an event. -/
  | ppsInEdge
  /-- TIM_PPS_WRITE (R339): A write to TIM_PPS with WIDTH 0 keeps WIDTH and counts a fault. -/
  | timPpsWrite (ag : Agent) (v : BitVec 64)
  /-- CAN_RETRANSMIT (R330): After lost arbitration or an error a CAN frame contends again or is dropped. -/
  | canRetransmit (n : Fin 64) (lostArb : Bool)
  /-- HDLC_TRANSMIT_START (R331): After IDLE character times of idle line the lane raises DE and sends. -/
  | hdlcTransmitStart (n : Fin 64)
  /-- ASYNC_FRAME_END (R332): A plain asynchronous frame ends after IDLE character times without a start bit. -/
  | asyncFrameEnd (n : Fin 64) (octets : List (BitVec 8)) (errs : BitVec 12)
  /-- BUSOFF (R338): A CAN lane enters bus-off and raises a contained fault. -/
  | busoff (n : Fin 64)
  /-- FLD_LOOP (R338): An FLD_CTL.LOOP write selects the internal loop. -/
  | fldLoop (ag : Agent) (n : Fin 64) (v : Bool)
  /-- UNWRAP (R345): A write of 1 to CPH_UNWRAP GO starts a key unwrap. -/
  | unwrap (ag : Agent) (p : BitVec 6) (v : BitVec 64)
  /-- UNWRAP_END (R345): The unwrap finishes and the slot is loaded or stays zeroised. -/
  | unwrapEnd (p : BitVec 6)
  /-- CLR (R342): A write of 1 to CPH_SLOT CLR zeroises the slot. -/
  | clr (ag : Agent) (n : BitVec 12)
  /-- SLOT_ASSIGN (R342): A manager write of OWNER or ASSIGNED zeroises the slot. -/
  | slotAssign (ag : Agent) (n : BitVec 12) (v : BitVec 64)
  /-- CIPHER_CORE_ERROR (R356): An AES core parity error restarts the job elsewhere or fails the core. -/
  | cipherCoreError (k : Fin 16)
  /-- CIPHER_CORE_OUT (R356): CPH_CORE OUT takes the core out after its current job. -/
  | cipherCoreOut (ag : Agent) (k : Fin 16) (v : Bool)
  /-- MILLSTONE_CORE_ERROR (R371): A millstone core parity error restarts the job or fails the core. -/
  | millstoneCoreError (k : Fin 8)
  /-- MILLSTONE_CORE_OUT (R371): MIL_CORE OUT takes the core out after its current job. -/
  | millstoneCoreOut (ag : Agent) (k : Fin 8) (v : Bool)
  /-- ARBITER_DECISION (R378): At the last beat a shaft arbiter grants the next request and recomputes hints. -/
  | arbiterDecision (a : Fin 11) (arrived : List (BitVec 7))
  /-- ARB_PORT_WRITE (R386): A write to ARB_PORT changes priority or weight under R385 and R386. -/
  | arbPortWrite (ag : Agent) (n : BitVec 7) (v : BitVec 64)
  /-- LONGEST_CLEAR (R387): ARB_LONG CLR sets LONGEST to 0. -/
  | longestClear (ag : Agent) (s : Fin 344)
  /-- START (R393): PRT_CTL START starts a stopped partition. -/
  | start (ag : Agent) (p : BitVec 6)
  /-- PARTITION_RESET (R396): PRT_CTL RESET removes and restarts a partition. -/
  | partitionReset (ag : Agent) (p : BitVec 6)
  /-- REMOVE (R395): PRT_CTL REMOVE stops a partition and frees its dynamic resources. -/
  | remove (ag : Agent) (p : BitVec 6)
  /-- PARTITION_STOPPED (R395): The partition's abort and handovers complete and it reaches STOPPED or restarts. -/
  | partitionStopped (p : BitVec 6)
  /-- SWAP (R400): PRT_LOGCTL SWAP switches the written-page log buffer. -/
  | swap (ag : Agent) (p : BitVec 6)
  /-- SWAP_DONE (R400): Pending bit settings finish, ACTIVE changes and BUSY clears. -/
  | swapDone (p : BitVec 6)
  /-- PRT_LOGCFG_WRITE (R399): Setting EN is refused unless both buffers lie in manager banks. -/
  | prtLogcfgWrite (ag : Agent) (p : BitVec 6) (v : BitVec 64)
  /-- CORRECTED_FAULT (R407): A corrected fault sets its bit and may start the GRACE0 timer. -/
  | correctedFault (src : Fin 20)
  /-- CONTAINED_FAULT (R408): A contained fault is attributed, notified, timed and moves the device to FAULT. -/
  | containedFault (src : Fin 20) (who : Attr) (triad : Option (Fin 32))
  /-- FATAL_FAULT (R411): A fatal fault sets the device brake. -/
  | fatalFault (src : Fin 20)
  /-- GRACE0_EXPIRY (R407): A corrected grace timer ends with its bit set and raises a contained fault. -/
  | grace0Expiry (src : Fin 20)
  /-- GRACE_EXPIRY (R410): A contained grace timer ends with its attribution set and escalates. -/
  | graceExpiry (src : Fin 20) (who : Attr)
  /-- FLT_ATTR_WRITE (R409): Writing 1 to an attribution bit ends it and stops its timer. -/
  | fltAttrWrite (ag : Agent) (src : Fin 20) (v : BitVec 64)
  /-- FLT_MATTR_WRITE (R409): Writing 1 to a manager attribution bit ends it. -/
  | fltMattrWrite (ag : Agent) (v : BitVec 64)
  /-- FLT_STATUS_WRITE (R406): Writing 1 to status bits clears them and their attributions. -/
  | fltStatusWrite (ag : Agent) (v : BitVec 64)
  /-- FLT_STATUS_READ (R405): A manager read returns the status and clears RECOVERED. -/
  | fltStatusRead (ag : Agent)
  /-- DEVICE_BRAKE (R412): FLT_BRAKE DEVICE sets the device brake and SAFE. -/
  | deviceBrake (ag : Agent)
  /-- PARTB (R412): FLT_BRAKE PARTB sets the brake of a partition. -/
  | partb (ag : Agent) (p : BitVec 6)
  /-- TRIADB (R412): FLT_BRAKE TRIADB sets the brake of a triad. -/
  | triadb (ag : Agent) (t : Fin 32)
  /-- SAFEHOLD_EXPIRY (R414): After SAFEHOLD ms the device-braked SerDes lanes send idle. -/
  | safeholdExpiry
  /-- QUIET_PERIOD_END (R416): The quiet period ends and the device returns to RUN or enters SAFE. -/
  | quietPeriodEnd
  /-- BRAKE_REQ (R420): BRAKE_REQ_N low for 1 us sets the device brake. -/
  | brakeReq
  /-- HEART (R435): A heartbeat message from the partner or ring neighbour is received. -/
  | heart (h : HeartMsg)
  /-- INPUT (R427): A forwarded received frame is consumed by the standby. -/
  | input (ln : BitVec 8) (path : BitVec 10) (f : RxFrame) (time : BitVec 64)
  /-- LEAT_EVENT (R427): A forwarded event is taken by the standby at count C. -/
  | leatEvent (t : Fin 32) (ev : BitVec 40) (count : BitVec 64)
  /-- LEAT_READ (R427): A forwarded agreed-read result is given to the standby's lanes. -/
  | leatRead (t : Fin 32) (rseq : BitVec 32) (v : BitVec 64) (err timebase : Bool)
  /-- INVAL (R427): Forwarded invalidations are applied at the same count. -/
  | inval (t : Fin 32) (count : BitVec 64) (lines : List (BitVec 34))
  /-- CHNDEC (R427): A forwarded channel decision is followed by the standby's millrace. -/
  | chndec (dec : ChnDec)
  /-- EXTW (R427): A forwarded host write or management command is performed at the same point. -/
  | extw (w : ExtWrite)
  /-- HORIZON (R428): A horizon lets the standby triad run up to a count. -/
  | horizon (t : Fin 32) (count : BitVec 64) (sent : BitVec 64)
  /-- JOURNAL (R432): The standby stores a mirrored commit entry as COPY and acknowledges it. -/
  | journal (e : List (BitVec 64))
  /-- JACK (R270): The partner's acknowledgement of a journal entry lets the commit publish. -/
  | jack (cseq : BitVec 64)
  /-- ODIGEST (R432): The standby compares the primary's output digest. -/
  | odigest (n : BitVec 10) (count : BitVec 64) (crc : BitVec 64)
  /-- PFAULT (R433): A standby's contained fault is raised on the primary in source 16. -/
  | pfault (src : Fin 20) (cls : BitVec 2)
  /-- HANDOVER (R442): A role swap message is received. -/
  | handover
  /-- REJOIN (R444): Copy traffic for a joining device is received. -/
  | rejoin (r : RejoinMsg)
  /-- RELAY (R446): A remote path frame is carried around the cascade ring. -/
  | relay (r : RelayMsg)
  /-- GLOBAL (R445): A cascade barrier, snapshot or reset message is received. -/
  | globalMsg (g : GlobalMsg)
  /-- HEARTBEAT_TIMER (R435): Every 2 us a device sends HEART if it is alive. -/
  | heartbeatTimer
  /-- WATCH_TOGGLE (R435): Every 1 us PAIR_WATCH_OUT toggles. -/
  | watchToggle
  /-- WATCH_EDGE (R435): An edge arrives on PAIR_WATCH_IN. -/
  | watchEdge
  /-- HORIZON_TIMER (R428): The primary sends a HORIZON per running triad at least every 1 us. -/
  | horizonTimer (t : Fin 32)
  /-- ODIGEST_TIMER (R432): The primary sends an output digest at least every 1 ms. -/
  | odigestTimer (n : BitVec 10)
  /-- CHANNEL_LOSS (R436): Nothing arrives on a channel for HBLOSS us and it is lost. -/
  | channelLoss (watch : Bool)
  /-- CATCH_UP_END (R437): The new primary has consumed all forwarded messages and turns to local operation. -/
  | catchUpEnd
  /-- LAG_EXCEEDED (R428): The standby's lag exceeds LAGMAX and it becomes DETACHED. -/
  | lagExceeded
  /-- OUTPUT_CUT (R438): 100 us after its last heartbeat a primary cuts all output. -/
  | outputCut
  /-- ROLE_SWAP (R442): PAR_CTL.HANDOVER starts a role swap. -/
  | roleSwap (ag : Agent)
  /-- SWAPINT_EXPIRY (R442): A role swap falls due every SWAPINT minutes. -/
  | swapintExpiry
  /-- DETACH (R450): PAR_CTL.DETACH detaches the partner and declares it lost. -/
  | detach (ag : Agent)
  /-- ADMIT (R444): PAR_CTL.ADMIT admits a rejoining partner. -/
  | admitStandby (ag : Agent)
  /-- RESETBOTH (R450): PAR_CTL.RESETBOTH warm-resets both devices. -/
  | resetboth (ag : Agent)
  /-- RESETALL (R450): CAS_CTL.RESETALL warm-resets every cascade device. -/
  | resetall (ag : Agent)
  /-- JOINWAIT_EXPIRY (R443): The wait for the partner at boot ends and the pair forms or not. -/
  | joinwaitExpiry
  /-- LEAT_LANE_LOSS (R425): A leat lane goes down. -/
  | leatLaneLoss (k : Fin 4)
  /-- RING_LINK_LOSS (R445): A cascade ring link has no heartbeat for 10 us. -/
  | ringLinkLoss (k : Fin 2)
  /-- SNAPSHOT (R447): SYS_SNAP.GO takes a consistent snapshot. -/
  | snapshot (ag : Agent) (v : BitVec 64)
  /-- PORST_N_RELEASE (R458): Release of PORST_N starts a cold boot. -/
  | porstNRelease (pins : BootPins)
  /-- PORST_N_ASSERT (R464): PORST_N low puts the device into cold reset. -/
  | porstNAssert
  /-- RESET_N (R465): RESET_N low triggers a warm device reset. -/
  | resetN
  /-- CFG_RESET (R469): CFG_CTL.RESET triggers a warm device reset. -/
  | cfgReset (ag : Agent)
  /-- DRAM_TRAINING_END (R220): DRAM port training ends, passing or fatal. -/
  | dramTrainingEnd (pass0 pass1 : Bool)
  /-- COPY_VERIFY_END (R457): A streamed image copy finishes verification and is used or rejected. -/
  | copyVerifyEnd
  /-- CONFIGURATION_LOAD_END (R458): Records are applied, journal handled and the device moves LOAD to TEST. -/
  | configurationLoadEnd
  /-- START_UP_TESTS_END (R458): Start-up tests end and the device enters RUN or FAULT. -/
  | startUpTestsEnd (res : StartUpResult)
  /-- ERASE (R462): CFG_STGCMD OP ERASE erases the unused slot. -/
  | erase (ag : Agent) (v : BitVec 64)
  /-- STAGE_WRITE (R462): CFG_STGCMD OP WRITE programs bytes into the slot. -/
  | stageWrite (ag : Agent) (v : BitVec 64)
  /-- FINISH (R462): CFG_STGCMD OP FINISH programs the held header and verifies the slot. -/
  | finish (ag : Agent) (v : BitVec 64)
  /-- STAGING_OPERATION_END (R462): A staging operation ends and RESULT is set. -/
  | stagingOperationEnd (ok : Bool)
  /-- FLIT_RECEIVE (R471): A UCIe flit arrives and is checked, acknowledged or replayed. -/
  | flitReceive (seq ack : BitVec 12) (crcOk : Bool) (bad : Bool)
  /-- HOST_LINK_DOWN (R479): The host link goes down and pending requests are discarded. -/
  | hostLinkDown (replayExhausted : Bool)
  /-- HOST_LINK_UP (R479): The host link retrains and pending HEVENT bits are sent again. -/
  | hostLinkUp (x16 : Bool)
  /-- REGRD (R474): A host register read is performed and completed. -/
  | regrd (tag : BitVec 8) (addr : BitVec 40)
  /-- REGWR (R475): A host register write is performed and completed. -/
  | regwr (tag : BitVec 8) (addr : BitVec 40) (v : BitVec 64)
  /-- MEMRD (R477): A host memory read through a host window. -/
  | memrd (tag : BitVec 8) (addr : BitVec 40) (len : BitVec 16)
  /-- MEMWR (R477): A posted host memory write through a host window. -/
  | memwr (addr : BitVec 40) (bytes : List (BitVec 8))
  /-- DOORBELL (R477): A host doorbell writes a host queue's DOORBELL word. -/
  | doorbell (q : BitVec 12) (v : BitVec 16)
  /-- INTR (R477): A host interrupt message makes a host vector event pending. -/
  | intr (t : Fin 32) (vec : BitVec 4) (pos : Fin 3)
  /-- CREDIT (R473): Returned credits let waiting messages be sent. -/
  | credit (posted nonPosted cplEvent : BitVec 16)
  /-- CREDIT_STALL (R473): No credit returns for 1 ms and STALL is raised. -/
  | creditStall
  /-- RESPONSE_READ (R480): An SPI transaction of type 0xA5 clocks out the oldest response. -/
  | responseRead
  /-- STATUS_POLL (R480): An SPI transaction of type 0x5A returns the port state. -/
  | statusPoll
  /-- STATUS (R483): Management command returning device state. -/
  | status (f : MgtFrame)
  /-- READ (R483): Management command reading device registers or the journal store. -/
  | read (f : MgtFrame)
  /-- WRITE (R483): Management command writing a device register. -/
  | write (f : MgtFrame)
  /-- FAULTS (R483): Management command returning and clearing fault status. -/
  | faults (f : MgtFrame)
  /-- BOOK (R483): Management command reading mill book bytes. -/
  | book (f : MgtFrame)
  /-- ABORT (R483): Management command aborting a queue, path or partition. -/
  | abort (f : MgtFrame)
  /-- BRAKE (R483): Management command setting a partition or device brake. -/
  | brake (f : MgtFrame)
  /-- RESET (R484): Management command resetting the device or a partition. -/
  | reset (f : MgtFrame)
  /-- STAGE (R483): Management command driving the staging engine. -/
  | stage (f : MgtFrame)
  /-- POWER_DOWN (R488): Clearing a SYS_PWRCTL REQ bit requests a domain power-down. -/
  | powerDown (ag : Agent) (d : Fin 30)
  /-- POWER_UP (R488): Setting a SYS_PWRCTL REQ bit requests a domain power-on. -/
  | powerUp (ag : Agent) (d : Fin 30)
  /-- POWER_TRANSITION_END (R487): A domain transition completes and BUSY clears. -/
  | powerTransitionEnd (d : Fin 30)
  /-- GO (R491): SYS_TEST GO queues a live test request. -/
  | go (ag : Agent) (k : Fin 16) (v : BitVec 64)
  /-- CANCEL (R499): SYS_TEST CANCEL cancels a queued test request. -/
  | cancel (ag : Agent) (k : Fin 16)
  /-- TEST_START (R491): A queued test starts when its target becomes free. -/
  | testStart (k : Fin 16)
  /-- TEST_END (R493): A live test ends passed or failed and its target returns. -/
  | testEnd (k : Fin 16) (pass : Bool) (detail : BitVec 32)
  /-- SAVE (R497): BOK_CTL.SAVE starts a mill book save. -/
  | save (ag : Agent)
  /-- BOOK_SAVE_INTERVAL (R497): A mill book save falls due every INTERVAL minutes. -/
  | bookSaveInterval
  /-- BOOK_SAVE_END (R497): A save's read-back ends, passing or retried. -/
  | bookSaveEnd (ok : Bool)
  /-- POWER_ON_SECOND (R495): Each second the mill book's time counters and histograms advance. -/
  | powerOnSecond
  /-- CORE_PG_FALL (R511): CORE_PG falls while PORST_N is high and a fatal fault is raised. -/
  | corePgFall
  /-- CORE_PG_RISE (R511): CORE_PG rises and a waiting configuration load proceeds. -/
  | corePgRise
  /-- THERMAL_SAMPLE (R520): The sensors are read every 100 us and THERM_N or a fatal fault follow. -/
  | thermalSample (temps : List (BitVec 8))
  /-- OVERTEMPERATURE (R520): TJ at or above 118 C for 1 ms raises a contained fault. -/
  | overtemperature
  /-- UNDEFINED_ENCODING (R87): An instruction with an undefined encoding is executed and raises ILLEGAL_INSTRUCTION. -/
  | undefinedEncoding (l : LaneId) (f : Form) (w : BitVec 32)
  /-- INSTRUCTION_FETCH_FAULT (R88): The fetch of an instruction, or of its second halfword, faults and raises a precise fetch exception. -/
  | instructionFetchFault (l : LaneId) (f : Form)
  /-- WAITTURN_SLEEP_END (R102): The sleep of WAITTURN for its estimated wait runs out and the instruction retires. -/
  | waitturnSleepEnd (l : LaneId)
  /-- PAUSE_END (R317): The pause time of a received PAUSE frame runs out and the SerDes lane resumes transmission, clearing PAUSED. -/
  | pauseEnd (n : Fin 24)
  /-- BUS_OFF_RECOVERY (R328): A CAN FD field lane completes automatic bus-off recovery and returns to error active. -/
  | busOffRecovery (n : Fin 64)
  /-- MEMORY_ACCESS_RESPONSE (R232): A memory-typed store is accepted by its bank or DRAM target, or an uncached load returns, completing the access. -/
  | memoryAccessResponse (l : LaneId)
  /-- TRANSFER_ENGINE_END (R280): A channel processor's transfer engine finishes moving data for a COPY or similar step and the step ends. -/
  | transferEngineEnd (q : BitVec 12)
  /-- REJOIN_COPY_END (R444): The primary finishes copying memory to a rejoining device and proceeds to the snapshot and STANDBY. -/
  | rejoinCopyEnd
  deriving DecidableEq, Repr

end Sys2Proof
end

