-- ==== Sys2Proof/Decode.lean ====
section
/-! DEFINITION. The Prenyx encodings of chapter 04, both ways, and the host's `decodeTableWord`. The block has no
instruction decoder of its own: commands name instructions. The encoding is needed where an exception stores the
instruction bits in `EVAL` (R79) and for UNDEFINED_ENCODING (R87). -/
namespace Sys2Proof

/-! ### Formats (R90) -/

/-- Format REG. -/
def encReg (opc fn c b a d : Nat) : Nat :=
  fn * 2 ^ 26 + c * 2 ^ 21 + b * 2 ^ 16 + a * 2 ^ 11 + d * 2 ^ 6 + 2 * opc + 1

/-- Format IMM. -/
def encImm (opc i a d : Nat) : Nat := i * 2 ^ 16 + a * 2 ^ 11 + d * 2 ^ 6 + 2 * opc + 1

/-- Format MEM, opcode LOAD. -/
def encMem (w off a d : Nat) : Nat :=
  off / 2 ^ 5 * 2 ^ 24 + w * 2 ^ 21 + off % 2 ^ 5 * 2 ^ 16 + a * 2 ^ 11 + d * 2 ^ 6 + 2 * 0x08 + 1

/-- Formats STO and BRA. -/
def encSto (opc w off b a : Nat) : Nat :=
  off / 2 ^ 5 * 2 ^ 24 + w * 2 ^ 21 + b * 2 ^ 16 + a * 2 ^ 11 + off % 2 ^ 5 * 2 ^ 6 + 2 * opc + 1

/-- `CACHE` (R106). -/
def encCache (op : Nat) (s : Scope) (ic : Bool) (a b : Nat) : Nat :=
  let sc := match s with | .address => 0 | .setWay => 1 | .range => 2
  op * 2 ^ 24 + sc * 2 ^ 22 + (if ic then 2 ^ 21 else 0) + b * 2 ^ 16 + a * 2 ^ 11 + 2 * 0x12 + 1

/-- The 16-bit `LD.W` and `ST.W` forms: through `sp` with the long offset where the base is `sp`, else with a register
base (R112). -/
def encHalfMem (opReg opSp d a o : Nat) : Nat :=
  if a = 30 then d * 2 ^ 12 + o / 4 % 2 ^ 7 * 2 ^ 5 + 2 * opSp
  else d * 2 ^ 12 + a % 16 * 2 ^ 8 + o / 4 % 2 ^ 3 * 2 ^ 5 + 2 * opReg

/-- The word (32-bit form) or halfword (16-bit form) of a Prenyx instruction; none for the other commands. -/
def encode : Instr → Option Nat
  | .add _ .full d a b => some (encReg 0x01 0 0 b.toNat a.toNat d.toNat)
  | .sub _ d a b => some (encReg 0x01 1 0 b.toNat a.toNat d.toNat)
  | .addc _ d a b => some (encReg 0x01 2 0 b.toNat a.toNat d.toNat)
  | .subc _ d a b => some (encReg 0x01 3 0 b.toNat a.toNat d.toNat)
  | .and _ d a b => some (encReg 0x01 4 0 b.toNat a.toNat d.toNat)
  | .or _ d a b => some (encReg 0x01 5 0 b.toNat a.toNat d.toNat)
  | .xor _ d a b => some (encReg 0x01 6 0 b.toNat a.toNat d.toNat)
  | .shl _ d a b => some (encReg 0x01 7 0 b.toNat a.toNat d.toNat)
  | .shr _ d a b => some (encReg 0x01 8 0 b.toNat a.toNat d.toNat)
  | .shra _ d a b => some (encReg 0x01 9 0 b.toNat a.toNat d.toNat)
  | .setlt _ d a b => some (encReg 0x01 10 0 b.toNat a.toNat d.toNat)
  | .setltu _ d a b => some (encReg 0x01 11 0 b.toNat a.toNat d.toNat)
  | .mul _ d a b => some (encReg 0x01 16 0 b.toNat a.toNat d.toNat)
  | .mulhs _ d a b => some (encReg 0x01 17 0 b.toNat a.toNat d.toNat)
  | .mulhu _ d a b => some (encReg 0x01 18 0 b.toNat a.toNat d.toNat)
  | .mulw _ d a b => some (encReg 0x01 19 0 b.toNat a.toNat d.toNat)
  | .mulwu _ d a b => some (encReg 0x01 20 0 b.toNat a.toNat d.toNat)
  | .div _ d a b => some (encReg 0x01 24 0 b.toNat a.toNat d.toNat)
  | .divu _ d a b => some (encReg 0x01 25 0 b.toNat a.toNat d.toNat)
  | .rem _ d a b => some (encReg 0x01 26 0 b.toNat a.toNat d.toNat)
  | .remu _ d a b => some (encReg 0x01 27 0 b.toNat a.toNat d.toNat)
  | .mov _ .full d a => some (encReg 0x01 12 0 0 a.toNat d.toNat)
  | .clz _ d a => some (encReg 0x01 13 0 0 a.toNat d.toNat)
  | .shlImmediate _ d a n => some (encReg 0x02 7 0 n.toNat a.toNat d.toNat)
  | .shrImmediate _ d a n => some (encReg 0x02 8 0 n.toNat a.toNat d.toNat)
  | .shraImmediate _ d a n => some (encReg 0x02 9 0 n.toNat a.toNat d.toNat)
  | .addi _ .full d a i => some (encImm 0x03 i.toNat a.toNat d.toNat)
  | .andi _ d a i => some (encImm 0x04 i.toNat a.toNat d.toNat)
  | .ori _ d a i => some (encImm 0x05 i.toNat a.toNat d.toNat)
  | .xori _ d a i => some (encImm 0x06 i.toNat a.toNat d.toNat)
  | .lhi _ d u => some (u.toNat * 2 ^ 11 + d.toNat * 2 ^ 6 + 2 * 0x07 + 1)
  | .ldB _ d a o => some (encMem 0 o.toNat a.toNat d.toNat)
  | .ldH _ d a o => some (encMem 1 o.toNat a.toNat d.toNat)
  | .ldD _ d a o => some (encMem 3 o.toNat a.toNat d.toNat)
  | .ldBu _ d a o => some (encMem 4 o.toNat a.toNat d.toNat)
  | .ldHu _ d a o => some (encMem 5 o.toNat a.toNat d.toNat)
  | .ldF _ d a o => some (encMem 6 o.toNat a.toNat d.toNat)
  | .ldW _ .full d a o => some (encMem 2 o.toNat a.toNat d.toNat)
  | .stB _ b a o => some (encSto 0x09 0 o.toNat b.toNat a.toNat)
  | .stH _ b a o => some (encSto 0x09 1 o.toNat b.toNat a.toNat)
  | .stD _ b a o => some (encSto 0x09 3 o.toNat b.toNat a.toNat)
  | .stF _ b a o => some (encSto 0x09 6 o.toNat b.toNat a.toNat)
  | .stW _ .full b a o => some (encSto 0x09 2 o.toNat b.toNat a.toNat)
  | .brEq _ a b o => some (encSto 0x0A 0 o.toNat b.toNat a.toNat)
  | .brNe _ a b o => some (encSto 0x0A 1 o.toNat b.toNat a.toNat)
  | .brLt _ a b o => some (encSto 0x0A 2 o.toNat b.toNat a.toNat)
  | .brGe _ a b o => some (encSto 0x0A 3 o.toNat b.toNat a.toNat)
  | .brLtu _ a b o => some (encSto 0x0A 4 o.toNat b.toNat a.toNat)
  | .brGeu _ a b o => some (encSto 0x0A 5 o.toNat b.toNat a.toNat)
  | .brZ _ .full a o => some (encSto 0x0A 6 o.toNat 0 a.toNat)
  | .brNz _ .full a o => some (encSto 0x0A 7 o.toNat 0 a.toNat)
  | .jmp _ o => some (o.toNat * 2 ^ 6 + 2 * 0x0B + 1)
  | .call _ o => some (o.toNat * 2 ^ 6 + 2 * 0x0C + 1)
  | .jmpr _ a => some (encReg 0x0D 0 0 0 a.toNat 0)
  | .callr _ a => some (encReg 0x0D 1 0 0 a.toNat 0)
  | .ret _ .full => some (encReg 0x0D 2 0 0 0 0)
  | .callm _ t m => some (m.toNat * 2 ^ 16 + t.toNat * 2 ^ 6 + 2 * 0x0E + 1)
  | .retm _ m => some (m.toNat * 2 ^ 16 + 2 ^ 11 + 2 * 0x0E + 1)
  | .trap _ .full n => some (n.toNat * 2 ^ 16 + 2 * 0x0F + 1)
  | .xret _ => some (encReg 0x0F 1 0 0 0 0)
  | .brk _ => some (encReg 0x0F 2 0 0 0 0)
  | .waitev _ => some (encReg 0x0F 3 0 0 0 0)
  | .waitturn _ d => some (encReg 0x0F 4 0 0 0 d.toNat)
  | .sample _ d s => some (encReg 0x0F 5 0 s.toNat 0 d.toNat)
  | .crd _ d n => some (n.toNat * 2 ^ 20 + d.toNat * 2 ^ 6 + 2 * 0x10 + 1)
  | .cwr _ n a => some (n.toNat * 2 ^ 20 + 2 ^ 16 + a.toNat * 2 ^ 11 + 2 * 0x10 + 1)
  | .fenceSl _ => some (encReg 0x11 0 0 0 0 0)
  | .fenceD _ => some (encReg 0x11 1 0 0 0 0)
  | .fenceAll _ => some (encReg 0x11 2 0 0 0 0)
  | .fenceI _ => some (encReg 0x11 3 0 0 0 0)
  | .barwait _ g => some (encReg 0x11 4 0 0 g.toNat 0)
  | .cacheClean _ s ic a b => some (encCache 1 s ic a.toNat b.toNat)
  | .cacheInvalidate _ s ic a b => some (encCache 2 s ic a.toNat b.toNat)
  | .cacheCleanInvalidate _ s ic a b => some (encCache 3 s ic a.toNat b.toNat)
  | .tlbinvAddress _ a => some (encReg 0x12 1 0 0 a.toNat 0)
  | .tlbinvAddressSpace _ a => some (encReg 0x12 1 8 0 a.toNat 0)
  | .tlbinvAll _ => some (encReg 0x12 1 16 0 0 0)
  | .tlbinvWalkCache _ => some (encReg 0x12 1 24 0 0 0)
  | .tbegin _ x => some (x.toNat * 2 ^ 11 + 2 * 0x13 + 1)
  | .tend _ => some (1 * 2 ^ 26 + 2 * 0x13 + 1)
  | .tabort _ c => some (2 * 2 ^ 26 + c.toNat * 2 ^ 11 + 2 * 0x13 + 1)
  | .tstat _ d => some (3 * 2 ^ 26 + d.toNat * 2 ^ 6 + 2 * 0x13 + 1)
  | .fadd _ d a b => some (encReg 0x14 0 0 b.toNat a.toNat d.toNat)
  | .fsub _ d a b => some (encReg 0x14 1 0 b.toNat a.toNat d.toNat)
  | .fmul _ d a b => some (encReg 0x14 2 0 b.toNat a.toNat d.toNat)
  | .fdiv _ d a b => some (encReg 0x14 3 0 b.toNat a.toNat d.toNat)
  | .fminn _ d a b => some (encReg 0x14 5 0 b.toNat a.toNat d.toNat)
  | .fmaxn _ d a b => some (encReg 0x14 6 0 b.toNat a.toNat d.toNat)
  | .fcopysign _ d a b => some (encReg 0x14 7 0 b.toNat a.toNat d.toNat)
  | .fnegsign _ d a b => some (encReg 0x14 8 0 b.toNat a.toNat d.toNat)
  | .fxorsign _ d a b => some (encReg 0x14 9 0 b.toNat a.toNat d.toNat)
  | .fcmpEq _ d a b => some (encReg 0x14 10 0 b.toNat a.toNat d.toNat)
  | .fcmpLt _ d a b => some (encReg 0x14 11 0 b.toNat a.toNat d.toNat)
  | .fcmpLe _ d a b => some (encReg 0x14 12 0 b.toNat a.toNat d.toNat)
  | .fsqrt _ d a => some (encReg 0x14 4 0 0 a.toNat d.toNat)
  | .fclass _ d a => some (encReg 0x14 13 0 0 a.toNat d.toNat)
  | .ftoi _ d a => some (encReg 0x14 14 0 0 a.toNat d.toNat)
  | .ftou _ d a => some (encReg 0x14 15 0 0 a.toNat d.toNat)
  | .itof _ d a => some (encReg 0x14 16 0 0 a.toNat d.toNat)
  | .utof _ d a => some (encReg 0x14 17 0 0 a.toNat d.toNat)
  | .fmovg _ d a => some (encReg 0x14 18 0 0 a.toNat d.toNat)
  | .gmovf _ d a => some (encReg 0x14 19 0 0 a.toNat d.toNat)
  | .fmadd _ d a b c => some (encReg 0x15 0 c.toNat b.toNat a.toNat d.toNat)
  | .fmsub _ d a b c => some (encReg 0x15 1 c.toNat b.toNat a.toNat d.toNat)
  | .fnmadd _ d a b c => some (encReg 0x15 2 c.toNat b.toNat a.toNat d.toNat)
  | .mov _ .half d a => some (d.toNat * 2 ^ 12 + a.toNat * 2 ^ 8)
  | .add _ .half d _ b => some (d.toNat * 2 ^ 12 + b.toNat * 2 ^ 8 + 2 * 0x1)
  | .addi _ .half d _ i => some (if d = 30 then i.toNat / 4 % 2 ^ 11 * 2 ^ 5 + 2 * 0x3 else d.toNat * 2 ^ 12 + i.toNat % 2 ^ 7 * 2 ^ 5 + 2 * 0x2)
  | .ldW _ .half d a o => some (encHalfMem 0x4 0x6 d.toNat a.toNat o.toNat)
  | .stW _ .half b a o => some (encHalfMem 0x5 0x7 b.toNat a.toNat o.toNat)
  | .brZ _ .half a o => some (a.toNat * 2 ^ 12 + o.toNat % 2 ^ 7 * 2 ^ 5 + 2 * 0x8)
  | .brNz _ .half a o => some (a.toNat * 2 ^ 12 + o.toNat % 2 ^ 7 * 2 ^ 5 + 2 * 0x9)
  | .ret _ .half => some (2 * 0xA)
  | .trap _ .half n => some (n.toNat * 2 ^ 8 + 2 * 0xB)
  | _ => none

/-- The instruction bits of a command, 0 for a command that is no Prenyx instruction. -/
def instrBits (i : Instr) : Nat := (encode i).getD 0

/-! ### Fields -/

/-- Bits [hi:lo] of a word. -/
def bitsOf (w hi lo : Nat) : Nat := w / 2 ^ lo % 2 ^ (hi + 1 - lo)

/-- A register field at bit `lo`. -/
def regAt (w lo : Nat) : Reg := BitVec.ofNat 5 (w / 2 ^ lo)

/-- The offset of format MEM. -/
def offMem (w : Nat) : BitVec 13 := BitVec.ofNat 13 (bitsOf w 31 24 * 32 + bitsOf w 20 16)

/-- The offset of formats STO and BRA. -/
def offSto (w : Nat) : BitVec 13 := BitVec.ofNat 13 (bitsOf w 31 24 * 32 + bitsOf w 10 6)

/-! ### 32-bit decoding (R91 to R111); every field marked 0 is checked (R87) -/

/-- OPC 0x01 (R93). -/
def decOp (l : LaneId) (w : Nat) : Option Instr :=
  let d := regAt w 6; let a := regAt w 11; let b := regAt w 16
  if bitsOf w 25 21 ≠ 0 then none else
  match bitsOf w 31 26 with
  | 0 => some (.add l .full d a b)
  | 1 => some (.sub l d a b)
  | 2 => some (.addc l d a b)
  | 3 => some (.subc l d a b)
  | 4 => some (.and l d a b)
  | 5 => some (.or l d a b)
  | 6 => some (.xor l d a b)
  | 7 => some (.shl l d a b)
  | 8 => some (.shr l d a b)
  | 9 => some (.shra l d a b)
  | 10 => some (.setlt l d a b)
  | 11 => some (.setltu l d a b)
  | 16 => some (.mul l d a b)
  | 17 => some (.mulhs l d a b)
  | 18 => some (.mulhu l d a b)
  | 19 => some (.mulw l d a b)
  | 20 => some (.mulwu l d a b)
  | 24 => some (.div l d a b)
  | 25 => some (.divu l d a b)
  | 26 => some (.rem l d a b)
  | 27 => some (.remu l d a b)
  | 12 => if b = 0 then some (.mov l .full d a) else none
  | 13 => if b = 0 then some (.clz l d a) else none
  | _ => none

/-- OPC 0x02 (R94). -/
def decShi (l : LaneId) (w : Nat) : Option Instr :=
  let d := regAt w 6; let a := regAt w 11; let n := regAt w 16
  if bitsOf w 25 21 ≠ 0 then none else
  match bitsOf w 31 26 with
  | 7 => some (.shlImmediate l d a n)
  | 8 => some (.shrImmediate l d a n)
  | 9 => some (.shraImmediate l d a n)
  | _ => none

/-- OPC 0x08 (R96). -/
def decLoad (l : LaneId) (w : Nat) : Option Instr :=
  let d := regAt w 6; let a := regAt w 11; let o := offMem w
  match bitsOf w 23 21 with
  | 2 => some (.ldW l .full d a o)
  | 0 => some (.ldB l d a o)
  | 1 => some (.ldH l d a o)
  | 3 => some (.ldD l d a o)
  | 4 => some (.ldBu l d a o)
  | 5 => some (.ldHu l d a o)
  | 6 => some (.ldF l d a o)
  | _ => none

/-- OPC 0x09 (R96). -/
def decStore (l : LaneId) (w : Nat) : Option Instr :=
  let b := regAt w 16; let a := regAt w 11; let o := offSto w
  match bitsOf w 23 21 with
  | 2 => some (.stW l .full b a o)
  | 0 => some (.stB l b a o)
  | 1 => some (.stH l b a o)
  | 3 => some (.stD l b a o)
  | 6 => some (.stF l b a o)
  | _ => none

/-- OPC 0x0A (R97). -/
def decBranch (l : LaneId) (w : Nat) : Option Instr :=
  let b := regAt w 16; let a := regAt w 11; let o := offSto w
  match bitsOf w 23 21 with
  | 0 => some (.brEq l a b o)
  | 1 => some (.brNe l a b o)
  | 2 => some (.brLt l a b o)
  | 3 => some (.brGe l a b o)
  | 4 => some (.brLtu l a b o)
  | 5 => some (.brGeu l a b o)
  | 6 => if b = 0 then some (.brZ l .full a o) else none
  | 7 => if b = 0 then some (.brNz l .full a o) else none
  | _ => none

/-- OPC 0x0D (R98). -/
def decJr (l : LaneId) (w : Nat) : Option Instr :=
  if bitsOf w 25 16 ≠ 0 ∨ bitsOf w 10 6 ≠ 0 then none else
  match bitsOf w 31 26 with
  | 0 => some (.jmpr l (regAt w 11))
  | 1 => some (.callr l (regAt w 11))
  | 2 => if bitsOf w 15 11 = 0 then some (.ret l .full) else none
  | _ => none

/-- OPC 0x0E (R99); the reserved mask bits are checked when the instruction runs, since an odd target comes first (R78). -/
def decMstk (l : LaneId) (w : Nat) : Option Instr :=
  if bitsOf w 15 12 ≠ 0 then none
  else if bitsOf w 11 11 = 0 then some (.callm l (regAt w 6) (BitVec.ofNat 16 (bitsOf w 31 16)))
  else if bitsOf w 10 6 = 0 then some (.retm l (BitVec.ofNat 16 (bitsOf w 31 16)))
  else none

/-- OPC 0x0F (R100). -/
def decSys (l : LaneId) (w : Nat) : Option Instr :=
  match bitsOf w 31 26 with
  | 0 => if bitsOf w 25 24 = 0 ∧ bitsOf w 15 6 = 0 then some (.trap l .full (BitVec.ofNat 8 (bitsOf w 23 16))) else none
  | 1 => if bitsOf w 25 6 = 0 then some (.xret l) else none
  | 2 => if bitsOf w 25 6 = 0 then some (.brk l) else none
  | 3 => if bitsOf w 25 6 = 0 then some (.waitev l) else none
  | 4 => if bitsOf w 25 11 = 0 then some (.waitturn l (regAt w 6)) else none
  | 5 => if bitsOf w 25 21 = 0 ∧ bitsOf w 15 11 = 0 then some (.sample l (regAt w 6) (regAt w 16)) else none
  | _ => none

/-- OPC 0x10 (R104). -/
def decCsr (l : LaneId) (w : Nat) : Option Instr :=
  let n := BitVec.ofNat 12 (bitsOf w 31 20)
  match bitsOf w 19 16 with
  | 0 => if bitsOf w 15 11 = 0 then some (.crd l (regAt w 6) n) else none
  | 1 => if bitsOf w 10 6 = 0 then some (.cwr l n (regAt w 11)) else none
  | _ => none

/-- OPC 0x11 (R105). -/
def decOrd (l : LaneId) (w : Nat) : Option Instr :=
  if bitsOf w 25 16 ≠ 0 ∨ bitsOf w 10 6 ≠ 0 then none else
  match bitsOf w 31 26 with
  | 0 => if bitsOf w 15 11 = 0 then some (.fenceSl l) else none
  | 1 => if bitsOf w 15 11 = 0 then some (.fenceD l) else none
  | 2 => if bitsOf w 15 11 = 0 then some (.fenceAll l) else none
  | 3 => if bitsOf w 15 11 = 0 then some (.fenceI l) else none
  | 4 => if bitsOf w 15 15 = 0 then some (.barwait l (BitVec.ofNat 4 (bitsOf w 14 11))) else none
  | _ => none

/-- `CACHE` of OPC 0x12 (R106); operation 0b01 with SEL 1, and register operands out of range, raise
`ILLEGAL_INSTRUCTION` when the instruction executes. -/
def decCache (l : LaneId) (w : Nat) : Option Instr :=
  let a := regAt w 11; let b := regAt w 16; let ic := bitsOf w 21 21 == 1
  if bitsOf w 10 6 ≠ 0 then none else
  match (match bitsOf w 23 22 with
    | 0 => if b = 0 then some Scope.address else none
    | 1 => if b = 0 then some Scope.setWay else none
    | 2 => some Scope.range
    | _ => none) with
  | none => none
  | some s => match bitsOf w 25 24 with
    | 1 => some (.cacheClean l s ic a b)
    | 2 => some (.cacheInvalidate l s ic a b)
    | 3 => some (.cacheCleanInvalidate l s ic a b)
    | _ => none

/-- `TLBINV` of OPC 0x12 (R107). -/
def decTlbinv (l : LaneId) (w : Nat) : Option Instr :=
  if bitsOf w 23 16 ≠ 0 ∨ bitsOf w 10 6 ≠ 0 then none else
  match bitsOf w 25 24 with
  | 0 => some (.tlbinvAddress l (regAt w 11))
  | 1 => some (.tlbinvAddressSpace l (regAt w 11))
  | 2 => if bitsOf w 15 11 = 0 then some (.tlbinvAll l) else none
  | _ => if bitsOf w 15 11 = 0 then some (.tlbinvWalkCache l) else none

/-- OPC 0x13 (R108). -/
def decTx (l : LaneId) (w : Nat) : Option Instr :=
  match bitsOf w 31 26 with
  | 0 => if bitsOf w 10 6 = 0 then some (.tbegin l (BitVec.ofNat 15 (bitsOf w 25 11))) else none
  | 1 => if bitsOf w 25 6 = 0 then some (.tend l) else none
  | 2 => if bitsOf w 25 19 = 0 ∧ bitsOf w 10 6 = 0 then some (.tabort l (BitVec.ofNat 8 (bitsOf w 18 11))) else none
  | 3 => if bitsOf w 25 11 = 0 then some (.tstat l (regAt w 6)) else none
  | _ => none

/-- OPC 0x14 (R110). -/
def decFp (l : LaneId) (w : Nat) : Option Instr :=
  let d := regAt w 6; let a := regAt w 11; let b := regAt w 16
  if bitsOf w 25 21 ≠ 0 then none else
  match bitsOf w 31 26 with
  | 0 => some (.fadd l d a b)
  | 1 => some (.fsub l d a b)
  | 2 => some (.fmul l d a b)
  | 3 => some (.fdiv l d a b)
  | 5 => some (.fminn l d a b)
  | 6 => some (.fmaxn l d a b)
  | 7 => some (.fcopysign l d a b)
  | 8 => some (.fnegsign l d a b)
  | 9 => some (.fxorsign l d a b)
  | 10 => some (.fcmpEq l d a b)
  | 11 => some (.fcmpLt l d a b)
  | 12 => some (.fcmpLe l d a b)
  | 4 => if b = 0 then some (.fsqrt l d a) else none
  | 13 => if b = 0 then some (.fclass l d a) else none
  | 14 => if b = 0 then some (.ftoi l d a) else none
  | 15 => if b = 0 then some (.ftou l d a) else none
  | 16 => if b = 0 then some (.itof l d a) else none
  | 17 => if b = 0 then some (.utof l d a) else none
  | 18 => if b = 0 then some (.fmovg l d a) else none
  | 19 => if b = 0 then some (.gmovf l d a) else none
  | _ => none

/-- OPC 0x15 (R111). -/
def decFma (l : LaneId) (w : Nat) : Option Instr :=
  let d := regAt w 6; let a := regAt w 11; let b := regAt w 16; let c := regAt w 21
  match bitsOf w 31 26 with
  | 0 => some (.fmadd l d a b c)
  | 1 => some (.fmsub l d a b c)
  | 2 => some (.fnmadd l d a b c)
  | _ => none

/-- The 32-bit instruction of a word, with lane `l` as its lane (R86 to R111). -/
def decodeWord (l : LaneId) (w : Nat) : Option Instr :=
  if w % 2 = 0 ∨ w ≥ 2 ^ 32 then none else
  match bitsOf w 5 1 with
  | 0x01 => decOp l w
  | 0x02 => decShi l w
  | 0x03 => some (.addi l .full (regAt w 6) (regAt w 11) (BitVec.ofNat 16 (bitsOf w 31 16)))
  | 0x04 => some (.andi l (regAt w 6) (regAt w 11) (BitVec.ofNat 16 (bitsOf w 31 16)))
  | 0x05 => some (.ori l (regAt w 6) (regAt w 11) (BitVec.ofNat 16 (bitsOf w 31 16)))
  | 0x06 => some (.xori l (regAt w 6) (regAt w 11) (BitVec.ofNat 16 (bitsOf w 31 16)))
  | 0x07 => some (.lhi l (regAt w 6) (BitVec.ofNat 21 (bitsOf w 31 11)))
  | 0x08 => decLoad l w
  | 0x09 => decStore l w
  | 0x0A => decBranch l w
  | 0x0B => some (.jmp l (BitVec.ofNat 26 (bitsOf w 31 6)))
  | 0x0C => some (.call l (BitVec.ofNat 26 (bitsOf w 31 6)))
  | 0x0D => decJr l w
  | 0x0E => decMstk l w
  | 0x0F => decSys l w
  | 0x10 => decCsr l w
  | 0x11 => decOrd l w
  | 0x12 => match bitsOf w 31 26 with
    | 0 => decCache l w
    | 1 => decTlbinv l w
    | _ => none
  | 0x13 => decTx l w
  | 0x14 => decFp l w
  | 0x15 => decFma l w
  | _ => none

/-! ### 16-bit decoding (R112) -/

/-- A 4-bit register field naming g0 to g15. -/
def reg4 (h lo : Nat) : Reg := BitVec.ofNat 5 (h / 2 ^ lo % 16)

/-- The base register of the 16-bit memory forms: 0 names `sp`. -/
def base4 (h : Nat) : Reg := if h / 2 ^ 8 % 16 = 0 then 30 else reg4 h 8

/-- A 7-bit signed field at bit 5. -/
def sx7 (h : Nat) : BitVec 7 := BitVec.ofNat 7 (h / 2 ^ 5)

/-- The 16-bit instruction of a halfword (R112); 0x0000 is undefined (R87). -/
def decodeHalf (l : LaneId) (h : Nat) : Option Instr :=
  if h % 2 = 1 ∨ h = 0 ∨ h ≥ 2 ^ 16 then none else
  match bitsOf h 4 1 with
  | 0x0 => if bitsOf h 7 5 = 0 then some (.mov l .half (reg4 h 12) (reg4 h 8)) else none
  | 0x1 => if bitsOf h 7 5 = 0 then some (.add l .half (reg4 h 12) (reg4 h 12) (reg4 h 8)) else none
  | 0x2 => some (.addi l .half (reg4 h 12) (reg4 h 12) ((sx7 h).signExtend 16))
  | 0x3 => some (.addi l .half 30 30 ((BitVec.ofNat 13 (bitsOf h 15 5 * 4)).signExtend 16))
  | 0x4 => some (.ldW l .half (reg4 h 12) (base4 h) (BitVec.ofNat 13 (bitsOf h 7 5 * 4)))
  | 0x5 => some (.stW l .half (reg4 h 12) (base4 h) (BitVec.ofNat 13 (bitsOf h 7 5 * 4)))
  | 0x6 => some (.ldW l .half (reg4 h 12) 30 (BitVec.ofNat 13 (bitsOf h 11 5 * 4)))
  | 0x7 => some (.stW l .half (reg4 h 12) 30 (BitVec.ofNat 13 (bitsOf h 11 5 * 4)))
  | 0x8 => some (.brZ l .half (reg4 h 12) ((sx7 h).signExtend 13))
  | 0x9 => some (.brNz l .half (reg4 h 12) ((sx7 h).signExtend 13))
  | 0xA => if bitsOf h 15 5 = 0 then some (.ret l .half) else none
  | 0xB => if bitsOf h 7 5 = 0 then some (.trap l .half (BitVec.ofNat 8 (bitsOf h 15 8))) else none
  | _ => none

/-- The instruction of an encoding of the given length. -/
def decodePrenyx (l : LaneId) (f : Form) (w : Nat) : Option Instr :=
  match f with
  | .half => decodeHalf l w
  | .full => decodeWord l w

/-- The host's question: the opcode table of this block gives no row any bits, so a word spells no command. -/
def decodeTableWord (_nbits _w : Nat) : Option Instr := none

end Sys2Proof
end

