-- ==== Sys2Proof/Machine/Tab.lean ====
section
/-! DEFINITION. Sparse tables: a list of (key, value) pairs, keys rising, over a default for unlisted keys. Memory,
the device registers and every numbered unit of the block (lanes, queues, paths, ...) are held so. -/
namespace Sys2Proof.Machine

/-- A sparse table with natural-number keys. -/
abbrev Tab (α : Type) := List (Nat × α)

namespace Tab
variable {α : Type}

/-- The value at `k`, or the default `d` where `k` is not listed. -/
def get (d : α) : Tab α → Nat → α
  | [], _ => d
  | (k', v) :: r, k => if k = k' then v else get d r k

/-- The table with `v` at `k`. -/
def set : Tab α → Nat → α → Tab α
  | [], k, v => [(k, v)]
  | (k', v') :: r, k, v =>
    if k < k' then (k, v) :: (k', v') :: r
    else if k = k' then (k, v) :: r
    else (k', v') :: set r k v

/-- The table with `k` unlisted. -/
def erase (t : Tab α) (k : Nat) : Tab α := t.filter (fun e => e.1 != k)

/-- The table with `v` at `k`, in canonical form: the default `d` is not listed. -/
def put [DecidableEq α] (d : α) (t : Tab α) (k : Nat) (v : α) : Tab α :=
  if v = d then t.erase k else t.set k v

/-- The table with `f` applied to the value at `k`. -/
def upd (d : α) (t : Tab α) (k : Nat) (f : α → α) : Tab α := t.set k (f (t.get d k))

/-- The table with every entry whose key satisfies `p` unlisted. -/
def dropKeys (t : Tab α) (p : Nat → Bool) : Tab α := t.filter (fun e => !p e.1)

/-- The listed keys. -/
def keys (t : Tab α) : List Nat := t.map Prod.fst

/-- Strictly rising keys. -/
def sorted : Tab α → Bool
  | [] => true
  | [_] => true
  | (a, _) :: (b, y) :: r => decide (a < b) && sorted ((b, y) :: r)

/-- The canonical form: keys strictly rising, no entry equal to the default. -/
def wf [DecidableEq α] (d : α) (t : Tab α) : Bool := t.sorted && t.all (fun e => e.2 != d)

end Tab
end Sys2Proof.Machine
end

