-- ==== Sys2Proof/Machine/ChannelTypes.lean ====
section
/-! DEFINITION. The state of the millrace, the lanes, the cipher engine and the millstone that no register shows
(chapters 12 to 15). -/
namespace Sys2Proof.Machine

/-- A step of a channel program (R293). -/
structure PStep where
  op : Nat
  param : Nat
  qpath : Bool
  pathNo : Nat
  dsel : Nat
  ssel : Nat
  last : Bool
  addr : Nat
  len : Nat
  aux : Nat
  deriving DecidableEq, Repr

/-- What a completion reports of a step (R289). -/
structure Rep where
  status : Nat := 0
  step : Nat := 0
  path : Nat := 0
  len : Nat := 0
  time : Nat := 0
  epoch : Nat := 0
  flags : Nat := 0
  seq : Nat := 0
  deriving DecidableEq, Repr

/-- A completion not yet written (R289, R292). -/
structure Comp where
  gen : Nat
  id : Nat
  rep : Rep
  noEvent : Bool := false
  deriving DecidableEq, Repr

/-- The staging buffer as the next step finds it (R295): the octets, the operation that wrote them, its path, and the
sequence number of a WCP frame. -/
structure Staged where
  bytes : List Byte
  op : Nat
  path : Nat
  seq : Option Nat := none
  deriving DecidableEq, Repr

/-- A received frame as a RECV takes it: what is written, its time, and the fields of its completion (R289, R326, R333). -/
structure RxItem where
  bytes : List Byte
  time : Nat
  epoch : Nat := 0
  flags : Nat := 0
  seq : Nat := 0
  /-- the PTP timestamp of an event message (R326) -/
  ptp : Option DWord := none
  deriving DecidableEq, Repr

/-- Where the current step of a program stands. -/
inductive Phase where
  /-- not started -/
  | ready
  /-- parked for a tag or for room in the retransmission store (R299) -/
  | tag
  /-- a RECV parked since a time -/
  | recv (since : Nat)
  /-- a WAIT: mode, start, end (0 none) -/
  | wait (mode start till : Nat)
  /-- a cipher or compression job is waiting or running -/
  | job
  /-- the transfer engine moves data -/
  | moving
  /-- the program has ended or runs a NOTIFY, and its completion waits for room in the tailrace -/
  | posting (ends : Bool)
  deriving DecidableEq, Repr

/-- A running program: its headrace entry and its step (R279, R288). -/
structure Prog where
  gen : Nat
  id : Nat
  buf0 : Nat
  len0 : Nat
  buf1 : Nat
  len1 : Nat
  aux0 : Nat
  base : Nat
  pc : Nat
  /-- steps run, the current one included -/
  count : Nat := 1
  cur : PStep
  phase : Phase := .ready
  prevOk : Bool := true
  /-- the last step other than a JUMP (R294) -/
  last : Option Rep := none
  stage : Option Staged := none
  /-- the frame a RECV on a CMP path expands (R367) -/
  rx : Option RxItem := none
  /-- leat messages the standby must have acknowledged before a frame of this program leaves (R430) -/
  need : Nat := 0
  /-- units of the retransmission store a SEAL has reserved with its tag, until its frame is there (R299) -/
  resv : Nat := 0
  /-- sequence number and header of the WCP frame a SEAL builds -/
  wcp : Option (Nat × List Byte) := none
  deriving DecidableEq, Repr

/-- An abort under way (R311): the DOORBELL read, and whether its steps 1 to 2 are done. -/
structure QAbort where
  door : Nat
  deriving DecidableEq, Repr

/-- A queue beyond its registers: the millrace's own copies of line B (R286), the doorbell seen, the program, the
completions not yet posted. -/
structure Que where
  hrhead : Nat := 0
  trtail : Nat := 0
  door : Nat := 0
  prog : Option Prog := none
  posts : List Comp := []
  abort : Option QAbort := none
  /-- leat messages sent before the doorbell advance (R430) -/
  need : Nat := 0
  /-- when the queue last took an entry, for the round robin of R279 -/
  turn : Nat := 0
  /-- since when it waits for a processor, and that it has lost a decision (R384) -/
  since : Nat := 0
  lost : Bool := false
  /-- a job of the queue runs (R467) -/
  job : Bool := false
  deriving DecidableEq, Repr

/-- A WCP data or SAFE frame not yet acknowledged (R298, R301); `bytes` is empty until it is sealed. -/
structure WFrame where
  seq : Nat
  bytes : List Byte
  /-- the queue whose SEAL built it, until it is handed to the egress -/
  q : Option Nat := none
  /-- handed to the egress at this time -/
  sent : Option Nat := none
  /-- its room in the retransmission store, in 64-byte units (R299) -/
  units : Nat := 0
  epoch : Nat := 0
  deriving DecidableEq, Repr

/-- A path beyond its registers. -/
structure PathS where
  frames : List WFrame := []
  /-- control counter (R301) -/
  ctl : Nat := 0
  /-- start of the retransmission interval, and expiries without progress (R302) -/
  timer : Option Nat := none
  expiries : Nat := 0
  /-- when the delayed acknowledgement was asked for (R304) -/
  ackFrom : Option Nat := none
  /-- last SYNC sent (R305) -/
  syncAt : Option Nat := none
  /-- an epoch rise waits for the reservation (R306); `true` where a SYNC follows -/
  rise : Option Bool := none
  /-- a path abort is under way (R311 steps 1 to 4) -/
  abort : Bool := false
  /-- WCP frames received and not yet handled, with their times -/
  rxq : List (List Byte × Nat) := []
  /-- frames handed to the lane or withheld, and their CRC register, for the output digest (R432) -/
  outCount : Nat := 0
  outCrc : DWord := 0xFFFFFFFFFFFFFFFF
  /-- on a standby, its own digests not yet compared, and the primary's not yet reached -/
  outHist : List (Nat × DWord) := []
  outWant : List (Nat × DWord) := []
  deriving DecidableEq, Repr

/-- What a frame at an egress is: handed over by a SEND, a retransmission, an ACK or SYNC, a SAFE frame. -/
inductive FKind where
  | first | again | control | safe
  deriving DecidableEq, Repr

/-- A frame at a lane's egress: the octets as the lane sends them. -/
structure EFrame where
  path : Nat
  cls : Nat
  prio : Nat
  /-- order of arrival -/
  arr : Nat
  bytes : List Byte
  /-- the queue whose SEND handed it over -/
  q : Option Nat := none
  /-- holds a non-WCP tag until it leaves (R298) -/
  tag : Bool := false
  /-- repetitions after this transmission (R308), retransmissions after errors so far (R330) -/
  reps : Nat := 0
  tries : Nat := 0
  kind : FKind := .first
  /-- leat messages the standby must have acknowledged first (R430) -/
  need : Nat := 0
  /-- since when it waits, and that it has lost a decision (R384) -/
  since : Nat := 0
  lost : Bool := false
  /-- `TIM_PTP` when it started (R325) -/
  ptp : DWord := 0
  deriving DecidableEq, Repr

/-- The egress of a SerDes or field lane. -/
structure Egress where
  cur : Option EFrame := none
  queue : List EFrame := []
  /-- the last frame that left -/
  wire : List Byte := []
  /-- timestamps of sent event messages, oldest first, and a lost one before the next (R326) -/
  txts : List DWord := []
  txLost : Bool := false
  pausedTill : Nat := 0
  /-- the level of `DE` while not safe (R331, R332) -/
  de : Bool := false
  deriving DecidableEq, Repr

/-- A waiting or running job of the hopper or the millstone (R352, R369): for a queue or for the unwrap block of a
partition. Jobs are listed in the order of their requests. -/
structure Job where
  q : Option Nat
  part : Nat
  cls : Nat
  len : Nat
  core : Option Nat := none
  key : List Byte := []
  data : List Byte := []
  /-- has started on a core: its key and source are taken -/
  begun : Bool := false
  /-- the status it ends with, where a check at its start failed -/
  bad : Nat := 0
  /-- since when it waits, and that it has lost a decision (R384) -/
  since : Nat := 0
  lost : Bool := false
  deriving DecidableEq, Repr

/-- Deficit round robin (R352): credits by class and partition (64 · class + partition), the partition last served by
class. -/
structure Share where
  credit : Tab Int := []
  last : Tab Nat := []
  deriving DecidableEq, Repr

/-- An unwrap under way (R345): its target and key-encryption slots, the blob's address and wrapped length, and the
owner whose memory rights serve. -/
structure Unwrap where
  slot : Nat
  kek : Nat
  root : Bool
  addr : Nat
  wlen : Nat
  rights : Option Nat
  /-- the result it ends with, where a check has failed -/
  bad : Nat := 0
  deriving DecidableEq, Repr

/-- The PTP clock (R324): its value with 40 fraction bits at a time of `TIM_NOW`. -/
structure Ptp where
  at_ : Nat := 0
  val : Nat := 0
  /-- `PPS_OUT` is high until the given time -/
  high : Option Nat := none
  /-- whole seconds of the clock already signalled on `PPS_OUT`: it next rises above this (R327) -/
  next : Nat := 0
  deriving DecidableEq, Repr

/-- The millrace and the engines beyond their registers. -/
structure Chan where
  ques : Tab Que := []
  paths : Tab PathS := []
  egress : Tab Egress := []
  /-- the queue each channel processor runs (R279) -/
  cpus : Tab Nat := []
  /-- steps parked for a tag or store room, in order of arrival: the queues -/
  tagQ : List Nat := []
  /-- arrivals counted so far -/
  arrivals : Nat := 0
  cjobs : List Job := []
  mjobs : List Job := []
  cshare : Share := {}
  mshare : Share := {}
  unwraps : Tab Unwrap := []
  /-- CLRs that wait for an unwrap into the slot (R346) -/
  clrs : List Nat := []
  /-- unwraps that wait for an unwrap into the same slot, and whether the manager issued them (R346) -/
  unwrapQ : List (Nat × Bool) := []
  keys : Tab (List Byte) := []
  /-- times of datapath errors by core: AES cores 0 to 15, millstone cores 16 to 23 (R356, R371) -/
  errs : List (Nat × Nat) := []
  ptp : Ptp := {}
  /-- the epoch reservation being programmed (R306) -/
  resv : Option Nat := none
  /-- paths whose SAFE frame waits for a tag or for the epoch (R413) -/
  safeWait : List Nat := []
  /-- queues whose completions are to be told to the host (R478) -/
  hev : List Nat := []
  deriving DecidableEq, Repr

end Sys2Proof.Machine
end

