-- ==== Sys2Proof/Machine/Regs.lean ====
section
/-! DEFINITION. The device registers: one name per register of the manual with its address (R23 and the offsets of each
chapter), its field positions, access types and reset values, as the manual's field tables give them. -/
namespace Sys2Proof.Machine

/-- The access types of the field tables (chapter "Scope, ordering codes and conventions", Notation). -/
inductive Access where
  | ro | rw | w1c | w1s | wo | rwl
  deriving DecidableEq, Repr

/-- A bit field [hi:lo]. -/
structure Fld where
  hi : Nat
  lo : Nat
  deriving DecidableEq, Repr

/-- One row of a register's field table: its bits and access type. -/
structure FldSpec where
  hi : Nat
  lo : Nat
  acc : Access
  deriving DecidableEq, Repr

/-- The device registers by name; the arguments are the manual's indexes (triad, partition, queue, ...). -/
inductive RegName where
  | TIM_NOW
  | TIM_STATUS
  | GOV_CTRL
  | GOV_FLOOR
  | GOV_STATUS
  | GOV_INDEX
  | GOV_VOLT
  | GOV_MON (m : Nat)
  | CLU_CSSTAT (core : Nat)
  | CLU_TCFG (t : Nat)
  | CLU_TSTATE (t : Nat)
  | CLU_LANEMAP (t : Nat)
  | CLU_TCOUNT (t : Nat)
  | CLU_TSYND (t : Nat)
  | CLU_SLUTEST (t : Nat)
  | CLU_CKPT (t : Nat)
  | CLU_TCTL (t : Nat)
  | CLU_SPARE (c : Nat)
  | CLU_EVTIMER (t k : Nat)
  | CLU_EVCFG (t : Nat)
  | CLU_EVSTAT (t : Nat)
  | CLU_CFG (c : Nat)
  | CLU_SWEEP (c k : Nat)
  | CLU_L1CTL (t : Nat)
  | PRT_WBASE (p w : Nat)
  | PRT_WLIMIT (p w : Nat)
  | PRT_WOFFSET (p w : Nat)
  | BNK_OWNER (n : Nat)
  | BNK_ECC (n : Nat)
  | DRM_CFG (p : Nat)
  | DRM_SCRUB (p : Nat)
  | DRM_INIT (p : Nat)
  | DRM_ECC (p r : Nat)
  | DRM_EADR (p r : Nat)
  | SYS_DEVTIMEOUT
  | SYS_BARSTAT (g : Nat)
  | SYS_JRNSTAT
  | SYS_COMMITSEQ
  | CLU_TXCOUNT (t p : Nat)
  | CHN_PATHCFG (n : Nat)
  | CHN_PATHMATCH0 (n : Nat)
  | CHN_PATHMATCH1 (n : Nat)
  | CHN_PATHAUX (n : Nat)
  | CHN_PATHSEQ (n : Nat)
  | CHN_PATHSTAT (n : Nat)
  | CHN_PATHCTL (n : Nat)
  | CHN_PATHCNT (n : Nat)
  | QUE_CFG (q : Nat)
  | QUE_HR (q : Nat)
  | QUE_TR (q : Nat)
  | QUE_CTLA (q : Nat)
  | QUE_PROG (q : Nat)
  | QUE_GEN (q : Nat)
  | QUE_STAT (q : Nat)
  | QUE_CMD (q : Nat)
  | CHN_TAGS
  | CHN_WCPCFG
  | CHN_STAT
  | LAN_QCFG (q : Nat)
  | LAN_CFG (n : Nat)
  | LAN_MAC (n : Nat)
  | LAN_IP (n : Nat)
  | LAN_CTL (n : Nat)
  | LAN_STAT (n : Nat)
  | LAN_CNT (n : Nat)
  | LAN_TXTS (n : Nat)
  | FLD_CFG (n : Nat)
  | FLD_TIMING (n : Nat)
  | FLD_CTL (n : Nat)
  | FLD_STAT (n : Nat)
  | FLD_CNT (n : Nat)
  | TIM_PTP
  | TIM_PTPRATE
  | TIM_PTPSTEP
  | TIM_PPS
  | TIM_PPSIN
  | TIM_PPSNOW
  | CPH_CFG
  | CPH_STAT
  | CPH_CORE (k : Nat)
  | CPH_SHARE (p : Nat)
  | CPH_UNWRAP_ADDR (p : Nat)
  | CPH_UNWRAP_CMD (p : Nat)
  | CPH_UNWRAP_STAT (p : Nat)
  | CPH_SLOT (n : Nat)
  | MIL_CFG
  | MIL_STAT
  | MIL_CORE (k : Nat)
  | MIL_SHARE (p : Nat)
  | MIL_PHUF (w : Nat)
  | ARB_PORT (n : Nat)
  | ARB_ARB (a : Nat)
  | ARB_GRANTS (s : Nat)
  | ARB_WAITS (s : Nat)
  | ARB_LONG (s : Nat)
  | PRT_MGR
  | PRT_CFG (p : Nat)
  | PRT_STATE (p : Nat)
  | PRT_CTL (p : Nat)
  | PRT_LOGCFG (p : Nat)
  | PRT_LOGBUF0 (p : Nat)
  | PRT_LOGBUF1 (p : Nat)
  | PRT_LOGCTL (p : Nat)
  | SYS_SHAFTSYND
  | CLU_FSYND (t : Nat)
  | FLT_STATUS
  | FLT_ERRMASK
  | FLT_STATE
  | FLT_RECOV
  | FLT_RECOVERIES
  | FLT_BRAKE
  | FLT_TATTR
  | FLT_MATTR
  | FLT_RELPERM
  | FLT_POLICY (s : Nat)
  | FLT_ATTR (s : Nat)
  | FLT_NOTE (p : Nat)
  | PAR_CFG
  | PAR_STAT
  | PAR_CTL
  | PAR_TOFF
  | CAS_CFG
  | CAS_STAT
  | CAS_CTL
  | CAS_EXPORT (e : Nat)
  | SYS_SNAP
  | CFG_STAT
  | CFG_SYND
  | CFG_CTL
  | CFG_STGADDR
  | CFG_STGCMD
  | CFG_STGSTAT
  | HST_STAT
  | HST_WBASE (k : Nat)
  | HST_WLIMIT (k : Nat)
  | MGT_STAT
  | MGT_CFG
  | SYS_PWRCTL
  | SYS_PWRSTAT
  | SYS_TEST (k : Nat)
  | BOK_CTL
  | BOK_STAT
  | BOK_POLICY
  | GOV_TEMP
  deriving DecidableEq, Repr

/-- The physical address of a register (R9, R23 and the address lists of each chapter). -/
def RegName.addr : RegName → Nat
  | .TIM_NOW => 0xF0000F0000
  | .TIM_STATUS => 0xF0000F0008
  | .GOV_CTRL => 0xF000020000
  | .GOV_FLOOR => 0xF000020008
  | .GOV_STATUS => 0xF000020010
  | .GOV_INDEX => 0xF000020018
  | .GOV_VOLT => 0xF000020020
  | .GOV_MON m => 0xF000020100 + 8 * m
  | .CLU_CSSTAT core => 0xF001000200 + 0x10000 * (core / 13) + 8 * (core % 13)
  | .CLU_TCFG t => 0xF001000400 + 0x10000 * (t / 4) + 0x40 * (t % 4) + 0
  | .CLU_TSTATE t => 0xF001000400 + 0x10000 * (t / 4) + 0x40 * (t % 4) + 8
  | .CLU_LANEMAP t => 0xF001000400 + 0x10000 * (t / 4) + 0x40 * (t % 4) + 16
  | .CLU_TCOUNT t => 0xF001000400 + 0x10000 * (t / 4) + 0x40 * (t % 4) + 24
  | .CLU_TSYND t => 0xF001000400 + 0x10000 * (t / 4) + 0x40 * (t % 4) + 32
  | .CLU_SLUTEST t => 0xF001000400 + 0x10000 * (t / 4) + 0x40 * (t % 4) + 40
  | .CLU_CKPT t => 0xF001000400 + 0x10000 * (t / 4) + 0x40 * (t % 4) + 48
  | .CLU_TCTL t => 0xF001000400 + 0x10000 * (t / 4) + 0x40 * (t % 4) + 56
  | .CLU_SPARE c => 0xF001000300 + 0x10000 * c
  | .CLU_EVTIMER t k => 0xF001000800 + 0x10000 * (t / 4) + 0x40 * (t % 4) + 8 * k
  | .CLU_EVCFG t => 0xF001000820 + 0x10000 * (t / 4) + 0x40 * (t % 4)
  | .CLU_EVSTAT t => 0xF001000828 + 0x10000 * (t / 4) + 0x40 * (t % 4)
  | .CLU_CFG c => 0xF001000000 + 0x10000 * c
  | .CLU_SWEEP c k => 0xF001000100 + 0x10000 * c + 8 * k
  | .CLU_L1CTL t => 0xF001000A00 + 0x10000 * (t / 4) + 8 * (t % 4)
  | .PRT_WBASE p w => 0xF000054000 + 0x180 * p + 0x18 * w
  | .PRT_WLIMIT p w => 0xF000054008 + 0x180 * p + 0x18 * w
  | .PRT_WOFFSET p w => 0xF000054010 + 0x180 * p + 0x18 * w
  | .BNK_OWNER n => 0xF000060000 + 8 * n
  | .BNK_ECC n => 0xF000060200 + 8 * n
  | .DRM_CFG p => 0xF000070000 + 8 * p
  | .DRM_SCRUB p => 0xF000070010 + 8 * p
  | .DRM_INIT p => 0xF000070020 + 8 * p
  | .DRM_ECC p r => 0xF000070100 + 0x10 * p + 8 * r
  | .DRM_EADR p r => 0xF000070140 + 0x10 * p + 8 * r
  | .SYS_DEVTIMEOUT => 0xF000000100
  | .SYS_BARSTAT g => 0xF000000200 + 8 * g
  | .SYS_JRNSTAT => 0xF000000300
  | .SYS_COMMITSEQ => 0xF000000308
  | .CLU_TXCOUNT t p => 0xF001000C00 + 0x10000 * (t / 4) + 8 * (3 * (t % 4) + p)
  | .CHN_PATHCFG n => 0xF000100000 + 0x40 * n + 0
  | .CHN_PATHMATCH0 n => 0xF000100000 + 0x40 * n + 8
  | .CHN_PATHMATCH1 n => 0xF000100000 + 0x40 * n + 16
  | .CHN_PATHAUX n => 0xF000100000 + 0x40 * n + 24
  | .CHN_PATHSEQ n => 0xF000100000 + 0x40 * n + 32
  | .CHN_PATHSTAT n => 0xF000100000 + 0x40 * n + 40
  | .CHN_PATHCTL n => 0xF000100000 + 0x40 * n + 48
  | .CHN_PATHCNT n => 0xF000100000 + 0x40 * n + 56
  | .QUE_CFG q => 0xF000110000 + 0x40 * q + 0
  | .QUE_HR q => 0xF000110000 + 0x40 * q + 8
  | .QUE_TR q => 0xF000110000 + 0x40 * q + 16
  | .QUE_CTLA q => 0xF000110000 + 0x40 * q + 24
  | .QUE_PROG q => 0xF000110000 + 0x40 * q + 32
  | .QUE_GEN q => 0xF000110000 + 0x40 * q + 40
  | .QUE_STAT q => 0xF000110000 + 0x40 * q + 48
  | .QUE_CMD q => 0xF000110000 + 0x40 * q + 56
  | .CHN_TAGS => 0xF000180000
  | .CHN_WCPCFG => 0xF000180008
  | .CHN_STAT => 0xF000180010
  | .LAN_QCFG q => 0xF000201800 + 8 * q
  | .LAN_CFG n => 0xF000200000 + 0x100 * n + 0
  | .LAN_MAC n => 0xF000200000 + 0x100 * n + 8
  | .LAN_IP n => 0xF000200000 + 0x100 * n + 16
  | .LAN_CTL n => 0xF000200000 + 0x100 * n + 24
  | .LAN_STAT n => 0xF000200000 + 0x100 * n + 32
  | .LAN_CNT n => 0xF000200000 + 0x100 * n + 40
  | .LAN_TXTS n => 0xF000200000 + 0x100 * n + 48
  | .FLD_CFG n => 0xF000210000 + 0x40 * n + 0
  | .FLD_TIMING n => 0xF000210000 + 0x40 * n + 8
  | .FLD_CTL n => 0xF000210000 + 0x40 * n + 16
  | .FLD_STAT n => 0xF000210000 + 0x40 * n + 24
  | .FLD_CNT n => 0xF000210000 + 0x40 * n + 32
  | .TIM_PTP => 0xF0000F0100
  | .TIM_PTPRATE => 0xF0000F0108
  | .TIM_PTPSTEP => 0xF0000F0110
  | .TIM_PPS => 0xF0000F0118
  | .TIM_PPSIN => 0xF0000F0120
  | .TIM_PPSNOW => 0xF0000F0128
  | .CPH_CFG => 0xF000080000
  | .CPH_STAT => 0xF000080008
  | .CPH_CORE k => 0xF000080100 + 8 * k
  | .CPH_SHARE p => 0xF000080800 + 8 * p
  | .CPH_UNWRAP_ADDR p => 0xF000081000 + 0x20 * p
  | .CPH_UNWRAP_CMD p => 0xF000081008 + 0x20 * p
  | .CPH_UNWRAP_STAT p => 0xF000081010 + 0x20 * p
  | .CPH_SLOT n => 0xF000088000 + 8 * n
  | .MIL_CFG => 0xF000090000
  | .MIL_STAT => 0xF000090008
  | .MIL_CORE k => 0xF000090040 + 8 * k
  | .MIL_SHARE p => 0xF000090800 + 8 * p
  | .MIL_PHUF w => 0xF000090200 + 8 * w
  | .ARB_PORT n => 0xF000040000 + 8 * n
  | .ARB_ARB a => 0xF000040400 + 8 * a
  | .ARB_GRANTS s => 0xF000041000 + 0x18 * s
  | .ARB_WAITS s => 0xF000041008 + 0x18 * s
  | .ARB_LONG s => 0xF000041010 + 0x18 * s
  | .PRT_MGR => 0xF000050000
  | .PRT_CFG p => 0xF000051000 + 0x40 * p + 0
  | .PRT_STATE p => 0xF000051000 + 0x40 * p + 8
  | .PRT_CTL p => 0xF000051000 + 0x40 * p + 16
  | .PRT_LOGCFG p => 0xF000051000 + 0x40 * p + 24
  | .PRT_LOGBUF0 p => 0xF000051000 + 0x40 * p + 32
  | .PRT_LOGBUF1 p => 0xF000051000 + 0x40 * p + 40
  | .PRT_LOGCTL p => 0xF000051000 + 0x40 * p + 48
  | .SYS_SHAFTSYND => 0xF000000400
  | .CLU_FSYND t => 0xF001000E00 + 0x10000 * (t / 4) + 8 * (t % 4)
  | .FLT_STATUS => 0xF000010000
  | .FLT_ERRMASK => 0xF000010008
  | .FLT_STATE => 0xF000010010
  | .FLT_RECOV => 0xF000010018
  | .FLT_RECOVERIES => 0xF000010020
  | .FLT_BRAKE => 0xF000010028
  | .FLT_TATTR => 0xF000010030
  | .FLT_MATTR => 0xF000010038
  | .FLT_RELPERM => 0xF000010040
  | .FLT_POLICY s => 0xF000010100 + 8 * s
  | .FLT_ATTR s => 0xF000010200 + 8 * s
  | .FLT_NOTE p => 0xF000010400 + 8 * p
  | .PAR_CFG => 0xF0000A0000
  | .PAR_STAT => 0xF0000A0008
  | .PAR_CTL => 0xF0000A0010
  | .PAR_TOFF => 0xF0000A0018
  | .CAS_CFG => 0xF0000B0000
  | .CAS_STAT => 0xF0000B0008
  | .CAS_CTL => 0xF0000B0010
  | .CAS_EXPORT e => 0xF0000B0100 + 8 * e
  | .SYS_SNAP => 0xF000000500
  | .CFG_STAT => 0xF000030000
  | .CFG_SYND => 0xF000030008
  | .CFG_CTL => 0xF000030010
  | .CFG_STGADDR => 0xF000030018
  | .CFG_STGCMD => 0xF000030020
  | .CFG_STGSTAT => 0xF000030028
  | .HST_STAT => 0xF0000C0000
  | .HST_WBASE k => 0xF0000C0100 + 0x10 * k
  | .HST_WLIMIT k => 0xF0000C0108 + 0x10 * k
  | .MGT_STAT => 0xF0000D0000
  | .MGT_CFG => 0xF0000D0008
  | .SYS_PWRCTL => 0xF000000700
  | .SYS_PWRSTAT => 0xF000000708
  | .SYS_TEST k => 0xF000000600 + 8 * k
  | .BOK_CTL => 0xF0000E0000
  | .BOK_STAT => 0xF0000E0008
  | .BOK_POLICY => 0xF0000E0010
  | .GOV_TEMP => 0xF000020028

/-- The reset value of a register (R10); fields whose reset value is a ball, a mode or flash contents are 0 here and set where the boot samples them. -/
def RegName.reset : RegName → DWord
  | .TIM_NOW => 0x0
  | .TIM_STATUS => 0x0
  | .GOV_CTRL => 0x3c00
  | .GOV_FLOOR => 0x4b04b0
  | .GOV_STATUS => 0x0
  | .GOV_INDEX => 0x0
  | .GOV_VOLT => 0x320
  | .GOV_MON _ => 0x0
  | .CLU_CSSTAT _ => 0x0
  | .CLU_TCFG _ => 0x40a0000
  | .CLU_TSTATE _ => 0x0
  | .CLU_LANEMAP t => BitVec.ofNat 64 (256 * (3 * (t % 4) + 2) + 16 * (3 * (t % 4) + 1) + 3 * (t % 4))
  | .CLU_TCOUNT _ => 0x0
  | .CLU_TSYND _ => 0x0
  | .CLU_SLUTEST _ => 0x0
  | .CLU_CKPT _ => 0x0
  | .CLU_TCTL _ => 0x0
  | .CLU_SPARE _ => 0x0
  | .CLU_EVTIMER _ _ => 0x0
  | .CLU_EVCFG _ => 0x0
  | .CLU_EVSTAT _ => 0x0
  | .CLU_CFG _ => 0x0
  | .CLU_SWEEP _ _ => 0x0
  | .CLU_L1CTL _ => 0xf
  | .PRT_WBASE _ _ => 0x0
  | .PRT_WLIMIT _ _ => 0x0
  | .PRT_WOFFSET _ _ => 0x0
  | .BNK_OWNER _ => 0x0
  | .BNK_ECC _ => 0x0
  | .DRM_CFG _ => 0x0
  | .DRM_SCRUB _ => 0x18
  | .DRM_INIT _ => 0x0
  | .DRM_ECC _ _ => 0x0
  | .DRM_EADR _ _ => 0x0
  | .SYS_DEVTIMEOUT => 0x40
  | .SYS_BARSTAT _ => 0x0
  | .SYS_JRNSTAT => 0x0
  | .SYS_COMMITSEQ => 0x0
  | .CLU_TXCOUNT _ _ => 0x0
  | .CHN_PATHCFG _ => 0x10000000000a
  | .CHN_PATHMATCH0 _ => 0x0
  | .CHN_PATHMATCH1 _ => 0x0
  | .CHN_PATHAUX _ => 0x0
  | .CHN_PATHSEQ _ => 0x0
  | .CHN_PATHSTAT _ => 0x0
  | .CHN_PATHCTL _ => 0x0
  | .CHN_PATHCNT _ => 0x0
  | .QUE_CFG _ => 0x0
  | .QUE_HR _ => 0x4000000000000000
  | .QUE_TR _ => 0x4000000000000000
  | .QUE_CTLA _ => 0x0
  | .QUE_PROG _ => 0x0
  | .QUE_GEN _ => 0x1
  | .QUE_STAT _ => 0x0
  | .QUE_CMD _ => 0x0
  | .CHN_TAGS => 0x4000000000000400
  | .CHN_WCPCFG => 0xa88b5
  | .CHN_STAT => 0x0
  | .LAN_QCFG _ => 0x0
  | .LAN_CFG _ => 0x5ee00000000
  | .LAN_MAC _ => 0x0
  | .LAN_IP _ => 0x4000000000
  | .LAN_CTL _ => 0x0
  | .LAN_STAT _ => 0x0
  | .LAN_CNT _ => 0x0
  | .LAN_TXTS _ => 0x0
  | .FLD_CFG _ => 0x1030003110000
  | .FLD_TIMING _ => 0x0
  | .FLD_CTL _ => 0x0
  | .FLD_STAT _ => 0x200000000000
  | .FLD_CNT _ => 0x0
  | .TIM_PTP => 0x0
  | .TIM_PTPRATE => 0x0
  | .TIM_PTPSTEP => 0x0
  | .TIM_PPS => 0x64
  | .TIM_PPSIN => 0x0
  | .TIM_PPSNOW => 0x0
  | .CPH_CFG => 0x2
  | .CPH_STAT => 0x0
  | .CPH_CORE _ => 0x0
  | .CPH_SHARE _ => 0x1
  | .CPH_UNWRAP_ADDR _ => 0x0
  | .CPH_UNWRAP_CMD _ => 0x0
  | .CPH_UNWRAP_STAT _ => 0x1000000000000
  | .CPH_SLOT _ => 0x0
  | .MIL_CFG => 0x1
  | .MIL_STAT => 0x0
  | .MIL_CORE _ => 0x0
  | .MIL_SHARE _ => 0x1
  | .MIL_PHUF _ => 0x0
  | .ARB_PORT _ => 0x401
  | .ARB_ARB _ => 0x2800000120
  | .ARB_GRANTS _ => 0x0
  | .ARB_WAITS _ => 0x0
  | .ARB_LONG _ => 0x0
  | .PRT_MGR => 0x0
  | .PRT_CFG _ => 0x0
  | .PRT_STATE _ => 0x0
  | .PRT_CTL _ => 0x0
  | .PRT_LOGCFG _ => 0xc000000000000
  | .PRT_LOGBUF0 _ => 0x0
  | .PRT_LOGBUF1 _ => 0x0
  | .PRT_LOGCTL _ => 0x0
  | .SYS_SHAFTSYND => 0x0
  | .CLU_FSYND _ => 0x0
  | .FLT_STATUS => 0x0
  | .FLT_ERRMASK => 0x9db6db6db6db6db6
  | .FLT_STATE => 0x1
  | .FLT_RECOV => 0xe100800000003e8
  | .FLT_RECOVERIES => 0x0
  | .FLT_BRAKE => 0xa0000
  | .FLT_TATTR => 0x0
  | .FLT_MATTR => 0x0
  | .FLT_RELPERM => 0x0
  | .FLT_POLICY _ => 0x3e800000
  | .FLT_ATTR _ => 0x0
  | .FLT_NOTE _ => 0x0
  | .PAR_CFG => 0x641407d00a04
  | .PAR_STAT => 0x0
  | .PAR_CTL => 0x0
  | .PAR_TOFF => 0x0
  | .CAS_CFG => 0x0
  | .CAS_STAT => 0x0
  | .CAS_CTL => 0x0
  | .CAS_EXPORT _ => 0x0
  | .SYS_SNAP => 0x0
  | .CFG_STAT => 0x0
  | .CFG_SYND => 0x0
  | .CFG_CTL => 0x0
  | .CFG_STGADDR => 0x0
  | .CFG_STGCMD => 0x0
  | .CFG_STGSTAT => 0x1000000000000
  | .HST_STAT => 0x0
  | .HST_WBASE _ => 0x0
  | .HST_WLIMIT _ => 0x0
  | .MGT_STAT => 0x0
  | .MGT_CFG => 0x1
  | .SYS_PWRCTL => 0x3dffffff
  | .SYS_PWRSTAT => 0x3dffffff
  | .SYS_TEST _ => 0x0
  | .BOK_CTL => 0x0
  | .BOK_STAT => 0x0
  | .BOK_POLICY => 0xa
  | .GOV_TEMP => 0x0

/-- The field table of a register; bits no row names are reserved (R8). -/
def RegName.fields : RegName → List FldSpec
  | .TIM_NOW => [⟨63, 0, .ro⟩]
  | .TIM_STATUS => [⟨2, 2, .w1c⟩, ⟨1, 1, .w1c⟩, ⟨0, 0, .ro⟩]
  | .GOV_CTRL => [⟨15, 8, .rwl⟩, ⟨1, 1, .rw⟩, ⟨0, 0, .w1s⟩]
  | .GOV_FLOOR => [⟨23, 12, .rwl⟩, ⟨11, 0, .rw⟩]
  | .GOV_STATUS => [⟨5, 5, .ro⟩, ⟨4, 4, .ro⟩, ⟨3, 3, .w1c⟩, ⟨2, 2, .w1c⟩, ⟨1, 1, .w1c⟩, ⟨0, 0, .ro⟩]
  | .GOV_INDEX => [⟨19, 16, .ro⟩, ⟨11, 0, .ro⟩]
  | .GOV_VOLT => [⟨25, 16, .ro⟩, ⟨9, 0, .ro⟩]
  | .GOV_MON _ => [⟨11, 0, .ro⟩]
  | .CLU_CSSTAT _ => [⟨63, 63, .ro⟩, ⟨47, 32, .ro⟩, ⟨31, 16, .ro⟩, ⟨12, 0, .ro⟩]
  | .CLU_TCFG _ => [⟨63, 48, .rwl⟩, ⟨39, 32, .rwl⟩, ⟨31, 24, .rwl⟩, ⟨20, 16, .rwl⟩, ⟨3, 3, .rwl⟩, ⟨2, 2, .rwl⟩, ⟨0, 0, .rwl⟩]
  | .CLU_TSTATE _ => [⟨11, 11, .ro⟩, ⟨10, 10, .ro⟩, ⟨9, 9, .ro⟩, ⟨8, 8, .ro⟩, ⟨7, 7, .ro⟩, ⟨6, 4, .ro⟩, ⟨2, 0, .ro⟩]
  | .CLU_LANEMAP _ => [⟨11, 8, .ro⟩, ⟨7, 4, .ro⟩, ⟨3, 0, .ro⟩]
  | .CLU_TCOUNT _ => [⟨63, 48, .ro⟩, ⟨47, 32, .ro⟩, ⟨31, 16, .ro⟩, ⟨15, 8, .ro⟩, ⟨7, 0, .ro⟩]
  | .CLU_TSYND _ => [⟨63, 32, .ro⟩, ⟨23, 20, .ro⟩, ⟨13, 11, .ro⟩, ⟨10, 8, .ro⟩]
  | .CLU_SLUTEST _ => [⟨63, 48, .ro⟩, ⟨15, 15, .ro⟩, ⟨14, 14, .ro⟩, ⟨7, 0, .ro⟩]
  | .CLU_CKPT _ => [⟨47, 0, .ro⟩]
  | .CLU_TCTL _ => [⟨7, 6, .wo⟩, ⟨5, 5, .wo⟩, ⟨4, 4, .wo⟩, ⟨1, 1, .wo⟩, ⟨0, 0, .wo⟩]
  | .CLU_SPARE _ => [⟨5, 4, .ro⟩, ⟨3, 2, .ro⟩, ⟨1, 0, .ro⟩]
  | .CLU_EVTIMER _ _ => [⟨63, 0, .rw⟩]
  | .CLU_EVCFG _ => [⟨17, 17, .rw⟩, ⟨16, 16, .rw⟩, ⟨15, 0, .rw⟩]
  | .CLU_EVSTAT _ => [⟨63, 51, .ro⟩, ⟨48, 48, .ro⟩, ⟨47, 0, .ro⟩]
  | .CLU_CFG _ => [⟨0, 0, .rwl⟩]
  | .CLU_SWEEP _ _ => [⟨63, 63, .ro⟩, ⟨62, 62, .w1c⟩, ⟨61, 60, .ro⟩, ⟨59, 59, .ro⟩, ⟨55, 40, .ro⟩, ⟨25, 0, .ro⟩]
  | .CLU_L1CTL _ => [⟨3, 3, .ro⟩, ⟨2, 2, .ro⟩, ⟨1, 1, .rw⟩, ⟨0, 0, .rw⟩]
  | .PRT_WBASE _ _ => [⟨39, 12, .rw⟩, ⟨2, 2, .rw⟩, ⟨1, 1, .rw⟩, ⟨0, 0, .rw⟩]
  | .PRT_WLIMIT _ _ => [⟨39, 12, .rw⟩]
  | .PRT_WOFFSET _ _ => [⟨39, 12, .rw⟩]
  | .BNK_OWNER _ => [⟨17, 17, .wo⟩, ⟨16, 16, .ro⟩, ⟨10, 8, .rw⟩, ⟨5, 0, .rw⟩]
  | .BNK_ECC _ => [⟨63, 48, .ro⟩, ⟨47, 40, .ro⟩, ⟨39, 32, .ro⟩, ⟨31, 30, .ro⟩, ⟨16, 0, .ro⟩]
  | .DRM_CFG _ => [⟨15, 15, .ro⟩, ⟨9, 8, .rwl⟩, ⟨7, 7, .rwl⟩, ⟨4, 4, .rwl⟩, ⟨1, 1, .rwl⟩, ⟨0, 0, .rwl⟩]
  | .DRM_SCRUB _ => [⟨63, 48, .ro⟩, ⟨7, 0, .rwl⟩]
  | .DRM_INIT _ => [⟨63, 63, .ro⟩, ⟨15, 0, .ro⟩]
  | .DRM_ECC _ _ => [⟨63, 48, .ro⟩, ⟨47, 40, .ro⟩, ⟨39, 32, .ro⟩, ⟨31, 30, .ro⟩, ⟨29, 29, .ro⟩]
  | .DRM_EADR _ _ => [⟨39, 3, .ro⟩]
  | .SYS_DEVTIMEOUT => [⟨63, 48, .ro⟩, ⟨12, 0, .rwl⟩]
  | .SYS_BARSTAT _ => [⟨63, 48, .ro⟩, ⟨23, 16, .ro⟩, ⟨15, 8, .ro⟩, ⟨7, 7, .ro⟩, ⟨5, 0, .ro⟩]
  | .SYS_JRNSTAT => [⟨63, 48, .ro⟩, ⟨47, 32, .ro⟩, ⟨15, 0, .ro⟩]
  | .SYS_COMMITSEQ => [⟨63, 0, .ro⟩]
  | .CLU_TXCOUNT _ _ => [⟨63, 32, .ro⟩, ⟨31, 16, .ro⟩, ⟨15, 0, .ro⟩]
  | .CHN_PATHCFG _ => [⟨63, 63, .rwl⟩, ⟨62, 61, .rwl⟩, ⟨60, 60, .rwl⟩, ⟨59, 59, .rwl⟩, ⟨58, 56, .rw⟩, ⟨55, 54, .rwl⟩, ⟨53, 48, .rwl⟩, ⟨47, 40, .rw⟩, ⟨39, 28, .rwl⟩, ⟨27, 20, .rwl⟩, ⟨19, 8, .rwl⟩, ⟨7, 0, .rw⟩]
  | .CHN_PATHMATCH0 _ => [⟨63, 63, .rwl⟩, ⟨62, 60, .rwl⟩, ⟨59, 48, .rwl⟩, ⟨47, 0, .rwl⟩]
  | .CHN_PATHMATCH1 _ => [⟨48, 48, .rwl⟩, ⟨47, 32, .rwl⟩, ⟨31, 0, .rwl⟩]
  | .CHN_PATHAUX _ => [⟨63, 63, .rwl⟩, ⟨61, 48, .rwl⟩, ⟨39, 6, .rwl⟩]
  | .CHN_PATHSEQ _ => [⟨63, 32, .ro⟩, ⟨31, 0, .ro⟩]
  | .CHN_PATHSTAT _ => [⟨63, 48, .ro⟩, ⟨47, 32, .ro⟩, ⟨31, 23, .ro⟩, ⟨22, 22, .ro⟩, ⟨21, 21, .ro⟩, ⟨20, 20, .ro⟩]
  | .CHN_PATHCTL _ => [⟨0, 0, .wo⟩]
  | .CHN_PATHCNT _ => [⟨63, 48, .ro⟩, ⟨47, 32, .ro⟩, ⟨31, 16, .ro⟩, ⟨15, 0, .ro⟩]
  | .QUE_CFG _ => [⟨63, 63, .rwl⟩, ⟨62, 62, .rw⟩, ⟨61, 60, .rwl⟩, ⟨59, 57, .rw⟩, ⟨56, 56, .rwl⟩, ⟨55, 50, .rwl⟩, ⟨49, 45, .rwl⟩, ⟨44, 43, .rwl⟩, ⟨42, 42, .rwl⟩, ⟨41, 32, .rwl⟩]
  | .QUE_HR _ => [⟨63, 60, .rwl⟩, ⟨39, 6, .rwl⟩]
  | .QUE_TR _ => [⟨63, 60, .rwl⟩, ⟨39, 5, .rwl⟩]
  | .QUE_CTLA _ => [⟨39, 7, .rwl⟩]
  | .QUE_PROG _ => [⟨39, 5, .rwl⟩]
  | .QUE_GEN _ => [⟨63, 48, .ro⟩, ⟨15, 0, .ro⟩]
  | .QUE_STAT _ => [⟨63, 32, .ro⟩, ⟨31, 16, .ro⟩, ⟨2, 0, .ro⟩]
  | .QUE_CMD _ => [⟨0, 0, .wo⟩]
  | .CHN_TAGS => [⟨62, 48, .ro⟩, ⟨14, 0, .rwl⟩]
  | .CHN_WCPCFG => [⟨63, 48, .ro⟩, ⟨23, 16, .rwl⟩, ⟨15, 0, .rwl⟩]
  | .CHN_STAT => [⟨63, 32, .ro⟩, ⟨31, 0, .ro⟩]
  | .LAN_QCFG _ => [⟨1, 0, .rwl⟩]
  | .LAN_CFG _ => [⟨63, 63, .rwl⟩, ⟨62, 61, .rwl⟩, ⟨60, 60, .rwl⟩, ⟨59, 59, .rwl⟩, ⟨58, 58, .rwl⟩, ⟨45, 32, .rwl⟩]
  | .LAN_MAC _ => [⟨47, 0, .rwl⟩]
  | .LAN_IP _ => [⟨45, 40, .rwl⟩, ⟨39, 32, .rwl⟩, ⟨31, 0, .rwl⟩]
  | .LAN_CTL _ => [⟨2, 1, .rw⟩, ⟨0, 0, .wo⟩]
  | .LAN_STAT _ => [⟨63, 48, .ro⟩, ⟨2, 2, .ro⟩, ⟨1, 1, .ro⟩, ⟨0, 0, .ro⟩]
  | .LAN_CNT _ => [⟨63, 48, .ro⟩, ⟨47, 32, .ro⟩, ⟨31, 16, .ro⟩, ⟨15, 0, .ro⟩]
  | .LAN_TXTS _ => [⟨63, 63, .ro⟩, ⟨62, 62, .ro⟩, ⟨61, 58, .ro⟩, ⟨57, 42, .ro⟩, ⟨41, 0, .ro⟩]
  | .FLD_CFG _ => [⟨63, 63, .rwl⟩, ⟨62, 61, .rwl⟩, ⟨60, 55, .rwl⟩, ⟨54, 54, .rwl⟩, ⟨53, 49, .rwl⟩, ⟨48, 48, .rwl⟩, ⟨47, 47, .rwl⟩, ⟨46, 46, .rwl⟩, ⟨45, 45, .rwl⟩, ⟨43, 40, .rwl⟩, ⟨39, 38, .rwl⟩, ⟨37, 37, .rwl⟩, ⟨36, 36, .rwl⟩, ⟨35, 35, .rwl⟩, ⟨31, 24, .rwl⟩, ⟨23, 20, .rwl⟩, ⟨19, 16, .rwl⟩]
  | .FLD_TIMING _ => [⟨63, 59, .rwl⟩, ⟨58, 54, .rwl⟩, ⟨53, 48, .rwl⟩, ⟨47, 40, .rwl⟩, ⟨39, 33, .rwl⟩, ⟨32, 26, .rwl⟩, ⟨25, 17, .rwl⟩, ⟨16, 8, .rwl⟩, ⟨7, 0, .rwl⟩]
  | .FLD_CTL _ => [⟨1, 1, .rw⟩]
  | .FLD_STAT _ => [⟨63, 56, .ro⟩, ⟨55, 48, .ro⟩, ⟨47, 46, .ro⟩, ⟨45, 45, .ro⟩]
  | .FLD_CNT _ => [⟨63, 48, .ro⟩, ⟨47, 32, .ro⟩, ⟨31, 16, .ro⟩, ⟨15, 0, .ro⟩]
  | .TIM_PTP => [⟨63, 0, .rw⟩]
  | .TIM_PTPRATE => [⟨31, 0, .rw⟩]
  | .TIM_PTPSTEP => [⟨63, 0, .wo⟩]
  | .TIM_PPS => [⟨16, 16, .rw⟩, ⟨15, 0, .rw⟩]
  | .TIM_PPSIN => [⟨63, 0, .ro⟩]
  | .TIM_PPSNOW => [⟨63, 0, .ro⟩]
  | .CPH_CFG => [⟨3, 0, .rwl⟩]
  | .CPH_STAT => [⟨63, 48, .ro⟩, ⟨47, 32, .ro⟩, ⟨31, 0, .ro⟩]
  | .CPH_CORE _ => [⟨63, 48, .ro⟩, ⟨2, 1, .ro⟩, ⟨0, 0, .rw⟩]
  | .CPH_SHARE _ => [⟨7, 0, .rw⟩]
  | .CPH_UNWRAP_ADDR _ => [⟨39, 3, .rw⟩]
  | .CPH_UNWRAP_CMD _ => [⟨63, 63, .wo⟩, ⟨62, 62, .wo⟩, ⟨61, 60, .rw⟩, ⟨35, 24, .rw⟩, ⟨11, 0, .rw⟩]
  | .CPH_UNWRAP_STAT _ => [⟨63, 63, .ro⟩, ⟨55, 48, .ro⟩, ⟨11, 0, .ro⟩]
  | .CPH_SLOT _ => [⟨63, 63, .ro⟩, ⟨62, 62, .ro⟩, ⟨61, 60, .ro⟩, ⟨59, 56, .ro⟩, ⟨55, 50, .rw⟩, ⟨49, 49, .rw⟩, ⟨48, 48, .wo⟩, ⟨47, 32, .ro⟩]
  | .MIL_CFG => [⟨2, 0, .rwl⟩]
  | .MIL_STAT => [⟨63, 48, .ro⟩, ⟨47, 32, .ro⟩, ⟨31, 0, .ro⟩]
  | .MIL_CORE _ => [⟨63, 48, .ro⟩, ⟨2, 1, .ro⟩, ⟨0, 0, .rw⟩]
  | .MIL_SHARE _ => [⟨7, 0, .rw⟩]
  | .MIL_PHUF _ => [⟨63, 0, .rwl⟩]
  | .ARB_PORT _ => [⟨11, 10, .rwl⟩, ⟨9, 7, .rw⟩, ⟨3, 0, .rw⟩]
  | .ARB_ARB _ => [⟨47, 32, .ro⟩, ⟨11, 8, .rwl⟩, ⟨7, 4, .rwl⟩]
  | .ARB_GRANTS _ => [⟨47, 0, .ro⟩]
  | .ARB_WAITS _ => [⟨47, 0, .ro⟩]
  | .ARB_LONG _ => [⟨63, 63, .wo⟩, ⟨31, 0, .ro⟩]
  | .PRT_MGR => [⟨0, 0, .rwl⟩]
  | .PRT_CFG _ => [⟨63, 32, .rwl⟩, ⟨31, 31, .rwl⟩, ⟨30, 30, .rwl⟩, ⟨29, 29, .rwl⟩, ⟨15, 0, .rw⟩]
  | .PRT_STATE _ => [⟨63, 48, .ro⟩, ⟨2, 0, .ro⟩]
  | .PRT_CTL _ => [⟨2, 2, .wo⟩, ⟨1, 1, .wo⟩, ⟨0, 0, .wo⟩]
  | .PRT_LOGCFG _ => [⟨63, 63, .rw⟩, ⟨52, 48, .rw⟩, ⟨39, 12, .rw⟩]
  | .PRT_LOGBUF0 _ => [⟨39, 9, .rw⟩]
  | .PRT_LOGBUF1 _ => [⟨39, 9, .rw⟩]
  | .PRT_LOGCTL _ => [⟨63, 63, .wo⟩, ⟨62, 62, .ro⟩, ⟨61, 61, .ro⟩, ⟨60, 60, .w1c⟩]
  | .SYS_SHAFTSYND => [⟨63, 56, .ro⟩, ⟨55, 48, .ro⟩, ⟨47, 46, .ro⟩, ⟨39, 3, .ro⟩]
  | .CLU_FSYND _ => [⟨63, 56, .ro⟩, ⟨55, 54, .ro⟩, ⟨53, 48, .ro⟩, ⟨47, 0, .ro⟩]
  | .FLT_STATUS => [⟨63, 63, .ro⟩, ⟨62, 62, .ro⟩, ⟨61, 61, .w1c⟩, ⟨60, 60, .w1c⟩, ⟨59, 0, .w1c⟩]
  | .FLT_ERRMASK => [⟨63, 0, .rw⟩]
  | .FLT_STATE => [⟨15, 8, .ro⟩, ⟨2, 0, .ro⟩]
  | .FLT_RECOV => [⟨63, 48, .rwl⟩, ⟨47, 40, .rwl⟩, ⟨15, 0, .rwl⟩]
  | .FLT_RECOVERIES => [⟨15, 0, .ro⟩]
  | .FLT_BRAKE => [⟨63, 63, .wo⟩, ⟨62, 62, .wo⟩, ⟨61, 61, .wo⟩, ⟨23, 16, .rwl⟩, ⟨13, 8, .rw⟩, ⟨4, 0, .rw⟩]
  | .FLT_TATTR => [⟨31, 0, .ro⟩]
  | .FLT_MATTR => [⟨19, 0, .w1c⟩]
  | .FLT_RELPERM => [⟨63, 0, .rw⟩]
  | .FLT_POLICY _ => [⟨63, 62, .rwl⟩, ⟨39, 20, .rwl⟩, ⟨19, 0, .rwl⟩]
  | .FLT_ATTR _ => [⟨63, 0, .w1c⟩]
  | .FLT_NOTE _ => [⟨6, 5, .rw⟩, ⟨4, 0, .rw⟩]
  | .PAR_CFG => [⟨63, 48, .rwl⟩, ⟨47, 40, .rwl⟩, ⟨39, 32, .rwl⟩, ⟨31, 16, .rwl⟩, ⟨12, 8, .rwl⟩, ⟨2, 2, .rwl⟩, ⟨1, 0, .rwl⟩]
  | .PAR_STAT => [⟨63, 48, .ro⟩, ⟨47, 28, .w1c⟩, ⟨23, 23, .w1c⟩, ⟨22, 22, .w1c⟩, ⟨21, 21, .ro⟩, ⟨20, 20, .ro⟩, ⟨19, 16, .ro⟩, ⟨15, 8, .ro⟩, ⟨2, 0, .ro⟩]
  | .PAR_CTL => [⟨3, 3, .wo⟩, ⟨2, 2, .wo⟩, ⟨1, 1, .wo⟩, ⟨0, 0, .wo⟩]
  | .PAR_TOFF => [⟨63, 0, .ro⟩]
  | .CAS_CFG => [⟨5, 4, .ro⟩, ⟨2, 0, .rwl⟩]
  | .CAS_STAT => [⟨63, 60, .ro⟩, ⟨59, 58, .ro⟩, ⟨57, 57, .ro⟩, ⟨15, 0, .ro⟩]
  | .CAS_CTL => [⟨0, 0, .wo⟩]
  | .CAS_EXPORT _ => [⟨63, 63, .rwl⟩, ⟨31, 22, .rwl⟩, ⟨21, 20, .rwl⟩, ⟨9, 0, .rwl⟩]
  | .SYS_SNAP => [⟨63, 63, .wo⟩, ⟨62, 62, .ro⟩, ⟨61, 61, .wo⟩, ⟨39, 6, .rw⟩]
  | .CFG_STAT => [⟨63, 32, .ro⟩, ⟨31, 31, .ro⟩, ⟨30, 27, .ro⟩, ⟨26, 23, .ro⟩, ⟨22, 20, .ro⟩, ⟨9, 0, .ro⟩]
  | .CFG_SYND => [⟨63, 56, .ro⟩, ⟨55, 48, .ro⟩, ⟨39, 0, .ro⟩]
  | .CFG_CTL => [⟨0, 0, .wo⟩]
  | .CFG_STGADDR => [⟨39, 8, .rw⟩]
  | .CFG_STGCMD => [⟨63, 63, .wo⟩, ⟨62, 61, .rw⟩, ⟨57, 32, .rw⟩, ⟨25, 0, .rw⟩]
  | .CFG_STGSTAT => [⟨63, 63, .ro⟩, ⟨55, 48, .ro⟩, ⟨25, 0, .ro⟩]
  | .HST_STAT => [⟨63, 48, .ro⟩, ⟨47, 40, .ro⟩, ⟨3, 2, .ro⟩, ⟨1, 1, .w1c⟩, ⟨0, 0, .ro⟩]
  | .HST_WBASE _ => [⟨63, 63, .rw⟩, ⟨62, 62, .rw⟩, ⟨61, 60, .rw⟩, ⟨59, 54, .rw⟩, ⟨39, 12, .rw⟩]
  | .HST_WLIMIT _ => [⟨39, 12, .rw⟩]
  | .MGT_STAT => [⟨63, 48, .ro⟩, ⟨47, 16, .ro⟩, ⟨15, 8, .ro⟩, ⟨0, 0, .ro⟩]
  | .MGT_CFG => [⟨0, 0, .rwl⟩]
  | .SYS_PWRCTL => [⟨29, 1, .rw⟩, ⟨0, 0, .ro⟩]
  | .SYS_PWRSTAT => [⟨59, 30, .ro⟩, ⟨29, 0, .ro⟩]
  | .SYS_TEST _ => [⟨63, 63, .wo⟩, ⟨62, 62, .wo⟩, ⟨61, 59, .ro⟩, ⟨51, 48, .rw⟩, ⟨47, 16, .ro⟩, ⟨9, 8, .rw⟩, ⟨7, 0, .rw⟩]
  | .BOK_CTL => [⟨0, 0, .wo⟩]
  | .BOK_STAT => [⟨63, 32, .ro⟩, ⟨31, 16, .ro⟩, ⟨7, 4, .ro⟩, ⟨3, 3, .ro⟩, ⟨0, 0, .ro⟩]
  | .BOK_POLICY => [⟨5, 0, .rwl⟩]
  | .GOV_TEMP => [⟨39, 32, .ro⟩, ⟨19, 16, .ro⟩, ⟨7, 0, .ro⟩]

def TIM_NOW.NOW : Fld := ⟨63, 0⟩
def TIM_STATUS.DRIFT : Fld := ⟨2, 2⟩
def TIM_STATUS.LOSS : Fld := ⟨1, 1⟩
def TIM_STATUS.LOCK : Fld := ⟨0, 0⟩
def GOV_CTRL.MARGIN : Fld := ⟨15, 8⟩
def GOV_CTRL.HOLD : Fld := ⟨1, 1⟩
def GOV_CTRL.RECAL : Fld := ⟨0, 0⟩
def GOV_FLOOR.BASE : Fld := ⟨23, 12⟩
def GOV_FLOOR.FLOOR : Fld := ⟨11, 0⟩
def GOV_STATUS.BELOWREF : Fld := ⟨5, 5⟩
def GOV_STATUS.RECALBUSY : Fld := ⟨4, 4⟩
def GOV_STATUS.UNDERV : Fld := ⟨3, 3⟩
def GOV_STATUS.AVSERR : Fld := ⟨2, 2⟩
def GOV_STATUS.FLOORMISS : Fld := ⟨1, 1⟩
def GOV_STATUS.ATMAX : Fld := ⟨0, 0⟩
def GOV_INDEX.MON : Fld := ⟨19, 16⟩
def GOV_INDEX.INDEX : Fld := ⟨11, 0⟩
def GOV_VOLT.MEAS : Fld := ⟨25, 16⟩
def GOV_VOLT.CMD : Fld := ⟨9, 0⟩
def GOV_MON.INDEX : Fld := ⟨11, 0⟩
def CLU_CSSTAT.FAILED : Fld := ⟨63, 63⟩
def CLU_CSSTAT.REPAIRS : Fld := ⟨47, 32⟩
def CLU_CSSTAT.RETRIES : Fld := ⟨31, 16⟩
def CLU_CSSTAT.LASTADDR : Fld := ⟨12, 0⟩
def CLU_TCFG.RSTWIN : Fld := ⟨63, 48⟩
def CLU_TCFG.SLUPER : Fld := ⟨39, 32⟩
def CLU_TCFG.REBUILDLIM : Fld := ⟨31, 24⟩
def CLU_TCFG.DIGLOG : Fld := ⟨20, 16⟩
def CLU_TCFG.DBGEN : Fld := ⟨3, 3⟩
def CLU_TCFG.SLUCONT : Fld := ⟨2, 2⟩
def CLU_TCFG.MODE : Fld := ⟨0, 0⟩
def CLU_TSTATE.LOGFULL : Fld := ⟨11, 11⟩
def CLU_TSTATE.RPVALID : Fld := ⟨10, 10⟩
def CLU_TSTATE.NOTSAFE : Fld := ⟨9, 9⟩
def CLU_TSTATE.DBGHOLD : Fld := ⟨8, 8⟩
def CLU_TSTATE.RSTUSED : Fld := ⟨7, 7⟩
def CLU_TSTATE.VOTE : Fld := ⟨6, 4⟩
def CLU_TSTATE.STATE : Fld := ⟨2, 0⟩
def CLU_LANEMAP.LANE2 : Fld := ⟨11, 8⟩
def CLU_LANEMAP.LANE1 : Fld := ⟨7, 4⟩
def CLU_LANEMAP.LANE0 : Fld := ⟨3, 0⟩
def CLU_TCOUNT.MISMATCH : Fld := ⟨63, 48⟩
def CLU_TCOUNT.REBUILDS : Fld := ⟨47, 32⟩
def CLU_TCOUNT.RETRIES : Fld := ⟨31, 16⟩
def CLU_TCOUNT.RESTARTS : Fld := ⟨15, 8⟩
def CLU_TCOUNT.SWAPS : Fld := ⟨7, 0⟩
def CLU_TSYND.POINT : Fld := ⟨63, 32⟩
def CLU_TSYND.KIND : Fld := ⟨23, 20⟩
def CLU_TSYND.AGREE : Fld := ⟨13, 11⟩
def CLU_TSYND.MINOR : Fld := ⟨10, 8⟩
def CLU_SLUTEST.RUNS : Fld := ⟨63, 48⟩
def CLU_SLUTEST.DONE : Fld := ⟨15, 15⟩
def CLU_SLUTEST.PASS : Fld := ⟨14, 14⟩
def CLU_SLUTEST.RESULT : Fld := ⟨7, 0⟩
def CLU_CKPT.COUNT : Fld := ⟨47, 0⟩
def CLU_TCTL.LANE : Fld := ⟨7, 6⟩
def CLU_TCTL.REBUILD : Fld := ⟨5, 5⟩
def CLU_TCTL.ONE : Fld := ⟨4, 4⟩
def CLU_TCTL.SLURUN : Fld := ⟨1, 1⟩
def CLU_TCTL.RESET : Fld := ⟨0, 0⟩
def CLU_SPARE.TRIAD : Fld := ⟨5, 4⟩
def CLU_SPARE.LANE : Fld := ⟨3, 2⟩
def CLU_SPARE.STATE : Fld := ⟨1, 0⟩
def CLU_EVTIMER.DUE : Fld := ⟨63, 0⟩
def CLU_EVCFG.SWEEPEN : Fld := ⟨17, 17⟩
def CLU_EVCFG.PPSEN : Fld := ⟨16, 16⟩
def CLU_EVCFG.HOSTEN : Fld := ⟨15, 0⟩
def CLU_EVSTAT.LASTEV : Fld := ⟨63, 51⟩
def CLU_EVSTAT.INVALL : Fld := ⟨48, 48⟩
def CLU_EVSTAT.LASTCOUNT : Fld := ⟨47, 0⟩
def CLU_CFG.RANGEMODE : Fld := ⟨0, 0⟩
def CLU_SWEEP.BUSY : Fld := ⟨63, 63⟩
def CLU_SWEEP.STOPPED : Fld := ⟨62, 62⟩
def CLU_SWEEP.OP : Fld := ⟨61, 60⟩
def CLU_SWEEP.SEL : Fld := ⟨59, 59⟩
def CLU_SWEEP.SKIP : Fld := ⟨55, 40⟩
def CLU_SWEEP.POS : Fld := ⟨25, 0⟩
def CLU_L1CTL.IACT : Fld := ⟨3, 3⟩
def CLU_L1CTL.DACT : Fld := ⟨2, 2⟩
def CLU_L1CTL.IEN : Fld := ⟨1, 1⟩
def CLU_L1CTL.DEN : Fld := ⟨0, 0⟩
def PRT_WBASE.BASE : Fld := ⟨39, 12⟩
def PRT_WBASE.X : Fld := ⟨2, 2⟩
def PRT_WBASE.W : Fld := ⟨1, 1⟩
def PRT_WBASE.EN : Fld := ⟨0, 0⟩
def PRT_WLIMIT.LIMIT : Fld := ⟨39, 12⟩
def PRT_WOFFSET.OFFSET : Fld := ⟨39, 12⟩
def BNK_OWNER.CLR : Fld := ⟨17, 17⟩
def BNK_OWNER.BUSY : Fld := ⟨16, 16⟩
def BNK_OWNER.TYPE : Fld := ⟨10, 8⟩
def BNK_OWNER.PART : Fld := ⟨5, 0⟩
def BNK_ECC.CE : Fld := ⟨63, 48⟩
def BNK_ECC.UE : Fld := ⟨47, 40⟩
def BNK_ECC.SYND : Fld := ⟨39, 32⟩
def BNK_ECC.KIND : Fld := ⟨31, 30⟩
def BNK_ECC.WORD : Fld := ⟨16, 0⟩
def DRM_CFG.TRAINED : Fld := ⟨15, 15⟩
def DRM_CFG.RATE : Fld := ⟨9, 8⟩
def DRM_CFG.REF2X : Fld := ⟨7, 7⟩
def DRM_CFG.DENS : Fld := ⟨4, 4⟩
def DRM_CFG.RANKS : Fld := ⟨1, 1⟩
def DRM_CFG.PRESENT : Fld := ⟨0, 0⟩
def DRM_SCRUB.PASSES : Fld := ⟨63, 48⟩
def DRM_SCRUB.INTERVAL : Fld := ⟨7, 0⟩
def DRM_INIT.DONE : Fld := ⟨63, 63⟩
def DRM_INIT.REGIONS : Fld := ⟨15, 0⟩
def DRM_ECC.CE : Fld := ⟨63, 48⟩
def DRM_ECC.UE : Fld := ⟨47, 40⟩
def DRM_ECC.SYND : Fld := ⟨39, 32⟩
def DRM_ECC.KIND : Fld := ⟨31, 30⟩
def DRM_ECC.SCRUB : Fld := ⟨29, 29⟩
def DRM_EADR.ADDR : Fld := ⟨39, 3⟩
def SYS_DEVTIMEOUT.TIMEOUTS : Fld := ⟨63, 48⟩
def SYS_DEVTIMEOUT.LIMIT : Fld := ⟨12, 0⟩
def SYS_BARSTAT.ROUNDS : Fld := ⟨63, 48⟩
def SYS_BARSTAT.MEMBERS : Fld := ⟨23, 16⟩
def SYS_BARSTAT.ARRIVED : Fld := ⟨15, 8⟩
def SYS_BARSTAT.GRANTED : Fld := ⟨7, 7⟩
def SYS_BARSTAT.PART : Fld := ⟨5, 0⟩
def SYS_JRNSTAT.REPLAYED : Fld := ⟨63, 48⟩
def SYS_JRNSTAT.DISCARDED : Fld := ⟨47, 32⟩
def SYS_JRNSTAT.FREE : Fld := ⟨15, 0⟩
def SYS_COMMITSEQ.CSEQ : Fld := ⟨63, 0⟩
def CLU_TXCOUNT.COMMITS : Fld := ⟨63, 32⟩
def CLU_TXCOUNT.ABORTS : Fld := ⟨31, 16⟩
def CLU_TXCOUNT.CONFLICTS : Fld := ⟨15, 0⟩
def CHN_PATHCFG.EN : Fld := ⟨63, 63⟩
def CHN_PATHCFG.SEC : Fld := ⟨62, 61⟩
def CHN_PATHCFG.CMP : Fld := ⟨60, 60⟩
def CHN_PATHCFG.WCP : Fld := ⟨59, 59⟩
def CHN_PATHCFG.PRIO : Fld := ⟨58, 56⟩
def CHN_PATHCFG.CLASS : Fld := ⟨55, 54⟩
def CHN_PATHCFG.OWNER : Fld := ⟨53, 48⟩
def CHN_PATHCFG.QUOTA : Fld := ⟨47, 40⟩
def CHN_PATHCFG.QUEUE : Fld := ⟨39, 28⟩
def CHN_PATHCFG.LANE : Fld := ⟨27, 20⟩
def CHN_PATHCFG.KEYSLOT : Fld := ⟨19, 8⟩
def CHN_PATHCFG.RETX : Fld := ⟨7, 0⟩
def CHN_PATHMATCH0.VLANEN : Fld := ⟨63, 63⟩
def CHN_PATHMATCH0.PCP : Fld := ⟨62, 60⟩
def CHN_PATHMATCH0.VID : Fld := ⟨59, 48⟩
def CHN_PATHMATCH0.ADDR : Fld := ⟨47, 0⟩
def CHN_PATHMATCH1.UDP : Fld := ⟨48, 48⟩
def CHN_PATHMATCH1.TYPEPORT : Fld := ⟨47, 32⟩
def CHN_PATHMATCH1.PEER : Fld := ⟨31, 0⟩
def CHN_PATHAUX.DIR : Fld := ⟨63, 63⟩
def CHN_PATHAUX.SAFELEN : Fld := ⟨61, 48⟩
def CHN_PATHAUX.SAFEADDR : Fld := ⟨39, 6⟩
def CHN_PATHSEQ.TXSEQ : Fld := ⟨63, 32⟩
def CHN_PATHSEQ.RXNEXT : Fld := ⟨31, 0⟩
def CHN_PATHSTAT.EPOCH : Fld := ⟨63, 48⟩
def CHN_PATHSTAT.PEEREPOCH : Fld := ⟨47, 32⟩
def CHN_PATHSTAT.UNACK : Fld := ⟨31, 23⟩
def CHN_PATHSTAT.DOWN : Fld := ⟨22, 22⟩
def CHN_PATHSTAT.AWAIT : Fld := ⟨21, 21⟩
def CHN_PATHSTAT.PEERVALID : Fld := ⟨20, 20⟩
def CHN_PATHCTL.ABORT : Fld := ⟨0, 0⟩
def CHN_PATHCNT.DUPS : Fld := ⟨63, 48⟩
def CHN_PATHCNT.RETRANS : Fld := ⟨47, 32⟩
def CHN_PATHCNT.TAGFAIL : Fld := ⟨31, 16⟩
def CHN_PATHCNT.NOBUF : Fld := ⟨15, 0⟩
def QUE_CFG.EN : Fld := ⟨63, 63⟩
def QUE_CFG.PRIV : Fld := ⟨62, 62⟩
def QUE_CFG.CLASS : Fld := ⟨61, 60⟩
def QUE_CFG.PRIO : Fld := ⟨59, 57⟩
def QUE_CFG.EVEN : Fld := ⟨56, 56⟩
def QUE_CFG.OWNER : Fld := ⟨55, 50⟩
def QUE_CFG.TRIAD : Fld := ⟨49, 45⟩
def QUE_CFG.POS : Fld := ⟨44, 43⟩
def QUE_CFG.HOST : Fld := ⟨42, 42⟩
def QUE_CFG.PATH : Fld := ⟨41, 32⟩
def QUE_HR.LOG2 : Fld := ⟨63, 60⟩
def QUE_HR.BASE : Fld := ⟨39, 6⟩
def QUE_TR.LOG2 : Fld := ⟨63, 60⟩
def QUE_TR.BASE : Fld := ⟨39, 5⟩
def QUE_CTLA.BASE : Fld := ⟨39, 7⟩
def QUE_PROG.BASE : Fld := ⟨39, 5⟩
def QUE_GEN.STALE : Fld := ⟨63, 48⟩
def QUE_GEN.GEN : Fld := ⟨15, 0⟩
def QUE_STAT.DONE : Fld := ⟨63, 32⟩
def QUE_STAT.ERRS : Fld := ⟨31, 16⟩
def QUE_STAT.STATE : Fld := ⟨2, 0⟩
def QUE_CMD.ABORT : Fld := ⟨0, 0⟩
def CHN_TAGS.FREE : Fld := ⟨62, 48⟩
def CHN_TAGS.RES0 : Fld := ⟨14, 0⟩
def CHN_WCPCFG.EHIGH : Fld := ⟨63, 48⟩
def CHN_WCPCFG.ACKDLY : Fld := ⟨23, 16⟩
def CHN_WCPCFG.ETYPE : Fld := ⟨15, 0⟩
def CHN_STAT.NOMATCH : Fld := ⟨63, 32⟩
def CHN_STAT.TAGWAITS : Fld := ⟨31, 0⟩
def LAN_QCFG.RATE : Fld := ⟨1, 0⟩
def LAN_CFG.EN : Fld := ⟨63, 63⟩
def LAN_CFG.FEC : Fld := ⟨62, 61⟩
def LAN_CFG.AN37 : Fld := ⟨60, 60⟩
def LAN_CFG.PAUSEEN : Fld := ⟨59, 59⟩
def LAN_CFG.CRIT : Fld := ⟨58, 58⟩
def LAN_CFG.MAXFRAME : Fld := ⟨45, 32⟩
def LAN_MAC.MAC : Fld := ⟨47, 0⟩
def LAN_IP.DSCP : Fld := ⟨45, 40⟩
def LAN_IP.TTL : Fld := ⟨39, 32⟩
def LAN_IP.ADDR : Fld := ⟨31, 0⟩
def LAN_CTL.LOOP : Fld := ⟨2, 1⟩
def LAN_CTL.RETRAIN : Fld := ⟨0, 0⟩
def LAN_STAT.RETRAINS : Fld := ⟨63, 48⟩
def LAN_STAT.PAUSED : Fld := ⟨2, 2⟩
def LAN_STAT.TRAINING : Fld := ⟨1, 1⟩
def LAN_STAT.LINK : Fld := ⟨0, 0⟩
def LAN_CNT.FCSERR : Fld := ⟨63, 48⟩
def LAN_CNT.DOWNDROP : Fld := ⟨47, 32⟩
def LAN_CNT.FECCORR : Fld := ⟨31, 16⟩
def LAN_CNT.FECUNC : Fld := ⟨15, 0⟩
def LAN_TXTS.VALID : Fld := ⟨63, 63⟩
def LAN_TXTS.OVER : Fld := ⟨62, 62⟩
def LAN_TXTS.MSGTYPE : Fld := ⟨61, 58⟩
def LAN_TXTS.SEQID : Fld := ⟨57, 42⟩
def LAN_TXTS.TIME : Fld := ⟨41, 0⟩
def FLD_CFG.EN : Fld := ⟨63, 63⟩
def FLD_CFG.MODE : Fld := ⟨62, 61⟩
def FLD_CFG.OWNER : Fld := ⟨60, 55⟩
def FLD_CFG.TRIADEN : Fld := ⟨54, 54⟩
def FLD_CFG.TRIAD : Fld := ⟨53, 49⟩
def FLD_CFG.SAFETXD : Fld := ⟨48, 48⟩
def FLD_CFG.SAFEDE : Fld := ⟨47, 47⟩
def FLD_CFG.FDTX : Fld := ⟨46, 46⟩
def FLD_CFG.BRSTX : Fld := ⟨45, 45⟩
def FLD_CFG.RETRY : Fld := ⟨43, 40⟩
def FLD_CFG.PARITY : Fld := ⟨39, 38⟩
def FLD_CFG.STOP2 : Fld := ⟨37, 37⟩
def FLD_CFG.DATA7 : Fld := ⟨36, 36⟩
def FLD_CFG.FULLDUP : Fld := ⟨35, 35⟩
def FLD_CFG.IDLE : Fld := ⟨31, 24⟩
def FLD_CFG.LEAD : Fld := ⟨23, 20⟩
def FLD_CFG.LAG : Fld := ⟨19, 16⟩
def FLD_TIMING.DSJW : Fld := ⟨63, 59⟩
def FLD_TIMING.DTSEG2 : Fld := ⟨58, 54⟩
def FLD_TIMING.DTSEG1 : Fld := ⟨53, 48⟩
def FLD_TIMING.DBRP : Fld := ⟨47, 40⟩
def FLD_TIMING.NSJW : Fld := ⟨39, 33⟩
def FLD_TIMING.NTSEG2 : Fld := ⟨32, 26⟩
def FLD_TIMING.NTSEG1 : Fld := ⟨25, 17⟩
def FLD_TIMING.NBRP : Fld := ⟨16, 8⟩
def FLD_TIMING.TDCO : Fld := ⟨7, 0⟩
def FLD_CTL.LOOP : Fld := ⟨1, 1⟩
def FLD_STAT.TEC : Fld := ⟨63, 56⟩
def FLD_STAT.REC : Fld := ⟨55, 48⟩
def FLD_STAT.CANST : Fld := ⟨47, 46⟩
def FLD_STAT.SAFE : Fld := ⟨45, 45⟩
def FLD_CNT.RXERR : Fld := ⟨63, 48⟩
def FLD_CNT.ERRFR : Fld := ⟨47, 32⟩
def FLD_CNT.DROPS : Fld := ⟨31, 16⟩
def FLD_CNT.BUSOFF : Fld := ⟨15, 0⟩
def TIM_PTP.PTP : Fld := ⟨63, 0⟩
def TIM_PTPRATE.RATE : Fld := ⟨31, 0⟩
def TIM_PTPSTEP.STEP : Fld := ⟨63, 0⟩
def TIM_PPS.OUTEN : Fld := ⟨16, 16⟩
def TIM_PPS.WIDTH : Fld := ⟨15, 0⟩
def TIM_PPSIN.PTP : Fld := ⟨63, 0⟩
def TIM_PPSNOW.NOW : Fld := ⟨63, 0⟩
def CPH_CFG.RES0 : Fld := ⟨3, 0⟩
def CPH_STAT.TAGFAIL : Fld := ⟨63, 48⟩
def CPH_STAT.UNWRAPFAIL : Fld := ⟨47, 32⟩
def CPH_STAT.JOBS : Fld := ⟨31, 0⟩
def CPH_CORE.ERRS : Fld := ⟨63, 48⟩
def CPH_CORE.STATE : Fld := ⟨2, 1⟩
def CPH_CORE.OUT : Fld := ⟨0, 0⟩
def CPH_SHARE.WEIGHT : Fld := ⟨7, 0⟩
def CPH_UNWRAP_ADDR.ADDR : Fld := ⟨39, 3⟩
def CPH_UNWRAP_CMD.GO : Fld := ⟨63, 63⟩
def CPH_UNWRAP_CMD.ROOT : Fld := ⟨62, 62⟩
def CPH_UNWRAP_CMD.CLASS : Fld := ⟨61, 60⟩
def CPH_UNWRAP_CMD.KEK : Fld := ⟨35, 24⟩
def CPH_UNWRAP_CMD.TARGET : Fld := ⟨11, 0⟩
def CPH_UNWRAP_STAT.BUSY : Fld := ⟨63, 63⟩
def CPH_UNWRAP_STAT.RESULT : Fld := ⟨55, 48⟩
def CPH_UNWRAP_STAT.SLOT : Fld := ⟨11, 0⟩
def CPH_SLOT.VALID : Fld := ⟨63, 63⟩
def CPH_SLOT.LOADING : Fld := ⟨62, 62⟩
def CPH_SLOT.KLEN : Fld := ⟨61, 60⟩
def CPH_SLOT.USE : Fld := ⟨59, 56⟩
def CPH_SLOT.OWNER : Fld := ⟨55, 50⟩
def CPH_SLOT.ASSIGNED : Fld := ⟨49, 49⟩
def CPH_SLOT.CLR : Fld := ⟨48, 48⟩
def CPH_SLOT.GEN : Fld := ⟨47, 32⟩
def MIL_CFG.RES0 : Fld := ⟨2, 0⟩
def MIL_STAT.FMTERR : Fld := ⟨63, 48⟩
def MIL_STAT.RAWBLK : Fld := ⟨47, 32⟩
def MIL_STAT.JOBS : Fld := ⟨31, 0⟩
def MIL_CORE.ERRS : Fld := ⟨63, 48⟩
def MIL_CORE.STATE : Fld := ⟨2, 1⟩
def MIL_CORE.OUT : Fld := ⟨0, 0⟩
def MIL_SHARE.WEIGHT : Fld := ⟨7, 0⟩
def ARB_PORT.CLASS : Fld := ⟨11, 10⟩
def ARB_PORT.PRIO : Fld := ⟨9, 7⟩
def ARB_PORT.WEIGHT : Fld := ⟨3, 0⟩
def ARB_ARB.MEANXFER : Fld := ⟨47, 32⟩
def ARB_ARB.RSV3 : Fld := ⟨11, 8⟩
def ARB_ARB.RSV2 : Fld := ⟨7, 4⟩
def ARB_GRANTS.GRANTS : Fld := ⟨47, 0⟩
def ARB_WAITS.WAITS : Fld := ⟨47, 0⟩
def ARB_LONG.CLR : Fld := ⟨63, 63⟩
def ARB_LONG.LONGEST : Fld := ⟨31, 0⟩
def PRT_MGR.SITE : Fld := ⟨0, 0⟩
def PRT_CFG.TRIADS : Fld := ⟨63, 32⟩
def PRT_CFG.DEFINED : Fld := ⟨31, 31⟩
def PRT_CFG.AUTOSTART : Fld := ⟨30, 30⟩
def PRT_CFG.PTP : Fld := ⟨29, 29⟩
def PRT_CFG.BARGRANT : Fld := ⟨15, 0⟩
def PRT_STATE.RESETS : Fld := ⟨63, 48⟩
def PRT_STATE.STATE : Fld := ⟨2, 0⟩
def PRT_CTL.REMOVE : Fld := ⟨2, 2⟩
def PRT_CTL.RESET : Fld := ⟨1, 1⟩
def PRT_CTL.START : Fld := ⟨0, 0⟩
def PRT_LOGCFG.EN : Fld := ⟨63, 63⟩
def PRT_LOGCFG.LOG2 : Fld := ⟨52, 48⟩
def PRT_LOGCFG.FIRST : Fld := ⟨39, 12⟩
def PRT_LOGBUF0.ADDR : Fld := ⟨39, 9⟩
def PRT_LOGBUF1.ADDR : Fld := ⟨39, 9⟩
def PRT_LOGCTL.SWAP : Fld := ⟨63, 63⟩
def PRT_LOGCTL.BUSY : Fld := ⟨62, 62⟩
def PRT_LOGCTL.ACTIVE : Fld := ⟨61, 61⟩
def PRT_LOGCTL.OUTSIDE : Fld := ⟨60, 60⟩
def SYS_SHAFTSYND.PORT : Fld := ⟨63, 56⟩
def SYS_SHAFTSYND.SYND : Fld := ⟨55, 48⟩
def SYS_SHAFTSYND.CLASS : Fld := ⟨47, 46⟩
def SYS_SHAFTSYND.ADDR : Fld := ⟨39, 3⟩
def CLU_FSYND.CODE : Fld := ⟨63, 56⟩
def CLU_FSYND.CLASS : Fld := ⟨55, 54⟩
def CLU_FSYND.PART : Fld := ⟨53, 48⟩
def CLU_FSYND.TIME : Fld := ⟨47, 0⟩
def FLT_STATUS.SAFE : Fld := ⟨63, 63⟩
def FLT_STATUS.RECOVERED : Fld := ⟨62, 62⟩
def FLT_STATUS.FALLBACK : Fld := ⟨61, 61⟩
def FLT_STATUS.EXTBRAKE : Fld := ⟨60, 60⟩
def FLT_STATUS.SRC : Fld := ⟨59, 0⟩
def FLT_ERRMASK.MASK : Fld := ⟨63, 0⟩
def FLT_STATE.CAUSE : Fld := ⟨15, 8⟩
def FLT_STATE.STATE : Fld := ⟨2, 0⟩
def FLT_RECOV.WINDOW : Fld := ⟨63, 48⟩
def FLT_RECOV.LIMIT : Fld := ⟨47, 40⟩
def FLT_RECOV.QUIET : Fld := ⟨15, 0⟩
def FLT_RECOVERIES.COUNT : Fld := ⟨15, 0⟩
def FLT_BRAKE.DEVICE : Fld := ⟨63, 63⟩
def FLT_BRAKE.PARTB : Fld := ⟨62, 62⟩
def FLT_BRAKE.TRIADB : Fld := ⟨61, 61⟩
def FLT_BRAKE.SAFEHOLD : Fld := ⟨23, 16⟩
def FLT_BRAKE.PART : Fld := ⟨13, 8⟩
def FLT_BRAKE.TRIAD : Fld := ⟨4, 0⟩
def FLT_TATTR.TRIAD : Fld := ⟨31, 0⟩
def FLT_MATTR.SRC : Fld := ⟨19, 0⟩
def FLT_RELPERM.PART : Fld := ⟨63, 0⟩
def FLT_POLICY.ESC : Fld := ⟨63, 62⟩
def FLT_POLICY.GRACE1 : Fld := ⟨39, 20⟩
def FLT_POLICY.GRACE0 : Fld := ⟨19, 0⟩
def FLT_ATTR.PART : Fld := ⟨63, 0⟩
def FLT_NOTE.POS : Fld := ⟨6, 5⟩
def FLT_NOTE.TRIAD : Fld := ⟨4, 0⟩
def PAR_CFG.SWAPINT : Fld := ⟨63, 48⟩
def PAR_CFG.LAGMAX : Fld := ⟨47, 40⟩
def PAR_CFG.SHADOW : Fld := ⟨39, 32⟩
def PAR_CFG.JOINWAIT : Fld := ⟨31, 16⟩
def PAR_CFG.HBLOSS : Fld := ⟨12, 8⟩
def PAR_CFG.AUTOJOIN : Fld := ⟨2, 2⟩
def PAR_CFG.TOPO : Fld := ⟨1, 0⟩
def PAR_STAT.TAKEOVERS : Fld := ⟨63, 48⟩
def PAR_STAT.PFLT : Fld := ⟨47, 28⟩
def PAR_STAT.DBLPRIM : Fld := ⟨23, 23⟩
def PAR_STAT.DESYNC : Fld := ⟨22, 22⟩
def PAR_STAT.WATCHOK : Fld := ⟨21, 21⟩
def PAR_STAT.LEATOK : Fld := ⟨20, 20⟩
def PAR_STAT.LANES : Fld := ⟨19, 16⟩
def PAR_STAT.LAG : Fld := ⟨15, 8⟩
def PAR_STAT.STATE : Fld := ⟨2, 0⟩
def PAR_CTL.RESETBOTH : Fld := ⟨3, 3⟩
def PAR_CTL.DETACH : Fld := ⟨2, 2⟩
def PAR_CTL.ADMIT : Fld := ⟨1, 1⟩
def PAR_CTL.HANDOVER : Fld := ⟨0, 0⟩
def PAR_TOFF.TOFF : Fld := ⟨63, 0⟩
def CAS_CFG.ID : Fld := ⟨5, 4⟩
def CAS_CFG.SIZE : Fld := ⟨2, 0⟩
def CAS_STAT.REACH : Fld := ⟨63, 60⟩
def CAS_STAT.MASTER : Fld := ⟨59, 58⟩
def CAS_STAT.BROKEN : Fld := ⟨57, 57⟩
def CAS_STAT.LINKLOSS : Fld := ⟨15, 0⟩
def CAS_CTL.RESETALL : Fld := ⟨0, 0⟩
def CAS_EXPORT.EN : Fld := ⟨63, 63⟩
def CAS_EXPORT.PROXY : Fld := ⟨31, 22⟩
def CAS_EXPORT.DEV : Fld := ⟨21, 20⟩
def CAS_EXPORT.PATH : Fld := ⟨9, 0⟩
def SYS_SNAP.GO : Fld := ⟨63, 63⟩
def SYS_SNAP.BUSY : Fld := ⟨62, 62⟩
def SYS_SNAP.CASC : Fld := ⟨61, 61⟩
def SYS_SNAP.ADDR : Fld := ⟨39, 6⟩
def CFG_STAT.SEQ : Fld := ⟨63, 32⟩
def CFG_STAT.COPY : Fld := ⟨31, 31⟩
def CFG_STAT.AREASON : Fld := ⟨30, 27⟩
def CFG_STAT.BREASON : Fld := ⟨26, 23⟩
def CFG_STAT.BOOTSEL : Fld := ⟨22, 20⟩
def CFG_STAT.LOADMS : Fld := ⟨9, 0⟩
def CFG_SYND.CODE : Fld := ⟨63, 56⟩
def CFG_SYND.TYPE : Fld := ⟨55, 48⟩
def CFG_SYND.ADDR : Fld := ⟨39, 0⟩
def CFG_CTL.RESET : Fld := ⟨0, 0⟩
def CFG_STGADDR.ADDR : Fld := ⟨39, 8⟩
def CFG_STGCMD.GO : Fld := ⟨63, 63⟩
def CFG_STGCMD.OP : Fld := ⟨62, 61⟩
def CFG_STGCMD.OFFSET : Fld := ⟨57, 32⟩
def CFG_STGCMD.LEN : Fld := ⟨25, 0⟩
def CFG_STGSTAT.BUSY : Fld := ⟨63, 63⟩
def CFG_STGSTAT.RESULT : Fld := ⟨55, 48⟩
def CFG_STGSTAT.DONE : Fld := ⟨25, 0⟩
def HST_STAT.LINKDOWNS : Fld := ⟨63, 48⟩
def HST_STAT.LASTERR : Fld := ⟨47, 40⟩
def HST_STAT.WIDTH : Fld := ⟨3, 2⟩
def HST_STAT.STALL : Fld := ⟨1, 1⟩
def HST_STAT.UP : Fld := ⟨0, 0⟩
def HST_WBASE.EN : Fld := ⟨63, 63⟩
def HST_WBASE.W : Fld := ⟨62, 62⟩
def HST_WBASE.KIND : Fld := ⟨61, 60⟩
def HST_WBASE.PART : Fld := ⟨59, 54⟩
def HST_WBASE.BASE : Fld := ⟨39, 12⟩
def HST_WLIMIT.LIMIT : Fld := ⟨39, 12⟩
def MGT_STAT.MEPOCH : Fld := ⟨63, 48⟩
def MGT_STAT.LASTSEQ : Fld := ⟨47, 16⟩
def MGT_STAT.AUTHFAIL : Fld := ⟨15, 8⟩
def MGT_STAT.KEY : Fld := ⟨0, 0⟩
def MGT_CFG.ALERTFLT : Fld := ⟨0, 0⟩
def SYS_PWRCTL.REQ : Fld := ⟨29, 1⟩
def SYS_PWRSTAT.BUSY : Fld := ⟨59, 30⟩
def SYS_PWRSTAT.ON : Fld := ⟨29, 0⟩
def SYS_TEST.GO : Fld := ⟨63, 63⟩
def SYS_TEST.CANCEL : Fld := ⟨62, 62⟩
def SYS_TEST.STATE : Fld := ⟨61, 59⟩
def SYS_TEST.KIND : Fld := ⟨51, 48⟩
def SYS_TEST.DETAIL : Fld := ⟨47, 16⟩
def SYS_TEST.LANE : Fld := ⟨9, 8⟩
def SYS_TEST.TARGET : Fld := ⟨7, 0⟩
def BOK_CTL.SAVE : Fld := ⟨0, 0⟩
def BOK_STAT.SAVESEQ : Fld := ⟨63, 32⟩
def BOK_STAT.SAVEFAIL : Fld := ⟨31, 16⟩
def BOK_STAT.SLOT : Fld := ⟨7, 4⟩
def BOK_STAT.PORT : Fld := ⟨3, 3⟩
def BOK_STAT.BUSY : Fld := ⟨0, 0⟩
def BOK_POLICY.INTERVAL : Fld := ⟨5, 0⟩
def GOV_TEMP.PEAK : Fld := ⟨39, 32⟩
def GOV_TEMP.SENSOR : Fld := ⟨19, 16⟩
def GOV_TEMP.TJ : Fld := ⟨7, 0⟩

end Sys2Proof.Machine
end

