-- ==== Sys2Proof/Machine/LaneTypes.lean ====
section
/-! DEFINITION. The state of the cores and triads: architectural registers, store buffer, caches, translation
state, the sluice, event delivery, transactions (chapters 03, 06, 07, 08, 10, 11). -/
namespace Sys2Proof.Machine

/-- The architectural state of a core: every item of R137 (R62, R63, R68). -/
structure Arch where
  g : Tab Word := []
  f : Tab Word := []
  pc : Word := 0
  status : Word := 0
  estatus : Word := 0
  epc : Word := 0
  ecause : Word := 0
  eval : Word := 0
  excShadow : Word := 0
  vbr : Word := 0
  mvbr : Word := 0
  sscratch : Word := 0
  mscratch : Word := 0
  ptbr : Word := 0
  asid : Word := 0
  fpsr : Word := 0
  bargroup : Word := 0
  txstatus : Word := 0
  /-- Abort handler of the open transaction, or 0 (R137). -/
  handler : Word := 0
  deriving DecidableEq, Repr

/-- A register of either file. -/
inductive RegId where
  | g (n : Reg) | f (n : Reg)
  deriving DecidableEq, Repr

/-- A store record (R132), TEST apart (R154 records are formed inside the sluice test). -/
structure StoreRec where
  seq : Nat
  data : DWord
  addr : PAddr
  be : BitVec 8
  dev : Bool := false
  txn : Bool := false
  dbg : Bool := false
  bankAlias : BitVec 2 := 0
  deriving DecidableEq, Repr

/-- A commit record (R266). -/
structure CommitRec where
  seq : Nat
  whash : DWord
  digest : DWord
  lines : Nat
  deriving DecidableEq, Repr

/-- What the sluice votes by SEQ (R133, R134). -/
inductive VRec where
  | store (r : StoreRec)
  | commit (r : CommitRec)
  deriving DecidableEq, Repr

/-- The kind of a digest point (R136). -/
inductive DigKind where
  | interval | entry | tbegin | tend | txAbort | forced | readmission | restart
  deriving DecidableEq, Repr

/-- A load whose value is written in the next instruction (R73). -/
structure LoadDelay where
  reg : RegId
  value : Word
  deriving DecidableEq, Repr

/-- A checkpoint: the items of R138. -/
structure Ckpt where
  arch : Arch := {}
  retired : Nat := 0
  storeSeq : Nat := 0
  readSeq : Nat := 0
  txNo : Nat := 0
  save : Option Arch := none
  txLines : List Nat := []
  whash : DWord := 0
  digNo : Nat := 0
  /-- items of the delivery log taken before this point -/
  evNo : Nat := 0
  crc : DWord := 0
  /-- taken at a `TEND` that commits: the lane resumes waiting there (R277) -/
  tend : Bool := false
  /-- the load delay at the point (R73, R76): a load that has retired, and the value the next instruction reads -/
  ldPend : Option LoadDelay := none
  feed : Option LoadDelay := none
  deriving DecidableEq, Repr

/-- A digest record with the lane's staging slot (R137, R138). -/
structure DigRec where
  /-- ordinal of the digest point in the lane, from the triad's start -/
  no : Nat
  kind : DigKind
  crc : DWord
  count : Nat
  staged : Ckpt
  deriving DecidableEq, Repr

/-- What an agreed read reads (R175). -/
inductive ARKind where
  | load (addr : PAddr)
  | timebase
  | txstatus
  | hint
  | bararrive (g : BitVec 4)
  deriving DecidableEq, Repr

/-- An agreed-read request: what, and its read sequence number (R176). -/
structure AReq where
  kind : ARKind
  rseq : Nat
  deriving DecidableEq, Repr

/-- An agreed-read result in the result buffer (R176); `err` is the error result of R523. -/
structure ARes where
  req : AReq
  value : DWord
  err : Bool
  taken : List Nat := []
  /-- invalidations queued before the read, applied by each lane before it uses the result (R172) -/
  invs : List Nat := []
  invAll : Bool := false
  deriving DecidableEq, Repr

/-- A line fetched for a lane: the answer to a miss at one retired count (R173); `bad` is the physical address of an
uncorrectable word of it (R227). -/
structure Fill where
  line : Nat
  count : Nat
  data : BitVec 512
  bad : List Nat := []
  /-- invalidations queued before the fetch, applied by each lane before it uses the line (R172) -/
  invs : List Nat := []
  invAll : Bool := false
  /-- an invalidation of the line arrived after the fetch: not installed (R186 rule 4) -/
  stale : Bool := false
  deriving DecidableEq, Repr

/-- A snapshot of the bin (R173). -/
structure Snap where
  fill : Fill
  taken : List Nat := []
  deriving DecidableEq, Repr

/-- A cache line of an L1: its line number (PA[39:6]), data and read-set mark (R180, R257). -/
structure CLine where
  line : Nat
  data : BitVec 512
  bad : List Nat := []
  mark : Bool := false
  deriving DecidableEq, Repr

/-- An L1 cache: valid lines by set * ways + way, and the tree bits by set (R180, R185). -/
structure L1 where
  ways : Nat
  lines : Tab (Option CLine) := []
  tree : Tab (BitVec 7) := []
  deriving DecidableEq, Repr

/-- A TLB entry (R202). -/
structure TlbE where
  part : BitVec 6
  asid : BitVec 8
  global : Bool
  /-- level of the leaf: 1 (256 MiB), 2 (1 MiB), 3 (4 KiB) -/
  lvl : Nat
  vpage : Nat
  page : Nat
  u : Bool
  x : Bool
  w : Bool
  r : Bool
  deriving DecidableEq, Repr

/-- A walk-cache entry: a table pointer read at level 1 or 2 (R202). -/
structure WalkE where
  part : BitVec 6
  asid : BitVec 8
  lvl : Nat
  key : Nat
  table : Nat
  deriving DecidableEq, Repr

/-- A store-buffer entry and whether the sluice has the record (R235). -/
structure SbEntry where
  item : VRec
  delivered : Bool := false
  /-- a transactional store of an aborted transaction: still voted, no longer read (R263) -/
  dead : Bool := false
  deriving DecidableEq, Repr

/-- One core in its lane role. -/
structure Lane where
  arch : Arch := {}
  /-- full retired-instruction count (R138) -/
  retired : Nat := 0
  /-- SEQ of the next store or commit record (R132) -/
  storeSeq : Nat := 0
  /-- read sequence number of the next agreed read (R176) -/
  readSeq : Nat := 0
  /-- write-set hash so far, as a CRC register (R267) -/
  whash : DWord := 0
  ldPend : Option LoadDelay := none
  /-- old value the next instruction reads after `XRET` with LDS (R76) -/
  feed : Option LoadDelay := none
  /-- transactions opened at depth 0 so far -/
  txNo : Nat := 0
  /-- distinct lines stored to in the open transaction (R254) -/
  txLines : List Nat := []
  /-- the transaction save slot (R252); present while a transaction is open -/
  save : Option Arch := none
  sb : List SbEntry := []
  digests : List DigRec := []
  /-- ordinal of the next digest point -/
  digNo : Nat := 0
  /-- items of the triad's delivery log taken so far -/
  evNo : Nat := 0
  /-- the control-store word the core is held for (R58 step 2) -/
  repairing : Option Nat := none
  /-- retired count of the last digest point (R136) -/
  digCount : Nat := 0
  /-- the instruction the lane waits in (R33), if any -/
  waiting : Option Instr := none
  /-- pushes or loads already done by the waiting `CALLM` or `RETM`, lines by the waiting `CACHE` -/
  progress : Nat := 0
  /-- the agreed-read request to present or presented (R176) -/
  areq : Option AReq := none
  presented : Bool := false
  /-- the line a miss waits for: instruction cache?, line number -/
  miss : Option (Bool × Nat) := none
  fills : List Fill := []
  /-- an uncached or SPLIT device load waiting for its response, with its issue time -/
  devLoad : Option (PAddr × Nat) := none
  devResult : Option (DWord × Bool) := none
  /-- end of the `WAITTURN` sleep (R102) -/
  sleepTill : Option Nat := none
  /-- barrier groups in whose current round this lane has recorded its arrival (R243), and groups whose round has ended
  for it, or that it has left while waiting (R245) -/
  barIn : List Nat := []
  barDone : List Nat := []
  halted : Bool := false
  /-- microword steps executed (R34) -/
  steps : Nat := 0
  dcache : L1 := { ways := 8 }
  icache : L1 := { ways := 4 }
  itlb : List TlbE := []
  dtlb : List TlbE := []
  walkc : List WalkE := []
  /-- logged items a readmitted, restarted or following lane still takes (R148, R152): number and count. Numbers below
  2^32 are events, from 2^32 a `DEVICE_WRITE_ERROR` with its `EVAL`, from 2^33 an abort with its cause, 2^34 a forced
  digest point, 2^35 the end of a wait, from 2^36 the release of a barrier group, 2^37 an invalidation of the whole data
  cache, from 2^38 of a line -/
  replay : List (Nat × Nat) := []
  deriving DecidableEq, Repr

/-- A line of a write set: line number, byte mask, data (R254). -/
structure WLine where
  line : Nat
  mask : BitVec 64
  data : BitVec 512
  deriving DecidableEq, Repr

/-- Where a voted commit stands (R265). -/
inductive CommitStep where
  /-- waiting for earlier stores, or on a standby for the primary's entry -/
  | start
  /-- step 2 done, waiting for ring space -/
  | ring
  /-- entry complete, waiting for the partner -/
  | ack
  /-- waiting for an earlier commit that holds a line of the write set -/
  | hold
  | done
  /-- aborted with `CONFLICT` at step 2 -/
  | aborted
  deriving DecidableEq, Repr

/-- A commit whose record has been voted (R265). -/
structure Commit where
  key : Nat
  crec : CommitRec
  part : BitVec 6
  triad : Nat
  split : Bool
  pos : Nat
  cseq : Option Nat := none
  wset : List WLine
  rset : List Nat
  time : Nat
  /-- offset of the entry in the commit ring, in bytes from its start, once written -/
  off : Option Nat := none
  stage : CommitStep := .start
  deriving DecidableEq, Repr

/-- A transaction context (R252, R254, R256). -/
structure TxCtx where
  /-- SEQ of the first record the open transaction can emit: earlier TXN records are of an aborted one -/
  first : Nat := 0
  wset : List WLine := []
  /-- the stores merged, oldest first, onto what the context began with (R255: a lane reads the stores it has retired) -/
  recs : List StoreRec := []
  base : List WLine := []
  rset : List Nat := []
  /-- the read set as the first lane to abort found it: slower lanes reach the same verdict on it (R256) -/
  rdone : List Nat := []
  /-- an abort of R259 or R213 step 3 to take at an agreed count: its cause code -/
  pendAbort : Option (BitVec 8) := none
  voted : Bool := false
  /-- the abort has begun in some lane: no further abort is detected -/
  ended : Bool := false
  deriving DecidableEq, Repr

/-- A device write issued and not yet answered (R237): where, what, and when it was issued. -/
structure DevOut where
  seq : Nat
  addr : PAddr
  data : DWord
  issued : Nat
  deriving DecidableEq, Repr

/-- A turn hint (R378, R102): grants ahead, estimated wait in ns. -/
structure Hint where
  ahead : Nat
  wait : Nat
  deriving DecidableEq, Repr

/-- What one triad in TRIAD mode, or one SPLIT core, holds as one requester (key 3·t + p, p = 0 in TRIAD mode). -/
structure Port where
  /-- pending event numbers (R168) -/
  pend : List Nat := []
  /-- `DEVICE_WRITE_ERROR` entries, oldest first: their `EVAL` (R248) -/
  dwe : List Word := []
  /-- stores past the sluice and not yet at their targets, in program order (R233, R236) -/
  outq : List StoreRec := []
  /-- outstanding device writes, oldest first (R237) -/
  devOut : List DevOut := []
  /-- timed-out writes that their targets may still perform (R247) -/
  late : List DevOut := []
  tx : TxCtx := {}
  hint : Option Hint := none
  /-- the shaft arbiter of the most recent losing request (R383) -/
  hintArb : Option Nat := none
  /-- barrier groups left by a partition abort, as a mask (R244) -/
  barOut : Nat := 0
  /-- retired stores below this number that were not forwarded are discarded, by a partition abort (R250) -/
  dropTo : Nat := 0
  deriving DecidableEq, Repr

/-- A decision taken at an agreed count without an event (R170). -/
inductive Decision where
  | waitEnd
  | barEnd (g : Nat)
  | txAbort
  | halt
  | digest
  | l1off (icache : Bool)
  | l1on (icache : Bool)
  deriving DecidableEq, Repr

/-- What a delivery round delivers (R165, R248). -/
inductive Sel where
  | none
  | dwe
  | event (n : Nat)
  deriving DecidableEq, Repr

/-- A delivery round (R165). -/
structure Round where
  reports : List (Nat × Nat) := []
  c : Option Nat := none
  sel : Sel := .none
  decisions : List Decision := []
  /-- invalidations fixed for application at C (R172) -/
  invs : List Nat := []
  invAll : Bool := false
  deriving DecidableEq, Repr

/-- A rebuild or spare swap in progress (R147, R149). -/
structure Rebuild where
  lane : Nat
  swap : Bool
  /-- asked for by `CLU_TCTL.REBUILD` (R163) -/
  asked : Bool := false
  /-- the checkpoint of step 4 is there -/
  ready : Bool := false
  /-- the control store of the serving core has been compared (R147 step 3, R149 step 4) -/
  compared : Bool := true
  deriving DecidableEq, Repr

/-- A triad's sluice, event controller, bin and recovery state. -/
structure Triad where
  /-- undecided records: lane and record (R133) -/
  recs : List (Nat × VRec) := []
  /-- next SEQ, digest ordinal and read sequence number each lane delivers (R134, R141), by lane -/
  nextSeq : Tab Nat := []
  nextDig : Tab Nat := []
  nextRead : Tab Nat := []
  /-- lanes served by a working core -/
  alive : List Nat := [0, 1, 2]
  /-- next SEQ to forward, and the records decided since the checkpoint -/
  fwdSeq : Nat := 0
  fwd : List VRec := []
  digs : List (Nat × DigRec) := []
  /-- ordinal of the next digest point to decide -/
  digNext : Nat := 0
  digDone : List DigRec := []
  ckpt : Option Ckpt := none
  restart : Option Ckpt := none
  /-- the three logs of R151 -/
  slog : List StoreRec := []
  rlog : List ARes := []
  elog : List (Nat × Nat) := []
  /-- ordinal of the first entry of `elog` -/
  elogBase : Nat := 0
  /-- count and lane of the last lane failure (R150) -/
  lastFail : Option (Nat × Nat) := none
  /-- after a restart: logged records and reads still to be reproduced (R152) -/
  slogLeft : List StoreRec := []
  rlogLeft : List ARes := []
  areqs : List (Nat × AReq) := []
  /-- agreed requests, and when they were agreed -/
  aready : List (AReq × Nat) := []
  ares : List ARes := []
  bin : List Snap := []
  invq : List Nat := []
  invAll : Bool := false
  round : Option Round := none
  /-- selected at a round whose count was not deliverable; taken after the first later instruction that makes events
  deliverable (R166) -/
  held : Sel := .none
  /-- decisions requested for the next round (R170) -/
  wants : List Decision := []
  rebuild : Option Rebuild := none
  /-- a whole-triad restart waits for its restart digests (R152 step 4) -/
  restarting : Bool := false
  /-- lanes at their first readmission since a failure; a second failure is failure (R146) -/
  failedLanes : List Nat := []
  /-- times of minority verdicts by lane (R146) -/
  verdicts : List (Nat × Nat) := []
  /-- by lane, when it last delivered a record or, if later, since when it owes one (R141) -/
  lastRec : Tab Nat := []
  rstUsedAt : Nat := 0
  sluReq : Bool := false
  /-- when the last periodic sluice test fell due (R156) -/
  sluAt : Nat := 0
  /-- verdicts the voter can give, as the start-up test found them (R154) -/
  sluMask : Byte := 0xFF
  /-- a debugger holds the triad; the lanes may run to this count (R158) -/
  holdAt : Option Nat := none
  haltReq : Bool := false
  /-- release digest pending (R160) -/
  releasing : Bool := false
  braked : Bool := false
  /-- the count of the latest `HORIZON`, where the lanes hold (R428, R442), and on a standby the horizons not yet reached
  with the times they were sent, by the standby's own time -/
  horizon : Nat := 0
  marks : List (Nat × Nat) := []
  /-- on a standby: commits that the primary aborted at step 2 of R265: position of the core, retired count at the `TEND` -/
  tendAborts : List (Nat × Nat) := []
  /-- forwarded agreed-read results not yet given to the lanes: read sequence number, value, error (R427) -/
  leatReads : List (Nat × DWord × Bool) := []
  deriving DecidableEq, Repr

/-- A barrier group's round (R242): keys of the members arrived. -/
structure Bar where
  arrived : List Nat := []
  deriving DecidableEq, Repr

/-- A request slot of a cluster's sweep (R189). -/
structure Sweep where
  op : BitVec 2 := 0
  icache : Bool := false
  key : Nat := 0
  va : Nat := 0
  left : Nat := 0
  /-- physical page of the current virtual page, once translated -/
  page : Option Nat := none
  /-- retired counts of range operations and whether each was offloaded: what the first lane of a triad finds holds for
  the others (R189) -/
  chosen : List (Nat × Bool) := []
  /-- stores of the requester sent before a clean request: the next sequence number then (R190) -/
  upto : Nat := 0
  deriving DecidableEq, Repr

/-- A control store as far as it differs from the loaded microcode (R54 to R60): addresses of words that fail parity and
of words that are wrong with correct parity, and whether the core is failed. -/
structure CStore where
  badWords : List Nat := []
  wrongWords : List Nat := []
  failed : Bool := false
  deriving DecidableEq, Repr

end Sys2Proof.Machine
end

