-- ==== Sys2Proof/Machine/SysTypes.lean ====
section
/-! DEFINITION. The state of the block's other units that is not in a device register: the fault collector's timers,
partitions, the time base's hidden counters, and so on. -/
namespace Sys2Proof.Machine

/-- The fault collector beyond its registers (R407 to R417). -/
structure Flt where
  /-- running GRACE0 timers: source, end time in ns -/
  grace0 : List (Nat × Nat) := []
  /-- running contained grace timers: source, attribution (partition number, or 64 for the manager), end time in ns -/
  grace1 : List (Nat × Nat × Nat) := []
  /-- start of the quiet period (R416), and the contained bits of `FLT_STATUS` then (R495) -/
  quietFrom : Nat := 0
  quietBits : Nat := 0
  /-- a contained fault was raised in LOAD or TEST (R416) -/
  early : Bool := false
  /-- times of the automatic returns (R417) -/
  returns : List Nat := []
  deviceBrake : Bool := false
  /-- partitions under a partition brake -/
  partBrakes : List Nat := []
  /-- when the device brake was set (R414) -/
  brakedAt : Nat := 0
  /-- the SerDes lanes of quads 0 to 4 send idle (R414) -/
  idle : Bool := false
  /-- partitions whose SAFE frames are still to be built (R413) -/
  safeDue : List Nat := []
  deriving DecidableEq, Repr

/-- A partition beyond its registers: its PARTITION record (R65) and the run of a reset or removal (R395). -/
structure Part where
  entry : Word := 0
  sp : Word := 0
  /-- a RESET brings it back after step 5 (R396) -/
  again : Bool := false
  deriving DecidableEq, Repr

/-- The governor beyond its registers (R45 to R48). -/
structure Gov where
  /-- AVSBus transactions not acknowledged in a row -/
  nacks : Nat := 0
  /-- the regulator has stopped acknowledging: when the next retry is due -/
  retryAt : Option Nat := none
  /-- since when the index has stayed above FLOOR + 2 × MARGIN -/
  aboveSince : Option Nat := none
  /-- since when the index has stayed below FLOOR at 0.90 V -/
  belowSince : Option Nat := none
  deriving DecidableEq, Repr

/-- A pending request at a shaft arbiter (R378): its shaft port, since when, and that it has lost a decision. -/
structure ArbReq where
  port : Nat
  since : Nat
  lost : Bool := false
  deriving DecidableEq, Repr

/-- A shaft arbiter beyond its registers (R378 to R382). -/
structure Arb where
  reqs : List ArbReq := []
  /-- credits by 128 × level + port, pointers by level; a level is 8 × class + priority -/
  credit : Tab Nat := []
  ptr : Tab Nat := []
  /-- whether the last decisions made while a class 2 or 3 request was pending went to class 1, newest first -/
  win1 : List Bool := []
  /-- whether the last decisions made while a class 3 request was pending went to class 2, newest first -/
  win2 : List Bool := []
  /-- the last transfer times, in 1/16 ns, newest first -/
  times : List Nat := List.replicate 16 40
  /-- when the last decision was made -/
  last : Option Nat := none
  deriving DecidableEq, Repr

/-- The configuration loader beyond its registers (R451 to R466). -/
structure Boot where
  /-- the step of R458 whose end is awaited; 0 while no load runs -/
  step : Nat := 0
  warm : Bool := false
  /-- when the load began -/
  since : Nat := 0
  /-- the copies still to try: `true` for copy B -/
  order : List Bool := []
  /-- the copy tried first, where a header is well formed -/
  first : Option Bool := none
  /-- the copy in use -/
  copy : Option Bool := none
  key : List Byte := []
  /-- DRAM has been trained from the BANK records of a copy -/
  trained : Option Bool := none
  /-- straps and inputs of the last release of `PORST_N` -/
  pairRole : Bool := false
  casId : Nat := 0
  corePg : Bool := false
  refclk : Bool := false
  /-- step 9 waits for the partner (R443), since when -/
  joinFrom : Option Nat := none
  deriving DecidableEq, Repr

/-- The staging engine beyond its registers (R462, R463). -/
structure Stage where
  /-- the slot being staged -/
  slot : Bool := false
  erased : Bool := false
  /-- the first 4 KiB, held -/
  held : List Byte := []
  /-- the operation running: 1 ERASE, 2 WRITE, 3 FINISH -/
  op : Nat := 0
  off : Nat := 0
  /-- the octets of a WRITE -/
  data : List Byte := []
  /-- the result it ends with, where a check has failed -/
  bad : Nat := 0
  /-- it runs for the management port: the command to answer -/
  mgt : Bool := false
  deriving DecidableEq, Repr

/-- A message sent on the leat and not yet acknowledged (R426, R430). -/
inductive LeatMsg where
  | input (ln : Nat) (path : Nat) (f : RxFrame) (time : Nat)
  /-- an item of a triad's delivery log, numbered as in `Lane.replay`: events, and also barrier releases and forced digest
  points -/
  | event (t n count : Nat)
  | read (t rseq : Nat) (v : DWord) (err timebase : Bool)
  | inval (t count : Nat) (lines : List Nat)
  | chndec (d : ChnDec)
  | extw (w : ExtWrite)
  | horizon (t count sent : Nat)
  | journal (cseq : Nat)
  | jack (cseq : Nat)
  | odigest (n count : Nat) (crc : DWord)
  | pfault (src cls : Nat)
  | handover
  | rejoin (r : RejoinMsg)
  | relay (r : RelayMsg)
  /-- a frame of a remote path on its way to the exporter: device, importing path (R446) -/
  | remote (dev path : Nat) (frame : List Byte)
  /-- a frame of an exported path on its way to the importer: device, importing path, end time (R446) -/
  | remoteRx (dev path time : Nat) (frame : List Byte)
  | globalOp (g : GlobalMsg)
  | heart (h : HeartMsg)
  deriving DecidableEq, Repr

/-- The pair beyond its registers (R427 to R444). -/
structure Pair where
  /-- the device has the primary role -/
  prim : Bool := false
  /-- leat messages acknowledged so far: those sent are these and the ones still listed -/
  acked : Nat := 0
  /-- egress of new frames is held by a role swap (R442) -/
  holdOut : Bool := false
  /-- all output is cut (R438) -/
  cut : Bool := false
  /-- channel decisions of the primary not yet followed (R427) -/
  decs : List ChnDec := []
  /-- frames a standby's own lanes received, and those forwarded to it: lane, frame, end time (R440) -/
  shadow : List (Nat × RxFrame × Nat) := []
  inputs : List (Nat × RxFrame × Nat) := []
  /-- forwarded frames that wait for the RECV which took them on the primary: path, lane, frame, time (R427) -/
  heldIn : List (Nat × Nat × RxFrame × Nat) := []
  /-- when something last arrived on the leat and on the watch (R435) -/
  leatAt : Nat := 0
  watchAt : Nat := 0
  /-- the partner's last heartbeat, and the highest CSEQ acknowledged to it (R426) -/
  partner : Option HeartMsg := none
  cseq : Nat := 0
  /-- when this device last sent a heartbeat (R438) -/
  sentAt : Nat := 0
  /-- the level of `PAIR_WATCH_OUT` (R435) -/
  watchOut : Bool := false
  /-- a takeover has begun and its catch-up has not ended (R437) -/
  catchUp : Bool := false
  /-- the last `TIMEBASE` value returned to a triad (R434) -/
  timebase : DWord := 0
  /-- steps of a role swap: 1 the lag is awaited, 2 the primary's triads are held at a horizon, 3 the standby is to reach
  it (R442) -/
  swap : Nat := 0
  /-- when the last role swap began, or the pair formed (R442) -/
  swapAt : Nat := 0
  /-- a rejoin is being copied, and the manager has admitted the partner (R444) -/
  copying : Bool := false
  admitted : Bool := false
  /-- a standby waits for the primary's first `HORIZON` to start its partitions (R443) -/
  waitStart : Bool := false
  deriving DecidableEq, Repr

/-- The cascade beyond its registers (R445). -/
structure Cas where
  /-- when each ring link last carried a heartbeat, by link: 0 toward device d + 1, 1 toward d − 1 -/
  heard : Tab Nat := []
  /-- ring links lost -/
  lost : List Nat := []
  /-- members and arrivals of the cascade group on the other devices, by device -/
  bars : Tab (Nat × Nat) := []
  deriving DecidableEq, Repr

/-- A consistent snapshot being taken (R447): the record's address, the triads still to reach their count, and the counts
of those that have. -/
structure SnapRun where
  addr : Nat
  /-- it serves a rejoin and writes no record (R444 step 3) -/
  rejoin : Bool := false
  left : List Nat
  counts : List (Nat × Nat) := []
  deriving DecidableEq, Repr

/-- A message of the host transaction layer that the Worlon sends (R472). -/
inductive HostMsg where
  | cpl (tag status : Nat) (data : List Byte)
  | queue (q : Nat)
  | fault (src cls : Nat)
  | credit (posted nonPosted cplEvent : Nat)
  deriving DecidableEq, Repr

/-- A request of the host, as it arrived (R472). -/
inductive HostReq where
  | regrd (tag addr : Nat)
  | regwr (tag addr : Nat) (v : DWord)
  | memrd (tag addr len : Nat)
  | memwr (addr : Nat) (data : List Byte)
  | doorbell (q v : Nat)
  | intr (t vec pos : Nat)
  deriving DecidableEq, Repr

/-- The host link beyond its registers (R471 to R479). -/
structure HostLink where
  /-- requests not yet performed, oldest first: one waits for a commit that holds its line (R268), the others behind it
  (R477) -/
  reqs : List HostReq := []
  /-- posted and non-posted credits still to be returned (R473) -/
  owedPosted : Nat := 0
  owedNonPosted : Nat := 0
  /-- sequence numbers: the next flit expected, the next one to send -/
  rxSeq : Nat := 0
  txSeq : Nat := 0
  /-- replays that failed in a row -/
  fails : Nat := 0
  /-- completions not yet sent, oldest first -/
  cpls : List HostMsg := []
  /-- credits for completions and events granted by the host -/
  credits : Nat := 0
  /-- since when a message waits for a credit -/
  stallFrom : Option Nat := none
  /-- pending `HEVENT` bits of faults: source and class -/
  faults : List (Nat × Nat) := []
  /-- messages sent in flits the host has not acknowledged, oldest first, with the flit's number -/
  replay : List (Nat × HostMsg) := []
  deriving DecidableEq, Repr

/-- A management command that is still running (R484). -/
structure MgtRun where
  cmd : Nat
  seq : Nat
  tgt : Option AbortTarget := none
  deriving DecidableEq, Repr

/-- The management port beyond its registers (R480 to R484). -/
structure Mgt where
  /-- the management key; empty where none is loaded -/
  key : List Byte := []
  /-- response frames queued, oldest first -/
  responses : List (List Byte) := []
  running : List MgtRun := []
  deriving DecidableEq, Repr

/-- Power, tests, the mill book's save and the temperature beyond their registers (R487 to R498, R520). -/
structure Misc where
  /-- requests written while a transition runs: domain, on (R488) -/
  pwrWait : List (Nat × Bool) := []
  /-- queued tests in the order of their GO writes (R492) -/
  tests : List Nat := []
  /-- the save under way: flash port, slot, whether it is the retry (R497) -/
  save : Option (Nat × Nat × Bool) := none
  /-- when the last periodic save fell due -/
  saveAt : Nat := 0
  /-- `THERM_N` is low (R520) -/
  therm : Bool := false
  /-- since when TJ is at or above 118 °C -/
  hotFrom : Option Nat := none
  /-- field lanes that a warm device reset holds at the safe levels of their old record, `TXD` then `DE` (R336) -/
  held : List (Nat × Bool × Bool) := []
  deriving DecidableEq, Repr

end Sys2Proof.Machine
end

