-- ==== Sys2Proof/Machine/State.lean ====
section
/-! DEFINITION. The state of the block, its faults and refusals, and the state after reset. -/
namespace Sys2Proof.Machine

/-- Everything the complex die holds but the time base counter and the queue of waiting commands. -/
structure Chip where
  /-- `PORST_N` low or not yet released: the device is OFF (R416) -/
  off : Bool := true
  /-- device registers by address, where they differ from their reset values (R9, R10) -/
  regs : Tab DWord := []
  /-- DRAM, bank memory and the journal store by physical address; an unlisted byte reads 0 (R211, R221) -/
  mem : Tab Byte := []
  /-- flipped codeword bits by word address divided by 8 (R223): bits [63:0] data, [71:64] check bits -/
  ecc : Tab (BitVec 72) := []
  /-- DRAM regions filled by port (R221) -/
  filled : Tab (List Nat) := []
  lanes : Tab Lane := []
  triads : Tab Triad := []
  ports : Tab Port := []
  bars : Tab Bar := []
  sweeps : Tab Sweep := []
  /-- the slot each cluster's sweep serves (R189) -/
  sweepAt : Tab Nat := []
  stores : Tab CStore := []
  commits : List Commit := []
  flt : Flt := {}
  gov : Gov := {}
  chan : Chan := {}
  pair : Pair := {}
  parts : Tab Part := []
  /-- bank handovers under way: TYPE, PART, CLR by bank (R213) -/
  handovers : Tab (Nat × Nat × Bool) := []
  /-- the shaft arbiters (R378) -/
  arbs : Tab Arb := []
  /-- leat messages sent and not yet acknowledged, oldest first (R426, R430) -/
  leat : List LeatMsg := []
  /-- owner of a SerDes lane, from its LANE record: a partition, or 64 for the manager (R390) -/
  lanOwner : Tab Nat := []
  cas : Cas := {}
  snap : Option SnapRun := none
  host : HostLink := {}
  mgt : Mgt := {}
  misc : Misc := {}
  boot : Boot := {}
  stage : Stage := {}
  /-- the flash devices' octets, by port and offset: key 2^32 · port + offset; an erased octet is 0xFF (R451) -/
  flash : Tab Byte := []
  /-- the mill book's counters by offset (R495) -/
  book : Tab Nat := []
  /-- free values drawn so far (the model's own counter) -/
  free : Nat := 0
  deriving DecidableEq, Repr

/-- Memory is in its one canonical form: addresses strictly rising, no entry equal to what an unlisted address reads as. -/
abbrev Memory.wf (m : Tab Byte) : Bool := m.wf 0

/-- The block: the time base counter `TIM_NOW` (R40), everything else on the die, and the commands waiting, first in
first out. -/
structure State where
  now : BitVec 64
  chip : Chip
  pending : List Instr
  deriving DecidableEq, Repr

/-- Why the block stops with a fault. It has no constructor: the specification gives every command an effect, and an
exception, an error or a brake is part of the next state. -/
inductive Fault where
  deriving DecidableEq, Repr

/-- Why a command has no meaning. -/
inductive Refusal where
  /-- Raised by an arm of `exec` whose command has no meaning yet, with its mnemonic. Safe: it only withholds claims. -/
  | notModelled (mnemonic : String)
  deriving DecidableEq, Repr

/-- The block held in cold reset: `PORST_N` low, every register at its reset value (R10), no command waiting. -/
def State.reset : State := { now := 0, chip := {}, pending := [] }

end Sys2Proof.Machine
end

