-- ==== Sys2Proof/Machine/Ops.lean ====
section
/-! DEFINITION. The shared operations: bit fields, device registers as storage, memory with its check bits, the address
map, and the accessors of the numbered units. -/
namespace Sys2Proof.Machine

/-! ### Bit fields -/

/-- The value of a bit field. -/
def Fld.get {n : Nat} (f : Fld) (w : BitVec n) : Nat := w.toNat / 2 ^ f.lo % 2 ^ (f.hi + 1 - f.lo)

/-- The word with a bit field replaced by the low bits of `v`. -/
def Fld.put {n : Nat} (f : Fld) (w : BitVec n) (v : Nat) : BitVec n :=
  BitVec.ofNat n (w.toNat % 2 ^ f.lo + v % 2 ^ (f.hi + 1 - f.lo) * 2 ^ f.lo + w.toNat / 2 ^ (f.hi + 1) * 2 ^ (f.hi + 1))

/-- The largest value a field holds. -/
def Fld.max (f : Fld) : Nat := 2 ^ (f.hi + 1 - f.lo) - 1

/-- A truth value as a bit. -/
def bit (b : Bool) : Nat := if b then 1 else 0

/-- N-bit serial order (R522): `a` is below `b`. -/
def serialBelow (n a b : Nat) : Bool :=
  let d := (b + 2 ^ n - a % 2 ^ n) % 2 ^ n
  decide (1 ≤ d ∧ d ≤ 2 ^ (n - 1) - 1)

/-- The low `n` bytes of a number, least significant first. -/
def bytesLE : Nat → Nat → List Byte
  | 0, _ => []
  | n + 1, v => BitVec.ofNat 8 v :: bytesLE n (v / 256)

/-- The number whose bytes are given, least significant first. -/
def natLE : List Byte → Nat
  | [] => 0
  | b :: r => b.toNat + 256 * natLE r

/-- The number whose bytes are given, most significant first. -/
def natBE (l : List Byte) : Nat := natLE l.reverse

/-- The low `n` bytes of a number, most significant first. -/
def bytesBE (n v : Nat) : List Byte := (bytesLE n v).reverse

/-- Sets bit `i` of a number. -/
def setBit (v i : Nat) : Nat := v ||| 2 ^ i

/-- Clears bit `i` of a number. -/
def clrBit (v i : Nat) : Nat := if v.testBit i then v - 2 ^ i else v

/-! ### Device registers as storage -/

namespace Chip

/-- The stored value of a device register. -/
def rd (c : Chip) (r : RegName) : DWord := c.regs.get r.reset r.addr

/-- The chip with a device register's stored value replaced. -/
def wr (c : Chip) (r : RegName) (v : DWord) : Chip := { c with regs := c.regs.put r.reset r.addr v }

/-- A field of a device register. -/
def gf (c : Chip) (r : RegName) (f : Fld) : Nat := f.get (c.rd r)

/-- A one-bit field of a device register. -/
def gb (c : Chip) (r : RegName) (f : Fld) : Bool := c.gf r f == 1

/-- The chip with a field of a device register replaced. -/
def sf (c : Chip) (r : RegName) (f : Fld) (v : Nat) : Chip := c.wr r (f.put (c.rd r) v)

/-- A saturating count. -/
def inc (c : Chip) (r : RegName) (f : Fld) : Chip := c.sf r f (min (c.gf r f + 1) f.max)

/-! ### Numbered units -/

def lane (c : Chip) (k : Nat) : Lane := c.lanes.get {} k
def setLane (c : Chip) (k : Nat) (l : Lane) : Chip := { c with lanes := c.lanes.set k l }
def updLane (c : Chip) (k : Nat) (f : Lane → Lane) : Chip := c.setLane k (f (c.lane k))
def triad (c : Chip) (t : Nat) : Triad := c.triads.get {} t
def setTriad (c : Chip) (t : Nat) (x : Triad) : Chip := { c with triads := c.triads.set t x }
def updTriad (c : Chip) (t : Nat) (f : Triad → Triad) : Chip := c.setTriad t (f (c.triad t))
def port (c : Chip) (k : Nat) : Port := c.ports.get {} k
def setPort (c : Chip) (k : Nat) (x : Port) : Chip := { c with ports := c.ports.set k x }
def updPort (c : Chip) (k : Nat) (f : Port → Port) : Chip := c.setPort k (f (c.port k))
def part (c : Chip) (p : Nat) : Part := c.parts.get {} p
def setPart (c : Chip) (p : Nat) (x : Part) : Chip := { c with parts := c.parts.set p x }
def cstore (c : Chip) (k : Nat) : CStore := c.stores.get {} k
def setStore (c : Chip) (k : Nat) (x : CStore) : Chip := { c with stores := c.stores.set k x }
def bar (c : Chip) (g : Nat) : Bar := c.bars.get {} g
def setBar (c : Chip) (g : Nat) (x : Bar) : Chip := { c with bars := c.bars.set g x }
def sweep (c : Chip) (k : Nat) : Sweep := c.sweeps.get {} k
def setSweep (c : Chip) (k : Nat) (x : Sweep) : Chip := { c with sweeps := c.sweeps.set k x }
def modFlt (c : Chip) (f : Flt → Flt) : Chip := { c with flt := f c.flt }

/-- Saturating counts of the mill book, 4 or 8 bytes at an offset (R495). -/
def bookInc (c : Chip) (off : Nat) : Chip := { c with book := c.book.put 0 off (min (c.book.get 0 off + 1) 0xFFFFFFFF) }
def bookInc8 (c : Chip) (off : Nat) : Chip :=
  { c with book := c.book.put 0 off (min (c.book.get 0 off + 1) 0xFFFFFFFFFFFFFFFF) }

/-- A fresh index into the free values of Config, and the chip that has drawn it. -/
def draw (c : Chip) : Nat × Chip := (c.free, { c with free := c.free + 1 })

/-! ### The pair (R450) -/

/-- `PAR_STAT.STATE` (R450). -/
def pairState (c : Chip) : Nat := c.gf .PAR_STAT PAR_STAT.STATE

/-- The device is primary of a formed pair. -/
def paired (c : Chip) : Bool := c.pairState == 2 || (c.pairState == 7 && c.pair.prim)

/-- The device is the standby of a pair. -/
def standby (c : Chip) : Bool := c.pairState == 4 || (c.pairState == 7 && !c.pair.prim)

/-- The device follows the primary's forwarded messages: a standby, and a new primary until its catch-up has ended (R427,
R437). -/
def following (c : Chip) : Bool := c.standby || c.pair.catchUp

/-- The triads stand still: while a pair forms, detached, rejoining (R436, R443, R444). -/
def parted (c : Chip) : Bool := c.pairState == 1 || c.pairState == 5 || c.pairState == 6

/-- The lanes take the levels of R431: forming, standby, detached or rejoining. -/
def muted (c : Chip) : Bool := c.standby || c.parted

/-- A message for the partner, while there is one (R426, R427). -/
def leatSend (c : Chip) (m : LeatMsg) : Chip := if c.paired then { c with leat := c.leat ++ [m] } else c

/-- A message to the partner or a ring neighbour whatever the role (R426). -/
def leatPut (c : Chip) (m : LeatMsg) : Chip := { c with leat := c.leat ++ [m] }

/-- The time that `TIMEBASE` returns and the event timers compare with: `TIM_NOW` plus `PAR_TOFF` (R434). -/
def timeNow (c : Chip) (now : Nat) : Nat := (now + (c.rd .PAR_TOFF).toNat) % 2 ^ 64

/-- The device runs in a cascade (R445). -/
def cascade (c : Chip) : Bool := c.gf .PAR_CFG PAR_CFG.TOPO == 2
def casId (c : Chip) : Nat := c.gf .CAS_CFG CAS_CFG.ID

/-- The device coordinates the cascade (R445). -/
def casMaster (c : Chip) : Bool := c.cascade && c.gf .CAS_STAT CAS_STAT.MASTER == c.casId

/-! ### Triads and partitions -/

/-- `CLU_TCFG.MODE`: the triad is in SPLIT mode (R129). -/
def split (c : Chip) (t : Nat) : Bool := c.gb (.CLU_TCFG t) CLU_TCFG.MODE

/-- The state code of a triad (R142). -/
def tstate (c : Chip) (t : Nat) : Nat := c.gf (.CLU_TSTATE t) CLU_TSTATE.STATE

/-- Lane `i` of triad `t` is voting. -/
def votes (c : Chip) (t i : Nat) : Bool := (c.gf (.CLU_TSTATE t) CLU_TSTATE.VOTE).testBit i

/-- The voting lanes of a triad. -/
def voting (c : Chip) (t : Nat) : List Nat := [0, 1, 2].filter (c.votes t)

/-- The requester a lane belongs to: the triad in TRIAD mode, the core in SPLIT mode. -/
def portKey (c : Chip) (t i : Nat) : Nat := 3 * t + (if c.split t then i else 0)

/-- The partition that holds triad `t` (R390). -/
def partOf (c : Chip) (t : Nat) : Option Nat :=
  (List.range 64).find? (fun p =>
    c.gb (.PRT_CFG p) PRT_CFG.DEFINED && (c.gf (.PRT_CFG p) PRT_CFG.TRIADS).testBit t)

/-- The triads of a partition. -/
def triadsOf (c : Chip) (p : Nat) : List Nat :=
  (List.range 32).filter (fun t => (c.gf (.PRT_CFG p) PRT_CFG.TRIADS).testBit t)

/-- The state code of a partition (R393). -/
def pstate (c : Chip) (p : Nat) : Nat := c.gf (.PRT_STATE p) PRT_STATE.STATE

/-- Partition `p` is the manager partition (R388). -/
def isMgrPart (c : Chip) (p : Nat) : Bool := p == 0 && !c.gb .PRT_MGR PRT_MGR.SITE

/-- The core serving a lane: cluster core number in 0..103 (R16, R149). -/
def coreOf (c : Chip) (t i : Nat) : Nat :=
  13 * (t / 4) + c.gf (.CLU_LANEMAP t) ⟨4 * i + 3, 4 * i⟩

end Chip

/-! ### The address map -/

/-- The regions of R17. -/
inductive Region where
  | dram (port : Nat)
  | bank (n : Nat)
  | bitSet (n : Nat)
  | bitClear (n : Nat)
  | journal
  | register
  | unmapped
  deriving DecidableEq, Repr

def bankBase : Nat := 0x4000000000
def setBase : Nat := 0x4010000000
def clearBase : Nat := 0x4020000000
def journalBase : Nat := 0x4030000000

namespace Chip

/-- Installed capacity of a DRAM port in bytes (R219): 8 GiB, doubled for 16 Gb devices and for a second rank. -/
def dramSize (c : Chip) (p : Nat) : Nat :=
  if c.gb (.DRM_CFG p) DRM_CFG.PRESENT then
    2 ^ 33 * (1 + c.gf (.DRM_CFG p) DRM_CFG.DENS) * (1 + c.gf (.DRM_CFG p) DRM_CFG.RANKS)
  else 0

/-- The region of a physical address (R17, R18, R19); DRAM beyond the installed capacity is unmapped. -/
def region (c : Chip) (a : Nat) : Region :=
  if a < 0x800000000 then (if a < c.dramSize 0 then .dram 0 else .unmapped)
  else if a < 0x1000000000 then (if a - 0x800000000 < c.dramSize 1 then .dram 1 else .unmapped)
  else if bankBase ≤ a ∧ a < bankBase + 0x2000000 then .bank ((a - bankBase) / 0x80000)
  else if setBase ≤ a ∧ a < setBase + 0x2000000 then .bitSet ((a - setBase) / 0x80000)
  else if clearBase ≤ a ∧ a < clearBase + 0x2000000 then .bitClear ((a - clearBase) / 0x80000)
  else if journalBase ≤ a ∧ a < journalBase + 0x100000 then .journal
  else if 0xF000000000 ≤ a ∧ a < 0xF000220000 then .register
  else if 0xF001000000 ≤ a ∧ a < 0xF001080000 then .register
  else .unmapped

end Chip

/-- The region is memory-typed (R230). -/
def Region.isMem : Region → Bool
  | .dram _ => true
  | .bank _ => true
  | _ => false

/-- The region is device-typed (R17, R230). -/
def Region.isDev : Region → Bool
  | .bitSet _ => true
  | .bitClear _ => true
  | .journal => true
  | .register => true
  | _ => false

/-- The bank a region belongs to, if any. -/
def Region.bank? : Region → Option Nat
  | .bank n => some n
  | .bitSet n => some n
  | .bitClear n => some n
  | _ => none

/-- The storage address of an address: bank aliases fold to the normal alias (R19, R223). -/
def storageAddr (a : Nat) : Nat :=
  if setBase ≤ a ∧ a < clearBase + 0x2000000 then
    (if a < clearBase then a - setBase + bankBase else a - clearBase + bankBase)
  else a

/-! ### The 72-bit code (R223 to R228) -/

/-- The columns of d0 to d63 (R224). -/
def dcol : List (BitVec 8) :=
  [0x07, 0x0B, 0x0D, 0x0E, 0x13, 0x15, 0x16, 0x19, 0x1A, 0x1C, 0x23, 0x25, 0x26, 0x29, 0x2A, 0x2C,
   0x31, 0x32, 0x34, 0x38, 0x43, 0x45, 0x46, 0x49, 0x4A, 0x4C, 0x51, 0x52, 0x54, 0x58, 0x61, 0x62] ++
  [0x64, 0x68, 0x70, 0x83, 0x85, 0x86, 0x89, 0x8A, 0x8C, 0x91, 0x92, 0x94, 0x98, 0xA1, 0xA2, 0xA4,
   0xA8, 0xB0, 0xC1, 0xC2, 0xC4, 0xC8, 0xD0, 0xE0, 0x1F, 0x2F, 0x37, 0x3B, 0x3D, 0x3E, 0x4F, 0x57]

/-- The columns of a3 to a39 (R224). -/
def acol : List (BitVec 8) :=
  [0x03, 0x05, 0x06, 0x09, 0x0A, 0x0C, 0x11, 0x12, 0x14, 0x18, 0x21, 0x22, 0x24, 0x28, 0x30, 0x41,
   0x42, 0x44, 0x48, 0x50, 0x60, 0x81, 0x82, 0x84, 0x88, 0x90, 0xA0, 0xC0, 0x0F, 0x17, 0x1B, 0x1D] ++
  [0x1E, 0x27, 0x2B, 0x2D, 0x2E]

/-- The xor of the columns of the bits set in `v`, from bit 0. -/
def columns : List (BitVec 8) → Nat → BitVec 8
  | [], _ => 0
  | k :: r, v => (if v % 2 = 1 then k else 0) ^^^ columns r (v / 2)

/-- `check(d, a)` of R225; `a` is a byte address, its bits [2:0] are not folded. -/
def eccCheck (d : DWord) (a : Nat) : BitVec 8 := columns dcol d.toNat ^^^ columns acol (a / 8 % 2 ^ 37)

/-- The outcome of decoding a word (R225). -/
inductive EccKind where
  | clean | corrected | uncorrectable
  deriving DecidableEq, Repr

/-- The index of a column. -/
def colIndex : List (BitVec 8) → BitVec 8 → Option Nat
  | [], _ => none
  | k :: r, s => if k = s then some 0 else (colIndex r s).map (· + 1)

/-- `decode(d, c, a)` of R225: the data, the outcome and the syndrome. -/
def eccDecode (d : DWord) (ck : BitVec 8) (a : Nat) : DWord × EccKind × BitVec 8 :=
  let s := ck ^^^ eccCheck d a
  if s = 0 then (d, .clean, s)
  else match colIndex dcol s with
    | some j => (d ^^^ BitVec.ofNat 64 (2 ^ j), .corrected, s)
    | none =>
      if (List.range 8).any (fun i => s = BitVec.ofNat 8 (2 ^ i)) then (d, .corrected, s) else (d, .uncorrectable, s)

/-! ### Memory as storage -/

namespace Chip

/-- A byte as last written. -/
def byte (c : Chip) (a : Nat) : Byte := c.mem.get 0 a

/-- The chip with one byte written. -/
def setByte (c : Chip) (a : Nat) (b : Byte) : Chip := { c with mem := c.mem.put 0 a b }

/-- `n` bytes from `a` as last written, as a number. -/
def rawNat (c : Chip) : Nat → Nat → Nat
  | 0, _ => 0
  | n + 1, a => (c.byte a).toNat + 256 * rawNat c n (a + 1)

/-- Bytes written from `a` upward. -/
def setBytes (c : Chip) : Nat → List Byte → Chip
  | _, [] => c
  | a, b :: r => (c.setByte a b).setBytes (a + 1) r

/-- The flipped codeword bits of the word that holds byte `a`. -/
def flips (c : Chip) (a : Nat) : BitVec 72 := c.ecc.get 0 (a / 8)

/-- The chip with the flipped codeword bits of a word set. -/
def setFlips (c : Chip) (a : Nat) (m : BitVec 72) : Chip := { c with ecc := c.ecc.put 0 (a / 8) m }

/-- The codeword at a word address as stored: data and check bits with their flips. -/
def stored (c : Chip) (a : Nat) : DWord × BitVec 8 :=
  let d := BitVec.ofNat 64 (c.rawNat 8 (a / 8 * 8))
  let m := c.flips a
  (d ^^^ m.setWidth 64, eccCheck d a ^^^ (m >>> 64).setWidth 8)

/-- The word at a word address after decoding (R225), with the outcome and the syndrome. -/
def readCode (c : Chip) (a : Nat) : DWord × EccKind × BitVec 8 :=
  let (d, k) := c.stored a
  eccDecode d k a

/-- A word written whole with correct check bits. -/
def storeWord (c : Chip) (a : Nat) (d : DWord) : Chip :=
  (c.setBytes (a / 8 * 8) (bytesLE 8 d.toNat)).setFlips a 0

end Chip

/-- The bytes of `old` with those that `be` enables replaced by the bytes of `new`. -/
def mergeBytes (n : Nat) (be : Nat) (old new : Nat) : Nat :=
  natLE ((List.range n).map (fun i =>
    BitVec.ofNat 8 ((if be.testBit i then new else old) / 2 ^ (8 * i))))

/-! ### Lists used as sets and queues -/

/-- The list with `x` added at the end if it is not there. -/
def addNew {α : Type} [DecidableEq α] (l : List α) (x : α) : List α := if x ∈ l then l else l ++ [x]

/-- The list without `x`. -/
def without {α : Type} [DecidableEq α] (l : List α) (x : α) : List α := l.filter (· ≠ x)

/-- Whether an optional value is that value. -/
def isVal {α : Type} [DecidableEq α] (o : Option α) (x : α) : Bool := o == some x

/-! ### Commands on the state -/

/-- What a command answers. -/
abbrev Out := Host.Outcome State Fault Refusal

/-- The next state in which the chip alone has changed, by `f` at the present time. -/
def State.act (s : State) (f : Nat → Chip → Chip) : Out :=
  .next { s with chip := f s.now.toNat s.chip }

end Sys2Proof.Machine
end

