-- ==== Sys2Proof/Machine/RegMap.lean ====
section
/-! DEFINITION. From an address to the register it names (R20, R23), and who may read and write which register (R392,
R421). -/
namespace Sys2Proof.Machine

/-- The register at the start of the list whose address is `a`. -/
def firstAt (a : Nat) (l : List RegName) : Option RegName := l.find? (fun r => r.addr == a)

/-- The registers without an index. -/
def fixedRegs : List RegName :=
  [.TIM_NOW, .TIM_STATUS, .TIM_PTP, .TIM_PTPRATE, .TIM_PTPSTEP, .TIM_PPS, .TIM_PPSIN, .TIM_PPSNOW,
   .GOV_CTRL, .GOV_FLOOR, .GOV_STATUS, .GOV_INDEX, .GOV_VOLT, .GOV_TEMP,
   .SYS_DEVTIMEOUT, .SYS_JRNSTAT, .SYS_COMMITSEQ, .SYS_SHAFTSYND, .SYS_SNAP, .SYS_PWRCTL, .SYS_PWRSTAT,
   .CHN_TAGS, .CHN_WCPCFG, .CHN_STAT,
   .CPH_CFG, .CPH_STAT,
   .MIL_CFG, .MIL_STAT,
   .PRT_MGR,
   .FLT_STATUS, .FLT_ERRMASK, .FLT_STATE, .FLT_RECOV, .FLT_RECOVERIES, .FLT_BRAKE, .FLT_TATTR, .FLT_MATTR, .FLT_RELPERM,
   .PAR_CFG, .PAR_STAT, .PAR_CTL, .PAR_TOFF,
   .CAS_CFG, .CAS_STAT, .CAS_CTL,
   .CFG_STAT, .CFG_SYND, .CFG_CTL, .CFG_STGADDR, .CFG_STGCMD, .CFG_STGSTAT,
   .HST_STAT,
   .MGT_STAT, .MGT_CFG,
   .BOK_CTL, .BOK_STAT, .BOK_POLICY]

/-- The cluster registers (chapters 02, 06, 07, 08, 11, 18): offset `o` in cluster `k`. -/
def cluReg (k o : Nat) : Option RegName :=
  let j := (o % 0x100) / 0x40
  let t := 4 * k + j
  if o = 0 then some (.CLU_CFG k)
  else if 0x100 ≤ o ∧ o < 0x100 + 8 * 12 then some (.CLU_SWEEP k ((o - 0x100) / 8))
  else if 0x200 ≤ o ∧ o < 0x200 + 8 * 13 then some (.CLU_CSSTAT (13 * k + (o - 0x200) / 8))
  else if o = 0x300 then some (.CLU_SPARE k)
  else if 0x400 ≤ o ∧ o < 0x500 then
    match o % 0x40 / 8 with
    | 0 => some (.CLU_TCFG t)
    | 1 => some (.CLU_TSTATE t)
    | 2 => some (.CLU_LANEMAP t)
    | 3 => some (.CLU_TCOUNT t)
    | 4 => some (.CLU_TSYND t)
    | 5 => some (.CLU_SLUTEST t)
    | 6 => some (.CLU_CKPT t)
    | _ => some (.CLU_TCTL t)
  else if 0x800 ≤ o ∧ o < 0x900 then
    match o % 0x40 / 8 with
    | 4 => some (.CLU_EVCFG t)
    | 5 => some (.CLU_EVSTAT t)
    | 0 => some (.CLU_EVTIMER t 0)
    | 1 => some (.CLU_EVTIMER t 1)
    | 2 => some (.CLU_EVTIMER t 2)
    | 3 => some (.CLU_EVTIMER t 3)
    | _ => none
  else if 0xA00 ≤ o ∧ o < 0xA20 then some (.CLU_L1CTL (4 * k + (o - 0xA00) / 8))
  else if 0xC00 ≤ o ∧ o < 0xC00 + 8 * 12 then some (.CLU_TXCOUNT (4 * k + (o - 0xC00) / 24) ((o - 0xC00) / 8 % 3))
  else if 0xE00 ≤ o ∧ o < 0xE20 then some (.CLU_FSYND (4 * k + (o - 0xE00) / 8))
  else none

/-- An indexed block: register number `n` of size `sz` from `base`, below `cnt`. -/
def indexed (a base sz cnt : Nat) (f : Nat → RegName) : Option RegName :=
  if base ≤ a ∧ a < base + sz * cnt ∧ (a - base) % sz = 0 then some (f ((a - base) / sz)) else none

/-- The registers of a path, by offset in its block (R282). -/
def pathReg (n : Nat) : Nat → RegName
  | 0 => .CHN_PATHCFG n
  | 1 => .CHN_PATHMATCH0 n
  | 2 => .CHN_PATHMATCH1 n
  | 3 => .CHN_PATHAUX n
  | 4 => .CHN_PATHSEQ n
  | 5 => .CHN_PATHSTAT n
  | 6 => .CHN_PATHCTL n
  | _ => .CHN_PATHCNT n

/-- The registers of a queue, by offset in its block (R285). -/
def queueReg (q : Nat) : Nat → RegName
  | 0 => .QUE_CFG q
  | 1 => .QUE_HR q
  | 2 => .QUE_TR q
  | 3 => .QUE_CTLA q
  | 4 => .QUE_PROG q
  | 5 => .QUE_GEN q
  | 6 => .QUE_STAT q
  | _ => .QUE_CMD q

/-- The partition registers (R401, R207): offset `o` of the window. -/
def prtReg (o : Nat) : Option RegName :=
  if 0x1000 ≤ o ∧ o < 0x2000 then
    let p := (o - 0x1000) / 0x40
    match o % 0x40 / 8 with
    | 0 => some (.PRT_CFG p)
    | 1 => some (.PRT_STATE p)
    | 2 => some (.PRT_CTL p)
    | 3 => some (.PRT_LOGCFG p)
    | 4 => some (.PRT_LOGBUF0 p)
    | 5 => some (.PRT_LOGBUF1 p)
    | 6 => some (.PRT_LOGCTL p)
    | _ => none
  else if 0x4000 ≤ o ∧ o < 0x4000 + 0x180 * 64 then
    let p := (o - 0x4000) / 0x180
    let w := (o - 0x4000) % 0x180 / 0x18
    match (o - 0x4000) % 0x18 / 8 with
    | 0 => some (.PRT_WBASE p w)
    | 1 => some (.PRT_WLIMIT p w)
    | _ => some (.PRT_WOFFSET p w)
  else none

/-- The registers of a SerDes lane and of a field lane, by offset (R337, R338). -/
def lanReg (n : Nat) : Nat → Option RegName
  | 0 => some (.LAN_CFG n)
  | 1 => some (.LAN_MAC n)
  | 2 => some (.LAN_IP n)
  | 3 => some (.LAN_CTL n)
  | 4 => some (.LAN_STAT n)
  | 5 => some (.LAN_CNT n)
  | 6 => some (.LAN_TXTS n)
  | _ => none
def fldReg (n : Nat) : Nat → Option RegName
  | 0 => some (.FLD_CFG n)
  | 1 => some (.FLD_TIMING n)
  | 2 => some (.FLD_CTL n)
  | 3 => some (.FLD_STAT n)
  | 4 => some (.FLD_CNT n)
  | _ => none

/-- The first of two answers. -/
def orTry (a b : Option RegName) : Option RegName := match a with | some r => some r | none => b

/-- The indexed registers of the system windows. -/
def sysReg (a : Nat) : Option RegName :=
  orTry (indexed a 0xF000020100 8 13 .GOV_MON) <|
  orTry (indexed a 0xF000000200 8 16 .SYS_BARSTAT) <|
  orTry (indexed a 0xF000000600 8 16 .SYS_TEST) <|
  orTry (indexed a 0xF000010100 8 20 .FLT_POLICY) <|
  orTry (indexed a 0xF000010200 8 20 .FLT_ATTR) <|
  orTry (indexed a 0xF000010400 8 64 .FLT_NOTE) <|
  orTry (indexed a 0xF000040000 8 128 .ARB_PORT) <|
  orTry (indexed a 0xF000040400 8 11 .ARB_ARB) <|
  orTry (indexed a 0xF000041000 0x18 344 .ARB_GRANTS) <|
  orTry (indexed a 0xF000041008 0x18 344 .ARB_WAITS) <|
  orTry (indexed a 0xF000041010 0x18 344 .ARB_LONG) <|
  orTry (indexed a 0xF000060000 8 64 .BNK_OWNER) <|
  orTry (indexed a 0xF000060200 8 65 .BNK_ECC) <|
  orTry (indexed a 0xF000070000 8 2 .DRM_CFG) <|
  orTry (indexed a 0xF000070010 8 2 .DRM_SCRUB) <|
  orTry (indexed a 0xF000070020 8 2 .DRM_INIT) <|
  orTry (indexed a 0xF000070100 8 4 (fun i => .DRM_ECC (i / 2) (i % 2))) <|
  orTry (indexed a 0xF000070140 8 4 (fun i => .DRM_EADR (i / 2) (i % 2))) <|
  orTry (indexed a 0xF000080100 8 16 .CPH_CORE) <|
  orTry (indexed a 0xF000080800 8 64 .CPH_SHARE) <|
  orTry (indexed a 0xF000081000 0x20 64 .CPH_UNWRAP_ADDR) <|
  orTry (indexed a 0xF000081008 0x20 64 .CPH_UNWRAP_CMD) <|
  orTry (indexed a 0xF000081010 0x20 64 .CPH_UNWRAP_STAT) <|
  orTry (indexed a 0xF000088000 8 4096 .CPH_SLOT) <|
  orTry (indexed a 0xF000090040 8 8 .MIL_CORE) <|
  orTry (indexed a 0xF000090800 8 64 .MIL_SHARE) <|
  orTry (indexed a 0xF000090200 8 32 .MIL_PHUF) <|
  orTry (indexed a 0xF0000B0100 8 64 .CAS_EXPORT) <|
  orTry (indexed a 0xF0000C0100 0x10 32 .HST_WBASE) <|
  orTry (indexed a 0xF0000C0108 0x10 32 .HST_WLIMIT) <|
  indexed a 0xF000201800 8 6 .LAN_QCFG

/-- The register an address names, none for an offset that names no register (R20). -/
def regOf (a : Nat) : Option RegName :=
  if a % 8 ≠ 0 then none
  else if 0xF001000000 ≤ a ∧ a < 0xF001080000 then cluReg ((a - 0xF001000000) / 0x10000) (a % 0x10000)
  else if 0xF000100000 ≤ a ∧ a < 0xF000110000 then some (pathReg ((a - 0xF000100000) / 0x40) (a % 0x40 / 8))
  else if 0xF000110000 ≤ a ∧ a < 0xF000150000 then some (queueReg ((a - 0xF000110000) / 0x40) (a % 0x40 / 8))
  else if 0xF000200000 ≤ a ∧ a < 0xF000201800 then
    (if a % 0x100 < 0x40 then lanReg ((a - 0xF000200000) / 0x100) (a % 0x100 / 8) else none)
  else if 0xF000210000 ≤ a ∧ a < 0xF000211000 then fldReg ((a - 0xF000210000) / 0x40) (a % 0x40 / 8)
  else if 0xF000051000 ≤ a ∧ a < 0xF00005A000 then prtReg (a - 0xF000050000)
  else orTry (sysReg a) (firstAt a fixedRegs)

end Sys2Proof.Machine
end

