-- ==== Sys2Proof/Machine/Access.lean ====
section
/-! DEFINITION. Who may read and write which device register (R392, R421), and the address checks of a core's access to a
device-typed region (R20, R22, R392). -/
namespace Sys2Proof.Machine

/-- The mill book's data window (R510). -/
def bookWindow (a : Nat) : Bool := decide (0xF0000E1000 ≤ a ∧ a < 0xF0000E2000)

/-- The power domain that answers at a device-typed address (R487). -/
def powerDomain (a : Nat) : Nat :=
  if 0xF001000000 ≤ a then 1 + (a - 0xF001000000) / 0x10000
  else if setBase ≤ a ∧ a < journalBase then 9 + storageAddr a / 0x400000 % 8
  else if 0xF000080000 ≤ a ∧ a < 0xF000090000 then 17
  else if 0xF000090000 ≤ a ∧ a < 0xF0000A0000 then 18
  else if 0xF000100000 ≤ a ∧ a < 0xF000200000 then 19
  else if 0xF000200000 ≤ a ∧ a < 0xF000201800 then 20 + (a - 0xF000200000) / 0x400
  else if 0xF000201800 ≤ a ∧ a < 0xF000201830 then 20 + (a - 0xF000201800) / 8
  else if 0xF000210000 ≤ a ∧ a < 0xF000220000 then 26
  else if a = 0xF000070008 ∨ a = 0xF000070018 ∨ a = 0xF000070028 then 28
  else if 0xF0000C0000 ≤ a ∧ a < 0xF0000D0000 then 29
  else 0

/-- How the table of R392 and R421 treats a register. -/
inductive RegClass where
  /-- anyone reads, the manager writes -/
  | shared
  /-- the manager alone -/
  | managerOnly
  /-- of one partition: it reads; it writes where `w` -/
  | ofPart (p : Nat) (w : Bool)
  /-- of a bank -/
  | ofBank (n : Nat)
  /-- of a queue: the owner reads, and writes where `w`; the host too for its own queues -/
  | ofQueue (q : Nat) (w : Bool)
  /-- of a path -/
  | ofPath (n : Nat) (w : Bool)
  /-- of a SerDes lane -/
  | ofLan (n : Nat) (w : Bool)
  /-- of a quad of SerDes lanes -/
  | ofQuad (q : Nat)
  /-- of a field lane -/
  | ofFld (n : Nat) (w : Bool)
  /-- of a triad -/
  | ofTriad (t : Nat) (w : Bool)
  /-- of a key slot -/
  | ofSlot (n : Nat)
  /-- PTP and PPS registers -/
  | ptp
  /-- partitions read, the manager reads and writes, the host nothing -/
  | parts
  /-- `FLT_ATTR` -/
  | attr
  /-- `CLU_TCTL` -/
  | tctl
  /-- the host windows -/
  | host
  deriving DecidableEq, Repr

/-- The row of R392 or R421 that covers a register. -/
def regClass : RegName → RegClass
  | .CFG_STAT | .CFG_SYND | .CFG_CTL | .CFG_STGADDR | .CFG_STGCMD | .CFG_STGSTAT => .managerOnly
  | .PAR_CFG | .PAR_STAT | .PAR_CTL | .PAR_TOFF => .managerOnly
  | .CAS_CFG | .CAS_STAT | .CAS_CTL | .CAS_EXPORT _ => .managerOnly
  | .MGT_STAT | .MGT_CFG | .BOK_CTL | .BOK_STAT | .BOK_POLICY | .PRT_MGR => .managerOnly
  | .FLT_ATTR _ => .attr
  | .FLT_NOTE p => .ofPart p false
  | .PRT_CFG p | .PRT_STATE p | .PRT_CTL p | .PRT_LOGCFG p | .PRT_LOGBUF0 p | .PRT_LOGBUF1 p | .PRT_LOGCTL p
  | .PRT_WBASE p _ | .PRT_WLIMIT p _ | .PRT_WOFFSET p _ | .CPH_SHARE p | .MIL_SHARE p => .ofPart p false
  | .CPH_UNWRAP_ADDR p | .CPH_UNWRAP_CMD p | .CPH_UNWRAP_STAT p => .ofPart p true
  | .BNK_OWNER n | .BNK_ECC n => .ofBank n
  | .CPH_SLOT n => .ofSlot n
  | .CHN_PATHCTL n => .ofPath n true
  | .CHN_PATHCFG n | .CHN_PATHMATCH0 n | .CHN_PATHMATCH1 n | .CHN_PATHAUX n | .CHN_PATHSEQ n | .CHN_PATHSTAT n
  | .CHN_PATHCNT n => .ofPath n false
  | .QUE_CMD q => .ofQueue q true
  | .QUE_CFG q | .QUE_HR q | .QUE_TR q | .QUE_CTLA q | .QUE_PROG q | .QUE_GEN q | .QUE_STAT q => .ofQueue q false
  | .LAN_CTL n => .ofLan n true
  | .LAN_CFG n | .LAN_MAC n | .LAN_IP n | .LAN_STAT n | .LAN_CNT n | .LAN_TXTS n => .ofLan n false
  | .LAN_QCFG q => .ofQuad q
  | .FLD_CTL n => .ofFld n true
  | .FLD_CFG n | .FLD_TIMING n | .FLD_STAT n | .FLD_CNT n => .ofFld n false
  | .TIM_PTP | .TIM_PTPRATE | .TIM_PTPSTEP | .TIM_PPS | .TIM_PPSIN | .TIM_PPSNOW => .ptp
  | .HST_STAT | .HST_WBASE _ | .HST_WLIMIT _ => .host
  | .CLU_EVTIMER t _ | .CLU_EVCFG t | .CLU_L1CTL t => .ofTriad t true
  | .CLU_TCFG t | .CLU_TSTATE t | .CLU_LANEMAP t | .CLU_TCOUNT t | .CLU_TSYND t | .CLU_SLUTEST t | .CLU_CKPT t
  | .CLU_EVSTAT t | .CLU_TXCOUNT t _ | .CLU_FSYND t => .ofTriad t false
  | .CLU_SWEEP c k => .ofTriad (4 * c + k / 3) false
  | .CLU_TCTL _ => .tctl
  | .CLU_CFG _ | .CLU_CSSTAT _ | .CLU_SPARE _ => .parts
  | _ => .shared

namespace Chip

/-- A power domain is on (R487, R499). -/
def domainOn (c : Chip) (d : Nat) : Bool := (c.gf .SYS_PWRSTAT SYS_PWRSTAT.ON).testBit d

/-- A power domain is in transition. -/
def domainBusy (c : Chip) (d : Nat) : Bool := (c.gf .SYS_PWRSTAT SYS_PWRSTAT.BUSY).testBit d

/-- The agent a core of partition `p` is for register accesses (R388). -/
def coreAgent (c : Chip) (p : Nat) : Agent := if c.isMgrPart p then .manager else .part (BitVec.ofNat 6 p)

/-- The agent the host is for register accesses (R388, R475). -/
def hostAgent (c : Chip) : Agent := if c.gb .PRT_MGR PRT_MGR.SITE then .manager else .host

/-- The partition of a path, a queue, a lane, a slot, as far as one is bound (R390). -/
def ownsTriad (c : Chip) (p t : Nat) : Bool := (c.gf (.PRT_CFG p) PRT_CFG.TRIADS).testBit t
def ownsQueue (c : Chip) (p q : Nat) : Bool :=
  c.gf (.QUE_CFG q) QUE_CFG.OWNER == p && !c.gb (.QUE_CFG q) QUE_CFG.HOST
def ownsPath (c : Chip) (p n : Nat) : Bool := c.gf (.CHN_PATHCFG n) CHN_PATHCFG.OWNER == p
def ownsLan (c : Chip) (p n : Nat) : Bool := c.lanOwner.get 64 n == p
def ownsFld (c : Chip) (p n : Nat) : Bool := c.gf (.FLD_CFG n) FLD_CFG.OWNER == p
def ownsSlot (c : Chip) (p n : Nat) : Bool :=
  c.gf (.CPH_SLOT n) CPH_SLOT.OWNER == p && c.gb (.CPH_SLOT n) CPH_SLOT.ASSIGNED
def ownsBank (c : Chip) (p n : Nat) : Bool :=
  c.gf (.BNK_OWNER n) BNK_OWNER.TYPE == 1 && c.gf (.BNK_OWNER n) BNK_OWNER.PART == p

/-- A partition may read a register of the class. -/
def partReads (c : Chip) (p : Nat) : RegClass → Bool
  | .shared | .ptp | .parts | .attr => true
  | .managerOnly | .tctl | .host => false
  | .ofPart q _ => q == p
  | .ofBank n => c.ownsBank p n
  | .ofQueue q _ => c.ownsQueue p q
  | .ofPath n _ => c.ownsPath p n
  | .ofLan n _ => c.ownsLan p n
  | .ofQuad q => [0, 1, 2, 3].any (fun i => c.ownsLan p (4 * q + i))
  | .ofFld n _ => c.ownsFld p n
  | .ofTriad t _ => c.ownsTriad p t
  | .ofSlot n => c.ownsSlot p n

/-- A partition may write a register of the class. -/
def partWrites (c : Chip) (p : Nat) : RegClass → Bool
  | .ptp => c.gb (.PRT_CFG p) PRT_CFG.PTP
  | .attr => true
  | .ofPart q w => w && q == p
  | .ofQueue q w => w && c.ownsQueue p q
  | .ofPath n w => w && c.ownsPath p n
  | .ofLan n w => w && c.ownsLan p n
  | .ofFld n w => w && c.ownsFld p n
  | .ofTriad t w => w && c.ownsTriad p t
  | .ofSlot n => c.ownsSlot p n
  | _ => false

/-- The host may read a register of the class while it does not hold the manager role. -/
def hostReads (c : Chip) : RegClass → Bool
  | .shared | .ptp | .attr => true
  | .ofBank n => c.gf (.BNK_OWNER n) BNK_OWNER.TYPE == 2
  | .ofQueue q _ => c.gb (.QUE_CFG q) QUE_CFG.HOST
  | _ => false

/-- R392 and R421 let the agent read the register. -/
def mayRead (c : Chip) (ag : Agent) (r : RegName) : Bool :=
  match ag with
  | .manager | .miller => regClass r != .tctl
  | .part p => c.partReads p.toNat (regClass r)
  | .host => c.hostReads (regClass r)

/-- SerDes lanes 20 to 23 belong to the leat and are read only (R392). -/
def leatLan : RegClass → Bool
  | .ofLan n _ => decide (20 ≤ n)
  | .ofQuad q => q == 5
  | _ => false

/-- R392 and R421 let the agent write the register. -/
def mayWrite (c : Chip) (ag : Agent) (r : RegName) : Bool :=
  match ag with
  | .manager | .miller => !leatLan (regClass r)
  | .part p => c.partWrites p.toNat (regClass r)
  | .host => match regClass r with | .ofQueue q w => w && c.gb (.QUE_CFG q) QUE_CFG.HOST | _ => false

/-- A device-typed address an agent may read (R20, R22, R392): the bank aliases (whose owner check comes before), the
journal store for the manager, a register it may read. -/
def devReadable (c : Chip) (ag : Agent) (a : Nat) : Bool :=
  match c.region a with
  | .bitSet _ | .bitClear _ => true
  | .journal => ag == .manager || ag == .miller
  | .register =>
    if bookWindow a then ag == .manager || ag == .miller
    else match regOf a with
      | some r => c.mayRead ag r
      | none => false
  | _ => false

/-- A device-typed address an agent may write; nobody writes the journal store (R22). -/
def devWritable (c : Chip) (ag : Agent) (a : Nat) : Bool :=
  match c.region a with
  | .bitSet _ | .bitClear _ => true
  | .register =>
    if bookWindow a then ag == .manager || ag == .miller
    else match regOf a with
      | some r => c.mayWrite ag r
      | none => false
  | _ => false

end Chip
end Sys2Proof.Machine
end

