-- ==== Sys2Proof/Machine/Faults.lean ====
section
/-! DEFINITION. Reports to the fault collector, pending events and the brake (chapters 07, 10 and 18). -/
namespace Sys2Proof.Machine
namespace Chip

/-! ### Pending events and rounds -/

/-- The triad's lanes run and can take part in a delivery round: VOTING, DEGRADED or REBUILD (R142). -/
def live (c : Chip) (t : Nat) : Bool := c.tstate t == 1 || c.tstate t == 2 || c.tstate t == 3

/-- Opens a delivery round if none is open (R165 step 1, R170, R172); a standby's lanes take what the primary forwards
(R427), and decide only what stays inside the device. -/
def openRound (c : Chip) (t : Nat) : Chip :=
  if !c.split t && c.live t && !(c.following && (c.triad t).wants.isEmpty) then
    c.updTriad t (fun x => if x.round.isNone then { x with round := some {} } else x)
  else c

/-- Decisions that a standby takes for itself: no software sees them. -/
def ownDecision : Decision → Bool
  | .digest => true
  | .halt => true
  | .l1off _ => true
  | .l1on _ => true
  | _ => false

/-- Requests a decision at one agreed count (R170). -/
def want (c : Chip) (t : Nat) (d : Decision) : Chip :=
  if c.following && !ownDecision d then c else
  (c.updTriad t (fun x => { x with wants := addNew x.wants d })).openRound t

/-- Makes an event pending for a requester (R165 step 1, R168: triggers coalesce). -/
def pendEvent (c : Chip) (key n : Nat) : Chip :=
  (c.updPort key (fun p => { p with pend := addNew p.pend n })).openRound (key / 3)

/-- Queues a `DEVICE_WRITE_ERROR` for a requester (R248). -/
def pendDwe (c : Chip) (key : Nat) (eval : Word) : Chip :=
  (c.updPort key (fun p => { p with dwe := p.dwe ++ [eval] })).openRound (key / 3)

/-! ### Barrier groups (R242 to R245) -/

/-- The lane that stands for a requester: a SPLIT core itself, or the lowest voting lane of a triad. -/
def repLane (c : Chip) (key : Nat) : Nat :=
  if c.split (key / 3) then key else 3 * (key / 3) + ((c.voting (key / 3)).head?).getD 0

/-- The lanes of a requester. -/
def lanesOf (c : Chip) (key : Nat) : List Nat :=
  if c.split (key / 3) then [key] else [key / 3 * 3, key / 3 * 3 + 1, key / 3 * 3 + 2]

/-- The groups granted to a partition (R242). -/
def granted (c : Chip) (p : Option Nat) : Nat :=
  match p with | some p => c.gf (.PRT_CFG p) PRT_CFG.BARGRANT | none => 0

/-- A requester is a member of a group (R242): its `BARGROUP` bit is set and its partition holds the group. -/
def barMember (c : Chip) (g key : Nat) : Bool :=
  let t := key / 3
  (c.split t || key % 3 == 0) && (c.live t || c.tstate t == 7 || c.tstate t == 4) &&
  (c.lane (c.repLane key)).arch.bargroup.toNat.testBit g && (c.granted (c.partOf t)).testBit g &&
  !(c.port key).barOut.testBit g

/-- The members of a group. -/
def barMembers (c : Chip) (g : Nat) : List Nat := (List.range 96).filter (c.barMember g)

/-- `SYS_BARSTAT` shows a group as granted to a partition, or to none. -/
def barHolder (c : Chip) (g : Nat) (p : Option Nat) : Chip :=
  (c.sf (.SYS_BARSTAT g) SYS_BARSTAT.GRANTED (bit p.isSome)).sf (.SYS_BARSTAT g) SYS_BARSTAT.PART (p.getD 0)

/-- Keeps GRANTED and PART of `SYS_BARSTAT` in step with a partition's BARGRANT (R251). -/
def barGrants (c : Chip) (p : Nat) : Chip :=
  (List.range 16).foldl (fun c g =>
    if (c.granted (some p)).testBit g then c.barHolder g (some p)
    else if c.gb (.SYS_BARSTAT g) SYS_BARSTAT.GRANTED && c.gf (.SYS_BARSTAT g) SYS_BARSTAT.PART == p then c.barHolder g none
    else c) c

/-- Keeps `SYS_BARSTAT` in step with a group (R251). -/
def barSync (c : Chip) (g : Nat) : Chip :=
  (c.sf (.SYS_BARSTAT g) SYS_BARSTAT.MEMBERS (c.barMembers g).length).sf
    (.SYS_BARSTAT g) SYS_BARSTAT.ARRIVED (c.bar g).arrived.length

/-- The round of a group has ended for a member: its lanes may retire their `BARWAIT`, in a triad at one agreed count
(R242, R243). -/
def barRelease (c : Chip) (g key : Nat) : Chip :=
  if c.split (key / 3) then c.updLane key (fun l => { l with barDone := l.barDone ++ [g] })
  else c.want (key / 3) (.barEnd g)

/-- The round of a group ends: its members are released (R242). -/
def barEnd (c : Chip) (g : Nat) : Chip :=
  let a := (c.bar g).arrived
  let c := (c.setBar g { arrived := [] }).inc (.SYS_BARSTAT g) SYS_BARSTAT.ROUNDS
  (a.foldl (fun c k => c.barRelease g k) c).barSync g

/-- Members and arrivals of the cascade group on the reachable devices: every member of every device has arrived (R445). -/
def casArrived (c : Chip) (m a : Nat) : Bool :=
  let far := c.cas.bars.filter (fun e => (c.gf .CAS_STAT CAS_STAT.REACH).testBit e.1)
  let tallies : List (Nat × Nat) := (m, a) :: far.map (fun e => e.2)
  tallies.any (fun e => decide (0 < e.1)) && tallies.all (fun e => e.1 == e.2)

/-- The cascade group, whose members stand on every device: the master releases it, the others report to it (R445). -/
def casCheck (c : Chip) (m a : Nat) : Chip :=
  if !c.casMaster then
    (c.leatPut (.globalOp (.barrierArrive (BitVec.ofNat 2 c.casId) (BitVec.ofNat 8 m) (BitVec.ofNat 8 a)))).barSync 15
  else if c.casArrived m a then
    let c := { c with cas := { c.cas with bars := c.cas.bars.map (fun (e : Nat × Nat × Nat) => (e.1, e.2.1, 0)) } }
    (c.leatPut (.globalOp .barrierRelease)).barEnd 15
  else c.barSync 15

/-- Ends the round of a group if every current member has arrived (R242, R445); a standby is told (R427). -/
def barCheck (c : Chip) (g : Nat) : Chip :=
  let m := c.barMembers g
  let a := (c.bar g).arrived
  if c.following then c.barSync g
  else if g = 15 ∧ c.cascade then c.casCheck m.length a.length
  else if !m.isEmpty && m.all (fun k => a.contains k) then c.barEnd g
  else c.barSync g

/-- A member arrives in the current round of a group (R242 step 2); a second arrival is not counted (R245). -/
def barArrive (c : Chip) (g key : Nat) : Chip :=
  (c.setBar g { arrived := addNew (c.bar g).arrived key }).barCheck g

/-- A member leaves a group (R244): its arrival is withdrawn and the round may end. -/
def barLeave (c : Chip) (key g : Nat) : Chip :=
  (c.setBar g { arrived := without (c.bar g).arrived key }).barCheck g

/-- A requester leaves every group it is in, as if its bits were cleared (R244). -/
def barLeaveAll (c : Chip) (key : Nat) : Chip :=
  let gs := (List.range 16).filter (fun g => (c.lane (c.repLane key)).arch.bargroup.toNat.testBit g)
  let c := (c.lanesOf key).foldl (fun c k =>
    c.updLane k (fun l => { l with arch := { l.arch with bargroup := 0 }, barIn := [], barDone := [] })) c
  gs.foldl (fun c g => c.barLeave key g) c

/-! ### Reports -/

/-- Sticky bit of a source and class in `FLT_STATUS` (R405). -/
def sticky (c : Chip) (src cls : Nat) : Bool := (c.rd .FLT_STATUS).toNat.testBit (3 * src + cls)

def setSticky (c : Chip) (src cls : Nat) : Chip :=
  c.wr .FLT_STATUS (BitVec.ofNat 64 (setBit (c.rd .FLT_STATUS).toNat (3 * src + cls)))

/-- A corrected fault: the sticky bit, and the GRACE0 timer at its 0-to-1 change (R407); a standby's grace timers do not
run (R433). -/
def corrected (c : Chip) (now src : Nat) : Chip :=
  let g := c.gf (.FLT_POLICY src) FLT_POLICY.GRACE0
  let was := c.sticky src 0
  let c := c.setSticky src 0
  if !was && g != 0 && !c.standby then c.modFlt (fun f => { f with grace0 := f.grace0 ++ [(src, now + 1000 * g)] }) else c

/-- The attribution key of R402: the partition, or 64 for the manager, to which the faults of an undefined or stopped
partition also go. -/
def attrKey (c : Chip) : Option Nat → Nat
  | some p => if c.pstate p ≤ 1 then 64 else p
  | none => 64

/-- The attribution is set (R408, R409). -/
def attributed (c : Chip) (src k : Nat) : Bool :=
  if k = 64 then (c.rd .FLT_MATTR).toNat.testBit src else (c.rd (.FLT_ATTR src)).toNat.testBit k

def setAttr (c : Chip) (src k : Nat) : Chip :=
  if k = 64 then c.wr .FLT_MATTR (BitVec.ofNat 64 (setBit (c.rd .FLT_MATTR).toNat src))
  else c.wr (.FLT_ATTR src) (BitVec.ofNat 64 (setBit (c.rd (.FLT_ATTR src)).toNat k))

/-- The requester named in `FLT_NOTE` of a partition (R408). -/
def noteKey (c : Chip) (p : Nat) : Nat :=
  let t := c.gf (.FLT_NOTE p) FLT_NOTE.TRIAD
  c.portKey t (c.gf (.FLT_NOTE p) FLT_NOTE.POS)

/-- Notifies the manager partition (R408); the host has its own notice (R478). -/
def noteManager (c : Chip) (src : Nat) : Chip :=
  if c.gb .PRT_MGR PRT_MGR.SITE then c else c.pendEvent (c.noteKey 0) (0x1010 + src)

/-- A contained or fatal fault sets the host's pending bit of its source and class (R478). -/
def hostFault (c : Chip) (src cls : Nat) : Chip :=
  { c with host := { c.host with faults := addNew c.host.faults (src, cls) } }

/-- The sticky bit, attribution and `FLT_TATTR` of a contained fault (R408 step 1). -/
def containedMark (c : Chip) (src k : Nat) (triad : Option Nat) : Chip :=
  let c := (c.setSticky src 1).setAttr src k
  match triad with
  | some t =>
    if src ≤ 7 then c.wr .FLT_TATTR (BitVec.ofNat 64 (setBit (c.rd .FLT_TATTR).toNat t)) else c
  | none => c

/-- The notices of a contained fault (R408 step 2). -/
def containedNotify (c : Chip) (src k : Nat) : Chip :=
  (if k == 64 || c.isMgrPart k then c else c.pendEvent (c.noteKey k) (0x1010 + src)).noteManager src

/-- The grace timer of an attribution (R408 step 3); a standby's do not run (R433). -/
def startGrace (c : Chip) (now src k : Nat) : Chip :=
  if c.standby then c else
  let till := now + 1000 * c.gf (.FLT_POLICY src) FLT_POLICY.GRACE1
  c.modFlt (fun f => { f with grace1 := f.grace1 ++ [(src, k, till)] })

/-- The contained bits of `FLT_STATUS` that are set. -/
def containedBits (c : Chip) : Nat := (c.rd .FLT_STATUS).toNat &&& 0x492492492492492

/-- The quiet period starts over (R416). -/
def quiet (c : Chip) (now : Nat) : Chip :=
  c.modFlt (fun f => { f with quietFrom := now, quietBits := c.containedBits })

/-- RUN to FAULT, and the restart of the quiet period (R408 step 4, R416); in LOAD and TEST the fault is remembered. -/
def containedState (c : Chip) (now src k : Nat) (had : Bool) : Chip :=
  let st := c.gf .FLT_STATE FLT_STATE.STATE
  if st == 1 || st == 2 then c.modFlt (fun f => { f with early := true })
  else
    let c := (if had then c else c.startGrace now src k).quiet now
    if st == 3 then c.sf .FLT_STATE FLT_STATE.STATE 4 else c

/-- A contained fault (R408), attributed to partition `who` or the manager; a standby also tells the primary (R433). -/
def contained (c : Chip) (now src : Nat) (who : Option Nat) (triad : Option Nat) : Chip :=
  let k := c.attrKey who
  let c := if c.standby then c.leatPut (.pfault src 1) else c
  (((c.containedMark src k triad).containedNotify src k).hostFault src 1).containedState now src k (c.attributed src k)

/-- The fault syndrome of a triad (R404). -/
def fsynd (c : Chip) (now t code cls : Nat) : Chip :=
  let r := RegName.CLU_FSYND t
  let c := c.sf r CLU_FSYND.CODE code
  let c := c.sf r CLU_FSYND.CLASS cls
  let c := c.sf r CLU_FSYND.PART ((c.partOf t).getD 0)
  c.sf r CLU_FSYND.TIME now

/-- A corrected fault of a triad in its cluster's source (R402, R404). -/
def triadCorrected (c : Chip) (now t code : Nat) : Chip := (c.fsynd now t code 0).corrected now (t / 4)

/-- A contained fault of a triad in its cluster's source, attributed to its partition (R402, R404). -/
def triadContained (c : Chip) (now t code : Nat) : Chip :=
  (c.fsynd now t code 1).contained now (t / 4) (c.partOf t) (some t)

/-! ### The brake -/

/-- A field lane drives its safe levels (R335). -/
def fieldSafe (c : Chip) (n : Nat) : Chip := c.sf (.FLD_STAT n) FLD_STAT.SAFE 1

/-- The brake of the triad that a field lane names holds the lane (R335). -/
def triadHolds (c : Chip) (n : Nat) : Bool :=
  c.gb (.FLD_CFG n) FLD_CFG.TRIADEN && (c.triad (c.gf (.FLD_CFG n) FLD_CFG.TRIAD)).braked

/-- A field lane follows its engine again, where its partition runs and no brake holds it (R335). -/
def fieldBack (c : Chip) (n : Nat) : Chip :=
  let p := c.gf (.FLD_CFG n) FLD_CFG.OWNER
  if c.pstate p = 2 ∧ !c.flt.partBrakes.contains p ∧ !c.flt.deviceBrake ∧ !c.triadHolds n then c.sf (.FLD_STAT n) FLD_STAT.SAFE 0
  else c

/-- The brake of a triad is released: the field lanes that name it follow their engines (R335, R412). -/
def fieldsBack (c : Chip) (t : Nat) : Chip :=
  (List.range 64).foldl (fun c n =>
    if c.gb (.FLD_CFG n) FLD_CFG.EN && c.gb (.FLD_CFG n) FLD_CFG.TRIADEN && c.gf (.FLD_CFG n) FLD_CFG.TRIAD == t then c.fieldBack n
    else c) c

/-- Discards an open transaction without a handler, unless its commit record was voted (R264, R277). -/
def txDiscard (c : Chip) (key : Nat) : Chip :=
  if (c.port key).tx.voted then c else c.updPort key (fun p => { p with tx := {} })

/-- Halts a lane: what it retired and the sluice has not forwarded is discarded (R144, R250), and whatever it waits in ends. -/
def haltLane (c : Chip) (k : Nat) : Chip :=
  c.updLane k (fun l => { l with
    sb := [], digests := [], waiting := none, areq := none, presented := false
    miss := none, fills := [], devLoad := none, devResult := none, sleepTill := none, progress := 0 })

/-- Halts and fences a triad in the safe state (R131, R144), no lane of it voting (DEDUCED: a fenced lane votes on nothing);
IDLE and UNAVAILABLE triads are left (R143). -/
def brakeTriad (c : Chip) (t : Nat) : Chip :=
  let st := c.tstate t
  if st = 0 ∨ st = 5 ∨ st = 6 then c else
  let keys := if c.split t then [3 * t, 3 * t + 1, 3 * t + 2] else [3 * t]
  let c := keys.foldl (fun c k => (c.txDiscard k).barLeaveAll k) c
  let c := (List.range 3).foldl (fun c i => c.haltLane (3 * t + i)) c
  let c := c.updTriad t (fun x => { x with
    recs := [], digs := [], areqs := [], aready := [], round := none, wants := []
    rebuild := none, restarting := false, braked := true })
  let c := (c.sf (.CLU_TSTATE t) CLU_TSTATE.VOTE 0).sf (.CLU_TSTATE t) CLU_TSTATE.STATE 5
  (List.range 64).foldl (fun c n =>
    if c.gb (.FLD_CFG n) FLD_CFG.TRIADEN && c.gf (.FLD_CFG n) FLD_CFG.TRIAD == t then c.fieldSafe n else c) c

/-- Sets the brake of a partition (R412): its triads, field lanes and SAFE frames; a brake already set is left. -/
def brakePart (c : Chip) (p : Nat) : Chip :=
  if c.flt.partBrakes.contains p || !c.gb (.PRT_CFG p) PRT_CFG.DEFINED then c else
  let c := c.modFlt (fun f => { f with partBrakes := f.partBrakes ++ [p], safeDue := addNew f.safeDue p })
  let c := (c.triadsOf p).foldl (fun c t => c.brakeTriad t) c
  let c := if c.pstate p = 2 then c.sf (.PRT_STATE p) PRT_STATE.STATE 3 else c
  (List.range 64).foldl (fun c n => if c.gf (.FLD_CFG n) FLD_CFG.OWNER == p && c.gb (.FLD_CFG n) FLD_CFG.EN
    then c.fieldSafe n else c) c

/-- A standby partner that reports no fault takes the paths over (R414). -/
def standbyReady (c : Chip) : Bool :=
  c.gf .PAR_CFG PAR_CFG.TOPO == 1 && c.gf .PAR_STAT PAR_STAT.STATE == 2 && c.gf .PAR_STAT PAR_STAT.PFLT == 0

/-- Sets the device brake (R412, R414, R419): the device enters SAFE with the cause given. -/
def brakeDevice (c : Chip) (now cause : Nat) : Chip :=
  if c.flt.deviceBrake || c.off then c else
  let quiet := c.standbyReady
  let c := (List.range 64).foldl (fun c p =>
    if c.gb (.PRT_CFG p) PRT_CFG.DEFINED then
      let c := (c.triadsOf p).foldl (fun c t => c.brakeTriad t) c
      if c.pstate p = 2 ∨ c.pstate p = 4 ∨ c.pstate p = 5 then c.sf (.PRT_STATE p) PRT_STATE.STATE 3 else c
    else c) c
  let c := (List.range 32).foldl (fun c t => c.brakeTriad t) c
  let c := (List.range 64).foldl (fun c n => c.fieldSafe n) c
  let c := c.modFlt (fun f => { f with
    deviceBrake := true, brakedAt := now, idle := quiet
    safeDue := if quiet then [] else
      (List.range 64).filter (fun p => c.gb (.PRT_CFG p) PRT_CFG.DEFINED && !f.partBrakes.contains p) })
  let c := c.wr .FLT_STATUS (BitVec.ofNat 64 (setBit (c.rd .FLT_STATUS).toNat 63))
  (c.sf .FLT_STATE FLT_STATE.STATE 5).sf .FLT_STATE FLT_STATE.CAUSE cause

/-- A fatal fault sets the device brake with CAUSE 1 (R411). -/
def fatal (c : Chip) (now src : Nat) : Chip := ((c.setSticky src 2).hostFault src 2).brakeDevice now 1

/-- A fatal fault of a triad in its cluster's source. -/
def triadFatal (c : Chip) (now t code : Nat) : Chip := (c.fsynd now t code 2).fatal now (t / 4)

/-- A corrected fault of source 18 with its syndrome: code, record type, register address (R7, R469). -/
def cfgReport (c : Chip) (now code typ addr : Nat) : Chip :=
  (((c.sf .CFG_SYND CFG_SYND.CODE code).sf .CFG_SYND CFG_SYND.TYPE typ).sf .CFG_SYND CFG_SYND.ADDR addr).corrected now 18

/-- A write attempt on a locked field (R7). -/
def cfgCorrected (c : Chip) (now addr : Nat) : Chip := c.cfgReport now 0x01 0 addr

/-- A brake covers the triad: a partition brake of its partition, or the device brake (R163). -/
def covered (c : Chip) (t : Nat) : Bool :=
  c.flt.deviceBrake || (c.partOf t).any (fun p => c.flt.partBrakes.contains p)

/-- `ERR_N` is low (R418). -/
def errLow (c : Chip) : Bool := (c.rd .FLT_STATUS &&& c.rd .FLT_ERRMASK) != 0

/-- `SAFE_N` is low (R419). -/
def safeLow (c : Chip) : Bool :=
  c.flt.deviceBrake || c.gf .FLT_STATE FLT_STATE.STATE == 1 || c.gf .FLT_STATE FLT_STATE.STATE == 2

end Chip
end Sys2Proof.Machine
end

