-- ==== Sys2Proof/Machine/RegWrite.lean ====
section
/-! DEFINITION. A register write under the access types of its fields (Notation of chapter 00, R6 to R8). -/
namespace Sys2Proof.Machine

/-- The stored value after a write: RW fields take the value, W1C bits written 1 are cleared, W1S bits written 1 are set,
RO, RWL, WO and reserved bits keep theirs (R8). -/
def applyWrite (fs : List FldSpec) (old v : DWord) : DWord :=
  fs.foldl (fun w f =>
    let b : Fld := ⟨f.hi, f.lo⟩
    match f.acc with
    | .rw => b.put w (b.get v)
    | .w1c => b.put w (b.get (w &&& ~~~v))
    | .w1s => b.put w (b.get (w ||| v))
    | _ => w) old

/-- The write carries another value for some locked field (R7). -/
def locksDiffer (fs : List FldSpec) (old v : DWord) : Bool :=
  fs.any (fun f => f.acc == .rwl && Fld.get ⟨f.hi, f.lo⟩ v != Fld.get ⟨f.hi, f.lo⟩ old)

namespace Chip

/-- An attempt on a locked field is a corrected fault of source 18 with the register's address (R7). -/
def lockedTry (c : Chip) (now : Nat) (r : RegName) (v : DWord) : Chip :=
  if locksDiffer r.fields (c.rd r) v then c.cfgCorrected now r.addr else c

/-- A write with no further effect. -/
def plainWrite (c : Chip) (now : Nat) (r : RegName) (v : DWord) : Chip :=
  let c := c.lockedTry now r v
  c.wr r (applyWrite r.fields (c.rd r) v)

end Chip
end Sys2Proof.Machine
end

