-- ==== Sys2Proof/Machine/Crypto.lean ====
section
/-! DEFINITION. The standards the specification names: AES (FIPS 197), its modes (NIST SP 800-38A to 38D), AES key wrap
(RFC 3394) and the CRCs of frames (chapters 13, 14, 15, 20). -/
namespace Sys2Proof.Machine

/-! ### AES -/

/-- The substitution box of FIPS 197. -/
def sbox : List Byte :=
  [0x63, 0x7C, 0x77, 0x7B, 0xF2, 0x6B, 0x6F, 0xC5, 0x30, 0x01, 0x67, 0x2B, 0xFE, 0xD7, 0xAB, 0x76,
   0xCA, 0x82, 0xC9, 0x7D, 0xFA, 0x59, 0x47, 0xF0, 0xAD, 0xD4, 0xA2, 0xAF, 0x9C, 0xA4, 0x72, 0xC0,
   0xB7, 0xFD, 0x93, 0x26, 0x36, 0x3F, 0xF7, 0xCC, 0x34, 0xA5, 0xE5, 0xF1, 0x71, 0xD8, 0x31, 0x15,
   0x04, 0xC7, 0x23, 0xC3, 0x18, 0x96, 0x05, 0x9A, 0x07, 0x12, 0x80, 0xE2, 0xEB, 0x27, 0xB2, 0x75] ++
  [0x09, 0x83, 0x2C, 0x1A, 0x1B, 0x6E, 0x5A, 0xA0, 0x52, 0x3B, 0xD6, 0xB3, 0x29, 0xE3, 0x2F, 0x84,
   0x53, 0xD1, 0x00, 0xED, 0x20, 0xFC, 0xB1, 0x5B, 0x6A, 0xCB, 0xBE, 0x39, 0x4A, 0x4C, 0x58, 0xCF,
   0xD0, 0xEF, 0xAA, 0xFB, 0x43, 0x4D, 0x33, 0x85, 0x45, 0xF9, 0x02, 0x7F, 0x50, 0x3C, 0x9F, 0xA8,
   0x51, 0xA3, 0x40, 0x8F, 0x92, 0x9D, 0x38, 0xF5, 0xBC, 0xB6, 0xDA, 0x21, 0x10, 0xFF, 0xF3, 0xD2] ++
  [0xCD, 0x0C, 0x13, 0xEC, 0x5F, 0x97, 0x44, 0x17, 0xC4, 0xA7, 0x7E, 0x3D, 0x64, 0x5D, 0x19, 0x73,
   0x60, 0x81, 0x4F, 0xDC, 0x22, 0x2A, 0x90, 0x88, 0x46, 0xEE, 0xB8, 0x14, 0xDE, 0x5E, 0x0B, 0xDB,
   0xE0, 0x32, 0x3A, 0x0A, 0x49, 0x06, 0x24, 0x5C, 0xC2, 0xD3, 0xAC, 0x62, 0x91, 0x95, 0xE4, 0x79,
   0xE7, 0xC8, 0x37, 0x6D, 0x8D, 0xD5, 0x4E, 0xA9, 0x6C, 0x56, 0xF4, 0xEA, 0x65, 0x7A, 0xAE, 0x08] ++
  [0xBA, 0x78, 0x25, 0x2E, 0x1C, 0xA6, 0xB4, 0xC6, 0xE8, 0xDD, 0x74, 0x1F, 0x4B, 0xBD, 0x8B, 0x8A,
   0x70, 0x3E, 0xB5, 0x66, 0x48, 0x03, 0xF6, 0x0E, 0x61, 0x35, 0x57, 0xB9, 0x86, 0xC1, 0x1D, 0x9E,
   0xE1, 0xF8, 0x98, 0x11, 0x69, 0xD9, 0x8E, 0x94, 0x9B, 0x1E, 0x87, 0xE9, 0xCE, 0x55, 0x28, 0xDF,
   0x8C, 0xA1, 0x89, 0x0D, 0xBF, 0xE6, 0x42, 0x68, 0x41, 0x99, 0x2D, 0x0F, 0xB0, 0x54, 0xBB, 0x16]

def subByte (b : Byte) : Byte := sbox.getD b.toNat 0

/-- The inverse substitution. -/
def invSubByte (b : Byte) : Byte := BitVec.ofNat 8 (sbox.findIdx (fun x => x == b))

/-- Bitwise exclusive or of two octet strings, over the shorter. -/
def xorB (a b : List Byte) : List Byte := List.zipWith (fun x y => x ^^^ y) a b

/-- Multiplication by x in the field of AES. -/
def xtime (b : Byte) : Byte := (b <<< 1) ^^^ (if b.getLsbD 7 then 0x1B else 0)

/-- Multiplication in the field of AES by a constant below 16. -/
def gmul (k : Nat) (b : Byte) : Byte :=
  (if k.testBit 0 then b else 0) ^^^ (if k.testBit 1 then xtime b else 0) ^^^
  (if k.testBit 2 then xtime (xtime b) else 0) ^^^ (if k.testBit 3 then xtime (xtime (xtime b)) else 0)

/-- One column times the circulant matrix whose first row is given. -/
def mixColumn (m : List Nat) (col : List Byte) : List Byte :=
  (List.range 4).map (fun r =>
    (List.range 4).foldl (fun acc i => acc ^^^ gmul (m.getD ((i + 4 - r) % 4) 0) (col.getD i 0)) 0)

/-- The columns of a block of 16 octets. -/
def columns4 (b : List Byte) : List (List Byte) := (List.range 4).map (fun i => (b.drop (4 * i)).take 4)

def mixColumns (b : List Byte) : List Byte := (columns4 b).flatMap (mixColumn [2, 3, 1, 1])
def invMixColumns (b : List Byte) : List Byte := (columns4 b).flatMap (mixColumn [14, 11, 13, 9])

/-- Row r moves left by r octets. -/
def shiftRows (b : List Byte) : List Byte := (List.range 16).map (fun i => b.getD ((i + 4 * (i % 4)) % 16) 0)
def invShiftRows (b : List Byte) : List Byte := (List.range 16).map (fun i => b.getD ((i + 16 - 4 * (i % 4)) % 16) 0)

/-- The key expansion: `fuel` further words after those of `acc` (newest first); `i` is the next word's number. -/
def expandLoop (nk : Nat) : Nat → Nat → Byte → List (List Byte) → List (List Byte)
  | 0, _, _, acc => acc
  | fuel + 1, i, rcon, acc =>
    let t := acc.getD 0 []
    let t :=
      if i % nk = 0 then xorB ((t.drop 1 ++ t.take 1).map subByte) [rcon, 0, 0, 0]
      else if nk = 8 ∧ i % 8 = 4 then t.map subByte
      else t
    expandLoop nk fuel (i + 1) (if i % nk = 0 then xtime rcon else rcon) (xorB (acc.getD (nk - 1) []) t :: acc)

/-- The round keys for a key of 16, 24 or 32 octets, in order. -/
def roundKeys (key : List Byte) : List (List Byte) :=
  let nk := key.length / 4
  let w0 := ((List.range nk).map (fun i => (key.drop (4 * i)).take 4)).reverse
  let ws := (expandLoop nk (4 * (nk + 7) - nk) nk 1 w0).reverse
  (List.range (nk + 7)).map (fun r => ((ws.drop (4 * r)).take 4).flatten)

/-- The cipher of FIPS 197 on one block. -/
def aesEnc (rk : List (List Byte)) (b : List Byte) : List Byte :=
  let n := rk.length - 1
  let s := xorB b (rk.getD 0 [])
  let s := (List.range (n - 1)).foldl (fun s r => xorB (mixColumns (shiftRows (s.map subByte))) (rk.getD (r + 1) [])) s
  xorB (shiftRows (s.map subByte)) (rk.getD n [])

/-- The inverse cipher. -/
def aesDec (rk : List (List Byte)) (b : List Byte) : List Byte :=
  let n := rk.length - 1
  let s := xorB b (rk.getD n [])
  let s := (List.range (n - 1)).foldl (fun s r =>
    invMixColumns (xorB ((invShiftRows s).map invSubByte) (rk.getD (n - 1 - r) []))) s
  xorB ((invShiftRows s).map invSubByte) (rk.getD 0 [])

/-! ### Modes (R348) -/

/-- The string cut into pieces of `n` octets, the last perhaps shorter. -/
def chunks (n : Nat) (l : List Byte) : List (List Byte) :=
  (List.range ((l.length + n - 1) / n)).map (fun i => (l.drop (n * i)).take n)

/-- The string padded with zero octets to a multiple of 16. -/
def pad16 (l : List Byte) : List Byte := l ++ List.replicate ((16 - l.length % 16) % 16) 0

def zero16 : List Byte := List.replicate 16 0

/-- CBC; the source is a multiple of 16 octets. -/
def cbcEnc (rk : List (List Byte)) (iv src : List Byte) : List Byte :=
  ((chunks 16 src).foldl (fun (x : List Byte × List Byte) b =>
    let e := aesEnc rk (xorB b x.1); (e, x.2 ++ e)) (iv, [])).2
def cbcDec (rk : List (List Byte)) (iv src : List Byte) : List Byte :=
  ((chunks 16 src).foldl (fun (x : List Byte × List Byte) b => (b, x.2 ++ xorB (aesDec rk b) x.1)) (iv, [])).2

/-- CFB with 128-bit feedback. -/
def cfbEnc (rk : List (List Byte)) (iv src : List Byte) : List Byte :=
  ((chunks 16 src).foldl (fun (x : List Byte × List Byte) b =>
    let e := xorB b (aesEnc rk x.1); (e, x.2 ++ e)) (iv, [])).2
def cfbDec (rk : List (List Byte)) (iv src : List Byte) : List Byte :=
  ((chunks 16 src).foldl (fun (x : List Byte × List Byte) b => (b, x.2 ++ xorB b (aesEnc rk x.1))) (iv, [])).2

/-- OFB. -/
def ofb (rk : List (List Byte)) (iv src : List Byte) : List Byte :=
  ((chunks 16 src).foldl (fun (x : List Byte × List Byte) b =>
    let o := aesEnc rk x.1; (o, x.2 ++ xorB b o)) (iv, [])).2

/-- The counter block with its low 32 bits, big-endian, advanced by `n`. -/
def ctrAdd (b : List Byte) (n : Nat) : List Byte := b.take 12 ++ bytesBE 4 ((natBE (b.drop 12) + n) % 2 ^ 32)

/-- CTR from an initial counter block. -/
def ctr (rk : List (List Byte)) (c0 src : List Byte) : List Byte :=
  ((chunks 16 src).zipIdx).flatMap (fun x => xorB x.1 (aesEnc rk (ctrAdd c0 x.2)))

/-- One step of the product in the field of GHASH: `z`, `v` and the bits of `x` from the most significant. -/
def ghashMul (x : Nat) : Nat → Nat → Nat → Nat
  | 0, z, _ => z
  | i + 1, z, v =>
    ghashMul x i (if x.testBit i then z ^^^ v else z)
      (if v % 2 = 1 then v / 2 ^^^ 0xE1 * 2 ^ 120 else v / 2)

/-- GHASH of a string that is a multiple of 16 octets. -/
def ghash (h : Nat) (s : List Byte) : Nat :=
  (chunks 16 s).foldl (fun y b => ghashMul (y ^^^ natBE b) 128 0 h) 0

/-- GCM with a 96-bit IV: the processed text is given by `ctr`; this is the full tag over associated data and ciphertext. -/
def gcmTag (rk : List (List Byte)) (iv aad ct : List Byte) : List Byte :=
  let h := natBE (aesEnc rk zero16)
  let s := ghash h (pad16 aad ++ pad16 ct ++ bytesBE 8 (8 * aad.length) ++ bytesBE 8 (8 * ct.length))
  xorB (bytesBE 16 s) (aesEnc rk (iv ++ [0, 0, 0, 1]))

/-- The text of GCM, enciphered or deciphered. -/
def gcmText (rk : List (List Byte)) (iv src : List Byte) : List Byte := ctr rk (iv ++ [0, 0, 0, 2]) src

/-- CBC-MAC of a string that is a multiple of 16 octets. -/
def cbcMac (rk : List (List Byte)) (s : List Byte) : List Byte :=
  (chunks 16 s).foldl (fun x b => aesEnc rk (xorB x b)) zero16

/-- Doubling in the field of CMAC. -/
def cmacDouble (b : List Byte) : List Byte :=
  let n := natBE b
  bytesBE 16 ((2 * n) % 2 ^ 128 ^^^ (if n.testBit 127 then 0x87 else 0))

/-- AES-CMAC (SP 800-38B), 16 octets. -/
def cmac (rk : List (List Byte)) (s : List Byte) : List Byte :=
  let k1 := cmacDouble (aesEnc rk zero16)
  let n := if s.length = 0 then 0 else (s.length - 1) / 16 * 16
  let z := s.drop n
  let z := if z.length = 16 then xorB z k1
    else xorB (z ++ 0x80 :: List.replicate (15 - z.length) 0) (cmacDouble k1)
  cbcMac rk (s.take n ++ z)

/-- The MAC of CCM (SP 800-38C) for a tag of `t` octets and a nonce of `15 - q` octets, before encryption. -/
def ccmMac (rk : List (List Byte)) (t : Nat) (nonce aad pt : List Byte) : List Byte :=
  let q := 15 - nonce.length
  let b0 := BitVec.ofNat 8 (64 * bit (aad.length != 0) + 8 * ((t - 2) / 2) + (q - 1)) :: (nonce ++ bytesBE q pt.length)
  let a := if aad.length = 0 then [] else pad16 (bytesBE 2 aad.length ++ aad)
  cbcMac rk (b0 ++ a ++ pad16 pt)

/-- Counter block `i` of CCM. -/
def ccmCtr (nonce : List Byte) (i : Nat) : List Byte :=
  let q := 15 - nonce.length
  BitVec.ofNat 8 (q - 1) :: (nonce ++ bytesBE q i)

def ccmText (rk : List (List Byte)) (nonce src : List Byte) : List Byte :=
  ((chunks 16 src).zipIdx).flatMap (fun x => xorB x.1 (aesEnc rk (ccmCtr nonce (x.2 + 1))))

def ccmTag (rk : List (List Byte)) (t : Nat) (nonce aad pt : List Byte) : List Byte :=
  (xorB (ccmMac rk t nonce aad pt) (aesEnc rk (ccmCtr nonce 0))).take t

/-! ### AES key wrap (RFC 3394) -/

/-- The unwrapping steps: `t` counts down to 1; `a` and the semiblocks `r`. -/
def unwrapLoop (rk : List (List Byte)) (n : Nat) : Nat → List Byte → List (List Byte) → List Byte × List (List Byte)
  | 0, a, r => (a, r)
  | t + 1, a, r =>
    let i := t % n
    let b := aesDec rk (xorB a (bytesBE 8 (t + 1)) ++ r.getD i [])
    unwrapLoop rk n t (b.take 8) (r.set i (b.drop 8))

/-- The unwrapped string, none where the recovered initial value is not the default. -/
def keyUnwrap (kek ct : List Byte) : Option (List Byte) :=
  let rk := roundKeys kek
  let n := ct.length / 8 - 1
  let (a, r) := unwrapLoop rk n (6 * n) (ct.take 8) (chunks 8 (ct.drop 8))
  if a = List.replicate 8 0xA6 then some r.flatten else none

/-! ### CRCs -/

def crc32Bit (c : Nat) : Nat := if c % 2 = 1 then c / 2 ^^^ 0xEDB88320 else c / 2
def crc32Byte (c b : Nat) : Nat := (List.range 8).foldl (fun c _ => crc32Bit c) (c ^^^ b)

/-- CRC-32 of RFC 1952 and of IEEE 802.3. -/
def crc32 (l : List Byte) : Nat := l.foldl (fun c b => crc32Byte c b.toNat) 0xFFFFFFFF ^^^ 0xFFFFFFFF

def crc32cBit (c : Nat) : Nat := if c % 2 = 1 then c / 2 ^^^ 0x82F63B78 else c / 2
def crc32cByte (c b : Nat) : Nat := (List.range 8).foldl (fun c _ => crc32cBit c) (c ^^^ b)

/-- CRC-32C. -/
def crc32c (l : List Byte) : Nat := l.foldl (fun c b => crc32cByte c b.toNat) 0xFFFFFFFF ^^^ 0xFFFFFFFF

def crc16Bit (c : Nat) : Nat := if c % 2 = 1 then c / 2 ^^^ 0x8408 else c / 2
def crc16Byte (c b : Nat) : Nat := (List.range 8).foldl (fun c _ => crc16Bit c) (c ^^^ b)

/-- The 16-bit FCS of ISO/IEC 13239. -/
def crc16 (l : List Byte) : Nat := l.foldl (fun c b => crc16Byte c b.toNat) 0xFFFF ^^^ 0xFFFF

end Sys2Proof.Machine
end

