-- ==== Sys2Proof/Config.lean ====
section
/-! DEFINITION. What the specification leaves open: constants without a body, so that nothing can be proved of their
values. Each use of `freeValue` draws a fresh index from the chip. -/
namespace Sys2Proof.Config

/-- The free values: the victim of a not-recently-used replacement (R202), of a snoop filter (R183), and other choices
and values the specification does not state (assumption log 4). -/
opaque freeValue : Nat → DWord

/-- How many steps beyond 4 a division takes at a count of significant bits (R34 gives only the range 4 to 18 and that the
count rises with the dividend): free (log 4). -/
opaque divSteps : Nat → Nat

/-- The choices a compression core makes for an input: any octets; used only where they are a legal Deflate stream for
that input (R358, R360; assumption log 5). Arguments: policy, dictionary, input. -/
opaque deflateChoice : Nat → List Byte → List Byte → List Byte

/-- The per-device root key, fused at manufacture (R340; assumption log 6). -/
opaque rootKey : BitVec 256

end Sys2Proof.Config
end

