-- ==== Sys2Proof/Machine/Memory.lean ====
section
/-! DEFINITION. Reads and writes of DRAM, bank memory and the journal store with the reports of the 72-bit code
(chapter 09), and the coherence of the L1 data caches with stores (chapters 07, 08, 11). -/
namespace Sys2Proof.Machine

/-- The line number of an address (64-byte lines). -/
def lineOf (a : Nat) : Nat := a / 64

/-! ### L1 caches (R180, R185) -/

/-- Sets of an L1: 64 for the 8-way data cache, 128 for the 4-way instruction cache. -/
def L1.sets (x : L1) : Nat := if x.ways = 8 then 64 else 128

/-- The line in a way. -/
def L1.at (x : L1) (set way : Nat) : Option CLine := x.lines.get none (set * x.ways + way)

/-- The way that holds a line, in the line's set. -/
def L1.way? (x : L1) (line : Nat) : Option Nat :=
  (List.range x.ways).find? (fun w => (x.at (line % x.sets) w).any (fun e => e.line == line))

/-- The cached copy of a line. -/
def L1.find (x : L1) (line : Nat) : Option CLine :=
  (x.way? line).bind (fun w => x.at (line % x.sets) w)

def L1.setWay (x : L1) (set way : Nat) (e : Option CLine) : L1 :=
  { x with lines := x.lines.put none (set * x.ways + way) e }

/-- Invalidates a line; the tree bits are unchanged (R185). -/
def L1.drop (x : L1) (line : Nat) : L1 :=
  match x.way? line with
  | some w => x.setWay (line % x.sets) w none
  | none => x

/-- Invalidates every line. -/
def L1.dropAll (x : L1) : L1 := { x with lines := [] }

/-- The walk down the tree bits of R185: from node `i`, `fuel` levels. -/
def treeWalk (bits : BitVec 7) : Nat → Nat → Nat
  | 0, i => i
  | fuel + 1, i => treeWalk bits fuel (2 * i + 1 + bit (bits.getLsbD i))

/-- Points the tree bits away from a leaf (R185): from node `i` up, `fuel` levels. -/
def treeTouch (bits : BitVec 7) : Nat → Nat → BitVec 7
  | 0, _ => bits
  | fuel + 1, i =>
    if i = 0 then bits else
    let p := (i - 1) / 2
    let b := BitVec.ofNat 7 (if i = 2 * p + 1 then setBit bits.toNat p else clrBit bits.toNat p)
    treeTouch b fuel p

/-- Tree levels of an L1: 3 for 8 ways, 2 for 4. -/
def L1.levels (x : L1) : Nat := if x.ways = 8 then 3 else 2

/-- `touch` of R185. -/
def L1.touch (x : L1) (set way : Nat) : L1 :=
  { x with tree := x.tree.put 0 set (treeTouch (x.tree.get 0 set) x.levels (way + (x.ways - 1))) }

/-- `victim` of R185, passing over marked ways (R257); none when every way is marked. -/
def L1.victim (x : L1) (set : Nat) : Option Nat :=
  let ws := List.range x.ways
  match ws.find? (fun w => (x.at set w).isNone) with
  | some w => some w
  | none =>
    let v := treeWalk (x.tree.get 0 set) x.levels 0 - (x.ways - 1)
    if (x.at set v).all (fun e => !e.mark) then some v
    else ws.find? (fun w => (x.at set w).all (fun e => !e.mark))

/-- Installs a line in a victim way and touches it (R185); none when no way may be taken (R257). -/
def L1.install (x : L1) (e : CLine) : Option L1 :=
  let set := e.line % x.sets
  match x.way? e.line with
  | some w => some ((x.setWay set w (some e)).touch set w)
  | none => (x.victim set).map (fun w => (x.setWay set w (some e)).touch set w)

namespace Chip

/-! ### Errors of the code (R227, R228) -/

/-- The rank of a DRAM address (R219). -/
def rankOf (c : Chip) (p a : Nat) : Nat :=
  if a % 0x800000000 < 2 ^ 33 * (1 + c.gf (.DRM_CFG p) DRM_CFG.DENS) then 0 else 1

/-- The owner of a bank as a party for attribution (R212, R402). -/
def bankParty (c : Chip) (n : Nat) : Option Nat :=
  if c.gf (.BNK_OWNER n) BNK_OWNER.TYPE == 1 then some (c.gf (.BNK_OWNER n) BNK_OWNER.PART) else none

/-- Writes the error registers of a bank, of the journal store (n = 64) or of a DRAM rank (R227, R229). -/
def eccNote (c : Chip) (a kind : Nat) (synd : BitVec 8) (scrub : Bool) : Chip :=
  let bank (n off : Nat) : Chip :=
    let r := RegName.BNK_ECC n
    let c := if kind == 1 then c.bookInc (0x880 + 4 * n) else c
    let c := if kind == 1 then c.inc r BNK_ECC.CE else c.inc r BNK_ECC.UE
    ((c.sf r BNK_ECC.SYND synd.toNat).sf r BNK_ECC.KIND kind).sf r BNK_ECC.WORD (off / 8)
  match c.region a with
  | .dram p =>
    let k := c.rankOf p a
    let c := c.bookInc (0xA00 + 8 * (2 * p + k) + 4 * bit (kind != 1))
    let r := RegName.DRM_ECC p k
    let c := if kind == 1 then c.inc r DRM_ECC.CE else c.inc r DRM_ECC.UE
    let c := (c.sf r DRM_ECC.SYND synd.toNat).sf r DRM_ECC.KIND kind
    (c.sf r DRM_ECC.SCRUB (bit scrub)).sf (.DRM_EADR p k) DRM_EADR.ADDR (a / 8)
  | .bank n => bank n (a % 0x80000)
  | .journal => bank 64 (a % 0x100000)
  | _ => c

/-- The fault source of a store: 9 for DRAM, 8 for banks and the journal store (R227). -/
def memSource (c : Chip) (a : Nat) : Nat := match c.region a with | .dram _ => 9 | _ => 8

/-- The party an uncorrectable error is attributed to (R402). -/
def memParty (c : Chip) (a : Nat) (who : Option Nat) : Option Nat :=
  match c.region a with
  | .dram _ => who
  | .bank n => c.bankParty n
  | _ => none

/-- Reports an error of the code: 1 corrected, 2 uncorrectable, 3 poisoned (R227, R228). -/
def eccReport (c : Chip) (now a kind : Nat) (synd : BitVec 8) (scrub : Bool) (who : Option Nat) : Chip :=
  let src := c.memSource a
  let p := c.memParty a who
  let c := c.eccNote a kind synd scrub
  if kind == 1 then c.corrected now src else c.contained now src p none

/-- Marks the 1 MiB region of a DRAM address filled (R221); its bytes read 0. -/
def fillRegion (c : Chip) (a : Nat) : Chip :=
  match c.region a with
  | .dram p =>
    let i := a % 0x800000000 / 0x100000
    let l := c.filled.get [] p
    if l.contains i then c else
    let n := l.length + 1
    let c := ({ c with filled := c.filled.set p (l ++ [i]) }).sf (.DRM_INIT p) DRM_INIT.REGIONS n
    if n * 0x100000 == c.dramSize p then c.sf (.DRM_INIT p) DRM_INIT.DONE 1 else c
  | _ => c

/-- Reads the 8-byte word that holds `a`: the data, or none where it is uncorrectable (R221, R225, R227). -/
def readWord (c : Chip) (now a : Nat) (who : Option Nat) (scrub : Bool := false) : Chip × Option DWord :=
  let a := a / 8 * 8
  let c := c.fillRegion a
  match c.readCode a with
  | (d, .clean, _) => (c, some d)
  | (d, .corrected, s) => ((c.storeWord a d).eccReport now a 1 s scrub who, some d)
  | (_, .uncorrectable, s) => (c.eccReport now a 2 s scrub who, none)

/-- Writes the bytes of `v` that `be` enables into the word that holds `a` (R228). -/
def writeWord (c : Chip) (now a : Nat) (be : Nat) (v : DWord) (who : Option Nat) : Chip :=
  let a := a / 8 * 8
  let c := c.fillRegion a
  if be % 256 = 255 then c.storeWord a v else
  match c.readCode a with
  | (d, .clean, _) => c.storeWord a (BitVec.ofNat 64 (mergeBytes 8 be d.toNat v.toNat))
  | (d, .corrected, s) =>
    (c.storeWord a (BitVec.ofNat 64 (mergeBytes 8 be d.toNat v.toNat))).eccReport now a 1 s false who
  | (d, .uncorrectable, _) =>
    let c := c.storeWord a (BitVec.ofNat 64 (mergeBytes 8 be d.toNat v.toNat))
    (c.setFlips a (BitVec.ofNat 72 (0xFF * 2 ^ 64))).eccReport now a 3 0xFF false who

/-- Reads `n` words from `a`: the words as one number, and the addresses of uncorrectable ones. -/
def readWords (c : Chip) (now : Nat) (who : Option Nat) : Nat → Nat → Chip × Nat × List Nat
  | 0, _ => (c, 0, [])
  | n + 1, a =>
    let (c, r) := c.readWord now a who
    let (c, v, bad) := c.readWords now who n (a + 8)
    match r with
    | some d => (c, d.toNat + 2 ^ 64 * v, bad)
    | none => (c, 2 ^ 64 * v, a :: bad)

/-- Reads a line (R173). -/
def readLine (c : Chip) (now line : Nat) (who : Option Nat) : Chip × BitVec 512 × List Nat :=
  let (c, v, bad) := c.readWords now who 8 (64 * line)
  (c, BitVec.ofNat 512 v, bad)

/-- Writes the bytes of a line that `mask` enables, word by word. -/
def writeLine (c : Chip) (now line : Nat) (mask : BitVec 64) (data : BitVec 512) (who : Option Nat) : Chip :=
  (List.range 8).foldl (fun c i =>
    let be := mask.toNat / 2 ^ (8 * i) % 256
    if be = 0 then c
    else c.writeWord now (64 * line + 8 * i) be (BitVec.ofNat 64 (data.toNat / 2 ^ (64 * i))) who) c

/-! ### Ownership (R212) -/

/-- The bank takes an access on behalf of a partition, or of the millrace itself (none) (R212, R213). -/
def owns (c : Chip) (n : Nat) (p : Option Nat) : Bool :=
  let r := RegName.BNK_OWNER n
  !c.gb r BNK_OWNER.BUSY &&
  match p with
  | some p => (c.gf r BNK_OWNER.TYPE == 1 && c.gf r BNK_OWNER.PART == p) ||
      (c.gf r BNK_OWNER.TYPE == 4 && c.isMgrPart p)
  | none => c.gf r BNK_OWNER.TYPE == 3

/-! ### Coherence and conflicts -/

/-- Entries of an invalidation queue that name a line of the instruction caches, and all of them (R190). -/
def invI : Nat := 2 ^ 40
def invIAll : Nat := 2 ^ 41

/-- An invalidation enters a triad's queue (R172): a full queue turns into an invalidation of the whole data cache. -/
def enterInv (c : Chip) (t line : Nat) : Chip :=
  let x := c.triad t
  let all := x.invq ++ [line]
  if x.invq.length ≥ 64 then
    (c.setTriad t { x with
      invq := if all.any (fun n => decide (invI ≤ n)) then [invIAll] else []
      invAll := x.invAll || all.any (fun n => decide (n < invI)) }).sf (.CLU_EVSTAT t) CLU_EVSTAT.INVALL 1
  else c.setTriad t { x with invq := x.invq ++ [line] }

/-- Drops a line from a lane's data cache. -/
def dropD (c : Chip) (k line : Nat) : Chip := c.updLane k (fun l => { l with dcache := l.dcache.drop line })

/-- A pending abort of an open transaction, to be taken at an agreed count or at a SPLIT core's next boundary (R260,
R213): the first cause stays. -/
def txConflict (c : Chip) (key : Nat) (cause : BitVec 8) : Chip :=
  let p := c.port key
  if p.tx.voted || p.tx.ended || p.tx.pendAbort.isSome then c else
  let c := c.setPort key { p with tx := { p.tx with pendAbort := some cause } }
  if c.split (key / 3) then c else c.want (key / 3) .txAbort

/-- A transaction is open at a requester (R252). -/
def txOpen (c : Chip) (key : Nat) : Bool := (c.lane key).save.isSome

/-- What a store to a line does to one other requester (R183, R172, R178, R259): invalidates its data cache copies and
conflicts with its read set. -/
def snoop (c : Chip) (line key : Nat) : Chip :=
  let t := key / 3
  let c := if (c.port key).tx.rset.contains line then c.txConflict key 0x02 else c
  let held (k : Nat) : Bool := ((c.lane k).dcache.find line).isSome || (c.lane k).fills.any (fun f => f.line == line)
  if c.split t then
    (c.dropD key line).updLane key (fun l => { l with
      fills := l.fills.map (fun f => if f.line = line then { f with stale := true } else f) })
  else if [key, key + 1, key + 2].any held || (c.triad t).bin.any (fun b => b.fill.line == line) then c.enterInv t line
  else c

/-- The requesters: one per triad in TRIAD mode, three in SPLIT mode. -/
def requesters (c : Chip) : List Nat :=
  (List.range 96).filter (fun k => k % 3 == 0 || c.split (k / 3))

/-- A store to a line by `src` (none: no core) meets every other requester (R183, R258, R259). -/
def snoopAll (c : Chip) (line : Nat) (src : Option Nat) : Chip :=
  (c.requesters.filter (fun k => src ≠ some k)).foldl (fun c k => c.snoop line k) c

/-- A line is held by a commit of another requester: a line of its read set from step 2 to the end of step 6 (R268). -/
def lineHeld (c : Chip) (line : Nat) (src : Option Nat) : Bool :=
  c.commits.any (fun m => (src ≠ some m.key) && m.cseq.isSome && m.stage != .done && m.stage != .aborted &&
    m.rset.contains line)

/-- A store that takes its place in the global order (R232): the word is written and the other caches see it. -/
def storeVisible (c : Chip) (now a be : Nat) (v : DWord) (who src : Option Nat) : Chip :=
  (c.writeWord now a be v who).snoopAll (lineOf a) src

/-- Reads `n` bytes from `a` for an engine; none where a word is uncorrectable. -/
def readBytes (c : Chip) (now : Nat) (who : Option Nat) (a n : Nat) : Chip × Option (List Byte) :=
  let w := (a + n + 7) / 8 - a / 8
  let (c, v, bad) := c.readWords now who w (a / 8 * 8)
  if bad.isEmpty then (c, some (bytesLE n (v / 2 ^ (8 * (a % 8))))) else (c, none)

/-- Writes bytes from `a` upward for an engine or the host, word by word. -/
def writeBytes (c : Chip) (now : Nat) (who : Option Nat) : Nat → Nat → List Byte → Chip
  | 0, _, _ => c
  | _, _, [] => c
  | fuel + 1, a, l =>
    let n := 8 - a % 8
    let h := l.take n
    let be := (2 ^ h.length - 1) * 2 ^ (a % 8)
    let v := BitVec.ofNat 64 (natLE h * 2 ^ (8 * (a % 8)))
    (c.storeVisible now a be v who none).writeBytes now who fuel (a + h.length) (l.drop n)

end Chip
end Sys2Proof.Machine
end

