-- ==== Sys2Proof/Machine/Translate.lean ====
section
/-! DEFINITION. Windows, the table walk, TLBs and the walk cache (chapter 08). -/
namespace Sys2Proof.Machine

/-- The access an exception names in `ECAUSE.KIND` (R68). -/
inductive Kind where
  | fetch | load | store
  deriving DecidableEq, Repr

def Kind.code : Kind → Nat
  | .fetch => 0
  | .load => 1
  | .store => 2

/-- A precise exception: cause code, KIND and `EVAL` (R79). -/
structure Exc where
  code : Nat
  kind : Nat
  eval : Nat
  deriving DecidableEq, Repr

/-- The outcome of a step that can raise an exception. -/
inductive Res (α : Type) where
  | ok (a : α)
  | exc (e : Exc)
  deriving DecidableEq, Repr

/-- The translation fault of an access kind (R196, R197). -/
def transFault (k : Kind) (va : Nat) : Exc :=
  match k with
  | .fetch => ⟨0x06, 0, va⟩
  | .load => ⟨0x09, 1, va⟩
  | .store => ⟨0x0C, 2, va⟩

/-! ### Table entries (R195, R196) -/

/-- A bit range of a table entry. -/
def entBits (e : DWord) (hi lo : Nat) : Nat := Fld.get ⟨hi, lo⟩ e

/-- The entry ends the walk at level `lvl` with a translation fault (R196). -/
def entryBad (e : DWord) (lvl : Nat) : Bool :=
  entBits e 0 0 == 0 ||
  (entBits e 1 1 == 1 && lvl == 3) ||
  (entBits e 1 1 == 1 && entBits e 7 3 != 0) ||
  entBits e 63 40 != 0 || entBits e 10 8 != 0 || entBits e 2 2 != 0 ||
  (entBits e 1 1 == 0 && (entBits e 11 11 != 0 || (lvl == 2 && entBits e 19 11 != 0) ||
    (lvl == 1 && entBits e 27 11 != 0))) ||
  (entBits e 4 4 == 1 && entBits e 3 3 == 0)

/-- The leaf permits the access at the privilege level (R197). -/
def permits (u x w r : Bool) (k : Kind) (pl : Nat) : Bool :=
  match k with
  | .fetch => x && (if pl = 0 then u else !u)
  | .load => r && (pl != 0 || u)
  | .store => w && (pl != 0 || u)

/-- Bits of the page offset for a leaf at a level: 28, 20, 12 (R194). -/
def pageBits (lvl : Nat) : Nat := if lvl = 1 then 28 else if lvl = 2 then 20 else 12

namespace Chip

/-- The window check of R206: the address sent to the shaft, or none. -/
def window (c : Chip) (p a : Nat) (k : Kind) : Option Nat :=
  match (List.range 16).find? (fun w =>
      c.gb (.PRT_WBASE p w) PRT_WBASE.EN && decide (c.gf (.PRT_WBASE p w) PRT_WBASE.BASE ≤ a / 4096) &&
      decide (a / 4096 ≤ c.gf (.PRT_WLIMIT p w) PRT_WLIMIT.LIMIT)) with
  | none => none
  | some w =>
    if (k == .store && !c.gb (.PRT_WBASE p w) PRT_WBASE.W) || (k == .fetch && !c.gb (.PRT_WBASE p w) PRT_WBASE.X) then none
    else some ((a + 4096 * c.gf (.PRT_WOFFSET p w) PRT_WOFFSET.OFFSET) % 2 ^ 40)

/-- `read_table` of R199: the entry, or the exception with `EVAL` := the virtual address. -/
def readTable (c : Chip) (now p a va : Nat) (k : Kind) : Chip × Res DWord :=
  match c.window p a .load with
  | none => (c, .exc ⟨0x0F, k.code, va⟩)
  | some pa =>
    match c.region pa with
    | .dram _ => read c pa
    | .bank n => if c.owns n (some p) then read c pa else (c, .exc ⟨0x10, k.code, va⟩)
    | _ => (c, .exc ⟨0x0E, k.code, va⟩)
where
  /-- One 64-bit read (R198, R200). -/
  read (c : Chip) (pa : Nat) : Chip × Res DWord :=
    match c.readWord now pa (some p) with
    | (c, some e) => (c, .ok e)
    | (c, none) =>
      (c.contained now (c.memSource pa) (some p) none, .exc ⟨0x14, k.code, pa / 256⟩)

end Chip

/-- Inserts into a translation structure of a given capacity; a full one loses the entry that not-recently-used
replacement picks, which the specification leaves open (R202). -/
def nruInsert {α : Type} (cap : Nat) (l : List α) (e : α) (free : Nat) : List α :=
  if l.length < cap then l ++ [e]
  else l.eraseIdx ((Config.freeValue free).toNat % cap) ++ [e]

/-- The page number a virtual address has at a level. -/
def vpageOf (va lvl : Nat) : Nat := va / 2 ^ pageBits lvl

/-- A TLB entry translates `va` for the partition and the current ASID (R202). -/
def TlbE.hits (e : TlbE) (p : Nat) (asid : BitVec 8) (va : Nat) : Bool :=
  e.part.toNat == p && (e.global || e.asid == asid) && e.vpage == vpageOf va e.lvl

/-- The walk's start: level, table address and index, from the deepest pointer the walk cache holds (R199). -/
def walkStart (l : Lane) (p : Nat) (asid : BitVec 8) (va : Nat) : Nat × Nat :=
  let hit (lvl key : Nat) := l.walkc.find? (fun e => e.part.toNat == p && e.asid == asid && e.lvl == lvl && e.key == key)
  match hit 2 (va / 2 ^ 20) with
  | some e => (3, e.table)
  | none => match hit 1 (va / 2 ^ 28) with
    | some e => (2, e.table)
    | none => (1, l.arch.ptbr.toNat * 256)

/-- The table index of a level (R194). -/
def walkIndex (va lvl : Nat) : Nat := if lvl = 1 then va / 2 ^ 28 % 16 else if lvl = 2 then va / 2 ^ 20 % 256 else va / 2 ^ 12 % 256

/-- A finished walk: the leaf and the table pointers read on the way. -/
structure Walked where
  leaf : TlbE
  ptrs : List WalkE
  deriving DecidableEq, Repr

namespace Chip

/-- The loop of R199 from level `lvl`, at most `fuel` table reads; `ptrs` are the pointers passed so far. -/
def walkLoop (c : Chip) (now p : Nat) (asid : BitVec 8) (va : Nat) (k : Kind) (pl : Nat) :
    Nat → Nat → Nat → List WalkE → Chip × Res Walked
  | 0, _, _, _ => (c, .exc (transFault k va))
  | fuel + 1, lvl, tbl, ptrs =>
    match c.readTable now p ((tbl + 8 * walkIndex va lvl) % 2 ^ 40) va k with
    | (c, .exc e) => (c, .exc e)
    | (c, .ok e) =>
      if entryBad e lvl then (c, .exc (transFault k va))
      else if entBits e 1 1 = 1 then
        let w : WalkE := ⟨BitVec.ofNat 6 p, asid, lvl, vpageOf va lvl, entBits e 39 11 * 2048⟩
        c.walkLoop now p asid va k pl fuel (lvl + 1) w.table (ptrs ++ [w])
      else
        let leaf : TlbE := ⟨BitVec.ofNat 6 p, asid, entBits e 7 7 == 1, lvl, vpageOf va lvl, entBits e 39 12,
          entBits e 6 6 == 1, entBits e 5 5 == 1, entBits e 4 4 == 1, entBits e 3 3 == 1⟩
        if permits leaf.u leaf.x leaf.w leaf.r k pl then (c, .ok ⟨leaf, ptrs⟩) else (c, .exc (transFault k va))

/-- The walk of R199 for lane `k0`'s tables, installing nothing. -/
def walk (c : Chip) (now p k0 va : Nat) (k : Kind) (pl : Nat) : Chip × Res Walked :=
  let l := c.lane k0
  let asid := l.arch.asid.setWidth 8
  let (lvl, tbl) := walkStart l p asid va
  c.walkLoop now p asid va k pl 3 lvl tbl []

/-- Installs a finished walk in a lane's TLB and walk cache (R199, R202). -/
def installWalk (c : Chip) (k0 : Nat) (k : Kind) (w : Walked) : Chip :=
  let (f, c) := c.draw
  c.updLane k0 (fun l =>
    let l := { l with walkc := w.ptrs.foldl (fun q e => nruInsert 16 (without q e) e f) l.walkc }
    match k with
    | .fetch => { l with itlb := nruInsert 32 (without l.itlb w.leaf) w.leaf f }
    | _ => { l with dtlb := nruInsert 64 (without l.dtlb w.leaf) w.leaf f })

/-- The virtual address translated for lane `k0`: TLB hit, or walk and install (R199 to R203). The privilege level is
that of `STATUS.PL`. -/
def translate (c : Chip) (now p k0 va : Nat) (k : Kind) : Chip × Res Nat :=
  let l := c.lane k0
  let pl := l.arch.status.toNat / 4 % 4
  let asid := l.arch.asid.setWidth 8
  let tlb := match k with | .fetch => l.itlb | _ => l.dtlb
  let phys (e : TlbE) : Nat := e.page * 4096 + va % 2 ^ pageBits e.lvl
  match tlb.find? (fun e => e.hits p asid va) with
  | some e => if permits e.u e.x e.w e.r k pl then (c, .ok (phys e)) else (c, .exc (transFault k va))
  | none =>
    match c.walk now p k0 va k pl with
    | (c, .exc e) => (c, .exc e)
    | (c, .ok w) => (c.installWalk k0 k w, .ok (phys w.leaf))

/-- The checks of R80 steps 1 and 3 that follow translation: window, bank ownership; the result is the address sent to
the shaft and its region. -/
def place (c : Chip) (p pa va : Nat) (k : Kind) : Res (Nat × Region) :=
  match c.window p pa k with
  | none => .exc ⟨0x0F, k.code, va⟩
  | some a =>
    let r := c.region a
    match r.bank? with
    | some n => if c.owns n (some p) then .ok (a, r) else .exc ⟨0x10, k.code, va⟩
    | none => .ok (a, r)

end Chip
end Sys2Proof.Machine
end

