-- ==== Sys2Proof/Machine/LaneOps.lean ====
section
/-! DEFINITION. What every instruction of a lane shares: register access, digests, exception entry, transaction abort,
retirement, delivery of events at an instruction boundary (chapters 03, 06, 07, 11). -/
namespace Sys2Proof.Machine

/-! ### STATUS, ECAUSE, TXSTATUS fields (R68, R70) -/

namespace SR
def LDREG : Fld := ⟨17, 13⟩
def LDF : Fld := ⟨12, 12⟩
def LDS : Fld := ⟨11, 11⟩
def SPLIT : Fld := ⟨10, 10⟩
def TX : Fld := ⟨9, 9⟩
def CT : Fld := ⟨8, 8⟩
def CY : Fld := ⟨7, 7⟩
def PL : Fld := ⟨3, 2⟩
def EXL : Fld := ⟨1, 1⟩
def EIE : Fld := ⟨0, 0⟩
def CODE : Fld := ⟨31, 24⟩
def CAUSE : Fld := ⟨23, 16⟩
def DEPTH : Fld := ⟨7, 4⟩
def ABORTED : Fld := ⟨1, 1⟩
def ACTIVE : Fld := ⟨0, 0⟩
def RM : Fld := ⟨7, 5⟩
end SR

namespace Arch

/-- A general register; `g0` reads 0 (R62). -/
def gr (a : Arch) (n : Reg) : Word := if n = 0 then 0 else a.g.get 0 n.toNat

/-- Writes a general register; a write of `g0` is discarded (R62). -/
def setG (a : Arch) (n : Reg) (v : Word) : Arch := if n = 0 then a else { a with g := a.g.put 0 n.toNat v }

/-- A floating-point register (R63). -/
def fr (a : Arch) (n : Reg) : Word := a.f.get 0 n.toNat

def setF (a : Arch) (n : Reg) (v : Word) : Arch := { a with f := a.f.put 0 n.toNat v }

/-- Writes a register pair: the low word to the even register, the high word to the next (R64). -/
def setPair (a : Arch) (n : Reg) (v : DWord) : Arch :=
  (a.setG n (v.setWidth 32)).setG (n + 1) ((v >>> 32).setWidth 32)

/-- Reads a register pair (R64). -/
def pair (a : Arch) (n : Reg) : DWord := a.gr (n + 1) ++ a.gr n

def readReg (a : Arch) : RegId → Word
  | .g n => a.gr n
  | .f n => a.fr n

def writeReg (a : Arch) : RegId → Word → Arch
  | .g n, v => a.setG n v
  | .f n, v => a.setF n v

/-- A `STATUS` field. -/
def st (a : Arch) (f : Fld) : Nat := f.get a.status

def setSt (a : Arch) (f : Fld) (v : Nat) : Arch := { a with status := f.put a.status v }

/-- The current privilege level. -/
def pl (a : Arch) : Nat := a.st SR.PL

/-- Flattened nesting depth (R70). -/
def depth (a : Arch) : Nat := SR.DEPTH.get a.txstatus

end Arch

/-! ### CRC-64 (R137) and digests -/

/-- One bit of the reflected CRC-64. -/
def crc64Bit (c : Nat) : Nat := if c % 2 = 1 then c / 2 ^^^ 0xC96C5795D7870F42 else c / 2

/-- One byte into the CRC register. -/
def crc64Byte (c : Nat) (b : Nat) : Nat :=
  crc64Bit (crc64Bit (crc64Bit (crc64Bit (crc64Bit (crc64Bit (crc64Bit (crc64Bit (c ^^^ b))))))))

/-- `n` bytes of a number, least significant first, into the CRC register. -/
def crc64Bytes (c : Nat) : Nat → Nat → Nat
  | 0, _ => c
  | n + 1, v => crc64Bytes (crc64Byte c (v % 256)) n (v / 256)

def crc64Init : Nat := 0xFFFFFFFFFFFFFFFF

/-- The CRC-64 of a list of 64-bit words (R272 word 5). -/
def crc64Words (l : List DWord) : DWord :=
  BitVec.ofNat 64 (l.foldl (fun c w => crc64Bytes c 8 w.toNat) crc64Init ^^^ crc64Init)

/-- The CRC-64 of a list of bytes. -/
def crc64List (l : List Byte) : DWord :=
  BitVec.ofNat 64 (l.foldl (fun c b => crc64Byte c b.toNat) crc64Init ^^^ crc64Init)

/-- The words of the digest, in the order of R137. -/
def digestWords (a : Arch) (retired : Nat) : List Word :=
  [a.pc, BitVec.ofNat 32 retired] ++
  (List.range 31).map (fun i => a.gr (BitVec.ofNat 5 (i + 1))) ++
  (List.range 32).map (fun i => a.fr (BitVec.ofNat 5 i)) ++
  [a.status, a.estatus, a.epc, a.ecause, a.eval, a.excShadow, a.vbr, a.mvbr, a.sscratch, a.mscratch,
   a.ptbr, a.asid, a.fpsr, a.bargroup, a.txstatus, a.handler]

/-- The digest CRC of R137. -/
def digestCrc (a : Arch) (retired : Nat) : DWord :=
  BitVec.ofNat 64 ((digestWords a retired).foldl (fun c w => crc64Bytes c 4 w.toNat) crc64Init ^^^ crc64Init)

/-- The lane waits at `TEND` with its commit record made (R525). -/
def atTend (l : Lane) : Bool := match l.waiting with | some (.tend _) => l.progress == 1 | _ => false

/-- The complete state a lane stages at a digest point (R138); a lane that waits at `TEND` resumes waiting there, and one
that resumes at a `TBEGIN` takes the digest point of that `TBEGIN` again (R252 step 1). -/
def Lane.stage (l : Lane) (k : DigKind) : Ckpt :=
  { tend := k == .tend || atTend l, arch := l.arch, retired := l.retired, storeSeq := l.storeSeq - bit (atTend l), readSeq := l.readSeq, txNo := l.txNo, save := l.save
    txLines := l.txLines, whash := l.whash, digNo := l.digNo + bit (k != .tbegin), evNo := l.evNo, crc := digestCrc l.arch l.retired, ldPend := l.ldPend, feed := l.feed }

/-- A digest point of a lane: the record for the sluice and the staged state (R136, R138). -/
def Lane.digestPoint (l : Lane) (k : DigKind) : Lane :=
  let s := l.stage k
  { l with digests := l.digests ++ [⟨l.digNo, k, s.crc, l.retired % 2 ^ 48, s⟩], digCount := l.retired, digNo := l.digNo + 1 }

/-- Step 5 of R81. A lane that resumes from the state staged after step 4 goes on with step 5: it is staged with the vector. -/
def Lane.toVector (l : Lane) (v : Word) : Lane :=
  { l with
    arch := { l.arch with pc := v }
    digests := l.digests.modify (l.digests.length - 1) (fun d =>
      { d with staged := { d.staged with arch := { d.staged.arch with pc := v } } }) }

namespace Chip

/-- A digest point in TRIAD mode; SPLIT cores take none (R130). -/
def digest (c : Chip) (k : Nat) (d : DigKind) : Chip :=
  if c.split (k / 3) then c else c.updLane k (·.digestPoint d)

/-! ### Transaction abort (R263) -/

/-- The register state after an abort: the saved state, `TXSTATUS` with the cause, `pc` at the handler (R263 steps 2
to 4). -/
def abortArch (a save : Arch) (cause : BitVec 8) : Arch :=
  let t := SR.CAUSE.put (SR.ABORTED.put (SR.ACTIVE.put (SR.DEPTH.put a.txstatus 0) 0) 1) cause.toNat
  { (save.setSt SR.TX 0) with txstatus := t, pc := a.handler, handler := 0 }

/-- The records of an aborted transaction in the store buffer are no longer read. -/
def killTxn (l : List SbEntry) : List SbEntry :=
  l.map (fun e => match e.item with
    | .store r => if r.txn then { e with dead := true } else e
    | .commit _ => e)

/-- A lane aborted while it waits at `TEND` with its commit record not voted withdraws that record and the digest of that
`TEND` (R525). -/
def withdrawTend (c : Chip) (k : Nat) : Chip :=
  let l := c.lane k
  let t := k / 3
  let i := k % 3
  let seq := l.storeSeq - 1
  let mine := l.sb.any (fun e => match e.item with
    | .commit r => r.seq == seq && (!c.split t || !e.delivered)
    | .store _ => false)
  if l.progress == 1 && mine && (c.split t || decide ((c.triad t).fwdSeq ≤ seq)) then
    let c := c.setLane k { l with
      sb := l.sb.filter (fun e => match e.item with | .commit _ => false | .store _ => true)
      storeSeq := seq, digests := l.digests.filter (fun d => d.kind != .tend), digNo := l.digNo - bit (!c.split t) }
    if c.split t then c else
    c.updTriad t (fun x => { x with
      recs := x.recs.filter (fun e => !(e.1 == i && match e.2 with | .commit _ => true | .store _ => false))
      digs := x.digs.filter (fun e => !(e.1 == i && e.2.kind == .tend))
      nextSeq := x.nextSeq.set i (min (x.nextSeq.get 0 i) seq)
      nextDig := x.nextDig.set i (min (x.nextDig.get 0 i) (l.digNo - 1)) })
  else c

/-- Aborts the open transaction of a lane (R263); the context's write set stays readable to slower lanes of the triad
until they reach the same abort, and is never published. -/
def abortTx (c : Chip) (k : Nat) (cause : BitVec 8) : Chip :=
  let c := c.withdrawTend k
  let l := c.lane k
  match l.save with
  | none => c
  | some s =>
    let key := c.portKey (k / 3) (k % 3)
    let p := c.port key
    let r := RegName.CLU_TXCOUNT (k / 3) (key % 3)
    let c := if p.tx.ended then c else
      let c := c.inc r CLU_TXCOUNT.ABORTS
      if cause = 0x02 then c.inc r CLU_TXCOUNT.CONFLICTS else c
    let c := c.setPort key { p with tx := { p.tx with
      ended := true, pendAbort := none, rset := [], rdone := if p.tx.ended then p.tx.rdone else p.tx.rset } }
    let c := c.setLane k { l with
      arch := abortArch l.arch s cause
      sb := killTxn l.sb, save := none, txLines := [], ldPend := none, feed := none, whash := 0, waiting := none, areq := none
      presented := false, miss := none, progress := 0, fills := []
      dcache := { l.dcache with lines := l.dcache.lines.map (fun e => (e.1, e.2.map (fun x => { x with mark := false }))) } }
    c.digest k .txAbort

/-! ### Exception entry (R81) -/

/-- The load-delay state that entry saves (R75, R76): shadow value and the register it belongs to. -/
def delaySave (l : Lane) : Option LoadDelay :=
  match l.ldPend with
  | some d => some ⟨d.reg, l.arch.readReg d.reg⟩
  | none => l.feed

/-- The number of a register and its file, as `STATUS.LDREG` and `STATUS.LDF` name it (R68). -/
def delayField : RegId → Nat × Nat
  | .g n => (n.toNat, 0)
  | .f n => (n.toNat, 1)

/-- `STATUS` after entry: the load-delay fields (R75, R76), the level and EXL (R81 step 3). -/
def entryStatus (w : Word) (ds : Option LoadDelay) (toM : Bool) : Word :=
  let w := match ds with
    | none => SR.LDS.put w 0
    | some d => SR.LDF.put (SR.LDREG.put (SR.LDS.put w 1) (delayField d.reg).1) (delayField d.reg).2
  SR.EXL.put (SR.PL.put w (if toM then 2 else 1)) 1

/-- The registers after entry, before the vector is fetched: steps 2 to 4 of R81 and the LDS rules of R75 and R76. -/
def entryArch (a : Arch) (ds : Option LoadDelay) (e : Exc) (async tx : Bool) (toM : Bool) : Arch :=
  { a with
    estatus := a.status
    epc := a.pc
    ecause := BitVec.ofNat 32 (e.code + 256 * e.kind + 2 ^ 30 * bit tx + 2 ^ 31 * bit async)
    eval := BitVec.ofNat 32 e.eval
    excShadow := match ds with | none => a.excShadow | some d => d.value
    status := entryStatus a.status ds toM }

/-- The vector offset of R81. -/
def vecOffset (code pl : Nat) : Nat :=
  if code = 0x20 then 0x100
  else if code = 0x14 ∨ code = 0x15 then 0x180
  else if pl = 0 then 0x000 else 0x080

/-- Steps 1 to 5 of R81 on a lane, with the digest point after step 4 (R136). -/
def enter (c : Chip) (k : Nat) (e : Exc) (async toM : Bool) : Chip :=
  let tx := (c.lane k).save.isSome
  let c := if tx then c.abortTx k 0x07 else c
  let l := c.lane k
  let ds := if tx then none else delaySave l
  let pl := l.arch.pl
  let a := match l.ldPend with
    | some d => l.arch.writeReg d.reg d.value
    | none => l.arch
  let m := toM || pl == 2
  let a := entryArch a ds e async tx m
  let c := c.setLane k { l with
    arch := a, ldPend := none, feed := none, waiting := none, areq := none, presented := false, miss := none
    progress := 0, sleepTill := none, devLoad := none, devResult := none, fills := [], steps := l.steps + 8
    evNo := l.evNo + bit async }
  let c := c.digest k .entry
  c.updLane k (fun l => l.toVector ((if m then l.arch.mvbr else l.arch.vbr) + BitVec.ofNat 32 (vecOffset e.code pl)))

/-- A double exception stops the triad or SPLIT core with a contained fault (R82). -/
def doubleExc (c : Chip) (now k : Nat) : Chip :=
  let t := k / 3
  let ks := if c.split t then [k] else [3 * t, 3 * t + 1, 3 * t + 2]
  let first := !ks.any (fun j => (c.lane j).halted)
  let c := ks.foldl (fun c j => c.updLane j (fun l => { l with halted := true, waiting := none })) c
  if first then c.triadContained now t 0x0A else c

/-- A synchronous exception raised at the current instruction (R81, R82). `toM`: R81's case of `TRAP`. -/
def raise (c : Chip) (now k : Nat) (e : Exc) (toM : Bool := false) : Chip :=
  if (c.lane k).arch.st SR.EXL = 1 then c.doubleExc now k else c.enter k e false toM

/-! ### Events at an instruction boundary (R164 to R168, R178, R248) -/

/-- The lane is at a delivery opportunity (R164): not between a load and its delay slot, not between an `XRET` with LDS
and the instruction at `EPC`, not inside the pushes of `CALLM` or the loads of `RETM`. -/
def opportunity (l : Lane) : Bool := l.ldPend.isNone && l.feed.isNone && l.progress == 0

/-- Events are deliverable (R166). -/
def deliverable (a : Arch) : Bool := a.st SR.EIE == 1 && a.st SR.EXL == 0

/-- The order of R167 as one number: the row, then the order within it. -/
def eventRank (c : Chip) (n : Nat) : Nat :=
  if n < 0x1000 then 3 * 2 ^ 20 + c.gf (.QUE_CFG n) QUE_CFG.CLASS * 2 ^ 12 + n
  else if 0x1010 ≤ n ∧ n < 0x1030 then 1 * 2 ^ 20 + n
  else if n < 0x1010 then 2 * 2 ^ 20 + n
  else if n = 0x1031 then 4 * 2 ^ 20
  else if n = 0x1030 then 5 * 2 ^ 20
  else 6 * 2 ^ 20 + n

/-- The event R167 selects among those pending. -/
def selectEvent (c : Chip) (l : List Nat) : Option Nat :=
  l.foldl (fun b n => match b with
    | none => some n
    | some m => if c.eventRank n < c.eventRank m then some n else some m) none

/-- The exception an event raises (R79). -/
def eventExc (n : Nat) : Exc := ⟨0x20, 3, n⟩

def dweExc (w : Word) : Exc := ⟨0x15, 3, w.toNat⟩

/-- `CLU_EVSTAT` after an event is taken at count `n` (R179). -/
def evNote (c : Chip) (t n count : Nat) : Chip :=
  (c.sf (.CLU_EVSTAT t) CLU_EVSTAT.LASTEV n).sf (.CLU_EVSTAT t) CLU_EVSTAT.LASTCOUNT count

/-- A SPLIT core at a boundary takes a pending abort, then a `DEVICE_WRITE_ERROR`, then a deliverable event (R178, R248,
R262); none when it takes nothing. -/
def splitBoundary (c : Chip) (k : Nat) : Option Chip :=
  let l := c.lane k
  let p := c.port k
  if !opportunity l || l.halted then none else
  match p.tx.pendAbort with
  | some cause => if l.save.isSome && !p.tx.voted then some (c.abortTx k cause) else none
  | none =>
    match p.dwe with
    | w :: r =>
      if l.arch.st SR.EXL = 1 then none
      else some ((c.setPort k { p with dwe := r }).enter k (dweExc w) true false)
    | [] =>
      if deliverable l.arch then
        (c.selectEvent p.pend).map (fun n =>
          ((c.setPort k { p with pend := without p.pend n }).enter k (eventExc n) true false).evNote (k / 3) n l.retired)
      else none

/-- The address of a triad's log area in the journal store (R271). -/
def logArea (t : Nat) : Nat := journalBase + 0x1000 + 0x1000 * t

/-- A log at its limit holds further records, reads and events until a new restart point (R151). -/
def logLimit (c : Chip) (t : Nat) : Chip :=
  let x := c.triad t
  if 64 ≤ x.slog.length ∨ 16 ≤ x.rlog.length ∨ 16 ≤ x.elog.length then
    if c.gb (.CLU_TSTATE t) CLU_TSTATE.LOGFULL then c
    else (c.sf (.CLU_TSTATE t) CLU_TSTATE.LOGFULL 1).want t .digest
  else c

/-- An item enters a delivery log in the order of counts. -/
def logItem (e : Nat × Nat) : List (Nat × Nat) → List (Nat × Nat)
  | [] => [e]
  | x :: r => if e.2 < x.2 then e :: x :: r else x :: logItem e r

/-- Records a delivered item in the triad's delivery log; events also go to the journal store (R177, R271). -/
def logEvent (c : Chip) (t n count : Nat) : Chip :=
  let i := (c.triad t).elog.length
  let a := logArea t + 0xA00 + 16 * (i % 16)
  let c := c.updTriad t (fun x => { x with elog := logItem (n, count) x.elog })
  let c := if n < 2 ^ 33 then (c.storeWord a (BitVec.ofNat 64 n)).storeWord (a + 8) (BitVec.ofNat 64 count) else c
  (c.leatSend (.event t n count)).logLimit t

/-- Events and errors still pending are delivered by rounds of their own (R167). -/
def roundIfPending (c : Chip) (t : Nat) : Chip :=
  let p := c.port (3 * t)
  if p.pend.isEmpty && p.dwe.isEmpty then c else c.openRound t

/-- A triad lane takes an event or `DEVICE_WRITE_ERROR` held since a round (R166): the first lane to reach the count
clears the pending bit, and the others follow at the same count. -/
def takeHeld (c : Chip) (k : Nat) : Chip :=
  let t := k / 3
  let x := c.triad t
  let l := c.lane k
  let others := (c.voting t).filter (· ≠ k % 3)
  let follow (c : Chip) (n : Nat) : Chip :=
    others.foldl (fun c i => c.updLane (3 * t + i) (fun y => { y with replay := y.replay ++ [(n, l.retired)] })) c
  if !opportunity l then c else
  match x.held with
  | .none => c
  | .event n =>
    if deliverable l.arch then
      let c := c.setTriad t { x with held := .none }
      let c := c.updPort (3 * t) (fun p => { p with pend := without p.pend n })
      let c := (follow c n).logEvent t n l.retired
      ((c.enter k (eventExc n) true false).evNote t n l.retired).roundIfPending t
    else c
  | .dwe =>
    match (c.port (3 * t)).dwe with
    | w :: r =>
      if l.arch.st SR.EXL = 0 then
        let c := c.setTriad t { x with held := .none }
        let c := c.updPort (3 * t) (fun p => { p with dwe := r })
        let n := 2 ^ 32 + w.toNat
        let c := (follow c n).logEvent t n l.retired
        (c.enter k (dweExc w) true false).roundIfPending t
      else c
    | [] => c.setTriad t { x with held := .none }

/-- On a standby the first lane that takes a forwarded event ends its pending bit and its timer (R165, R179, R427). -/
def followEvent (c : Chip) (k n count : Nat) : Chip :=
  let t := k / 3
  let first := ((c.voting t).filter (· ≠ k % 3)).all (fun i => (c.lane (3 * t + i)).replay.contains (n, count))
  if !c.following || !first then c else
  let c := if 0x1000 ≤ n ∧ n < 0x1004 then c.wr (.CLU_EVTIMER t (n - 0x1000)) 0 else c
  (c.updPort (3 * t) (fun p => { p with pend := without p.pend n })).evNote t n count

/-- On a standby the first lane that takes a forwarded `DEVICE_WRITE_ERROR` ends the one of its own port (R248, R427). -/
def followDwe (c : Chip) (k n count : Nat) : Chip :=
  let t := k / 3
  let first := ((c.voting t).filter (· ≠ k % 3)).all (fun i => (c.lane (3 * t + i)).replay.contains (n, count))
  if c.following && first then c.updPort (3 * t) (fun p => { p with dwe := p.dwe.erase (BitVec.ofNat 32 n) }) else c

/-- A lane of a standby leaves a barrier round that the primary has ended: the arrival is consumed (R242, R427). -/
def followBar (c : Chip) (k g : Nat) : Chip :=
  if c.following then c.setBar g { arrived := without (c.bar g).arrived (k / 3 * 3) } else c

/-- Takes the first item of a lane's replay list if it falls at the present count (R148, R152, R166). The end of a wait is
left for the waiting instruction. -/
def takeReplay1 (c : Chip) (k : Nat) : Option Chip :=
  let l := c.lane k
  match l.replay with
  | [] => none
  | (n, cnt) :: r =>
    if cnt ≠ l.retired ∨ (2 ^ 35 ≤ n ∧ n < 2 ^ 36) ∨ !opportunity l then none else
    let c := c.setLane k { l with replay := r }
    let noted (c : Chip) : Chip := c.updLane k (fun y => { y with evNo := y.evNo + 1 })
    if n < 2 ^ 32 then some ((c.followEvent k n cnt).enter k (eventExc n) true false)
    else if n < 2 ^ 33 then some ((c.followDwe k n cnt).enter k (dweExc (BitVec.ofNat 32 n)) true false)
    else if n < 2 ^ 34 then some ((noted c).abortTx k (BitVec.ofNat 8 n))
    else if n < 2 ^ 35 then some ((noted c).digest k .forced)
    else if n < 2 ^ 37 then some ((noted (c.followBar k (n % 16))).updLane k (fun y => { y with barDone := y.barDone ++ [n % 16] }))
    else if n < 2 ^ 38 then some (c.updLane k (fun y => { y with dcache := y.dcache.dropAll }))
    else some (c.dropD k (n - 2 ^ 38))

/-- Takes every logged item that falls at the present count, at most `fuel`. -/
def takeReplay (c : Chip) (k : Nat) : Nat → Chip
  | 0 => c
  | fuel + 1 => match c.takeReplay1 k with
    | some c => c.takeReplay k fuel
    | none => c

/-- What follows the retirement of an instruction: the interval digest point (R136) and events that have become
deliverable (R166) or fall at this count. -/
def afterRetire (c : Chip) (k : Nat) : Chip :=
  let t := k / 3
  if c.split t then (c.splitBoundary k).getD c else
  let l := c.lane k
  let c := if l.retired - l.digCount ≥ 2 ^ c.gf (.CLU_TCFG t) CLU_TCFG.DIGLOG then c.digest k .interval else c
  if (c.lane k).replay.isEmpty then c.takeHeld k else c.takeReplay k (c.lane k).replay.length

/-! ### Starting an instruction -/

/-- The lowest retired count among the voting lanes of a triad. -/
def minRetired (c : Chip) (t : Nat) : Nat :=
  (c.voting t).foldl (fun m i => min m (c.lane (3 * t + i)).retired) (2 ^ 64)

/-- A triad that has passed its point of the snapshot of a rejoin stands still until the snapshot is sent (R444). -/
def snapHeld (c : Chip) (t : Nat) : Bool :=
  let x := c.triad t
  c.snap.any (·.rejoin) && !x.wants.contains .digest && !x.round.any (fun r => r.decisions.contains .digest)

/-- A triad lane may start or go on with an instruction: voting, not halted, not held for skew (R140), by a debugger
(R158) or by a delivery round (R165). -/
def triadLaneFree (c : Chip) (t i : Nat) : Bool :=
  let x := c.triad t
  let l := c.lane (3 * t + i)
  c.live t && c.votes t i && !c.snapHeld t && !l.halted && l.repairing.isNone && decide (l.retired ≤ c.minRetired t + 4096) &&
  (match x.holdAt with | some h => decide (l.retired < h) | none => true) &&
  (!(c.following || 2 ≤ c.pair.swap) || decide (l.retired < x.horizon)) &&
  (match x.round with
   | none => true
   | some r => match r.c with
     | some n => decide (l.retired < n)
     | none => match r.reports.find? (fun e => e.1 == i) with
       | some e => decide (l.retired < e.2)
       | none => true)

/-- A SPLIT core runs (R129, R131). -/
def splitFree (c : Chip) (t i : Nat) : Bool :=
  c.tstate t == 7 && !(c.lane (3 * t + i)).halted && (c.lane (3 * t + i)).repairing.isNone && (c.partOf t).any (fun p => c.pstate p == 2)

/-- The lane runs and may start or go on with an instruction. -/
def laneFree (c : Chip) (l : LaneId) : Bool :=
  !c.off && !c.parted && (if c.split l.t then c.splitFree l.t l.i else c.triadLaneFree l.t l.i)

/-- The lane may execute this instruction now: it runs, and it waits in no other instruction. -/
def mayRun (c : Chip) (l : LaneId) (i : Instr) : Bool :=
  c.laneFree l && (match (c.lane (3 * l.t + l.i)).waiting with | none => true | some j => j == i)

end Chip

/-- The lane's number as a table key. -/
def laneKey (l : LaneId) : Nat := 3 * l.t + l.i

/-- The length of an instruction in bytes (R86). -/
def formLen : Form → Word
  | .half => 2
  | .full => 4

namespace Lane

/-- The registers an instruction reads: the file, with the register of a load delay kept in force by `XRET` reading its
old value (R76). A load still pending has not been written yet (R73). -/
def view (l : Lane) : Arch := match l.feed with | some d => l.arch.writeReg d.reg d.value | none => l.arch

/-- The registers once a pending load has been written (R73). -/
def landed (l : Lane) : Arch := match l.ldPend with | some d => l.arch.writeReg d.reg d.value | none => l.arch

/-- An instruction retires: the pending load lands, then the instruction's own results (`upd`), `pc` past it unless
`upd` moves it; `ld` is its own delayed load. -/
def retire (l : Lane) (len : Word) (steps : Nat) (upd : Arch → Arch) (ld : Option LoadDelay) : Lane :=
  let a := l.landed
  { l with
    arch := upd { a with pc := a.pc + len }
    retired := l.retired + 1
    ldPend := ld, feed := none, waiting := none, areq := none, presented := false, miss := none
    progress := 0, sleepTill := none, devLoad := none, devResult := none, fills := []
    steps := l.steps + steps }

end Lane

namespace Chip

/-- Retires an instruction of a lane and does what follows (R136, R166). -/
def retire (c : Chip) (k : Nat) (len : Word) (steps : Nat) (upd : Arch → Arch) (ld : Option LoadDelay := none) : Chip :=
  (c.updLane k (fun l => l.retire len steps upd ld)).afterRetire k

/-- The lane waits in an instruction (R33). -/
def waitIn (c : Chip) (k : Nat) (i : Instr) : Chip := c.updLane k (fun l => { l with waiting := some i })

/-- A SPLIT core with something to take at the boundary takes that first (R178); otherwise the body acts. -/
def atBoundary (c : Chip) (l : LaneId) (body : Chip → Chip) : Chip :=
  if c.split l.t && (c.lane (laneKey l)).waiting.isNone then
    match c.splitBoundary (laneKey l) with
    | some c => c
    | none => body c
  else body c

/-- Runs an instruction of a lane; nothing happens while the lane may not run it. -/
def instr (c : Chip) (l : LaneId) (i : Instr) (body : Chip → Chip) : Chip :=
  if c.mayRun l i then c.atBoundary l body else c

/-- Something that happens at the next instruction of a lane that waits in none. -/
def fresh (c : Chip) (l : LaneId) (body : Chip → Chip) : Chip :=
  if c.laneFree l && (c.lane (laneKey l)).waiting.isNone then c.atBoundary l body else c

/-- An instruction that only works on registers: from the registers it reads, an exception or its update. -/
def regInstr (c : Chip) (now : Nat) (l : LaneId) (i : Instr) (len : Word) (steps : Arch → Nat)
    (body : Arch → Res (Arch → Arch)) : Chip :=
  c.instr l i (fun c =>
    let v := (c.lane (laneKey l)).view
    match body v with
    | .exc e => c.raise now (laneKey l) e
    | .ok u => c.retire (laneKey l) len (steps v) u)

end Chip

/-- `ILLEGAL_INSTRUCTION` with the instruction bits (R79). -/
def illegal (w : Nat) : Exc := ⟨0x01, 3, w⟩
/-- `PRIVILEGE` with the instruction bits (R79). -/
def privilege (w : Nat) : Exc := ⟨0x02, 3, w⟩

end Sys2Proof.Machine
end

