-- ==== Sys2Proof/Machine/Operands.lean ====
section
/-! DEFINITION. Operand forms: immediates, offsets, targets, shift counts, step counts (chapters 02, 04 and 05). -/
namespace Sys2Proof.Machine

/-- Sign extension to a word (R92). -/
def sx {n : Nat} (v : BitVec n) : Word := v.signExtend 32

/-- Zero extension to a word (R92). -/
def zx {n : Nat} (v : BitVec n) : Word := v.setWidth 32

/-- `pc + 2 × sx(OFF)` (R97, R98, R108). -/
def target {n : Nat} (pc : Word) (off : BitVec n) : Word := pc + 2 * sx off

/-- The effective address `g[A] + sx(OFF)` of a load or store (R96). -/
def effAddr (v : Arch) (a : Reg) (off : BitVec 13) : Word := v.gr a + sx off

/-- A shift count: the low five bits of the register (R93). -/
def shiftCount (w : Word) : Nat := w.toNat % 32

/-- Leading zero bits of a word, 32 for 0 (R93). -/
def clz (w : Word) : Nat := if w = 0 then 32 else 31 - Nat.log2 w.toNat

/-- A register number is odd: not the start of a pair (R64). -/
def oddReg (n : Reg) : Bool := n.toNat % 2 == 1

/-- Constant-time mode (R126, R128). -/
def ct (v : Arch) : Bool := v.st SR.CT == 1

/-- Step counts that constant-time mode replaces (R34, R126). -/
def ctSteps (normal timed : Nat) (v : Arch) : Nat := if ct v then timed else normal

/-- Steps of a division outside constant-time mode: 4 to 18, rising with the significant bits of the dividend (R34); the
specification gives no more, so the step from one bit count to the next is a free value. -/
def divStepsOf : Nat → Nat
  | 0 => 4
  | n + 1 => max (divStepsOf n) (4 + Config.divSteps n % 15)

/-- Steps of a division (R34, R116, R126): 4 in the special cases. -/
def divSteps (special : Bool) (dividend : Nat) (v : Arch) : Nat :=
  if ct v then 36 else if special then 4 else divStepsOf (Nat.log2 dividend + 1)

end Sys2Proof.Machine
end

