-- ==== Sys2Proof/Machine/Flags.lean ====
section
/-! DEFINITION. The carry bit (R114), division (R116), and the floating-point flags (R69, R119). -/
namespace Sys2Proof.Machine

/-- The sum of `ADDC` and its carry out (R114). -/
def addCarry (a b : Word) (cy : Nat) : Word × Bool :=
  let s := a.toNat + b.toNat + cy
  (BitVec.ofNat 32 s, s / 2 ^ 32 % 2 == 1)

/-- The difference of `SUBC` and its borrow (R114). -/
def subCarry (a b : Word) (cy : Nat) : Word × Bool :=
  (a - b - BitVec.ofNat 32 cy, decide (a.toNat < b.toNat + cy))

/-- A register and CY take their values together (R114). -/
def setCarry (d : Reg) (r : Word × Bool) (x : Arch) : Arch := (x.setG d r.1).setSt SR.CY (bit r.2)

/-- Signed quotient with the saturating cases (R116). -/
def divS (a b : Word) : Word :=
  if b = 0 then (if a.toInt < 0 then 0x80000000 else 0x7FFFFFFF)
  else if a = 0x80000000 ∧ b = 0xFFFFFFFF then 0x7FFFFFFF
  else BitVec.ofInt 32 (a.toInt.tdiv b.toInt)

/-- Signed remainder with the sign of the dividend (R116). -/
def remS (a b : Word) : Word :=
  if b = 0 then a
  else if a = 0x80000000 ∧ b = 0xFFFFFFFF then 0
  else BitVec.ofInt 32 (a.toInt.tmod b.toInt)

/-- Unsigned quotient (R116). -/
def divU (a b : Word) : Word := if b = 0 then 0xFFFFFFFF else BitVec.ofNat 32 (a.toNat / b.toNat)

/-- Unsigned remainder (R116). -/
def remU (a b : Word) : Word := if b = 0 then a else BitVec.ofNat 32 (a.toNat % b.toNat)

/-- The special cases of signed division, which take 4 steps (R116). -/
def divSpecialS (a b : Word) : Bool := b == 0 || (a == 0x80000000 && b == 0xFFFFFFFF)

/-- The exact product of two words, signed or unsigned (R115). -/
def mulS (a b : Word) : DWord := BitVec.ofInt 64 (a.toInt * b.toInt)
def mulU (a b : Word) : DWord := BitVec.ofNat 64 (a.toNat * b.toNat)

/-- The floating-point flags one operation raises. -/
structure FFlags where
  nv : Bool := false
  dz : Bool := false
  ovf : Bool := false
  uf : Bool := false
  nx : Bool := false
  deriving DecidableEq, Repr

/-- The flags as `FPSR` bits [4:0] (R68). -/
def FFlags.bits (f : FFlags) : Word :=
  BitVec.ofNat 32 (16 * bit f.nv + 8 * bit f.dz + 4 * bit f.ovf + 2 * bit f.uf + bit f.nx)

/-- Flags are only ever set by instructions (R119). -/
def raiseFlags (f : FFlags) (x : Arch) : Arch := { x with fpsr := x.fpsr ||| f.bits }

/-- The rounding mode (R68). -/
def rm (v : Arch) : Nat := SR.RM.get v.fpsr

end Sys2Proof.Machine
end

