-- ==== Sys2Proof/Machine/System.lean ====
section
/-! DEFINITION. Control registers, agreed reads as a lane makes them, `SAMPLE` and the waiting instructions (R66 to R71,
R101 to R104, R175, R176). -/
namespace Sys2Proof.Machine

/-- Invalidations applied to a lane's data cache at an agreed count (R172). -/
def Lane.applyInvs (l : Lane) (invs : List Nat) (all : Bool) : Lane :=
  let l := invs.foldl (fun l n =>
    if n = Chip.invIAll then { l with icache := l.icache.dropAll }
    else if Chip.invI ≤ n then { l with icache := l.icache.drop (n - Chip.invI) }
    else { l with dcache := l.dcache.drop n }) l
  if all then { l with dcache := l.dcache.dropAll } else l

/-! ### Control registers (R68) -/

/-- The lowest level that may read a control register, none for a number not in the table of R68. -/
def crdLevel (n : Nat) : Option Nat :=
  if n = 0x000 ∨ n = 0x020 ∨ n = 0x030 ∨ n = 0x040 ∨ n = 0x041 ∨ n = 0x050 ∨ n = 0x051 ∨ n = 0x052 then some 0
  else if n = 0x007 ∨ n = 0x009 then some 2
  else if n ≤ 0x008 ∨ n = 0x010 ∨ n = 0x011 then some 1
  else none

/-- The value `CRD` reads, `TIMEBASE` apart; `id` holds the values of `LANEID`, `PARTID` and `IDENT` (R71). -/
def crdValue (a : Arch) (id : Word × Word × Word) (n : Nat) : Word :=
  match n with
  | 0x000 => a.status
  | 0x001 => a.estatus
  | 0x002 => a.epc
  | 0x003 => a.ecause
  | 0x004 => a.eval
  | 0x005 => a.excShadow
  | 0x006 => a.vbr
  | 0x007 => a.mvbr
  | 0x008 => a.sscratch
  | 0x009 => a.mscratch
  | 0x010 => a.ptbr
  | 0x011 => a.asid
  | 0x020 => a.fpsr
  | 0x040 => a.txstatus
  | 0x041 => a.bargroup
  | 0x050 => id.1
  | 0x051 => id.2.1
  | 0x052 => id.2.2
  | _ => 0

/-- The writable bits of `STATUS` at a level (R68); `ESTATUS` adds SPLIT and TX. -/
def statusMask (pl : Nat) : Word := if pl = 0 then 0x00000180 else 0x0003F98F

/-- A `STATUS` or `ESTATUS` write: PL above the current level, or 0b11, leaves PL (R67). -/
def statusWrite (old mask v : Word) (pl : Nat) : Word :=
  let w := old &&& ~~~mask ||| v &&& mask
  if SR.PL.get v = 3 ∨ pl < SR.PL.get v then SR.PL.put w (SR.PL.get old) else w

/-- An `FPSR` write: 5, 6 or 7 leaves RM (R69). -/
def fpsrWrite (old v : Word) : Word :=
  let w := v &&& 0xFF
  if 5 ≤ SR.RM.get v then SR.RM.put w (SR.RM.get old) else w

/-- The registers after a permitted `CWR` at level `pl` (R66 to R71); `grant` holds the barrier groups granted to the
partition. Read-only registers and fields keep their values. -/
def cwrUpd (pl grant : Nat) (n : Nat) (v : Word) (x : Arch) : Arch :=
  match n with
  | 0x000 => { x with status := statusWrite x.status (statusMask pl) v pl }
  | 0x001 => { x with estatus := statusWrite x.estatus (statusMask pl ||| 0x600) v pl }
  | 0x002 => { x with epc := v &&& 0xFFFFFFFE }
  | 0x003 => { x with ecause := v &&& 0xC00003FF }
  | 0x004 => { x with eval := v }
  | 0x005 => { x with excShadow := v }
  | 0x006 => { x with vbr := v &&& 0xFFFFFE00 }
  | 0x007 => { x with mvbr := v &&& 0xFFFFFE00 }
  | 0x008 => { x with sscratch := v }
  | 0x009 => { x with mscratch := v }
  | 0x010 => { x with ptbr := v }
  | 0x011 => { x with asid := v &&& 0xFF }
  | 0x020 => { x with fpsr := fpsrWrite x.fpsr v }
  | 0x041 =>
    if pl = 0 then x else
    let m := BitVec.ofNat 32 (grant % 2 ^ 16)
    { x with bargroup := x.bargroup &&& ~~~m ||| v &&& m }
  | _ => x

/-- The control registers that `CWR` may write inside a transaction (R109). -/
def cwrInTx (n : Nat) : Bool := n == 0x000 || n == 0x020 || n == 0x008 || n == 0x009

namespace Chip

/-- `LANEID`, `PARTID` and `IDENT` of a lane (R71). -/
def idents (c : Chip) (l : LaneId) : Word × Word × Word :=
  let sp := c.split l.t
  let p := (c.partOf l.t).getD 0
  (BitVec.ofNat 32 (if sp then l.i else 0),
   BitVec.ofNat 32 (p + 64 * bit (c.isMgrPart p)),
   BitVec.ofNat 32 (0x01000000 + 128 * bit sp + l.t))

/-! ### Agreed reads, as the lane makes them (R176 steps 1 and 3) -/

/-- A lane takes a result of the result buffer; a result every voting lane has taken is released (R176). -/
def takeResult (c : Chip) (t i rseq : Nat) : Chip :=
  let all := c.voting t
  let mark (r : ARes) : ARes := if r.req.rseq = rseq then { r with taken := addNew r.taken i } else r
  c.updTriad t (fun x => { x with ares := (x.ares.map mark).filter (fun r => !all.all (fun j => r.taken.contains j)) })

/-- An agreed read in TRIAD mode: the lane forms its request and waits; with the result there it takes it and `use` goes
on. A SPLIT core performs the read itself (`direct`) (R175, R178). -/
def agreedRead (c : Chip) (l : LaneId) (i : Instr) (kind : ARKind) (direct : Chip → Chip)
    (use : DWord → Bool → Chip → Chip) : Chip :=
  if c.split l.t then direct c else
  let k := laneKey l
  let x := c.lane k
  match x.areq with
  | none => c.setLane k { x with areq := some ⟨kind, x.readSeq⟩, presented := false, waiting := some i }
  | some r =>
    match (c.triad l.t).ares.find? (fun e => x.presented && e.req == r) with
    | none => c
    | some e =>
      let x := x.applyInvs e.invs e.invAll
      let c := (c.setLane k { x with readSeq := x.readSeq + 1, areq := none, presented := false }).takeResult l.t l.i r.rseq
      use e.value e.err c

/-- The turn hint as `WAITTURN` writes it (R102). -/
def hintWord (h : Option Hint) : Word :=
  match h with
  | none => 0
  | some h => BitVec.ofNat 32 (min h.ahead 15 + 2 ^ 16 * min h.wait 0xFFFF)

/-- Ends a `WAITEV` wait or a `WAITTURN` sleep: the instruction retires (R101, R102). -/
def finishWait (c : Chip) (k : Nat) : Chip :=
  let x := c.lane k
  match x.waiting with
  | some (.waitev _) => c.retire k 4 3 id
  | some (.waitturn _ d) =>
    match x.sleepTill, x.devResult with
    | some _, some (v, _) => c.retire k 4 3 (fun y => y.setG d (v.setWidth 32))
    | _, _ => c
  | _ => c

/-- The hint is written and the sleep starts; without a hint, or with no wait, the instruction retires (R102). -/
def startSleep (c : Chip) (now k : Nat) (d : Reg) (v : DWord) (i : Instr) : Chip :=
  let w := v.toNat / 2 ^ 16 % 2 ^ 16
  if w = 0 then c.retire k 4 3 (fun y => y.setG d (v.setWidth 32))
  else c.updLane k (fun x => { x with waiting := some i, devResult := some (v, false), sleepTill := some (now + w) })

/-- The effect of a changed `BARGROUP` on the rounds (R244): cleared bits leave, set bits join. -/
def regroup (c : Chip) (k : Nat) (before after : Word) : Chip :=
  let key := c.portKey (k / 3) (k % 3)
  let gone := (List.range 16).filter (fun g => before.getLsbD g && !after.getLsbD g)
  let c := c.updLane k (fun x => { x with barDone := x.barDone ++ gone.filter (fun g => x.barIn.contains g) })
  if c.repLane key = k then
    let c := c.updPort key (fun p => { p with barOut := p.barOut &&& before.toNat &&& after.toNat })
    let c := gone.foldl (fun c g => c.barLeave key g) c
    ((List.range 16).filter (fun g => !before.getLsbD g && after.getLsbD g)).foldl (fun c g => c.barCheck g) c
  else c

end Chip

/-- `CRD` (R68, R70, R104): an unknown number is `ILLEGAL_INSTRUCTION`, a level too low `PRIVILEGE`; `TIMEBASE` fills a
pair and, like `TXSTATUS`, is an agreed read in a triad (R175). -/
def execCrd (l : LaneId) (d : Reg) (num : BitVec 12) (s : State) : Out :=
  s.act (fun now c => c.instr l (.crd l d num) (fun c =>
    let k := laneKey l
    let i : Instr := .crd l d num
    let n := num.toNat
    match crdLevel n with
    | none => c.raise now k (illegal (instrBits i))
    | some lv =>
      if n = 0x030 then
        if oddReg d then c.raise now k (illegal (instrBits i)) else
        c.agreedRead l i .timebase (fun c => c.retire k 4 3 (fun x => x.setPair d (BitVec.ofNat 64 (c.timeNow now))))
          (fun v _ c => c.retire k 4 3 (fun x => x.setPair d v))
      else if (c.lane k).arch.pl < lv then c.raise now k (privilege (instrBits i))
      else if n = 0x040 then
        c.agreedRead l i .txstatus (fun c => c.retire k 4 3 (fun x => x.setG d x.txstatus))
          (fun v _ c => c.retire k 4 3 (fun x => x.setG d (v.setWidth 32)))
      else c.retire k 4 3 (fun x => x.setG d (crdValue x (c.idents l) n))))

/-- `CWR` (R66 to R71, R104, R109). -/
def execCwr (l : LaneId) (num : BitVec 12) (a : Reg) (s : State) : Out :=
  s.act (fun now c => c.instr l (.cwr l num a) (fun c =>
    let k := laneKey l
    let bits := instrBits (.cwr l num a)
    let n := num.toNat
    let x := c.lane k
    match crdLevel n with
    | none => c.raise now k (illegal bits)
    | some lv =>
      if x.arch.pl < lv then c.raise now k (privilege bits)
      else if x.save.isSome && !cwrInTx n then c.abortTx k 0x06
      else
        let v := x.view.gr a
        let pl := x.arch.pl
        let grant := c.granted (c.partOf l.t)
        let c := c.retire k 4 3 (cwrUpd pl grant n v)
        if n = 0x041 then c.regroup k x.arch.bargroup (cwrUpd pl grant n v x.arch).bargroup else c))

/-- `TSTAT` (R108): `TXSTATUS` at any depth, an agreed read in a triad. -/
def execTstat (l : LaneId) (d : Reg) (s : State) : Out :=
  s.act (fun _ c => c.instr l (.tstat l d) (fun c =>
    let k := laneKey l
    c.agreedRead l (.tstat l d) .txstatus (fun c => c.retire k 4 3 (fun x => x.setG d x.txstatus))
      (fun v _ c => c.retire k 4 3 (fun x => x.setG d (v.setWidth 32)))))

/-- `SAMPLE` (R103): `LANE_LOCAL` in a triad; on a SPLIT core the core's own speed-monitor reading (a free value), its
position within the cluster, or the low word of its retired count. -/
def execSample (l : LaneId) (d : Reg) (sel : BitVec 5) (s : State) : Out :=
  s.act (fun now c => c.instr l (.sample l d sel) (fun c =>
    let k := laneKey l
    let bits := instrBits (.sample l d sel)
    if !c.split l.t then c.raise now k ⟨0x12, 3, bits⟩ else
    match sel.toNat with
    | 0 =>
      let (f, c) := c.draw
      c.retire k 4 4 (fun x => x.setG d ((Config.freeValue f).setWidth 12 |>.setWidth 32))
    | 1 => c.retire k 4 4 (fun x => x.setG d (BitVec.ofNat 32 (c.coreOf l.t l.i % 13)))
    | 2 => c.retire k 4 4 (fun x => x.setG d (BitVec.ofNat 32 (c.lane k).retired))
    | _ => c.raise now k (illegal bits)))

/-- The lane's replay list ends the wait it is in (R148). -/
def Chip.replayWait (c : Chip) (k : Nat) : Bool :=
  match (c.lane k).replay with
  | (n, cnt) :: _ => decide (2 ^ 35 ≤ n) && decide (n < 2 ^ 36) && cnt == (c.lane k).retired
  | [] => false

/-- Takes a logged end of a wait. -/
def Chip.dropWait (c : Chip) (k : Nat) : Chip :=
  if c.replayWait k then c.updLane k (fun l => { l with replay := l.replay.tail, evNo := l.evNo + 1 }) else c

/-- `WAITEV` (R101): retires while an event is pending, held or not; else waits. Inside a transaction it aborts. -/
def execWaitev (l : LaneId) (s : State) : Out :=
  s.act (fun _ c => c.instr l (.waitev l) (fun c =>
    let k := laneKey l
    if (c.lane k).save.isSome then c.abortTx k 0x06
    else if c.replayWait k then (c.dropWait k).retire k 4 3 id
    else if (c.port (c.portKey l.t l.i)).pend.isEmpty then c.waitIn k (.waitev l)
    else if c.split l.t then c.retire k 4 3 id
    else (c.waitIn k (.waitev l)).want l.t .waitEnd))

/-- `WAITTURN` (R102): the latest unread turn hint into `d`, then a sleep for its wait; 0 and no sleep without one. -/
def execWaitturn (l : LaneId) (d : Reg) (s : State) : Out :=
  s.act (fun now c => c.instr l (.waitturn l d) (fun c =>
    let k := laneKey l
    let i : Instr := .waitturn l d
    let x := c.lane k
    if x.arch.pl = 0 then c.raise now k (privilege (instrBits i))
    else if x.save.isSome then c.abortTx k 0x06
    else match x.sleepTill with
      | some t =>
        if c.replayWait k then (c.dropWait k).finishWait k
        else if t ≤ now ∨ (c.port (c.portKey l.t l.i)).pend ≠ [] then
          (if c.split l.t then c.finishWait k else c.want l.t .waitEnd)
        else c
      | none =>
        c.agreedRead l i .hint
          (fun c =>
            let v := Chip.hintWord (c.port k).hint
            (c.updPort k (fun p => { p with hint := none })).startSleep now k d (v.setWidth 64) i)
          (fun v _ c => c.startSleep now k d v i)))

/-- The sleep of `WAITTURN` runs out and the instruction retires (R102). -/
def execWaitturnSleepEnd (l : LaneId) (s : State) : Out :=
  s.act (fun now c =>
    let k := laneKey l
    match (c.lane k).sleepTill with
    | some t =>
      if t ≤ now ∧ c.laneFree l then (if c.split l.t then c.finishWait k else c.want l.t .waitEnd) else c
    | none => c)

end Sys2Proof.Machine
end

