-- ==== Sys2Proof/Machine/DataPath.lean ====
section
/-! DEFINITION. Data accesses of a lane: address checks, store-buffer forwarding, write set, data cache, misses, and
store records (chapters 03, 04, 06, 08, 10, 11). -/
namespace Sys2Proof.Machine

/-- Where a data access goes. -/
inductive Place where
  | mem (a : Nat)
  | dev (a : Nat)
  | exc (e : Exc)
  /-- a device-typed access inside a transaction (R109) -/
  | txDev
  deriving DecidableEq, Repr

/-- The answer to a load at this moment. -/
inductive LdRes where
  | val (v : Nat)
  | exc (e : Exc)
  | abort (cause : BitVec 8)
  | wait
  deriving DecidableEq, Repr

/-- The answer to a store at this moment. -/
inductive StRes where
  | ok
  | exc (e : Exc)
  | abort (cause : BitVec 8)
  | wait
  deriving DecidableEq, Repr

/-- The device-typed target of an address (R231): a register window, a bank by either alias, or the journal store. -/
def devTarget (a : Nat) : Nat :=
  if setBase ≤ a ∧ a < journalBase then 0x400 + storageAddr a / 0x80000 % 64
  else if a < 0xF000000000 then 0x300
  else if 0xF000100000 ≤ a ∧ a < 0xF000200000 then 0x200
  else a / 0x10000 % 0x200

/-- The byte enables of an access within its 8-byte word (R132). -/
def beOf (a size : Nat) : Nat := (2 ^ size - 1) * 2 ^ (a % 8)

/-- The bytes of a word that an access reads. -/
def pick (w a size : Nat) : Nat := w / 2 ^ (8 * (a % 8)) % 2 ^ (8 * size)

namespace Chip

/-- The checks of a data access in the order of R80 step 3, with R109 inside a transaction. -/
def dataPlace (c : Chip) (now k va size : Nat) (kd : Kind) : Chip × Place :=
  let st := kd == .store
  let p := (c.partOf (k / 3)).getD 0
  let deny : Place := .exc ⟨if st then 0x0D else 0x0A, kd.code, va⟩
  let devPlace (c : Chip) (a : Nat) : Place :=
    if (c.lane k).save.isSome then .txDev
    else if size ≠ 8 then .exc ⟨0x11, kd.code, va⟩
    else if (if st then c.devWritable (c.coreAgent p) a else c.devReadable (c.coreAgent p) a) then .dev a
    else deny
  if va % size ≠ 0 then (c, .exc ⟨if st then 0x0B else 0x08, kd.code, va⟩) else
  match c.translate now p k va kd with
  | (c, .exc e) => (c, .exc e)
  | (c, .ok pa) =>
    match c.place p pa va kd with
    | .exc e => (c, .exc e)
    | .ok (a, r) => (c, if r.isMem then .mem a else if r.isDev then devPlace c a else deny)

end Chip

/-! ### Loads -/

/-- A store record of memory-typed bytes that overlap the access. -/
def StoreRec.meets (r : StoreRec) (a be : Nat) : Bool :=
  !r.dev && r.addr.toNat / 8 == a / 8 && (r.be.toNat &&& be) != 0

/-- The store records of a store buffer, youngest first. -/
def Lane.stores (l : Lane) : List StoreRec :=
  l.sb.reverse.filterMap (fun e => match e.item with
    | .store r => if e.dead then none else some r
    | .commit _ => none)

/-- Forwarding from the store buffer (R235): a value, a wait, or none when no buffered store holds any byte. -/
def Lane.forward (l : Lane) (a size : Nat) : Option LdRes :=
  let be := beOf a size
  (l.stores.find? (fun r => r.meets a be)).map (fun r =>
    if r.be.toNat &&& be = be then .val (pick r.data.toNat a size) else .wait)

/-- A line of a write set with a store merged in (R254). -/
def mergeLine (w : WLine) (r : StoreRec) : WLine :=
  let j := r.addr.toNat % 64 / 8
  let f : Fld := ⟨64 * j + 63, 64 * j⟩
  { w with
    mask := w.mask ||| BitVec.ofNat 64 (r.be.toNat * 2 ^ (8 * j))
    data := f.put w.data (mergeBytes 8 r.be.toNat (f.get w.data) r.data.toNat) }

/-- A write set with a store merged in (R254). -/
def mergeStore (l : List WLine) (r : StoreRec) : List WLine :=
  let n := lineOf r.addr.toNat
  if l.any (fun w => w.line == n) then l.map (fun w => if w.line == n then mergeLine w r else w)
  else l ++ [mergeLine ⟨n, 0, 0⟩ r]

/-- The write set as a lane reads it that has retired the stores below `seq` (R255: every lane reads the same bytes): what
lanes ahead of it have merged since is not in it. -/
def TxCtx.before (x : TxCtx) (seq : Nat) : List WLine :=
  if x.recs.all (fun r => decide (r.seq < seq)) then x.wset
  else (x.recs.filter (fun r => decide (r.seq < seq))).foldl mergeStore x.base

/-- The bytes of an access that a write set holds: byte mask and data (R255). -/
def wsetPart (w : List WLine) (a size : Nat) : Nat × Nat :=
  match w.find? (fun x => x.line == lineOf a) with
  | some x => (x.mask.toNat / 2 ^ (a % 64) % 2 ^ size, x.data.toNat / 2 ^ (8 * (a % 64)) % 2 ^ (8 * size))
  | none => (0, 0)

/-- A fetched line with the lane's own buffered stores to it applied (R182, R186 rule 4). -/
def Lane.merged (l : Lane) (line : Nat) (data : BitVec 512) : BitVec 512 :=
  (l.stores.reverse.filter (fun r => !r.dev && !r.txn && lineOf r.addr.toNat == line)).foldl (fun d r =>
    let f : Fld := ⟨64 * (r.addr.toNat % 64 / 8) + 63, 64 * (r.addr.toNat % 64 / 8)⟩
    f.put d (mergeBytes 8 r.be.toNat (f.get d) r.data.toNat)) data

namespace Chip

/-- A memory-typed line may be held in the data cache (R181, R193). -/
def cacheable (c : Chip) (t a : Nat) : Bool :=
  c.gb (.CLU_L1CTL t) CLU_L1CTL.DACT && (match c.region a with | .dram _ => true | _ => false)

/-- A line enters the read set of an open transaction (R256), unless a lane has aborted it. -/
def joinRead (c : Chip) (key line : Nat) : Chip :=
  c.updPort key (fun p => if p.tx.ended then p else { p with tx := { p.tx with rset := addNew p.tx.rset line } })

/-- Marks and touches a cached line on a hit (R185, R257). -/
def hitLine (c : Chip) (k line : Nat) (tx : Bool) : Chip :=
  c.updLane k (fun l =>
    let x := l.dcache
    match x.way? line with
    | none => l
    | some w =>
      let set := line % x.sets
      let x := x.setWay set w ((x.at set w).map (fun e => { e with mark := e.mark || tx }))
      { l with dcache := x.touch set w })

/-- A line for a load: from the data cache, from the answer to this instruction's miss, or the lane misses (R173, R182,
R256, R257). -/
def fetchLine (c : Chip) (k a : Nat) : Chip × Sum LdRes (BitVec 512 × List Nat) :=
  let l := c.lane k
  let line := lineOf a
  let tx := l.save.isSome
  let key := c.portKey (k / 3) (k % 3)
  let x := (c.port key).tx
  let rs := if x.ended then x.rdone else x.rset
  if tx && !rs.contains line && decide (512 ≤ rs.length) then (c, .inl (.abort 0x03)) else
  let join (c : Chip) : Chip := if tx then c.joinRead key line else c
  let cached := if c.cacheable (k / 3) a then l.dcache.find line else none
  match cached with
  | some e => (join (c.hitLine k line tx), .inr (e.data, e.bad))
  | none =>
    match l.fills.find? (fun f => f.line == line && f.count == l.retired) with
    | none => (c.setLane k { l with miss := some (false, line) }, .inl .wait)
    | some f =>
      let l := l.applyInvs f.invs f.invAll
      let c := c.setLane k l
      if c.cacheable (k / 3) a && f.bad.isEmpty && !f.stale then
        match l.dcache.install ⟨line, l.merged line f.data, [], tx⟩ with
        | some x => (join (c.setLane k { l with dcache := x }), .inr (f.data, f.bad))
        | none => (c, .inl (.abort 0x03))
      else (join c, .inr (f.data, f.bad))

/-- A memory-typed load (R235, R255): store buffer, then write set, then memory. -/
def loadMem (c : Chip) (k a size : Nat) : Chip × LdRes :=
  let l := c.lane k
  match l.forward a size with
  | some r => (c, r)
  | none =>
    let w := if l.save.isSome then (c.port (c.portKey (k / 3) (k % 3))).tx.before l.storeSeq else []
    let (m, d) := wsetPart w a size
    if m ≠ 0 ∧ l.stores.any (·.txn) then (c, .wait)
    else if m = 2 ^ size - 1 then (c, .val d)
    else match c.fetchLine k a with
      | (c, .inl r) => (c, r)
      | (c, .inr (data, bad)) =>
        if bad.contains (a / 8 * 8) then (c, .exc ⟨0x14, 1, a / 256⟩)
        else (c, .val (mergeBytes size m (data.toNat / 2 ^ (8 * (a % 64)) % 2 ^ (8 * size)) d))

/-- The lane drops whatever it waits for of a device-typed load. -/
def endDevLoad (c : Chip) (k : Nat) : Chip :=
  c.updLane k (fun l => { l with devLoad := none, devResult := none })

/-- The exception of a device-typed load that ended with an error: 0 where the target refused it or did not answer (R523),
bits [39:8] of the address where the word is uncorrectable (R227). -/
def loadError (v : DWord) (va : Nat) : Exc := if v = 0 then ⟨0x0A, 1, va⟩ else ⟨0x14, 1, v.toNat⟩

/-- A device-typed load (R175, R178, R235, R523): after every earlier store to its target has left the buffer, an agreed
read in a triad, an access of its own on a SPLIT core. -/
def loadDev (c : Chip) (now : Nat) (l : LaneId) (i : Instr) (a va : Nat) (done : Nat → Chip → Chip) : Chip :=
  let k := laneKey l
  if (c.lane k).stores.any (fun r => r.dev && devTarget r.addr.toNat == devTarget a) then c.waitIn k i else
  c.agreedRead l i (.load (BitVec.ofNat 40 a))
    (fun c => c.updLane k (fun x => { x with devLoad := some (BitVec.ofNat 40 a, now), waiting := some i }))
    (fun v err c => if err then c.raise now k (loadError v va) else done v.toNat c)

/-- A load of `size` bytes at `va`; `done` takes the value on. -/
def loadAt (c : Chip) (now : Nat) (l : LaneId) (i : Instr) (va size : Nat) (done : Nat → Chip → Chip) : Chip :=
  let k := laneKey l
  match (c.lane k).devLoad, (c.lane k).devResult, (c.lane k).areq with
  | some _, some (v, err), _ =>
    if err then (c.endDevLoad k).raise now k (loadError v va) else done v.toNat (c.endDevLoad k)
  | some _, none, _ => c
  | none, _, some _ => c.loadDev now l i 0 va done
  | none, _, none =>
    match c.dataPlace now k va size .load with
    | (c, .exc e) => c.raise now k e
    | (c, .txDev) => c.abortTx k 0x05
    | (c, .dev a) => c.loadDev now l i a va done
    | (c, .mem a) =>
      match c.loadMem k a size with
      | (c, .val v) => done v c
      | (c, .exc e) => c.raise now k e
      | (c, .abort w) => c.abortTx k w
      | (c, .wait) => c.waitIn k i

/-! ### Stores -/

/-- The alias field of a store record (R132). -/
def aliasOf (r : Region) : BitVec 2 :=
  match r with
  | .bank _ => 0
  | .bitSet _ => 1
  | .bitClear _ => 2
  | _ => 3

end Chip

/-- The 14 bytes [127:16] of a store record into the write-set hash (R267). -/
def hashStore (h : DWord) (r : StoreRec) : DWord :=
  BitVec.ofNat 64 (crc64Bytes h.toNat 14 (r.data.toNat * 2 ^ 48 + r.addr.toNat * 2 ^ 8 + r.be.toNat))

/-- A store hitting the data cache updates the line (R182). -/
def L1.store (x : L1) (a be : Nat) (data : DWord) : L1 :=
  match x.way? (lineOf a) with
  | none => x
  | some w =>
    let set := lineOf a % x.sets
    let f : Fld := ⟨64 * (a % 64 / 8) + 63, 64 * (a % 64 / 8)⟩
    let upd (e : CLine) : CLine := { e with data := f.put e.data (mergeBytes 8 be (f.get e.data) data.toNat) }
    (x.setWay set w ((x.at set w).map upd)).touch set w

namespace Chip

/-- A retired store enters the store buffer as a record (R132, R235); a transactional one joins the write-set hash, any
other updates the lane's own data cache. -/
def putStore (c : Chip) (k a size v : Nat) (dev : Bool) : Chip :=
  let l := c.lane k
  let tx := l.save.isSome
  let r : StoreRec := {
    seq := l.storeSeq, data := BitVec.ofNat 64 (v % 2 ^ (8 * size) * 2 ^ (8 * (a % 8))), addr := BitVec.ofNat 40 a
    be := BitVec.ofNat 8 (beOf a size), dev := dev, txn := tx, bankAlias := aliasOf (c.region a) }
  let l := { l with sb := l.sb ++ [{ item := .store r }], storeSeq := l.storeSeq + 1 }
  c.setLane k (if tx then { l with whash := hashStore l.whash r, txLines := addNew l.txLines (lineOf a) }
    else if dev then l
    else { l with dcache := l.dcache.store a r.be.toNat r.data })

/-- A store of the low `size` bytes of `v` at `va` (R80, R109, R235, R254). -/
def storeAt (c : Chip) (now k va size v : Nat) : Chip × StRes :=
  match c.dataPlace now k va size .store with
  | (c, .exc e) => (c, .exc e)
  | (c, .txDev) => (c, .abort 0x05)
  | (c, .dev a) => if 8 ≤ (c.lane k).sb.length then (c, .wait) else (c.putStore k a size v true, .ok)
  | (c, .mem a) =>
    let l := c.lane k
    if l.save.isSome && !l.txLines.contains (lineOf a) && decide (128 ≤ l.txLines.length) then (c, .abort 0x04)
    else if 8 ≤ l.sb.length then (c, .wait)
    else (c.putStore k a size v false, .ok)

/-- A store instruction: the record, then retirement. -/
def storeInstr (c : Chip) (now : Nat) (l : LaneId) (i : Instr) (len : Word) (steps va size v : Nat) : Chip :=
  let k := laneKey l
  match c.storeAt now k va size v with
  | (c, .ok) => c.retire k len steps id
  | (c, .exc e) => c.raise now k e
  | (c, .abort w) => c.abortTx k w
  | (c, .wait) => c.waitIn k i

end Chip
end Sys2Proof.Machine
end

