-- ==== Sys2Proof/Machine/Order.lean ====
section
/-! DEFINITION. Fences, `BARWAIT`, `CACHE` and `TLBINV` (R105 to R107, R187 to R191, R204, R238 to R245). -/
namespace Sys2Proof.Machine

/-- The lane's earlier stores outside a transaction that are still in its buffer (R238, R241). -/
def Lane.pendingStores (l : Lane) : List StoreRec := l.stores.filter (fun r => !r.txn)

namespace Chip

/-- The condition of `FENCE.SL` (R238): every earlier memory-typed store visible, every earlier device-typed write
accepted by its target block. -/
def fencedSl (c : Chip) (k : Nat) : Bool :=
  let l := c.lane k
  let p := c.port (c.portKey (k / 3) (k % 3))
  l.pendingStores.isEmpty && p.outq.all (fun r => r.txn || decide (l.storeSeq ≤ r.seq)) &&
  p.devOut.all (fun d => decide (l.storeSeq ≤ d.seq))

/-- The condition of `FENCE.D` (R238): every earlier device-typed write has completed with a response. -/
def fencedD (c : Chip) (k : Nat) : Bool :=
  let l := c.lane k
  let p := c.port (c.portKey (k / 3) (k % 3))
  !l.pendingStores.any (·.dev) && p.outq.all (fun r => !r.dev || decide (l.storeSeq ≤ r.seq)) &&
  p.devOut.all (fun d => decide (l.storeSeq ≤ d.seq))

/-- The condition of `FENCE.ALL` (R238). -/
def fencedAll (c : Chip) (k : Nat) : Bool := c.fencedSl k && c.fencedD k

/-- A fence retires when its condition holds and waits otherwise. -/
def fence (c : Chip) (l : LaneId) (i : Instr) (ok : Chip → Nat → Bool) (upd : Lane → Lane) : Chip :=
  let k := laneKey l
  if ok c k then (c.updLane k upd).retire k 4 2 id else c.waitIn k i

end Chip

/-- `FENCE.SL` (R238). -/
def execFenceSl (l : LaneId) (s : State) : Out :=
  s.act (fun _ c => c.instr l (.fenceSl l) (fun c => c.fence l (.fenceSl l) Chip.fencedSl id))

/-- `FENCE.D` (R238). -/
def execFenceD (l : LaneId) (s : State) : Out :=
  s.act (fun _ c => c.instr l (.fenceD l) (fun c => c.fence l (.fenceD l) Chip.fencedD id))

/-- `FENCE.ALL` (R238). -/
def execFenceAll (l : LaneId) (s : State) : Out :=
  s.act (fun _ c => c.instr l (.fenceAll l) (fun c => c.fence l (.fenceAll l) Chip.fencedAll id))

/-- `FENCE.I` (R238, R239): the lane's instruction cache is emptied; inside a transaction an abort `DISALLOWED`. -/
def execFenceI (l : LaneId) (s : State) : Out :=
  s.act (fun _ c => c.instr l (.fenceI l) (fun c =>
    if (c.lane (laneKey l)).save.isSome then c.abortTx (laneKey l) 0x06
    else c.fence l (.fenceI l) Chip.fencedSl (fun x => { x with icache := x.icache.dropAll })))

namespace Chip

/-- Steps 2 and 3 of `BARWAIT` (R242, R243, R245): with the arrival recorded the lane waits for the end of the round. -/
def barStep3 (c : Chip) (l : LaneId) (g : BitVec 4) : Chip :=
  let k := laneKey l
  let x := c.lane k
  if x.barDone.contains g.toNat then
    (c.setLane k { x with barDone := x.barDone.erase g.toNat, barIn := without x.barIn g.toNat }).retire k 4 3 id
  else c.waitIn k (.barwait l g)

/-- The lane has recorded its arrival. -/
def barArrived (c : Chip) (l : LaneId) (g : BitVec 4) : Chip :=
  (c.updLane (laneKey l) (fun x => { x with barIn := addNew x.barIn g.toNat })).barStep3 l g

end Chip

/-- `BARWAIT` (R242, R243, R245, R71, R109). -/
def execBarwait (l : LaneId) (g : BitVec 4) (s : State) : Out :=
  s.act (fun now c => c.instr l (.barwait l g) (fun c =>
    let k := laneKey l
    let x := c.lane k
    if x.barIn.contains g.toNat then c.barStep3 l g
    else if x.areq.isNone && !x.arch.bargroup.getLsbD g.toNat then c.raise now k ⟨0x13, 3, g.toNat⟩
    else if x.save.isSome then c.abortTx k 0x06
    else if !c.fencedAll k then c.waitIn k (.barwait l g)
    else c.agreedRead l (.barwait l g) (.bararrive g)
      (fun c => (c.barArrive g.toNat (c.portKey l.t l.i)).barArrived l g)
      (fun _ _ c => c.barArrived l g)))

/-! ### `CACHE` -/

/-- Whether an operation of R106 cleans, and whether it invalidates. -/
structure CacheOp where
  clean : Bool
  inval : Bool
  code : BitVec 2
  deriving DecidableEq, Repr

def opClean : CacheOp := ⟨true, false, 1⟩
def opInvalidate : CacheOp := ⟨false, true, 2⟩
def opCleanInvalidate : CacheOp := ⟨true, true, 3⟩

/-- The selected cache. -/
def Lane.sel (l : Lane) (ic : Bool) : L1 := if ic then l.icache else l.dcache
def Lane.setSel (l : Lane) (ic : Bool) (x : L1) : Lane := if ic then { l with icache := x } else { l with dcache := x }

/-- A store of the lane to the line is still in the buffer. -/
def Lane.storing (l : Lane) (line : Nat) : Bool := l.stores.any (fun r => lineOf r.addr.toNat == line)

namespace Chip

/-- Performs a `CACHE` operation on a list of lines (R187): clean waits for the stores to them, then the lines are
invalidated and `fin` goes on. -/
def cacheLines (c : Chip) (k : Nat) (i : Instr) (op : CacheOp) (ic : Bool) (lines : List Nat) (fin : Chip → Chip) : Chip :=
  let l := c.lane k
  if op.clean && !ic && lines.any l.storing then c.waitIn k i
  else if op.inval then fin (c.setLane k (l.setSel ic (lines.foldl (fun x n => x.drop n) (l.sel ic))))
  else fin c

/-- The line of an address for `CACHE`: translated as a load; none for a device-typed region (R187, R197). -/
def cacheAddr (c : Chip) (now k va : Nat) : Chip × Res (Option Nat) :=
  let p := (c.partOf (k / 3)).getD 0
  match c.translate now p k va .load with
  | (c, .exc e) => (c, .exc e)
  | (c, .ok pa) =>
    match c.place p pa va .load with
    | .exc e => (c, .exc e)
    | .ok (a, r) => (c, if r.isMem then .ok (some (lineOf a)) else if r.isDev then .ok none else .exc ⟨0x0A, 1, va⟩)

/-- The lines of a range page by page (R188): those before a fault, and the fault. -/
def rangeLines (c : Chip) (now k : Nat) : Nat → Nat → Nat → Chip × List Nat × Option Exc
  | 0, _, _ => (c, [], none)
  | fuel + 1, va, left =>
    if left = 0 then (c, [], none) else
    let n := min left (64 - va / 64 % 64)
    match c.cacheAddr now k va with
    | (c, .exc e) => (c, [], some e)
    | (c, .ok o) =>
      let here := match o with
        | some line => (List.range n).map (fun j => line + j)
        | none => []
      let (c, rest, e) := rangeLines c now k fuel ((va / 64 + n) * 64 % 2 ^ 32) (left - n)
      (c, here ++ rest, e)

/-- The number of lines a range overlaps (R188). -/
def rangeCount (va len : Nat) : Nat := if len = 0 then 0 else (va + len - 1) / 64 - va / 64 + 1

/-- A range operation in-line (R188). -/
def cacheInline (c : Chip) (now k : Nat) (i : Instr) (op : CacheOp) (ic : Bool) (va len : Nat) : Chip :=
  let n := rangeCount va len
  if 4096 < n ∨ 2 ^ 32 < va + len then
    let l := c.lane k
    let all := (l.sel ic).lines.filterMap (fun e => e.2.map (·.line))
    c.cacheLines k i op ic all (fun c => c.retire k 4 (3 + 512) id)
  else
    match c.rangeLines now k 66 va n with
    | (c, ls, none) => c.cacheLines k i op ic ls (fun c => c.retire k 4 (3 + n) id)
    | (c, ls, some e) => c.cacheLines k i op ic ls (fun c => c.raise now k e)

/-- The sweep slot of a lane (R189). -/
def sweepKey (c : Chip) (t i : Nat) : Nat := 12 * (t / 4) + 3 * (t % 4) + (if c.split t then i else 0)

/-- A request enters its sweep slot (R189 step 2). -/
def sweepStart (c : Chip) (k : Nat) (op : CacheOp) (ic : Bool) (va n : Nat) : Chip :=
  let l := c.lane k
  let sk := c.sweepKey (k / 3) (k % 3)
  let r := RegName.CLU_SWEEP (sk / 12) (sk % 12)
  let x := c.sweep sk
  let c := c.setSweep sk { x with
    op := op.code, icache := ic, key := c.portKey (k / 3) (k % 3), va := va, left := n, page := none, upto := l.storeSeq }
  let c := (c.sf r CLU_SWEEP.OP op.code.toNat).sf r CLU_SWEEP.SEL (bit ic)
  ((c.sf r CLU_SWEEP.BUSY 1).sf r CLU_SWEEP.POS 0).sf r CLU_SWEEP.SKIP 0

/-- A range operation in sweep mode (R189): offloaded when the slot is free, in-line otherwise; what the first lane of a
triad finds at a count holds for the other lanes at that count. -/
def cacheSweep (c : Chip) (now k : Nat) (i : Instr) (op : CacheOp) (ic : Bool) (va len : Nat) : Chip :=
  let n := rangeCount va len
  if n = 0 then c.retire k 4 3 id else
  match c.cacheAddr now k va with
  | (c, .exc e) => c.raise now k e
  | (c, .ok _) =>
    let sk := c.sweepKey (k / 3) (k % 3)
    let x := c.sweep sk
    let cnt := (c.lane k).retired
    let busy := c.gb (.CLU_SWEEP (sk / 12) (sk % 12)) CLU_SWEEP.BUSY
    match x.chosen.find? (fun e => e.1 == cnt) with
    | some (_, true) => c.retire k 4 3 id
    | some (_, false) => c.cacheInline now k i op ic va len
    | none =>
      let old := if c.split (k / 3) then [] else x.chosen.filter (fun e => decide (c.minRetired (k / 3) ≤ e.1))
      let c := c.setSweep sk { x with chosen := old ++ [(cnt, !busy)] }
      if busy then c.cacheInline now k i op ic va len
      else (c.sweepStart k op ic va n).retire k 4 3 id

/-- `CACHE` (R106, R187 to R189, R109): its own exceptions first, then the abort inside a transaction. -/
def cache (c : Chip) (now : Nat) (l : LaneId) (i : Instr) (op : CacheOp) (sc : Scope) (ic : Bool) (a b : Reg) : Chip :=
  let k := laneKey l
  let x := c.lane k
  let v := (x.view.gr a).toNat
  let len := (x.view.gr b).toNat
  let set := v / 2 ^ 8 % 128
  let way := v % 8
  let badWay := sc == .setWay && (decide ((x.sel ic).sets ≤ set) || decide ((x.sel ic).ways ≤ way))
  if (op == opClean && ic) || badWay then c.raise now k (illegal (instrBits i))
  else if sc != .address && x.arch.pl == 0 then c.raise now k (privilege (instrBits i))
  else match sc with
    | .setWay =>
      if x.save.isSome then c.abortTx k 0x06 else
      let ls := match (x.sel ic).at set way with | some e => [e.line] | none => []
      c.cacheLines k i op ic ls (fun c => c.retire k 4 3 id)
    | .address =>
      match c.cacheAddr now k v with
      | (c, .exc e) => c.raise now k e
      | (c, .ok o) =>
        if x.save.isSome then c.abortTx k 0x06 else
        c.cacheLines k i op ic (o.toList) (fun c => c.retire k 4 3 id)
    | .range =>
      if x.save.isSome then
        (if rangeCount v len = 0 then c.abortTx k 0x06 else
        match c.rangeLines now k 66 v (if 4096 < rangeCount v len then 0 else rangeCount v len) with
        | (c, _, some e) => c.raise now k e
        | (c, _, none) => c.abortTx k 0x06)
      else if c.gb (.CLU_CFG (l.t / 4)) CLU_CFG.RANGEMODE then c.cacheSweep now k i op ic v len
      else c.cacheInline now k i op ic v len

end Chip

/-- `CACHE` clean (R106, R187). -/
def execCacheClean (l : LaneId) (scope : Scope) (icache : Bool) (a b : Reg) (s : State) : Out :=
  s.act (fun now c => c.instr l (.cacheClean l scope icache a b) (fun c =>
    c.cache now l (.cacheClean l scope icache a b) opClean scope icache a b))

/-- `CACHE` invalidate (R106, R187). -/
def execCacheInvalidate (l : LaneId) (scope : Scope) (icache : Bool) (a b : Reg) (s : State) : Out :=
  s.act (fun now c => c.instr l (.cacheInvalidate l scope icache a b) (fun c =>
    c.cache now l (.cacheInvalidate l scope icache a b) opInvalidate scope icache a b))

/-- `CACHE` clean and invalidate (R106, R187). -/
def execCacheCleanInvalidate (l : LaneId) (scope : Scope) (icache : Bool) (a b : Reg) (s : State) : Out :=
  s.act (fun now c => c.instr l (.cacheCleanInvalidate l scope icache a b) (fun c =>
    c.cache now l (.cacheCleanInvalidate l scope icache a b) opCleanInvalidate scope icache a b))

/-! ### `TLBINV` -/

/-- What a form of `TLBINV` removes: the TLB entries and the walk-cache entries of the partition it drops (R204). -/
structure TlbDrop where
  tlb : TlbE → Bool
  walk : WalkE → Bool

namespace Chip

/-- Invalidates translation state on every core that runs the partition, and in sweeps serving it (R204). -/
def tlbDrop (c : Chip) (p : Nat) (d : TlbDrop) : Chip :=
  let dropIn (l : Lane) : Lane := { l with
    itlb := l.itlb.filter (fun e => !(e.part.toNat == p && d.tlb e))
    dtlb := l.dtlb.filter (fun e => !(e.part.toNat == p && d.tlb e))
    walkc := l.walkc.filter (fun e => !(e.part.toNat == p && d.walk e)) }
  let c := (c.triadsOf p).foldl (fun c t =>
    [0, 1, 2].foldl (fun c i => c.updLane (3 * t + i) dropIn) c) c
  { c with sweeps := c.sweeps.map (fun e => (e.1, { e.2 with page := none })) }

/-- `TLBINV` (R107, R204): level S; inside a transaction an abort `DISALLOWED`. -/
def tlbinv (c : Chip) (now : Nat) (l : LaneId) (i : Instr) (d : Arch → TlbDrop) : Chip :=
  let k := laneKey l
  let x := c.lane k
  if x.arch.pl = 0 then c.raise now k (privilege (instrBits i))
  else if x.save.isSome then c.abortTx k 0x06
  else (c.tlbDrop ((c.partOf l.t).getD 0) (d x.view)).retire k 4 4 id

end Chip

/-- `TLBINV` by address (R204 form 0). -/
def execTlbinvAddress (l : LaneId) (a : Reg) (s : State) : Out :=
  s.act (fun now c => c.instr l (.tlbinvAddress l a) (fun c => c.tlbinv now l (.tlbinvAddress l a) (fun v =>
    ⟨fun e => (e.global || e.asid == v.asid.setWidth 8) && e.vpage == vpageOf (v.gr a).toNat e.lvl, fun _ => false⟩)))

/-- `TLBINV` by address space (R204 form 1). -/
def execTlbinvAddressSpace (l : LaneId) (a : Reg) (s : State) : Out :=
  s.act (fun now c => c.instr l (.tlbinvAddressSpace l a) (fun c => c.tlbinv now l (.tlbinvAddressSpace l a) (fun v =>
    ⟨fun e => !e.global && e.asid == (v.gr a).setWidth 8, fun e => e.asid == (v.gr a).setWidth 8⟩)))

/-- `TLBINV` of all entries (R204 form 2). -/
def execTlbinvAll (l : LaneId) (s : State) : Out :=
  s.act (fun now c => c.instr l (.tlbinvAll l) (fun c => c.tlbinv now l (.tlbinvAll l) (fun _ =>
    ⟨fun _ => true, fun _ => true⟩)))

/-- `TLBINV` of the walk cache (R204 form 3). -/
def execTlbinvWalkCache (l : LaneId) (s : State) : Out :=
  s.act (fun now c => c.instr l (.tlbinvWalkCache l) (fun c => c.tlbinv now l (.tlbinvWalkCache l) (fun _ =>
    ⟨fun _ => false, fun _ => true⟩)))

end Sys2Proof.Machine
end

