-- ==== Sys2Proof/Machine/Tx.lean ====
section
/-! DEFINITION. `TBEGIN`, `TEND` and `TABORT` (R108, R109, R252, R253, R265, R266). -/
namespace Sys2Proof.Machine

/-- The registers after `TBEGIN` at depth 0 (R108, R252, R261). -/
def openArch (a : Arch) (handler : Word) : Arch :=
  let t := SR.CAUSE.put (SR.ABORTED.put (SR.ACTIVE.put (SR.DEPTH.put a.txstatus 1) 1) 0) 0
  { (a.setSt SR.TX 1) with txstatus := t, handler := handler }

/-- The registers after a commit (R265 step 7). -/
def closeArch (a : Arch) : Arch :=
  { (a.setSt SR.TX 0) with txstatus := SR.ACTIVE.put (SR.DEPTH.put a.txstatus 0) 0, handler := 0 }

/-- A change of depth inside a transaction (R108). -/
def depthArch (d : Nat) (a : Arch) : Arch := { a with txstatus := SR.DEPTH.put a.txstatus d }

/-- The commit record of a lane at `TEND` (R266, R267). -/
def Lane.commitRec (l : Lane) : CommitRec :=
  { seq := l.storeSeq, whash := l.whash ^^^ BitVec.ofNat 64 crc64Init, digest := digestCrc l.arch l.retired
    lines := l.txLines.length }

namespace Chip

/-- Another voting lane of the triad is still in a transaction that this lane has left. -/
def txBehind (c : Chip) (t i : Nat) : Bool :=
  let n := (c.lane (3 * t + i)).txNo
  !c.split t && ((c.voting t).filter (· ≠ i)).any (fun j =>
    let o := c.lane (3 * t + j)
    decide (o.txNo < n) || (o.txNo == n && o.save.isSome))

/-- The first lane to open a transaction empties the context (R252 step 3). -/
def txReset (c : Chip) (t i : Nat) : Chip :=
  let n := (c.lane (3 * t + i)).txNo
  if !c.split t && ((c.voting t).filter (· ≠ i)).any (fun j => decide (n < (c.lane (3 * t + j)).txNo)) then c
  else c.updPort (c.portKey t i) (fun p => { p with tx := { first := (c.lane (3 * t + i)).storeSeq } })

/-- Opens a transaction at depth 0 (R252): digest point, saved state, `STATUS.TX`. -/
def txOpenAt (c : Chip) (l : LaneId) (x : BitVec 15) : Chip :=
  let k := laneKey l
  let c := c.txReset l.t l.i
  let c := c.updLane k (fun y => { y with arch := y.landed, ldPend := none, feed := none })
  let c := c.digest k .tbegin
  let a := (c.lane k).arch
  let c := c.updLane k (fun y => { y with
    save := some a, txNo := y.txNo + 1, whash := BitVec.ofNat 64 crc64Init, txLines := [] })
  let c := c.updLane k (fun y => y.retire 4 4 (fun y => openArch y (target a.pc x)) none)
  if c.gb (.CLU_L1CTL l.t) CLU_L1CTL.DACT then c.afterRetire k else c.abortTx k 0x0A

/-- A lane leaves `TEND` after its commit (R265 step 7); its cached copies of published lines go. -/
def tendDone (c : Chip) (k : Nat) : Chip :=
  let c := c.updLane k (fun y => { y with
    save := none, whash := 0, txLines := []
    dcache := { y.dcache with
      lines := (y.txLines.foldl (fun x n => x.drop n) y.dcache).lines.map (fun e =>
        (e.1, e.2.map (fun x => { x with mark := false }))) } })
  c.retire k 4 5 closeArch

/-- Where the commit of a lane waiting at `TEND` stands. -/
def commitStage (c : Chip) (k : Nat) : Option CommitStep :=
  let l := c.lane k
  (c.commits.find? (fun m => m.key == c.portKey (k / 3) (k % 3) && m.crec.seq + 1 == l.storeSeq)).map (·.stage)

/-- A lane waiting at `TEND` goes on when its commit has ended: it retires, or aborts with `CONFLICT` (R265, R268). -/
def tendPoll (c : Chip) (k : Nat) : Chip :=
  let l := c.lane k
  match l.waiting with
  | some (.tend _) =>
    if l.progress = 1 then
      match c.commitStage k with
      | some .done => c.tendDone k
      | some .aborted => c.abortTx k 0x02
      | _ => c
    else c
  | _ => c

end Chip

/-- `TBEGIN` (R108, R109, R252, R253, R261). At depth 0 it waits while another lane of the triad is still in the
transaction before. -/
def execTbegin (l : LaneId) (x : BitVec 15) (s : State) : Out :=
  s.act (fun _ c => c.instr l (.tbegin l x) (fun c =>
    let k := laneKey l
    let d := (c.lane k).arch.depth
    if d = 15 then c.abortTx k 0x08
    else if 1 ≤ d then c.retire k 4 4 (depthArch (d + 1))
    else if c.txBehind l.t l.i then c.waitIn k (.tbegin l x)
    else c.txOpenAt l x))

/-- `TEND` (R108, R265): at depth 1 the digest point and the commit record; it retires when the commit has ended. -/
def execTend (l : LaneId) (s : State) : Out :=
  s.act (fun now c => c.instr l (.tend l) (fun c =>
    let k := laneKey l
    let y := c.lane k
    let d := y.arch.depth
    if d = 0 then c.raise now k (illegal (instrBits (.tend l)))
    else if 2 ≤ d then c.retire k 4 5 (depthArch (d - 1))
    else if y.waiting.isSome && y.progress == 1 then
      c.tendPoll k
    else if 8 ≤ y.sb.length then c.waitIn k (.tend l)
    else
      let c := c.updLane k (fun z => { z with arch := z.landed, ldPend := none, feed := none })
      let c := c.digest k .tend
      c.updLane k (fun z => { z with
        sb := z.sb ++ [{ item := .commit z.commitRec }], storeSeq := z.storeSeq + 1, waiting := some (.tend l), progress := 1 })))

/-- `TABORT` (R108): no effect outside a transaction. -/
def execTabort (l : LaneId) (a : BitVec 8) (s : State) : Out :=
  s.act (fun _ c => c.instr l (.tabort l a) (fun c =>
    let k := laneKey l
    if (c.lane k).arch.depth = 0 then c.retire k 4 4 id
    else (c.updLane k (fun y => { y with
      arch := { y.arch with txstatus := SR.CODE.put y.arch.txstatus a.toNat } })).abortTx k 0x01))

end Sys2Proof.Machine
end

