-- ==== Sys2Proof/Machine/Journal.lean ====
section
/-! DEFINITION. The journal store and the commit path: ring, entries, steps 1 to 7 of a commit, replay (R265 to R276). -/
namespace Sys2Proof.Machine

/-! ### Layout (R271, R272) -/

def ringStart : Nat := journalBase + 0x21000
/-- 892 KiB. -/
def ringSize : Nat := 0xDF000
def stOpen : Nat := 1
def stComplete : Nat := 2
def stMirrored : Nat := 3
def stPublished : Nat := 4
def stCopy : Nat := 5
def stDiscarded : Nat := 6

/-- Word 0 of an entry (R272). -/
def entryWord (st lines part triad : Nat) (split : Bool) (pos : Nat) : DWord :=
  BitVec.ofNat 64 (0x4A52 * 2 ^ 48 + st * 2 ^ 40 + lines * 2 ^ 32 + part * 2 ^ 26 + triad * 2 ^ 21 + bit split * 2 ^ 20 +
    (if split then pos else 0) * 2 ^ 18)

/-- The ten words of a line record (R272). -/
def lineWords (w : WLine) : List DWord :=
  [BitVec.ofNat 64 (64 * w.line), w.mask] ++
  (List.range 8).map (fun i => BitVec.ofNat 64 (w.data.toNat / 2 ^ (64 * i)))

/-- The write set in ascending physical address (R272). -/
def sortLines : List WLine → List WLine
  | [] => []
  | w :: r => ins w (sortLines r)
where
  ins (w : WLine) : List WLine → List WLine
    | [] => [w]
    | x :: r => if w.line ≤ x.line then w :: x :: r else x :: ins w r

/-- An entry found in the ring. -/
structure Entry where
  off : Nat
  st : Nat
  lines : Nat
  word0 : DWord
  deriving DecidableEq, Repr

/-- Bytes of an entry with a number of lines. -/
def entryBytes (n : Nat) : Nat := 64 + 80 * n

namespace Chip

/-- A journal word as the commit logic reads it. -/
def jrd (c : Chip) (a : Nat) : DWord := (c.readCode a).1

/-- A journal word written by the commit logic or the configuration loader (R22). -/
def jwr (c : Chip) (a : Nat) (v : DWord) : Chip := c.storeWord a v

/-- Ring head and tail as byte offsets into the ring (R271). -/
def ringHead (c : Chip) : Nat := 16 * (c.jrd journalBase).toNat
def ringTail (c : Chip) : Nat := 16 * (c.jrd (journalBase + 8)).toNat
def nextCseq (c : Chip) : Nat := (c.jrd (journalBase + 0x10)).toNat

/-- Bytes between tail and head. -/
def ringUsed (c : Chip) : Nat := (c.ringHead + ringSize - c.ringTail) % ringSize

/-- A word of the ring by byte offset; the ring wraps at its end. -/
def ringAddr (off : Nat) : Nat := ringStart + off % ringSize

/-- `SYS_JRNSTAT.FREE` in 64-byte units (R278). -/
def ringNote (c : Chip) : Chip := c.sf .SYS_JRNSTAT SYS_JRNSTAT.FREE ((ringSize - c.ringUsed) / 64)

/-- The entry at an offset. -/
def entryAt (c : Chip) (off : Nat) : Entry :=
  let w := c.jrd (ringAddr off)
  { off := off, st := entBits w 47 40, lines := entBits w 39 32, word0 := w }

/-- The entries from an offset to the head, oldest first; at most `fuel`. -/
def entriesFrom (c : Chip) : Nat → Nat → Nat → List Entry
  | 0, _, _ => []
  | fuel + 1, off, left =>
    if left = 0 then [] else
    let e := c.entryAt off
    let n := entryBytes e.lines
    if left < n then [e] else e :: entriesFrom c fuel ((off + n) % ringSize) (left - n)

/-- Every entry of the ring, oldest first. -/
def entries (c : Chip) : List Entry := c.entriesFrom 6400 c.ringTail c.ringUsed

/-- Drops the oldest entries while they are `PUBLISHED` or `DISCARDED` and `need` bytes do not fit (R274). -/
def ringRoom (c : Chip) (need : Nat) : Nat → Chip
  | 0 => c
  | fuel + 1 =>
    if need < ringSize - c.ringUsed then c
    else if c.ringUsed = 0 then c
    else
      let e := c.entryAt c.ringTail
      if e.st = stPublished ∨ e.st = stDiscarded then
        (c.jwr (journalBase + 8) (BitVec.ofNat 64 ((c.ringTail + entryBytes e.lines) % ringSize / 16))).ringRoom need fuel
      else c

/-- An entry of `need` bytes fits. -/
def ringFits (c : Chip) (need : Nat) : Bool := decide (need < ringSize - c.ringUsed)

/-- Changes the state of an entry by rewriting its word 0 alone (R273). -/
def entryState (c : Chip) (off st : Nat) : Chip :=
  let w := c.jrd (ringAddr off)
  c.jwr (ringAddr off) (Fld.put ⟨47, 40⟩ w st)

/-- Words written from an offset upward. -/
def ringWords (c : Chip) : Nat → List DWord → Chip
  | _, [] => c
  | off, w :: r => (c.jwr (ringAddr off) w).ringWords (off + 8) r

/-- Words read from an offset upward. -/
def ringRead (c : Chip) : Nat → Nat → List DWord
  | 0, _ => []
  | n + 1, off => c.jrd (ringAddr off) :: ringRead c n (off + 8)

/-- The words after word 0 of the entry of a commit (R272). -/
def entryBody (m : Commit) (cseq : Nat) : List DWord :=
  let ls := (sortLines m.wset).flatMap lineWords
  let h : List DWord := [BitVec.ofNat 64 cseq, BitVec.ofNat 64 m.time, m.crec.whash, m.crec.digest]
  h ++ [crc64Words (h ++ ls), 0, 0] ++ ls

/-- Puts an entry at the head: word 0 in state `OPEN`, then the rest, then the state given (R265 steps 3 and 4, R273). -/
def putEntry (c : Chip) (w0 : DWord) (body : List DWord) (st : Nat) : Chip × Nat :=
  let off := c.ringHead
  let n := 8 * (body.length + 1)
  let c := c.jwr (ringAddr off) (Fld.put ⟨47, 40⟩ w0 stOpen)
  let c := c.ringWords (off + 8) body
  let c := c.jwr journalBase (BitVec.ofNat 64 ((off + n) % ringSize / 16))
  ((c.entryState off st).ringNote, off)

/-! ### The steps of a commit -/

def setCommit (c : Chip) (m : Commit) : Chip :=
  { c with commits := c.commits.map (fun x => if x.key == m.key && x.crec.seq == m.crec.seq then m else x) }

/-- An earlier commit holds a line of the write set (R268). -/
def heldBack (c : Chip) (m : Commit) : Bool :=
  c.commits.any (fun x => x.key != m.key && x.cseq.isSome && x.stage != .done && x.stage != .aborted &&
    decide (x.cseq.getD 0 < m.cseq.getD 0) && m.wset.any (fun w => x.rset.contains w.line))

/-- The read set meets the write set of a commit past step 2 and not past step 6 (R268). -/
def readClash (c : Chip) (m : Commit) : Bool :=
  c.commits.any (fun x => x.key != m.key && x.cseq.isSome && x.stage != .done && x.stage != .aborted &&
    x.wset.any (fun w => m.rset.contains w.line))

/-- The lanes waiting at `TEND` of a requester go on. -/
def releaseLanes (c : Chip) (key : Nat) : Chip := (c.lanesOf key).foldl (fun c k => c.tendPoll k) c

/-- Step 7: the lanes are released (R265). -/
def commitDone (c : Chip) (m : Commit) (st : CommitStep) : Chip :=
  let c := c.setCommit { m with stage := st }
  let c := if st == .done then c.inc (.CLU_TXCOUNT m.triad m.pos) CLU_TXCOUNT.COMMITS else c
  c.releaseLanes m.key

/-- Steps 6 and 7: the write set is published in one place of the global order (R265, R269). -/
def publish (c : Chip) (now : Nat) (m : Commit) : Chip :=
  let who := some m.part.toNat
  let c := m.wset.foldl (fun c w => (c.writeLine now w.line w.mask w.data who).snoopAll w.line (some m.key)) c
  let c := match m.off with | some off => c.entryState off stPublished | none => c
  c.commitDone m .done

/-- Step 6 or the wait for an earlier commit (R268) or for a snapshot (R447). -/
def tryPublish (c : Chip) (now : Nat) (m : Commit) : Chip :=
  if c.heldBack m || c.gb .SYS_SNAP SYS_SNAP.BUSY then c.setCommit { m with stage := .hold } else c.publish now m

/-- Steps 3 to 5: the entry, then the partner (R265, R270). -/
def writeEntry (c : Chip) (now : Nat) (m : Commit) : Chip :=
  let need := entryBytes m.wset.length
  let c := c.ringRoom need 6400
  let cs := m.cseq.getD 0
  if !c.ringFits need then c.setCommit { m with stage := .ring } else
  let w0 := entryWord stOpen m.wset.length m.part.toNat m.triad m.split m.pos
  let (c, off) := c.putEntry w0 (entryBody m cs) stComplete
  let c := c.jwr (journalBase + 0x200 + 8 * m.part.toNat) (BitVec.ofNat 64 cs)
  let m := { m with off := some off }
  if c.paired then (c.setCommit { m with stage := .ack }).leatSend (.journal cs)
  else c.tryPublish now m

/-- On a standby the entry comes from the primary (R432): the oldest `COPY` entry of the triad and core. -/
def copyOf (c : Chip) (m : Commit) : Option Entry :=
  let w := entryWord stCopy m.wset.length m.part.toNat m.triad m.split m.pos
  c.entries.find? (fun e => e.st == stCopy && entBits e.word0 25 18 == entBits w 25 18)

/-- The standby becomes DETACHED (R428, R432, R436): its triads stand still and it follows no more. -/
def partSelf (c : Chip) : Chip :=
  let c := { c with
    leat := [], pair := { c.pair with decs := [], inputs := [], heldIn := [], waitStart := false, swap := 0 } }
  c.sf .PAR_STAT PAR_STAT.STATE 5

/-- It becomes so for a fault of its own. -/
def detachSelf (c : Chip) (now : Nat) : Chip := (c.contained now 16 none none).partSelf

/-- The standby is detached for a difference (R432). -/
def desync (c : Chip) (now : Nat) : Chip := (c.sf .PAR_STAT PAR_STAT.DESYNC 1).detachSelf now

/-- The entry is of the same commit: write-set hash, digest and size. -/
def sameCommit (c : Chip) (m : Commit) (e : Entry) : Bool :=
  let b := c.ringRead 7 (e.off + 8)
  b.getD 2 0 == m.crec.whash && b.getD 3 0 == m.crec.digest && e.lines == m.wset.length

/-- On a following device: the primary aborted the commit at step 2; whether it did. -/
def tendAborted (c : Chip) (m : Commit) : Bool :=
  (c.triad m.triad).tendAborts.contains (m.pos, (c.lane (c.repLane m.key)).retired)

/-- A commit aborts with `CONFLICT` at step 2; a primary tells the standby. -/
def commitAbort (c : Chip) (m : Commit) : Chip :=
  let c := c.updPort m.key (fun p => { p with tx := { p.tx with pendAbort := none, voted := false } })
  let c := c.leatSend (.event m.triad (2 ^ 33 + 0x100 + m.pos) (c.lane (c.repLane m.key)).retired)
  c.commitDone m .aborted

/-- The comparison of a standby's commit with the primary's entry (R432). -/
def commitByCopy (c : Chip) (now : Nat) (m : Commit) (e : Entry) : Chip :=
  let b := c.ringRead 7 (e.off + 8)
  if c.sameCommit m e then c.publish now { m with cseq := some (b.getD 0 0).toNat, off := some e.off }
  else c.desync now

/-- Step 2 onward (R265, R268): earlier stores visible, read set checked and held, sequence number assigned; a commit that
the lost partner had mirrored here is published from its entry (R276, R432). -/
def commitStart (c : Chip) (now : Nat) (m : Commit) : Chip :=
  let p := c.port m.key
  if p.outq.any (fun r => !r.dev && decide (r.seq < m.crec.seq)) then c
  else if (if c.following then c.tendAborted m else p.tx.pendAbort.isSome || c.readClash m) then c.commitAbort m
  else
    let c := c.updPort m.key (fun p => { p with tx := { p.tx with rset := [] } })
    if m.crec.lines = 0 ∨ m.wset.isEmpty then c.commitDone m .done
    else if c.following then
      match c.copyOf m with
      | some e => c.commitByCopy now m e
      | none => c
    else if (c.copyOf m).any (c.sameCommit m) then
      match c.copyOf m with
      | some e => c.commitByCopy now m e
      | none => c
    else
      let cs := c.nextCseq
      let c := c.jwr (journalBase + 0x10) (BitVec.ofNat 64 (cs + 1))
      c.writeEntry now { m with cseq := some cs }

/-- Whatever a waiting commit can do now. -/
def commitPump (c : Chip) (now key : Nat) : Chip :=
  match c.commits.find? (fun m => m.key == key && m.stage != .done && m.stage != .aborted) with
  | none => c
  | some m => match m.stage with
    | .start => c.commitStart now m
    | .ring => c.writeEntry now m
    | .hold => c.tryPublish now m
    | _ => c

/-- Every waiting commit in turn. -/
def commitPumpAll (c : Chip) (now : Nat) : Chip :=
  (c.commits.map (·.key)).foldl (fun c k => c.commitPump now k) c

/-- Step 1: a commit record has been voted; conflict detection ends (R265). -/
def commitVoted (c : Chip) (now key : Nat) (r : CommitRec) : Chip :=
  let t := key / 3
  let p := c.port key
  let m : Commit := {
    key := key, crec := r, part := BitVec.ofNat 6 ((c.partOf t).getD 0), triad := t, split := c.split t, pos := key % 3
    wset := p.tx.wset, rset := p.tx.rset, time := now }
  let ended (x : Commit) : Bool := x.key == key && (x.stage == .done || x.stage == .aborted)
  let c := { c with commits := c.commits.filter (fun x => !ended x) ++ [m] }
  let c := c.setPort key { p with tx := { p.tx with voted := true } }
  c.commitPump now key

/-! ### Replay after a warm device reset (R275, R276) -/

/-- The line records of an entry's body. -/
def bodyLines : Nat → List DWord → List WLine
  | 0, _ => []
  | n + 1, a :: ms :: r =>
    ⟨entBits a 39 6, ms, BitVec.ofNat 512 (natLE ((r.take 8).flatMap (fun w => bytesLE 8 w.toNat)))⟩ ::
      bodyLines n (r.drop 8)
  | _, _ => []

/-- The CRC of an entry verifies (R272, R273). -/
def entryOk (c : Chip) (e : Entry) : Bool :=
  let b := c.ringRead (7 + 10 * e.lines) (e.off + 8)
  b.getD 4 0 == crc64Words (b.take 4 ++ b.drop 7)

/-- Publishes an entry from the ring alone. -/
def publishEntry (c : Chip) (now : Nat) (e : Entry) : Chip :=
  let b := c.ringRead (7 + 10 * e.lines) (e.off + 8)
  let c := (bodyLines e.lines (b.drop 7)).foldl (fun c w =>
    (c.writeLine now w.line w.mask w.data none).snoopAll w.line none) c
  c.entryState e.off stPublished

/-- One entry of the replay: its state, then the counts (R275); the ring is in ascending CSEQ. -/
def replayEntry (c : Chip) (now : Nat) (e : Entry) : Chip :=
  if e.st = stOpen then (c.entryState e.off stDiscarded).inc .SYS_JRNSTAT SYS_JRNSTAT.DISCARDED
  else if e.st = stComplete ∨ e.st = stMirrored ∨ e.st = stCopy then
    if c.entryOk e then (c.publishEntry now e).inc .SYS_JRNSTAT SYS_JRNSTAT.REPLAYED
    else ((c.entryState e.off stDiscarded).inc .SYS_JRNSTAT SYS_JRNSTAT.DISCARDED).contained now 8 none none
  else c

/-- The replay of the ring (R275). In a pair the partner's copy decides (R276): entries whose state does not satisfy `keep`
are discarded. -/
def replayRing (c : Chip) (now : Nat) (keep : Nat → Bool) : Chip :=
  let c := (c.sf .SYS_JRNSTAT SYS_JRNSTAT.REPLAYED 0).sf .SYS_JRNSTAT SYS_JRNSTAT.DISCARDED 0
  let c := c.entries.foldl (fun c e =>
    if keep e.st then c.replayEntry now e
    else if e.st = stPublished ∨ e.st = stDiscarded then c
    else (c.entryState e.off stDiscarded).inc .SYS_JRNSTAT SYS_JRNSTAT.DISCARDED) c
  c.ringNote

end Chip
end Sys2Proof.Machine
end

