-- ==== Sys2Proof/Machine/Recovery.lean ====
section
/-! DEFINITION. The states of a triad and their changes: start, rebuild, spare swap, degraded running, whole-triad restart,
reset (R65, R129 to R153). -/
namespace Sys2Proof.Machine

/-- `CLU_TSTATE.STATE` codes (R142). -/
def tIdle : Nat := 0
def tVoting : Nat := 1
def tDegraded : Nat := 2
def tRebuild : Nat := 3
def tRestart : Nat := 4
def tBraked : Nat := 5
def tUnavailable : Nat := 6
def tSplit : Nat := 7

/-- SEQ of the next record after a checkpoint: a commit record has been presented at its `TEND`. -/
def Ckpt.seqNext (k : Ckpt) : Nat := k.storeSeq + bit k.tend

/-- A lane that resumes from a checkpoint, its caches empty (R147, R152); at a `TEND` it waits for the commit (R277). -/
def Ckpt.resume (k : Ckpt) (t i : Nat) : Lane :=
  { waiting := if k.tend then some (.tend ⟨Fin.ofNat 32 t, Fin.ofNat 3 i⟩) else none, progress := bit k.tend
    arch := k.arch, retired := k.retired, storeSeq := k.seqNext, readSeq := k.readSeq, txNo := k.txNo, save := k.save
    whash := k.whash, txLines := k.txLines, digNo := k.digNo, digCount := k.retired, evNo := k.evNo
    ldPend := k.ldPend, feed := k.feed }

namespace Chip

def setT (c : Chip) (t st : Nat) : Chip := c.sf (.CLU_TSTATE t) CLU_TSTATE.STATE st

def setVote (c : Chip) (t : Nat) (l : List Nat) : Chip :=
  c.sf (.CLU_TSTATE t) CLU_TSTATE.VOTE (l.foldl (fun v i => setBit v i) 0)

/-- A lane stops or starts voting. -/
def voteOff (c : Chip) (t i : Nat) : Chip := c.setVote t (without (c.voting t) i)
def voteOn (c : Chip) (t i : Nat) : Chip := c.setVote t (addNew (c.voting t) i)

/-- `CLU_TSYND` of a recovery event (R162). -/
def tsynd (c : Chip) (t kind point : Nat) (minor : List Nat) : Chip :=
  let r := RegName.CLU_TSYND t
  let mask (l : List Nat) : Nat := l.foldl (fun v i => setBit v i) 0
  let c := (c.sf r CLU_TSYND.POINT point).sf r CLU_TSYND.KIND kind
  let c := c.sf r CLU_TSYND.AGREE (mask ((c.voting t).filter (fun i => !minor.contains i)))
  c.sf r CLU_TSYND.MINOR (mask minor)

/-! ### Start (R65, R143) -/

/-- The register state at the entry point (R65, R66, R68). -/
def entryArchOf (c : Chip) (t : Nat) : Arch :=
  let p := (c.partOf t).getD 0
  let x := c.part p
  let a : Arch := { pc := x.entry, status := BitVec.ofNat 32 ((if c.isMgrPart p then 8 else 4) + 1024 * bit (c.split t)) }
  a.setG 30 x.sp

/-- The event registers of a triad return to their reset values (R179). -/
def evReset (c : Chip) (t : Nat) : Chip :=
  let c := (List.range 4).foldl (fun c k => c.wr (.CLU_EVTIMER t k) 0) c
  (c.wr (.CLU_EVCFG t) 0).wr (.CLU_EVSTAT t) 0

/-- The spare of a cluster is free, or under a test that a swap abandons (R149, R162, R492). -/
def spareFree (c : Chip) (cl : Nat) : Bool :=
  (c.gf (.CLU_SPARE cl) CLU_SPARE.STATE == 0 || c.gf (.CLU_SPARE cl) CLU_SPARE.STATE == 3) &&
  !(c.cstore (13 * cl + 12)).failed

/-- The live tests (R491) of a kind on a target that are running. -/
def testsOn (c : Chip) (kind target : Nat) : List Nat :=
  (List.range 16).filter (fun k => c.gf (.SYS_TEST k) SYS_TEST.STATE == 2 && c.gf (.SYS_TEST k) SYS_TEST.KIND == kind &&
    c.gf (.SYS_TEST k) SYS_TEST.TARGET == target)

/-- The spare takes a lane's role (R149 step 3). -/
def takeSpare (c : Chip) (t i : Nat) : Chip :=
  let r := RegName.CLU_SPARE (t / 4)
  let c := (c.testsOn 2 (t / 4)).foldl (fun c k => c.sf (.SYS_TEST k) SYS_TEST.STATE 5) c
  let c := ((c.sf r CLU_SPARE.STATE 1).sf r CLU_SPARE.TRIAD (t % 4)).sf r CLU_SPARE.LANE i
  c.sf (.CLU_LANEMAP t) ⟨4 * i + 3, 4 * i⟩ 12

/-- The restart point of a triad (R138, R162). -/
def setRestart (c : Chip) (t : Nat) (k : Ckpt) : Chip :=
  let c := c.updTriad t (fun x => { x with
    restart := some k
    slog := x.slog.filter (fun r => decide (k.seqNext ≤ r.seq))
    rlog := x.rlog.filter (fun r => decide (k.readSeq ≤ r.req.rseq))
    elog := x.elog.drop (k.evNo - x.elogBase), elogBase := max x.elogBase k.evNo })
  let c := (c.sf (.CLU_TSTATE t) CLU_TSTATE.RPVALID 1).sf (.CLU_TSTATE t) CLU_TSTATE.LOGFULL 0
  c.sf (.CLU_CKPT t) CLU_CKPT.COUNT k.retired

/-- Commits of an earlier run of a requester: ended ones go, the others run on without it (R277). -/
def orphan (c : Chip) (key : Nat) : Chip :=
  let ended (m : Commit) : Bool := m.key == key && (m.stage == .done || m.stage == .aborted)
  { c with commits := (c.commits.filter (fun m => !ended m)).map (fun m =>
      if m.key == key then { m with key := key + 1000 } else m) }

/-- The first state of every lane and of the triad at its partition's start (R138). -/
def freshTriad (c : Chip) (now t : Nat) (alive : List Nat) : Chip :=
  let c := c.orphan (3 * t)
  let a := c.entryArchOf t
  let l : Lane := { arch := a }
  let c := [0, 1, 2].foldl (fun c i => c.setLane (3 * t + i) l) c
  let x := c.triad t
  let k : Ckpt := { arch := a, crc := digestCrc a 0 }
  let c := c.setTriad t {
    ckpt := some k, alive := alive, sluMask := x.sluMask, sluReq := x.sluReq
    lastRec := [(0, now), (1, now), (2, now)] }
  c.setRestart t k

/-- Starts a TRIAD-mode triad (R143 rows IDLE, R461). -/
def startVoting (c : Chip) (now t : Nat) : Chip :=
  let bad := [0, 1, 2].filter (fun i => (c.cstore (c.coreOf t i)).failed)
  let (c, bad) := match bad with
    | i :: r => if c.spareFree (t / 4) then (c.takeSpare t i, r) else (c, bad)
    | [] => (c, [])
  if 2 ≤ bad.length then (c.setT t tUnavailable).triadContained now t 0x10 else
  let alive := [0, 1, 2].filter (fun i => !bad.contains i)
  let c := ((c.freshTriad now t alive).setVote t alive).setPort (3 * t) {
    (c.port (3 * t)) with outq := [], devOut := [], late := [], tx := {}, hint := none, barOut := 0, dropTo := 0 }
  let c := if bad.isEmpty then c.setT t tVoting else (c.setT t tDegraded).triadContained now t 0x06
  c.roundIfPending t

/-- Starts one SPLIT core at the entry point (R65, R131); a failed core stays halted; a core reset keeps the counts of
instructions and records (`keep`). -/
def startCore (c : Chip) (t i : Nat) (keep : Bool) : Chip :=
  let k := 3 * t + i
  let l := if keep then c.lane k else {}
  let dead := (c.cstore (c.coreOf t i)).failed
  let c := c.orphan k
  let p := c.port k
  (c.setLane k { arch := c.entryArchOf t, halted := dead, retired := l.retired, storeSeq := l.storeSeq }).setPort k { p with tx := {}, hint := none, barOut := 0, dropTo := 0 }

/-- Starts a triad of a partition (R65, R143). -/
def startTriad (c : Chip) (now t : Nat) : Chip :=
  let failed := c.gb (.CLU_SLUTEST t) CLU_SLUTEST.DONE && !c.gb (.CLU_SLUTEST t) CLU_SLUTEST.PASS
  if c.tstate t = tUnavailable ∨ failed then c else
  let c := (c.evReset t).updTriad t (fun x => { x with braked := false })
  if c.split t then
    [0, 1, 2].foldl (fun c i => c.startCore t i false) (c.setT t tSplit)
  else c.startVoting now t

/-! ### Fencing -/

/-- Removes a lane from the vote and from what the sluice, the bin and the agreed reads hold of it (R147 step 1). -/
def fenceLane (c : Chip) (t i : Nat) : Chip :=
  let c := (c.voteOff t i).haltLane (3 * t + i)
  let all := c.voting t
  c.updTriad t (fun x => { x with
    recs := x.recs.filter (fun e => e.1 ≠ i), digs := x.digs.filter (fun e => e.1 ≠ i)
    areqs := x.areqs.filter (fun e => e.1 ≠ i)
    ares := x.ares.filter (fun r => !all.all (fun j => r.taken.contains j))
    bin := x.bin.filter (fun b => !all.all (fun j => b.taken.contains j)) })

/-- The control store of a core is compared with its copy and rewritten where it differs (R55). -/
def storeRewrite (c : Chip) (core : Nat) : Chip :=
  c.setStore core { (c.cstore core) with badWords := [], wrongWords := [] }

/-- The rebuild of a lane on its own core begins (R147). -/
def startRebuild (c : Chip) (t i : Nat) (asked : Bool) : Chip :=
  let c := ((c.fenceLane t i).setT t tRebuild).storeRewrite (c.coreOf t i)
  (c.updTriad t (fun x => { x with rebuild := some { lane := i, swap := false, asked := asked } })).want t .digest

/-- A spare swap begins (R149): the core is clamped until the next load and the spare connected. -/
def startSwap (c : Chip) (t i : Nat) : Chip :=
  let core := c.coreOf t i
  let c := (c.fenceLane t i).setStore core { (c.cstore core) with failed := true }
  let c := ((c.takeSpare t i).setT t tRebuild).storeRewrite (13 * (t / 4) + 12)
  (c.updTriad t (fun x => { x with
    rebuild := some { lane := i, swap := true, compared := false }
    verdicts := x.verdicts.filter (fun e => e.1 ≠ i) })).want t .digest

/-- A halt asked for during a rebuild or restart takes effect when that state ends (R161). -/
def haltDue (c : Chip) (t : Nat) : Chip :=
  if (c.triad t).haltReq && (c.tstate t == tVoting || c.tstate t == tDegraded) then
    let c := c.updTriad t (fun x => { x with haltReq := false })
    if c.votes t 0 then c.want t .halt else c
  else c

/-- The triad goes on with two lanes (R143). -/
def degrade (c : Chip) (now t i : Nat) : Chip :=
  let spare := c.coreOf t i % 13 == 12
  let c := (c.fenceLane t i).updTriad t (fun x => { x with rebuild := none, alive := without x.alive i })
  let c := if spare then
      (c.sf (.CLU_SPARE (t / 4)) CLU_SPARE.STATE 2).setStore (13 * (t / 4) + 12)
        { (c.cstore (13 * (t / 4) + 12)) with failed := true }
    else c.setStore (c.coreOf t i) { (c.cstore (c.coreOf t i)) with failed := true }
  ((c.setT t tDegraded).triadContained now t 0x06).haltDue t

/-! ### Whole-triad restart and reset (R150 to R153) -/

/-- Steps 1 to 3 of R152: the lanes are halted, reset and given the restart point; the restart digests follow. -/
def restartTriad (c : Chip) (t : Nat) : Chip :=
  let c := c.txDiscard (3 * t)
  let x := c.triad t
  let k := x.restart.getD {}
  let alive := match x.rebuild with | some r => addNew x.alive r.lane | none => x.alive
  let c := [0, 1, 2].foldl (fun c i =>
    (c.setLane (3 * t + i) { k.resume t i with replay := x.elog }).storeRewrite (c.coreOf t i)) c
  let c := (c.setVote t []).setT t tRestart
  c.setTriad t { x with
    recs := [], nextSeq := alive.map (fun i => (i, k.seqNext)), nextDig := alive.map (fun i => (i, k.digNo))
    nextRead := alive.map (fun i => (i, k.readSeq)), alive := alive
    fwdSeq := k.seqNext, fwd := [], digs := [], digNext := k.digNo, digDone := [], ckpt := some k
    slogLeft := x.slog, rlogLeft := x.rlog, areqs := [], aready := [], ares := [], bin := [], invq := [], invAll := false
    round := none, held := .none, rebuild := none, restarting := true, braked := false }

/-- The restart digests (R152 step 4): `bad` names lanes whose digest differs. -/
def restartDone (c : Chip) (now t : Nat) (bad : List Nat) : Chip :=
  let x := c.triad t
  let good := x.alive.filter (fun i => !bad.contains i)
  if good.length < 2 then
    ((c.updTriad t (fun x => { x with restarting := false })).brakeTriad t).triadFatal now t 0x08
  else
    let c := (c.updTriad t (fun x => { x with
      restarting := false, lastRec := [(0, now), (1, now), (2, now)] })).setVote t x.alive
    let c := c.inc (.CLU_TCOUNT t) CLU_TCOUNT.RESTARTS
    let c := c.setT t (if x.alive.length = 3 then tVoting else tDegraded)
    let c := match x.alive.filter (fun i => bad.contains i) with
      | i :: _ =>
        let c := (c.inc (.CLU_TCOUNT t) CLU_TCOUNT.MISMATCH).tsynd t 2 ((x.ckpt.getD {}).retired) [i]
        let c := c.bookInc (0x200 + 16 * c.coreOf t i)
        (c.triadCorrected now t 0x04).startRebuild t i false
      | [] => c
    let c := x.alive.foldl (fun c i => c.takeReplay (3 * t + i) 16) c
    (c.roundIfPending t).haltDue t

/-- A no-majority event (R150): a restart where `RSTWIN` permits it, the brake and a fatal fault otherwise. -/
def noMajority (c : Chip) (now t point : Nat) : Chip :=
  let c := c.tsynd t 6 point (c.voting t)
  if c.gf (.CLU_TCFG t) CLU_TCFG.RSTWIN != 0 && !c.gb (.CLU_TSTATE t) CLU_TSTATE.RSTUSED then
    let c := (c.sf (.CLU_TSTATE t) CLU_TSTATE.RSTUSED 1).updTriad t (fun x => { x with rstUsedAt := now })
    (c.triadContained now t 0x07).restartTriad t
  else (c.brakeTriad t).triadFatal now t 0x08

/-! ### Verdicts and failures (R143, R146) -/

/-- A voting lane has failed. -/
def laneFailed (c : Chip) (now t i kind : Nat) : Chip :=
  let x := c.triad t
  let n := (c.lane (3 * t + i)).retired
  let soon := match x.lastFail with
    | some (m, j) => j ≠ i && decide (n - m < 2 ^ c.gf (.CLU_TCFG t) CLU_TCFG.DIGLOG)
    | none => false
  let c := c.updTriad t (fun x => { x with lastFail := some (n, i) })
  let inRebuild := match x.rebuild with | some r => r.lane == i | none => false
  if !c.live t then c
  else if c.tstate t == tDegraded || soon || (c.tstate t == tRebuild && !inRebuild) then c.noMajority now t n
  else
    let c := c.tsynd t kind n [i]
    if c.coreOf t i % 13 != 12 && c.spareFree (t / 4) then (c.triadCorrected now t 0x05).startSwap t i
    else c.degrade now t i

/-- A minority verdict (R133, R143, R146). -/
def minority (c : Chip) (now t i kind point : Nat) : Chip :=
  if c.tstate t = tVoting then
    let c := (c.inc (.CLU_TCOUNT t) CLU_TCOUNT.MISMATCH).tsynd t kind point [i]
    let c := c.bookInc (0x200 + 16 * c.coreOf t i)
    let x := c.triad t
    let vs := x.verdicts.filter (fun e => decide (now < e.2 + 3600000000000)) ++ [(i, now)]
    let c := c.setTriad t { x with verdicts := vs }
    if c.gf (.CLU_TCFG t) CLU_TCFG.REBUILDLIM < (vs.filter (fun e => e.1 == i)).length then c.laneFailed now t i kind
    else (c.triadCorrected now t 0x04).startRebuild t i false
  else c.noMajority now t point

/-- Steps 5 and 6 of R147: the checkpoint is copied and the lane resumes (R148). -/
def readmit (c : Chip) (now t : Nat) (r : Rebuild) : Chip :=
  let x := c.triad t
  let k := x.ckpt.getD {}
  let i := r.lane
  let c := c.setLane (3 * t + i) { k.resume t i with replay := x.elog.drop (k.evNo - x.elogBase) }
  let lost := x.rlog.filter (fun e => decide (k.readSeq ≤ e.req.rseq) && !x.ares.any (fun a => a.req.rseq == e.req.rseq))
  let c := c.setTriad t { x with
    rebuild := none, alive := addNew x.alive i
    nextSeq := x.nextSeq.set i k.seqNext, nextDig := x.nextDig.set i k.digNo, nextRead := x.nextRead.set i k.readSeq
    ares := lost.map (fun e => { e with taken := without [0, 1, 2] i }) ++ x.ares
    lastRec := x.lastRec.set i now }
  let c := c.voteOn t i
  let c := c.setT t (if (c.voting t).length = 3 then tVoting else tDegraded)
  let c := c.inc (.CLU_TCOUNT t) CLU_TCOUNT.REBUILDS
  let c := c.bookInc (0x204 + 16 * c.coreOf t i)
  let c := if r.swap then (c.inc (.CLU_TCOUNT t) CLU_TCOUNT.SWAPS).bookInc (0x60 + 4 * (t / 4)) else c
  (c.takeReplay (3 * t + i) 16).haltDue t

/-- A triad reset or a restart is refused: a corrected fault with code 0x0D (R163). -/
def refuseTriad (c : Chip) (now t : Nat) : Chip := c.triadCorrected now t 0x0D

end Chip
end Sys2Proof.Machine
end

