-- ==== Sys2Proof/Machine/Sluice.lean ====
section
/-! DEFINITION. The sluice: votes of store, commit and digest records, stragglers, retries, rebuilds, restarts, triad
commands, sluice tests and debug (chapter 06; R58, R60 of chapter 02). -/
namespace Sys2Proof.Machine

/-- The outcome of a vote (R133). -/
inductive Verdict (α : Type) where
  | wait
  | agree (r : α) (minor : List Nat)
  | none
  deriving DecidableEq, Repr

/-- Two out of three, or two out of two (R133, R143): the records of one point by lane, among `voters` voting lanes. -/
def decideVote {α : Type} [DecidableEq α] (voters : Nat) (rs : List (Nat × α)) : Verdict α :=
  match rs.find? (fun e => rs.any (fun f => f.1 != e.1 && f.2 == e.2)) with
  | some e => .agree e.2 ((rs.filter (fun f => f.2 != e.2)).map (·.1))
  | none => if 2 ≤ rs.length ∧ voters ≤ rs.length then .none else .wait

def VRec.seq : VRec → Nat
  | .store r => r.seq
  | .commit r => r.seq

/-- `CLU_TSYND.KIND` of a record (R162). -/
def VRec.kind : VRec → Nat
  | .store _ => 1
  | .commit _ => 3

/-- A digest record as it is compared: kind, CRC and count (R137). -/
def DigRec.key (d : DigRec) : DigKind × DWord × Nat := (d.kind, d.crc, d.count)

namespace Chip

/-! ### Store and commit records -/

/-- Store-buffer entries that the sluice has and that are done leave the buffer (R235). -/
def sbDrain (c : Chip) (key : Nat) : Chip :=
  let q := (c.port key).outq
  let next := (c.triad (key / 3)).fwdSeq
  let sp := c.split (key / 3)
  let stays (e : SbEntry) : Bool :=
    !e.delivered || (!sp && decide (next ≤ e.item.seq)) || q.any (fun r => !r.dbg && r.seq == e.item.seq)
  (c.lanesOf key).foldl (fun c k => c.updLane k (fun l => { l with sb := l.sb.filter stays })) c

/-- A transactional store enters the transaction buffer, unless its transaction has ended (R134, R254, R263). -/
def mergeTx (c : Chip) (key : Nat) (r : StoreRec) : Chip :=
  c.updPort key (fun p =>
    if p.tx.ended || decide (r.seq < p.tx.first) then p
    else { p with tx := { p.tx with wset := mergeStore p.tx.wset r, recs := p.tx.recs ++ [r] } })

/-- Device-typed writes at the head of a requester's stores are issued: every earlier memory-typed store is visible, and at
most 8 are outstanding (R236, R237). `n` bounds the number looked at. -/
def issueDev (now : Nat) (p : Port) : Nat → Port
  | 0 => p
  | n + 1 =>
    match p.outq with
    | r :: rest =>
      if r.dev && decide (p.devOut.length < 8) then
        issueDev now { p with outq := rest, devOut := p.devOut ++ [⟨r.seq, r.addr, r.data, now⟩] } n
      else p
    | [] => p

/-- A voted store past the sluice (R133, R134). -/
def sendStore (c : Chip) (now key : Nat) (r : StoreRec) : Chip :=
  if r.txn then c.mergeTx key r
  else c.updPort key (fun p => issueDev now { p with outq := p.outq ++ [r] } 1)

/-- A forwarded store enters the restart log and the journal store (R151, R271). -/
def logStore (c : Chip) (t : Nat) (r : StoreRec) : Chip :=
  let i := (c.triad t).slog.length
  let a := logArea t + 32 * (i % 64)
  let w0 := r.addr.toNat * 2 ^ 24 + r.be.toNat * 2 ^ 16 + bit r.dev * 2 ^ 15 + bit r.txn * 2 ^ 14 +
    bit r.dbg * 2 ^ 13 + r.bankAlias.toNat * 2 ^ 10
  let c := ((c.storeWord a (BitVec.ofNat 64 w0)).storeWord (a + 8) r.data).storeWord (a + 16) (BitVec.ofNat 64 r.seq)
  (c.updTriad t (fun x => { x with slog := x.slog ++ [r] })).logLimit t

/-- The staged state of the `TEND` whose commit record is `r`, from the lowest lane that agreed (R138, R277). -/
def tendStage (c : Chip) (t : Nat) (r : CommitRec) : Option Ckpt :=
  let ds := (c.triad t).digs.map (·.2) ++ (c.voting t).flatMap (fun i => (c.lane (3 * t + i)).digests)
  (ds.find? (fun d => d.kind == .tend && d.staged.storeSeq == r.seq && d.crc == r.digest)).map (·.staged)

/-- A voted record past the sluice in TRIAD mode: dropped if the restart log holds it (R152), else forwarded. -/
def forward (c : Chip) (now t : Nat) (v : VRec) : Chip :=
  match v with
  | .commit r =>
    let c := match c.tendStage t r with
      | some k => (c.updTriad t (fun x => { x with ckpt := some k })).setRestart t k
      | none => c
    c.commitVoted now (3 * t) r
  | .store r =>
    match (c.triad t).slogLeft.find? (fun q => q.seq == r.seq) with
    | some q =>
      let c := c.updTriad t (fun x => { x with slogLeft := x.slogLeft.filter (fun e => e.seq != r.seq) })
      if q = r then c else c.noMajority now t r.seq
    | none =>
      if r.seq < (c.port (3 * t)).dropTo then c else
      let c := c.sendStore now (3 * t) r
      if r.txn then c else c.logStore t r

/-- The sluice holds a decided record: at a full log (R151), and a commit record while a delivery round has its count
(R525). -/
def holds (c : Chip) (t : Nat) : VRec → Bool
  | .commit _ => match (c.triad t).round with | some r => r.c.isSome | none => false
  | .store r => !r.txn && c.gb (.CLU_TSTATE t) CLU_TSTATE.LOGFULL && !(c.triad t).slogLeft.any (fun q => q.seq == r.seq)

/-- Decides records in SEQ order, at most `fuel` (R133). -/
def pump (c : Chip) (now t : Nat) : Nat → Chip
  | 0 => c
  | fuel + 1 =>
    if !c.live t then c else
    let x := c.triad t
    let rs := x.recs.filter (fun e => e.2.seq == x.fwdSeq && c.votes t e.1)
    match decideVote (c.voting t).length rs with
    | .wait => c
    | .none => c.noMajority now t x.fwdSeq
    | .agree r minor =>
      if c.holds t r then c else
      let keep := x.nextSeq.foldl (fun m e => min m e.2) ((x.ckpt.getD {}).storeSeq)
      let c := c.setTriad t { x with
        recs := x.recs.filter (fun e => e.2.seq != x.fwdSeq), fwdSeq := x.fwdSeq + 1
        fwd := x.fwd.filter (fun v => decide (keep ≤ v.seq)) ++ [r] }
      let c := c.forward now t r
      let c := match minor with
        | i :: _ => if c.live t then c.minority now t i r.kind r.seq else c
        | [] => c
      c.pump now t fuel

/-- Every other voting lane has delivered a record that this lane owes (R141). -/
def owes (c : Chip) (t i : Nat) : Bool :=
  let x := c.triad t
  let others := without (c.voting t) i
  !others.isEmpty && others.all (fun j =>
    decide (x.nextSeq.get 0 i < x.nextSeq.get 0 j) || decide (x.nextDig.get 0 i < x.nextDig.get 0 j) ||
    decide (x.nextRead.get 0 i < x.nextRead.get 0 j))

/-- A lane has delivered a record, which `f` notes: its 50 µs begin anew, and so do those of a lane that owes from now on
(R141). -/
def delivered (c : Chip) (now t i : Nat) (f : Triad → Triad) : Chip :=
  let even := (c.voting t).filter (fun j => !c.owes t j)
  let c := c.updTriad t f
  let start := i :: even.filter (fun j => c.owes t j)
  c.updTriad t (fun x => { x with lastRec := start.foldl (fun m j => m.set j now) x.lastRec })

/-- A record delivered by a lane (R133, R134). -/
def deliver (c : Chip) (now t i : Nat) (v : VRec) : Chip :=
  let x := c.triad t
  let c := c.delivered now t i (fun x => { x with nextSeq := x.nextSeq.set i (v.seq + 1) })
  if v.seq < x.fwdSeq then
    match x.fwd.find? (fun w => w.seq == v.seq) with
    | some w => if w = v then c else c.minority now t i v.kind v.seq
    | none => c
  else c.updTriad t (fun x => { x with recs := x.recs ++ [(i, v)] })

end Chip

/-! ### Digests -/

namespace Chip

/-- The bits of `CLU_SLUTEST.RESULT` a working voter sets (R154, R156). -/
def sluExpect (c : Chip) (t : Nat) : Nat :=
  if c.tstate t = tDegraded then (c.voting t).foldl (fun v i => setBit (setBit v i) (3 + i)) 0xC0 else 0xFF

/-- A sluice test: RESULT, PASS, DONE and RUNS (R154, R156, R162). -/
def sluNote (c : Chip) (t expect : Nat) : Chip :=
  let r := RegName.CLU_SLUTEST t
  let got := expect &&& (c.triad t).sluMask.toNat
  let c := ((c.sf r CLU_SLUTEST.RESULT got).sf r CLU_SLUTEST.PASS (bit (got == expect))).sf r CLU_SLUTEST.DONE 1
  c.inc r CLU_SLUTEST.RUNS

/-- A test during work at a digest point (R156): a failure brakes the triad and is fatal. -/
def sluRun (c : Chip) (now t : Nat) : Chip :=
  if (c.triad t).sluReq && (c.tstate t == tVoting || c.tstate t == tDegraded) then
    let c := (c.updTriad t (fun x => { x with sluReq := false })).sluNote t (c.sluExpect t)
    if c.gb (.CLU_SLUTEST t) CLU_SLUTEST.PASS then c
    else ((c.tsynd t 7 0 []).brakeTriad t).triadFatal now t 0x09
  else c

/-- Two digests of one point agree: the checkpoint and, with no transaction open or at a commit, the restart point
(R138, R151, R277). -/
def digestAgreed (c : Chip) (now t : Nat) (d : DigRec) : Chip :=
  let k := d.staged
  let c := c.updTriad t (fun x => { x with
    ckpt := some k
    rebuild := x.rebuild.map (fun r => if d.kind = .forced then { r with ready := true } else r) })
  let full := c.gb (.CLU_TSTATE t) CLU_TSTATE.LOGFULL
  let c := if k.save.isNone || k.tend then c.setRestart t k else c
  let c := if full && !c.gb (.CLU_TSTATE t) CLU_TSTATE.LOGFULL then c.roundIfPending t else c
  c.sluRun now t

/-- The release digest of all three lanes agrees (R160). -/
def releaseAgreed (c : Chip) (t : Nat) (d : DigRec) : Chip :=
  let x := c.triad t
  if x.releasing && d.kind == .forced && (c.voting t).length == 3 && (c.voting t).all (fun i => decide (d.no < x.nextDig.get 0 i)) then
    (c.setTriad t { x with releasing := false }).sf (.CLU_TSTATE t) CLU_TSTATE.NOTSAFE 0
  else c

/-- The digest of a `TEND` waits for its commit record (R525). -/
def digHeld (c : Chip) (t : Nat) (k : DigKind × DWord × Nat) (d : DigRec) : Bool :=
  k.1 == .tend && decide ((c.triad t).fwdSeq ≤ d.staged.storeSeq)

/-- Decides digests in order, at most `fuel` (R139). -/
def digPump (c : Chip) (now t : Nat) : Nat → Chip
  | 0 => c
  | fuel + 1 =>
    if !c.live t || c.gb (.CLU_TSTATE t) CLU_TSTATE.DBGHOLD then c else
    let x := c.triad t
    let here := x.digs.filter (fun e => e.2.no == x.digNext && c.votes t e.1)
    match decideVote (c.voting t).length (here.map (fun e => (e.1, e.2.key))) with
    | .wait => c
    | .none => c.noMajority now t ((here.head?.map (·.2.count)).getD 0)
    | .agree key minor =>
      let low := (here.filter (fun e => e.2.key == key)).foldl (fun (b : Option (Nat × DigRec)) e =>
        match b with | some y => if e.1 < y.1 then some e else some y | none => some e) none
      match low with
      | none => c
      | some (_, d) =>
        if c.digHeld t key d then c else
        let keep := x.nextDig.foldl (fun m e => min m e.2) d.no
        let c := c.setTriad t { x with
          digs := x.digs.filter (fun e => e.2.no != x.digNext), digNext := x.digNext + 1
          digDone := x.digDone.filter (fun e => decide (keep ≤ e.no)) ++ [d] }
        let c := c.digestAgreed now t d
        let c := if minor.isEmpty then c.releaseAgreed t d else c
        let c := match minor with
          | i :: _ => if c.live t then c.minority now t i 2 d.count else c
          | [] => c
        (c.pump now t 70).digPump now t fuel

/-- A digest delivered by a lane. -/
def deliverDig (c : Chip) (now t i : Nat) (d : DigRec) : Chip :=
  let x := c.triad t
  let c := c.delivered now t i (fun x => { x with nextDig := x.nextDig.set i (d.no + 1) })
  if d.no < x.digNext then
    match x.digDone.find? (fun e => e.no == d.no) with
    | some e => if e.key = d.key then c.releaseAgreed t d else c.minority now t i 2 d.count
    | none => c
  else c.updTriad t (fun x => { x with digs := x.digs ++ [(i, d)] })

end Chip

namespace Chip

/-- Whatever the sluice can decide now. -/
def resettle (c : Chip) (now t : Nat) : Chip :=
  if c.split t then c else ((c.pump now t 70).digPump now t 70).sbDrain (3 * t)

end Chip

/-- The oldest record the sluice does not have yet. -/
def Lane.nextRec (l : Lane) : Option VRec := (l.sb.find? (fun e => !e.delivered)).map (·.item)

/-- The oldest such record is marked as delivered. -/
def markFirst : List SbEntry → List SbEntry
  | [] => []
  | e :: r => if e.delivered then e :: markFirst r else { e with delivered := true } :: r

namespace Chip

/-- A SPLIT core's record passes unvoted (R130); a pending abort is taken before its commit. -/
def passSplit (c : Chip) (now k : Nat) (v : VRec) : Chip :=
  match v with
  | .store r =>
    let c := c.updLane k (fun l => { l with sb := markFirst l.sb })
    (if r.seq < (c.port k).dropTo then c else c.sendStore now k r).sbDrain k
  | .commit r =>
    match (c.port k).tx.pendAbort with
    | some cause => c.abortTx k cause
    | none => ((c.updLane k (fun l => { l with sb := markFirst l.sb })).sbDrain k).commitVoted now k r

/-- A lane hands its oldest record to the sluice (R130, R133, R135). -/
def handRec (c : Chip) (now : Nat) (l : LaneId) (want : VRec → Bool) : Chip :=
  let k := laneKey l
  match (c.lane k).nextRec with
  | none => c
  | some v =>
    if !want v || c.off then c
    else if c.split l.t then (if c.tstate l.t = tSplit then c.passSplit now k v else c)
    else if c.live l.t && c.votes l.t l.i && decide (((c.triad l.t).recs.filter (fun e => e.1 == l.i.val)).length < 64) then
      ((c.updLane k (fun x => { x with sb := markFirst x.sb })).deliver now l.t l.i v).resettle now l.t
    else c

end Chip

/-- `STORE_RECORD` (R130, R132 to R135). -/
def execStoreRecord (l : LaneId) (s : State) : Out :=
  s.act (fun now c => c.handRec now l (fun v => match v with | .store _ => true | .commit _ => false))

/-- `COMMIT_RECORD` (R266, R134, R525). -/
def execCommitRecord (l : LaneId) (s : State) : Out :=
  s.act (fun now c => c.handRec now l (fun v => match v with | .store _ => false | .commit _ => true))

/-- `DIGEST_RECORD` (R136 to R139): a lane's oldest digest goes to the sluice; held while a debugger holds the triad
(R159). -/
def execDigestRecord (l : LaneId) (s : State) : Out :=
  s.act (fun now c =>
    let k := laneKey l
    match (c.lane k).digests with
    | [] => c
    | d :: r =>
      if !c.off && c.live l.t && c.votes l.t l.i && !c.gb (.CLU_TSTATE l.t) CLU_TSTATE.DBGHOLD then
        ((c.updLane k (fun x => { x with digests := r })).deliverDig now l.t l.i d).resettle now l.t
      else c)

/-! ### Stragglers and local errors -/

namespace Chip

/-- Step 4 of R58: the core is failed; a SPLIT core halts (R130). -/
def coreFailed (c : Chip) (now t i : Nat) : Chip :=
  let core := c.coreOf t i
  let c := (c.sf (.CLU_CSSTAT core) CLU_CSSTAT.FAILED 1).setStore core { (c.cstore core) with failed := true }
  let c := (c.updLane (3 * t + i) (fun l => { l with repairing := none })).triadContained now t 0x03
  if c.split t then
    (c.updLane (3 * t + i) (fun l => { l with halted := true, waiting := none })).triadContained now t 0x0F
  else (c.laneFailed now t i 5).resettle now t

/-- A word that fails parity, by any check, is recorded (R61). -/
def csNote (c : Chip) (core addr : Nat) : Chip := c.sf (.CLU_CSSTAT core) CLU_CSSTAT.LASTADDR addr

/-- Step 3 of R58: the word is restored. -/
def csRepaired (c : Chip) (core addr : Nat) : Chip :=
  let x := c.cstore core
  let c := c.setStore core { x with badWords := without x.badWords addr, wrongWords := without x.wrongWords addr }
  (c.inc (.CLU_CSSTAT core) CLU_CSSTAT.REPAIRS).bookInc (0x20C + 16 * core)

/-- An instruction is retried (R162). -/
def retryNote (c : Chip) (t i : Nat) : Chip :=
  (c.inc (.CLU_TCOUNT t) CLU_TCOUNT.RETRIES).bookInc (0x208 + 16 * c.coreOf t i)

/-- A retry is counted (R145). -/
def retried (c : Chip) (now t i : Nat) : Chip := (c.retryNote t i).triadCorrected now t 0x01

/-- A local error before an instruction retires (R58, R130, R145). -/
def localError (c : Chip) (now : Nat) (l : LaneId) (e : LocalError) : Chip :=
  let k := laneKey l
  let core := c.coreOf l.t l.i
  match e with
  | .l1 ic line =>
    (c.updLane k (fun x => x.setSel ic ((x.sel ic).drop line.toNat))).retried now l.t l.i
  | .registerFile false => c.retried now l.t l.i
  | .registerFile true =>
    let c := c.retried now l.t l.i
    if c.split l.t then
      (c.updLane k (fun x => { x with halted := true, waiting := none })).triadContained now l.t 0x0F
    else (c.minority now l.t l.i 5 (c.lane k).retired).resettle now l.t
  | .controlStore a false =>
    ((c.csNote core a.toNat).inc (.CLU_CSSTAT core) CLU_CSSTAT.RETRIES).retried now l.t l.i
  | .controlStore a true =>
    let c := c.csNote core a.toNat
    if c.gb (.DRM_CFG 0) DRM_CFG.PRESENT then
      let x := c.cstore core
      (c.setStore core { x with badWords := addNew x.badWords a.toNat }).updLane k (fun x => { x with repairing := some a.toNat })
    else c.coreFailed now l.t l.i

end Chip

/-- `STRAGGLER_TIMEOUT` (R141): 50 µs in which the lane has delivered nothing and owed what the others have delivered. -/
def execStragglerTimeout (l : LaneId) (s : State) : Out :=
  s.act (fun now c =>
    if !c.off && c.live l.t && c.votes l.t l.i && !c.gb (.CLU_TSTATE l.t) CLU_TSTATE.DBGHOLD && c.owes l.t l.i
        && decide ((c.triad l.t).lastRec.get 0 l.i + 50000 ≤ now) then
      (c.laneFailed now l.t l.i 4).resettle now l.t
    else c)

/-- `INSTRUCTION_RETRY` (R145, R58 steps 1 and 2). The pushes and loads a `CALLM` or `RETM` has done are the same when
they are done again, so its progress stays. -/
def execInstructionRetry (l : LaneId) (err : LocalError) (s : State) : Out :=
  s.act (fun now c => if c.laneFree l then c.localError now l err else c)

/-- `CONTROL_STORE_REPAIR_END` (R57, R58 steps 3 and 4, R59). -/
def execControlStoreRepairEnd (l : LaneId) (ok : Bool) (s : State) : Out :=
  s.act (fun now c =>
    let k := laneKey l
    match (c.lane k).repairing with
    | none => c
    | some a =>
      if ok then
        let c := c.updLane k (fun x => { x with repairing := none })
        ((c.csRepaired (c.coreOf l.t l.i) a).retryNote l.t l.i).triadCorrected now l.t 0x02
      else c.coreFailed now l.t l.i)

/-- `CONTROL_STORE_SCRUB` (R60): a word that fails parity is repaired in place from the DRAM copy. -/
def execControlStoreScrub (core : Fin 104) (addr : BitVec 13) (s : State) : Out :=
  s.act (fun now c =>
    let a := addr.toNat
    let cl := core.val / 13
    if !c.domainOn (1 + cl) || !(c.cstore core).badWords.contains a then c else
    let c := c.csNote core a
    let user := (List.range 12).find? (fun j => c.coreOf (4 * cl + j / 3) (j % 3) == core.val)
    if c.gb (.DRM_CFG 0) DRM_CFG.PRESENT then
      let c := c.csRepaired core a
      match user with
      | some j => c.triadCorrected now (4 * cl + j / 3) 0x02
      | none => c.corrected now cl
    else match user with
      | some j =>
        if c.split (4 * cl + j / 3) || c.votes (4 * cl + j / 3) (j % 3) then c.coreFailed now (4 * cl + j / 3) (j % 3) else c
      | none =>
        let c := (c.sf (.CLU_CSSTAT core) CLU_CSSTAT.FAILED 1).setStore core { (c.cstore core) with failed := true }
        let c := if core.val % 13 = 12 then c.sf (.CLU_SPARE cl) CLU_SPARE.STATE 2 else c
        c.contained now cl none none)

/-! ### Rebuild and restart -/

/-- `REBUILD_READMISSION` (R147 step 6): the readmission digest equals the checkpoint digest, or the lane fails. -/
def execRebuildReadmission (t : Fin 32) (ok : Bool) (s : State) : Out :=
  s.act (fun now c =>
    match (c.triad t).rebuild with
    | some r =>
      if c.tstate t = tRebuild ∧ r.ready ∧ r.compared then
        (if ok then c.readmit now t r else (c.laneFailed now t r.lane 2).resettle now t)
      else c
    | none => c)

/-- `SPARE_SWAP_END` (R149 steps 4 and 5): the spare's control store has been compared; it is readmitted once the
checkpoint is there. -/
def execSpareSwapEnd (t : Fin 32) (ok : Bool) (s : State) : Out :=
  s.act (fun now c =>
    match (c.triad t).rebuild with
    | some r =>
      if c.tstate t = tRebuild ∧ r.swap ∧ !r.compared then
        let r := { r with compared := true }
        if !ok then c.degrade now t r.lane
        else if r.ready then c.readmit now t r
        else c.updTriad t (fun x => { x with rebuild := some r })
      else c
    | none => c)

/-- `RESTART_DIGEST` (R152 step 4): `bad` holds the lanes whose restart digest differs. -/
def execRestartDigest (t : Fin 32) (bad : BitVec 3) (s : State) : Out :=
  s.act (fun now c =>
    if (c.triad t).restarting then c.restartDone now t ([0, 1, 2].filter (fun i => bad.getLsbD i)) else c)

/-- `RESTART_WINDOW_END` (R150). -/
def execRestartWindowEnd (t : Fin 32) (s : State) : Out :=
  s.act (fun now c =>
    let w := c.gf (.CLU_TCFG t) CLU_TCFG.RSTWIN
    if c.gb (.CLU_TSTATE t) CLU_TSTATE.RSTUSED && decide ((c.triad t).rstUsedAt + 1000000 * w ≤ now) then
      c.sf (.CLU_TSTATE t) CLU_TSTATE.RSTUSED 0
    else c)

namespace Chip

/-! ### Triad commands (R131, R153, R156, R163) -/

/-- A partition runs on a SPLIT triad (R163). -/
def splitRuns (c : Chip) (t : Nat) : Bool :=
  (c.partOf t).any (fun p => c.pstate p == 2 || c.pstate p == 3)

/-- `CLU_TCTL.RESET` (R131, R153, R163); `one` names a single SPLIT core. -/
def resetTriad (c : Chip) (now t : Nat) (one : Option Nat) : Chip :=
  let c0 := c.refuseTriad now t
  if c.covered t then c0 else
  match one with
  | some i =>
    if !c.split t || i == 3 || !c.splitRuns t then c0
    else (c.txDiscard (3 * t + i)).startCore t i true
  | none =>
    if c.split t then
      if !c.splitRuns t then c0 else
      let c := (c.setT t tSplit).updTriad t (fun x => { x with braked := false })
      let c := [0, 1, 2].foldl (fun c i => (c.txDiscard (3 * t + i)).startCore t i true) c
      if (c0.triad t).braked then c.fieldsBack t else c
    else if c.tstate t = tIdle ∨ c.tstate t = tUnavailable then c0
    else if (c.triad t).braked then (c.restartTriad t).fieldsBack t
    else c.restartTriad t

/-- `CLU_TCTL.REBUILD` (R163). -/
def rebuildCmd (c : Chip) (now t i : Nat) : Chip :=
  if c.tstate t ≠ tVoting ∨ i = 3 then c.refuseTriad now t else c.startRebuild t i true

/-- `CLU_TCTL.SLURUN` (R156). -/
def sluCmd (c : Chip) (t : Nat) : Chip := c.updTriad t (fun x => { x with sluReq := true })

/-- A write of `CLU_TCTL` (R162, R163). -/
def tctlWrite (c : Chip) (now t : Nat) (v : DWord) : Chip :=
  let lane := CLU_TCTL.LANE.get v
  let c := if v.getLsbD 0 then c.resetTriad now t (if v.getLsbD 4 then some lane else none) else c
  let c := if v.getLsbD 5 then c.rebuildCmd now t lane else c
  if v.getLsbD 1 then c.sluCmd t else c

/-- The agent may write `CLU_TCTL` and the cluster answers (R392, R487). -/
def tctlOk (c : Chip) (ag : Agent) (t : Nat) : Bool :=
  !c.off && c.mayWrite ag (.CLU_TCTL t) && c.domainOn (1 + t / 4)

end Chip

/-- `TRIAD_RESET` (R153, R131). -/
def execTriadReset (ag : Agent) (t : Fin 32) (s : State) : Out :=
  s.act (fun now c => if c.tctlOk ag t then c.resetTriad now t none else c)

/-- `SPLIT_CORE_RESET` (R131). -/
def execSplitCoreReset (ag : Agent) (t : Fin 32) (pos : BitVec 2) (s : State) : Out :=
  s.act (fun now c => if c.tctlOk ag t then c.resetTriad now t (some pos.toNat) else c)

/-- `TRIAD_REBUILD` (R163). -/
def execTriadRebuild (ag : Agent) (t : Fin 32) (pos : BitVec 2) (s : State) : Out :=
  s.act (fun now c => if c.tctlOk ag t then c.rebuildCmd now t pos.toNat else c)

/-- `SLURUN` (R156). -/
def execSlurun (ag : Agent) (t : Fin 32) (s : State) : Out :=
  s.act (fun _ c => if c.tctlOk ag t then c.sluCmd t else c)

/-- `SLUICE_TEST_PERIOD` (R156): a test falls due every SLUPER × 10 ms. -/
def execSluiceTestPeriod (t : Fin 32) (s : State) : Out :=
  s.act (fun now c =>
    let p := c.gf (.CLU_TCFG t) CLU_TCFG.SLUPER
    if !c.off && p != 0 && decide ((c.triad t).sluAt + 10000000 * p ≤ now) then
      c.updTriad t (fun x => { x with sluReq := true, sluAt := now })
    else c)

/-! ### Debug (R157 to R161) -/

namespace Chip

/-- A debugger reaches the triad (R157, R161): DBGEN, TRIAD mode, lane 0 not fenced. -/
def debugOk (c : Chip) (t : Nat) : Bool :=
  !c.off && c.gb (.CLU_TCFG t) CLU_TCFG.DBGEN && !c.split t &&
  (c.tstate t == tRestart || (c.live t && c.votes t 0))

/-- The triad is held and every voting lane has stopped at the held count. -/
def stopped (c : Chip) (t : Nat) : Bool :=
  c.debugOk t && match (c.triad t).holdAt with
    | some h => (c.voting t).all (fun i => (c.lane (3 * t + i)).retired == h)
    | none => false

/-- All lanes have halted at one count (R158, R159). -/
def debugHeld (c : Chip) (now t count : Nat) : Chip :=
  let first := !c.gb (.CLU_TSTATE t) CLU_TSTATE.DBGHOLD
  let c := c.updTriad t (fun x => { x with holdAt := some count, releasing := false })
  let c := (c.sf (.CLU_TSTATE t) CLU_TSTATE.DBGHOLD 1).sf (.CLU_TSTATE t) CLU_TSTATE.NOTSAFE 1
  if first then c.triadCorrected now t 0x0B else c

/-- A debugger's register write in one lane (R159); a control register as `CWR` at level M writes it (R66 to R71). -/
def debugSet (c : Chip) (t i : Nat) (r : DebugReg) (v : Word) : Chip :=
  let k := 3 * t + i
  let a := (c.lane k).arch
  let grant := c.granted (c.partOf t)
  let b := match r with
    | .g n => a.setG n v
    | .f n => a.setF n v
    | .pc => { a with pc := v &&& 0xFFFFFFFE }
    | .control n => cwrUpd 2 grant n.toNat v a
  let c := c.updLane k (fun l => { l with arch := b })
  if a.bargroup = b.bargroup then c else c.regroup k a.bargroup b.bargroup

end Chip

/-- `DEBUG_HALT` (R157, R158, R161): during a rebuild or restart the halt waits. -/
def execDebugHalt (t : Fin 32) (s : State) : Out :=
  s.act (fun _ c =>
    if !c.debugOk t then c
    else if c.tstate t = tVoting ∨ c.tstate t = tDegraded then c.want t .halt
    else c.updTriad t (fun x => { x with haltReq := true }))

/-- `DEBUG_SINGLE_STEP` (R158): each lane may run one instruction further. -/
def execDebugSingleStep (t : Fin 32) (s : State) : Out :=
  s.act (fun _ c => if c.stopped t then c.updTriad t (fun x => { x with holdAt := x.holdAt.map (· + 1) }) else c)

/-- `DEBUG_REGISTER_WRITE` (R159): replayed into the other lanes at the same count. -/
def execDebugRegisterWrite (t : Fin 32) (r : DebugReg) (v : BitVec 32) (s : State) : Out :=
  s.act (fun _ c => if c.stopped t then [0, 1, 2].foldl (fun c i => c.debugSet t i r v) c else c)

/-- `DEBUG_MEMORY_WRITE` (R159): one unvoted store record with DBG at 1; nothing at an unmapped address. -/
def execDebugMemoryWrite (t : Fin 32) (addr : BitVec 40) (be : BitVec 8) (v : BitVec 64) (s : State) : Out :=
  s.act (fun _ c =>
    let rg := c.region addr.toNat
    if c.stopped t && (rg.isMem || rg.isDev) then
      c.updPort (3 * t.val) (fun p => { p with outq := p.outq ++ [
        { seq := 0, data := v, addr := addr, be := be, dev := rg.isDev, dbg := true, bankAlias := Chip.aliasOf rg }] })
    else c)

/-- `DEBUG_RELEASE` (R160). -/
def execDebugRelease (t : Fin 32) (s : State) : Out :=
  s.act (fun _ c =>
    if c.gb (.CLU_TSTATE t) CLU_TSTATE.DBGHOLD && c.debugOk t then
      ((c.updTriad t (fun x => { x with holdAt := none, releasing := true })).sf (.CLU_TSTATE t) CLU_TSTATE.DBGHOLD 0).want t .digest
    else c)

end Sys2Proof.Machine
end

