-- ==== Sys2Proof/Machine/Rounds.lean ====
section
/-! DEFINITION. Events, delivery rounds, invalidations, the bin, the sweep, agreed-read requests and the cache control of a
triad (chapters 07 and 08; R242 to R248, R260). -/
namespace Sys2Proof.Machine

/-- The number of an event source (R167). -/
def eventNo : EventSrc → Nat
  | .fault s => 0x1010 + s
  | .timer k => 0x1000 + k
  | .queue q => q.toNat
  | .pps => 0x1031
  | .sweep => 0x1030
  | .host v => 0x1040 + v.toNat

namespace Chip

/-! ### Pending events (R165 step 1, R169) -/

/-- The requesters of a triad: itself, or its three SPLIT cores. -/
def keysOf (c : Chip) (t : Nat) : List Nat := if c.split t then [3 * t, 3 * t + 1, 3 * t + 2] else [3 * t]

/-- A timer that has reached DUE fires (R179, R434): DUE becomes 0 and the event is pending. On a standby the event comes
from the primary (R427). -/
def fireTimer (c : Chip) (now t k : Nat) : Chip :=
  let due := c.gf (.CLU_EVTIMER t k) CLU_EVTIMER.DUE
  if due ≠ 0 ∧ due ≤ c.timeNow now ∧ !c.following then
    (c.keysOf t).foldl (fun c key => c.pendEvent key (0x1000 + k)) (c.wr (.CLU_EVTIMER t k) 0)
  else c

/-- A completion posted on a queue (R168, R169). -/
def queueEvent (c : Chip) (q : Nat) : Chip :=
  let r := RegName.QUE_CFG q
  if c.gb r QUE_CFG.EVEN && !c.gb r QUE_CFG.HOST then
    c.pendEvent (c.portKey (c.gf r QUE_CFG.TRIAD) (c.gf r QUE_CFG.POS)) q
  else c

/-- The `PPS_IN` edge, at every triad that enables it (R169). -/
def ppsEvent (c : Chip) : Chip :=
  ((List.range 32).filter (fun t => c.gb (.CLU_EVCFG t) CLU_EVCFG.PPSEN)).foldl (fun c t =>
    (c.keysOf t).foldl (fun c key => c.pendEvent key 0x1031) c) c

/-- A source's event is enabled for a requester (R169, R408). -/
def eventArmed (c : Chip) (now key : Nat) : EventSrc → Bool
  | .fault s =>
    let p := (c.partOf (key / 3)).getD 0
    (c.noteKey p == key && c.attributed s p) || (!c.gb .PRT_MGR PRT_MGR.SITE && c.noteKey 0 == key && c.sticky s 1)
  | .timer k => let d := c.gf (.CLU_EVTIMER (key / 3) k) CLU_EVTIMER.DUE; d != 0 && decide (d ≤ c.timeNow now)
  | .queue q =>
    let r := RegName.QUE_CFG q.toNat
    c.gb r QUE_CFG.EVEN && !c.gb r QUE_CFG.HOST && c.portKey (c.gf r QUE_CFG.TRIAD) (c.gf r QUE_CFG.POS) == key
  | .pps => c.gb (.CLU_EVCFG (key / 3)) CLU_EVCFG.PPSEN
  | .sweep => c.gb (.CLU_EVCFG (key / 3)) CLU_EVCFG.SWEEPEN
  | .host v => (c.gf (.CLU_EVCFG (key / 3)) CLU_EVCFG.HOSTEN).testBit v.toNat

end Chip

/-- `EVENT_PENDING` (R165 step 1, R168, R169). -/
def execEventPending (l : LaneId) (src : EventSrc) (s : State) : Out :=
  s.act (fun now c =>
    let key := c.portKey l.t l.i
    if c.off || !c.eventArmed now key src then c
    else match src with
      | .timer k => c.fireTimer now l.t k
      | _ => c.pendEvent key (eventNo src))

/-- `TIMER_FIRE` (R179). -/
def execTimerFire (t : Fin 32) (k : Fin 4) (s : State) : Out :=
  s.act (fun now c => if c.off then c else c.fireTimer now t k)

namespace Chip

/-! ### Reports (R165 step 2, R524, R525) -/

/-- The instruction is a load with a delay slot (R73). -/
def delayed : Instr → Bool
  | .ldB .. | .ldH .. | .ldW .. | .ldBu .. | .ldHu .. | .ldF .. => true
  | _ => false

/-- The commit record of a lane at `TEND` has been voted (R525); while a snapshot is taken the lane reports the count before
`TEND` (R447). -/
def tendVoted (c : Chip) (t i : Nat) : Bool :=
  !c.gb .SYS_SNAP SYS_SNAP.BUSY && atTend (c.lane (3 * t + i)) && decide ((c.lane (3 * t + i)).storeSeq ≤ (c.triad t).fwdSeq)

/-- The lane is stalled until other lanes go on (R524): a full sluice queue or store buffer of undecided records, a full
bin, an agreed read that awaits a second lane, a full result buffer. -/
def stalled (c : Chip) (t i : Nat) : Bool :=
  let x := c.triad t
  let l := c.lane (3 * t + i)
  let undecided := x.recs.any (fun e => e.1 == i)
  (decide (8 ≤ l.sb.length) && undecided) ||
  (l.miss.isSome && decide (16 ≤ x.bin.length)) ||
  (l.areq.isSome && (if l.presented then x.areqs.any (fun e => e.1 == i) else decide (8 ≤ x.ares.length)))

/-- The lane waits where it can take an event (R164, R245): at a boundary, in `WAITEV`, in the sleep of `WAITTURN`, in
`BARWAIT` with its arrival recorded. -/
def atBoundaryNow (l : Lane) : Bool :=
  opportunity l && match l.waiting with
    | none => true
    | some (.waitev _) => true
    | some (.waitturn _ _) => l.sleepTill.isSome
    | some (.barwait _ g) => l.barIn.contains g.toNat
    | _ => false

/-- The count a lane reports, once it can (R165 step 2, R524, R525). -/
def reportCount (c : Chip) (t i : Nat) : Option Nat :=
  let l := c.lane (3 * t + i)
  if atTend l then some (l.retired + bit (c.tendVoted t i))
  else if atBoundaryNow l then some l.retired
  else match l.waiting with
    | some w => if c.stalled t i then some (l.retired + 1 + bit (delayed w)) else none
    | none => none

/-- Step 3 (R165, R167, R170, R172, R248): the count, the selection, the decisions and the invalidations. At a full log
nothing is delivered (R151); a standby decides only for itself (R427). -/
def fixRound (c : Chip) (t : Nat) (r : Round) : Chip :=
  let x := c.triad t
  let p := c.port (3 * t)
  let at1 (e : Nat × Nat) : Nat :=
    let l := c.lane (3 * t + e.1)
    if atTend l then l.retired + bit (c.tendVoted t e.1) else e.2
  let n := r.reports.foldl (fun m e => max m (at1 e)) 0
  let sel : Sel :=
    if c.gb (.CLU_TSTATE t) CLU_TSTATE.LOGFULL || c.following then .none
    else if !p.dwe.isEmpty && x.held != .dwe then .dwe
    else if x.held != .none then .none
    else match c.selectEvent p.pend with
      | some e => .event e
      | none => .none
  c.setTriad t { x with
    round := some { r with
      c := some n, sel := sel, decisions := x.wants, invs := if c.following then [] else x.invq
      invAll := x.invAll && !c.following }
    wants := [], invq := if c.following then x.invq else [], invAll := x.invAll && c.following }

end Chip

/-- `LANE_COUNT_REPORT` (R164, R165 steps 2 and 3, R524, R525). -/
def execLaneCountReport (l : LaneId) (s : State) : Out :=
  s.act (fun _ c =>
    match (c.triad l.t).round with
    | none => c
    | some r =>
      let i : Nat := l.i
      if c.off || !c.live l.t || !c.votes l.t l.i || r.c.isSome || r.reports.any (fun e => e.1 == i) then c else
      match c.reportCount l.t l.i with
      | none => c
      | some n =>
        let r := { r with reports := r.reports ++ [(i, n)] }
        let c := c.updTriad l.t (fun x => { x with round := some r })
        if (c.voting l.t).all (fun j => r.reports.any (fun e => e.1 == j)) then c.fixRound l.t r else c)

namespace Chip

/-! ### At the agreed count (R165 step 5, R166, R170) -/

/-- Applies `f` to every voting lane. -/
def eachVoting (c : Chip) (t : Nat) (f : Chip → Nat → Chip) : Chip :=
  (c.voting t).foldl (fun c i => f c (3 * t + i)) c

/-- A lane has reached the count and stands at a boundary. -/
def reached (c : Chip) (t n i : Nat) : Bool :=
  let l := c.lane (3 * t + i)
  l.retired == n && (atBoundaryNow l || atTend l)

/-- A lane counts one more item of the delivery log. -/
def noted (c : Chip) (k : Nat) : Chip := c.updLane k (fun l => { l with evNo := l.evNo + 1 })

/-- A lane asleep or in `WAITEV`. -/
def waiting (l : Lane) : Bool :=
  match l.waiting with
  | some (.waitev _) => true
  | some (.waitturn _ _) => l.sleepTill.isSome
  | _ => false

/-- The end of a wait at the agreed count (R101, R102): lanes in it retire, a lane that has not begun it will. -/
def endWaits (c : Chip) (t n : Nat) : Chip :=
  let c := c.logEvent t (2 ^ 35) n
  let sleeping := (c.voting t).filter (fun i => waiting (c.lane (3 * t + i)))
  let c := ((c.voting t).filter (fun i => !sleeping.contains i)).foldl (fun c i =>
    c.updLane (3 * t + i) (fun l => { l with replay := l.replay ++ [(2 ^ 35, n)] })) c
  sleeping.foldl (fun c i => (c.noted (3 * t + i)).finishWait (3 * t + i)) c

/-- A cache is switched off or on in every lane (R193). -/
def l1Switch (c : Chip) (t : Nat) (ic on : Bool) : Chip :=
  let f := if ic then CLU_L1CTL.IEN else CLU_L1CTL.DEN
  let a := if ic then CLU_L1CTL.IACT else CLU_L1CTL.DACT
  if c.gb (.CLU_L1CTL t) f != on then c
  else if on then c.sf (.CLU_L1CTL t) a 1
  else [0, 1, 2].foldl (fun c i => c.updLane (3 * t + i) (fun l => l.setSel ic (l.sel ic).dropAll))
    (c.sf (.CLU_L1CTL t) a 0)

/-- One decision of a round at count `n` (R170). -/
def decide1 (c : Chip) (now t n : Nat) (d : Decision) : Chip :=
  match d with
  | .txAbort =>
    let p := c.port (3 * t)
    match p.tx.pendAbort with
    | some cause =>
      if p.tx.voted then c
      else (c.logEvent t (2 ^ 33 + cause.toNat) n).eachVoting t (fun c k => (c.noted k).abortTx k cause)
    | none => c
  | .digest => (c.logEvent t (2 ^ 34) n).eachVoting t (fun c k => (c.noted k).digest k .forced)
  | .waitEnd =>
    if (c.voting t).any (fun i => waiting (c.lane (3 * t + i))) then c.endWaits t n else c
  | .barEnd g =>
    (c.logEvent t (2 ^ 36 + g) n).eachVoting t (fun c k =>
      (c.noted k).updLane k (fun l => { l with barDone := l.barDone ++ [g] }))
  | .halt => c.debugHeld now t n
  | .l1off ic => c.l1Switch t ic false
  | .l1on ic => c.l1Switch t ic true

/-- Takes the selected event or error at count `n`, or holds it (R165 step 5, R166, R248). -/
def takeSel (c : Chip) (t n : Nat) (sel : Sel) : Chip :=
  let l := c.lane (c.repLane (3 * t))
  match sel with
  | .none => c
  | .event e =>
    if deliverable l.arch then
      let c := (c.updPort (3 * t) (fun p => { p with pend := without p.pend e })).logEvent t e n
      (c.eachVoting t (fun c k => c.enter k (eventExc e) true false)).evNote t e n
    else c.updTriad t (fun x => { x with held := sel })
  | .dwe =>
    match (c.port (3 * t)).dwe with
    | w :: r =>
      if l.arch.st SR.EXL = 0 then
        let c := (c.updPort (3 * t) (fun p => { p with dwe := r })).logEvent t (2 ^ 32 + w.toNat) n
        c.eachVoting t (fun c k => c.enter k (dweExc w) true false)
      else c.updTriad t (fun x => { x with held := sel })
    | [] => c

/-- A round follows for what is still to be delivered or decided (R167, R172). -/
def nextRound (c : Chip) (t : Nat) : Chip :=
  let x := c.triad t
  let p := c.port (3 * t)
  if !x.wants.isEmpty || !x.invq.isEmpty || x.invAll || (!p.dwe.isEmpty && x.held != .dwe) ||
      (x.held == .none && !p.pend.isEmpty && !c.gb (.CLU_TSTATE t) CLU_TSTATE.LOGFULL)
  then c.openRound t else c

/-- Invalidations that the lanes apply at a count are told to the standby (R427). -/
def tellInv (c : Chip) (t n : Nat) (invs : List Nat) (all : Bool) : Chip :=
  let data := invs.filter (fun l => decide (l < invI))
  if all then c.leatSend (.inval t n []) else if data.isEmpty then c else c.leatSend (.inval t n data)

/-- Every voting lane stands at the count of the round: invalidations, decisions, then the selected event, which waits
until a `WAITEV` or `WAITTURN` that it ends has retired (R101). -/
def deliverRound (c : Chip) (now t n : Nat) (r : Round) : Chip :=
  let c := c.updTriad t (fun x => { x with round := none })
  let c := c.eachVoting t (fun c k => c.updLane k (fun l => l.applyInvs r.invs r.invAll))
  let c := c.tellInv t n r.invs r.invAll
  let c := (r.decisions.filter (· ≠ .waitEnd)).foldl (fun c d => c.decide1 now t n d) c
  let asleep := (c.voting t).any (fun i => waiting (c.lane (3 * t + i)))
  let c :=
    if asleep && (r.sel != .none || r.decisions.contains .waitEnd || !(c.port (3 * t)).pend.isEmpty) then
      (if r.sel = .none then c else c.updTriad t (fun x => { x with held := r.sel })).endWaits t n
    else c.takeSel t n r.sel
  c.nextRound t

end Chip

/-- Every voting lane stands at C (R165 steps 4 and 5). Where C lies in a load and its delay slot, the lanes go on to the
next opportunity (R164). -/
def Chip.countReached (c : Chip) (now t : Nat) : Chip :=
  match (c.triad t).round with
  | none => c
  | some r =>
    match r.c with
    | none => c
    | some n =>
      let lanes := (c.voting t).map (fun i => c.lane (3 * t + i))
      if c.off || !c.live t || lanes.isEmpty then c
      else if (c.voting t).all (c.reached t n) then c.deliverRound now t n r
      else if lanes.all (fun l => l.retired == n && l.waiting.isNone && !Chip.opportunity l) then
        c.updTriad t (fun x => { x with round := some { r with c := some (n + 1) } })
      else c

/-! ### Invalidations (R172, R183, R259) -/

/-- `EXTERNAL_INVALIDATION`: a store of another agent to a line reaches the triad (R172, R178, R259). -/
def execExternalInvalidation (t : Fin 32) (src : Option LaneId) (line : BitVec 34) (s : State) : Out :=
  s.act (fun _ c =>
    let from1 := src.map (fun l => c.portKey l.t l.i)
    if c.off then c
    else ((c.keysOf t).filter (fun k => from1 ≠ some k)).foldl (fun c k => c.snoop line.toNat k) c)

/-- `INVALIDATION_ROUND`: the round for queued invalidations (R172). -/
def execInvalidationRound (t : Fin 32) (s : State) : Out :=
  s.act (fun _ c =>
    let x := c.triad t
    if !c.off && (!x.invq.isEmpty || x.invAll) then c.openRound t else c)

namespace Chip

/-! ### Fills (R171, R173, R174, R186) -/

/-- The line of the instruction at `pc`, where a lane may fetch it and its cache lacks it. -/
def fetchMiss (c : Chip) (now k line : Nat) : Chip × Bool :=
  let l := c.lane k
  let p := (c.partOf (k / 3)).getD 0
  let va := l.arch.pc.toNat
  if l.waiting.isSome || !c.gb (.CLU_L1CTL (k / 3)) CLU_L1CTL.IACT || (l.icache.find line).isSome then (c, false) else
  match c.translate now p k va .fetch with
  | (c, .ok pa) => match c.place p pa va .fetch with
    | .ok (a, .dram _) => (c, lineOf a == line)
    | _ => (c, false)
  | (c, .exc _) => (c, false)

/-- A line enters a lane's instruction cache (R171). -/
def fillI (c : Chip) (now k line : Nat) : Chip :=
  let (c, d, bad) := c.readLine now line (c.partOf (k / 3))
  if bad.isEmpty then
    c.updLane k (fun l => match l.icache.install ⟨line, d, [], false⟩ with | some x => { l with icache := x } | none => l)
  else c

/-- A line read for a data miss of a lane, as its answer (R173, R186, R227); in a transaction it joins the read set. -/
def fetchFor (c : Chip) (now k line : Nat) : Chip × Fill :=
  let l := c.lane k
  let key := c.portKey (k / 3) (k % 3)
  let (c, d, bad) := c.readLine now line (c.partOf (k / 3))
  let c := if l.save.isSome && decide ((c.port key).tx.rset.length < 512) then c.joinRead key line else c
  (c, { line := line, count := l.retired, data := d, bad := bad })

/-- The answer to a lane's miss. -/
def giveFill (c : Chip) (k : Nat) (f : Fill) : Chip := c.updLane k (fun l => { l with fills := l.fills ++ [f] })

/-- Snapshots that no voting lane will ask for are released (R174). -/
def binSweep (c : Chip) (t : Nat) : Chip :=
  let may (b : Snap) (i : Nat) : Bool := !b.taken.contains i && decide ((c.lane (3 * t + i)).retired ≤ b.fill.count)
  c.updTriad t (fun x => { x with bin := x.bin.filter (fun b => (c.voting t).any (may b)) })

/-- The bin serves a miss (R173, R174). -/
def binServe (c : Chip) (now t i line : Nat) : Chip :=
  let k := 3 * t + i
  let c := c.binSweep t
  let x := c.triad t
  let n := (c.lane k).retired
  match x.bin.find? (fun b => b.fill.line == line && b.fill.count == n) with
  | some b =>
    let mark (y : Snap) : Snap := if y = b then { y with taken := addNew y.taken i } else y
    ((c.updTriad t (fun x => { x with bin := x.bin.map mark })).giveFill k b.fill).binSweep t
  | none =>
    if 16 ≤ x.bin.length then
      (if n = c.minRetired t then let (c, f) := c.fetchFor now k line; c.giveFill k f else c)
    else
      let (c, f) := c.fetchFor now k line
      let f := if c.following then f else { f with invs := x.invq, invAll := x.invAll }
      let c := c.tellInv t n f.invs f.invAll
      ((c.updTriad t (fun x => { x with bin := x.bin ++ [⟨f, [i]⟩] })).giveFill k f).binSweep t

/-- A lane's data miss on this line is unanswered. -/
def dataMiss (c : Chip) (k line : Nat) : Bool :=
  let l := c.lane k
  l.miss == some (false, line) && !l.fills.any (fun f => f.line == line && f.count == l.retired)

end Chip

/-- `BIN_FILL` (R171 to R174, R256): the line of a data miss, or of the instruction at `pc`, in TRIAD mode. -/
def execBinFill (l : LaneId) (line : BitVec 34) (s : State) : Out :=
  s.act (fun now c =>
    let k := laneKey l
    let n := line.toNat
    if c.split l.t || !c.laneFree l then c
    else if c.dataMiss k n then c.binServe now l.t l.i n
    else match c.fetchMiss now k n with
      | (c, true) => c.fillI now k n
      | (c, false) => c)

/-- `L1_FILL` (R178, R186): a fill of a SPLIT core. -/
def execL1Fill (l : LaneId) (icache : Bool) (line : BitVec 34) (s : State) : Out :=
  s.act (fun now c =>
    let k := laneKey l
    let n := line.toNat
    if !c.split l.t || !c.laneFree l then c
    else if icache then
      match c.fetchMiss now k n with
      | (c, true) => c.fillI now k n
      | (c, false) => c
    else if c.dataMiss k n then
      let (c, f) := c.fetchFor now k n
      c.giveFill k f
    else c)

namespace Chip

/-! ### Agreed-read requests (R176) -/

/-- A lane has presented the request it waits with. -/
def presentedBy (c : Chip) (now t i : Nat) (r : AReq) : Chip :=
  let c := c.updLane (3 * t + i) (fun l => { l with presented := true })
  c.delivered now t i (fun x => { x with nextRead := x.nextRead.set i (r.rseq + 1) })

/-- An agreed request goes to the port, or takes its result from the restart log (R152, R176). -/
def readAgreed (c : Chip) (now t : Nat) (r : AReq) : Chip :=
  let x := c.triad t
  match x.rlogLeft.find? (fun e => e.req.rseq == r.rseq) with
  | some e =>
    let c := c.setTriad t { x with rlogLeft := x.rlogLeft.filter (fun e => e.req.rseq != r.rseq) }
    if e.req = r then c.updTriad t (fun x => { x with ares := x.ares ++ [{ e with taken := [] }] })
    else c.noMajority now t r.rseq
  | none => c.setTriad t { x with aready := x.aready ++ [(r, now)] }

/-- A first vote on a read sequence number (R176 steps 2 and 4). -/
def voteRead (c : Chip) (now t i : Nat) (r : AReq) : Chip :=
  let c := c.updTriad t (fun x => { x with areqs := x.areqs ++ [(i, r)] })
  let here := (c.triad t).areqs.filter (fun e => e.2.rseq == r.rseq && c.votes t e.1)
  match decideVote (c.voting t).length here with
  | .wait => c
  | .none => c.noMajority now t r.rseq
  | .agree q minor =>
    let c := (c.updTriad t (fun x => { x with areqs := x.areqs.filter (fun e => e.2.rseq != r.rseq) })).readAgreed now t q
    match minor with
    | j :: _ => if c.live t then (c.minority now t j 8 r.rseq).resettle now t else c
    | [] => c

end Chip

/-- `AGREED_READ_REQUEST` (R176): a lane that is 8 results ahead stalls. -/
def execAgreedReadRequest (l : LaneId) (s : State) : Out :=
  s.act (fun now c =>
    let k := laneKey l
    match (c.lane k).areq with
    | none => c
    | some r =>
      let x := c.triad l.t
      if c.off || (c.lane k).presented || !c.live l.t || !c.votes l.t l.i then c else
      let known := x.ares.map (·.req) ++ x.aready.map (·.1)
      match known.find? (fun q => q.rseq == r.rseq) with
      | some q =>
        if q = r then c.presentedBy now l.t l.i r
        else (c.minority now l.t l.i 8 r.rseq).resettle now l.t
      | none =>
        if 8 ≤ x.ares.length then c
        else (c.presentedBy now l.t l.i r).voteRead now l.t l.i r)

namespace Chip

/-! ### The sweep (R189 to R191) -/

/-- The slot's register. -/
def sweepReg (sk : Nat) : RegName := .CLU_SWEEP (sk / 12) (sk % 12)

/-- An invalidation on its way to some lane of the triad (R190). -/
def invPending (c : Chip) (t : Nat) : Bool :=
  let x := c.triad t
  !x.invq.isEmpty || x.invAll || (match x.round with | some r => !r.invs.isEmpty || r.invAll | none => false)

/-- A request ends once its last line is done and, in TRIAD mode, its invalidations have been applied (R189 step 4). -/
def sweepFinish (c : Chip) (sk : Nat) : Chip :=
  let x := c.sweep sk
  let t := x.key / 3
  if c.gb (sweepReg sk) CLU_SWEEP.BUSY && x.left == 0 && (c.split t || !c.invPending t) then
    let c := c.sf (sweepReg sk) CLU_SWEEP.BUSY 0
    if c.gb (.CLU_EVCFG t) CLU_EVCFG.SWEEPEN then c.pendEvent x.key 0x1030 else c
  else c

/-- A sweep stops with its requester (R191). -/
def sweepStop (c : Chip) (sk : Nat) : Chip :=
  if c.gb (sweepReg sk) CLU_SWEEP.BUSY then
    ((c.sf (sweepReg sk) CLU_SWEEP.BUSY 0).sf (sweepReg sk) CLU_SWEEP.STOPPED 1).setSweep sk { c.sweep sk with left := 0, page := none }
  else c

/-- The physical line address of the current virtual page, or none where the page is skipped (R189 step 3). -/
def sweepPage (c : Chip) (now : Nat) (x : Sweep) : Chip × Option Nat :=
  let t := x.key / 3
  let p := (c.partOf t).getD 0
  let k := c.repLane x.key
  match c.walk now p k x.va .load (c.lane k).arch.pl with
  | (c, .exc _) => (c, none)
  | (c, .ok w) =>
    let pa := w.leaf.page * 4096 + x.va % 2 ^ pageBits w.leaf.lvl
    (c, (c.window p pa .load).map (fun a => a / 4096 * 4096))

/-- The visit of one line (R187, R190): a clean waits for the requester's stores to it. -/
def sweepVisit (c : Chip) (x : Sweep) (line : Nat) : Option Chip :=
  let t := x.key / 3
  let busy := (c.port x.key).outq.any (fun r => !r.dev && lineOf r.addr.toNat == line && decide (r.seq < x.upto)) ||
    (c.split t && (c.lane x.key).storing line)
  let ks := c.lanesOf x.key
  if x.op.getLsbD 0 && !x.icache && busy then none
  else if !x.op.getLsbD 1 then some c
  else if c.split t then some (c.updLane x.key (fun l => l.setSel x.icache ((l.sel x.icache).drop line)))
  else if ks.any (fun k => (((c.lane k).sel x.icache).find line).isSome) || (c.triad t).bin.any (fun b => b.fill.line == line)
  then some (c.enterInv t (if x.icache then Chip.invI + line else line))
  else some c

/-- `n` lines of a request are done. -/
def sweepDone (c : Chip) (sk n : Nat) (x : Sweep) (skip : Bool) : Chip :=
  let r := sweepReg sk
  let n := min n x.left
  let va := (x.va / 64 + n) * 64 % 2 ^ 32
  let c := c.setSweep sk { x with va := va, left := x.left - n, page := if va % 4096 = 0 then none else x.page }
  let c := c.sf r CLU_SWEEP.POS (c.gf r CLU_SWEEP.POS + n)
  (if skip then c.inc r CLU_SWEEP.SKIP else c).sweepFinish sk

/-- The next step of a request. -/
def sweepStep (c : Chip) (now sk : Nat) : Chip :=
  let x := c.sweep sk
  if x.left = 0 then c.sweepFinish sk else
  let (c, page) := match x.page with
    | some a => (c, some a)
    | none => c.sweepPage now x
  match page with
  | none => c.sweepDone sk (64 - x.va / 64 % 64) x true
  | some a =>
    let pa := a + x.va % 4096
    let x := { x with page := some a }
    match c.region pa with
    | .dram _ | .bank _ =>
      match c.sweepVisit x (lineOf pa) with
      | some c => c.sweepDone sk 1 x false
      | none => c.setSweep sk x
    | _ => c.sweepDone sk 1 x false

/-- The slot the cluster's sweep serves: the present one while it is busy, else the next busy one in turn (R189). -/
def sweepSlot (c : Chip) (cl : Nat) : Option Nat :=
  let cur := c.sweepAt.get 0 cl
  let order := (List.range 12).map (fun j => 12 * cl + (cur + j) % 12)
  order.find? (fun sk => c.gb (sweepReg sk) CLU_SWEEP.BUSY)

/-! ### Cache control (R193) -/

/-- Every retired store of a triad is at its target, and no sweep works on the cache. -/
def l1Quiet (c : Chip) (t : Nat) (ic : Bool) : Bool :=
  [0, 1, 2].all (fun i => (c.lane (3 * t + i)).sb.isEmpty) &&
  (c.keysOf t).all (fun k => (c.port k).outq.isEmpty && (c.port k).devOut.isEmpty) &&
  [0, 1, 2].all (fun i =>
    let sk := 12 * (t / 4) + 3 * (t % 4) + i
    !(c.gb (sweepReg sk) CLU_SWEEP.BUSY && (c.sweep sk).icache == ic))

/-- A cache whose enable bit differs from its state is switched, at an agreed count in TRIAD mode (R193). -/
def l1Pump1 (c : Chip) (t : Nat) (ic : Bool) : Chip :=
  let en := c.gb (.CLU_L1CTL t) (if ic then CLU_L1CTL.IEN else CLU_L1CTL.DEN)
  let act := c.gb (.CLU_L1CTL t) (if ic then CLU_L1CTL.IACT else CLU_L1CTL.DACT)
  if en = act then c
  else if !en && !c.l1Quiet t ic then c
  else if c.split t || !c.live t then c.l1Switch t ic en
  else c.want t (if en then .l1on ic else .l1off ic)

def l1Pump (c : Chip) (t : Nat) : Chip := (c.l1Pump1 t false).l1Pump1 t true

/-- A write of `CLU_L1CTL`: DEN and IEN (R193). -/
def l1ctlWrite (c : Chip) (t : Nat) (v : DWord) : Chip :=
  ((c.sf (.CLU_L1CTL t) CLU_L1CTL.DEN (bit (v.getLsbD 0))).sf (.CLU_L1CTL t) CLU_L1CTL.IEN (bit (v.getLsbD 1))).l1Pump t

end Chip

/-- `SWEEP_LINE` (R189, R190): the cluster's sweep visits the next line. -/
def execSweepLine (cl : Fin 8) (s : State) : Out :=
  s.act (fun now c =>
    if c.off || !c.domainOn (1 + cl) then c else
    match c.sweepSlot cl with
    | none => c
    | some sk =>
      let c := ({ c with sweepAt := c.sweepAt.set cl (sk % 12) }).sweepStep now sk
      let c := if c.gb (Chip.sweepReg sk) CLU_SWEEP.BUSY && (c.sweep sk).left != 0 then c
        else { c with sweepAt := c.sweepAt.set cl ((sk + 1) % 12) }
      c.l1Pump (4 * cl + sk % 12 / 3))

/-- `SPECULATIVE_WALK` (R203): a walk that meets a fault installs nothing. -/
def execSpeculativeWalk (l : LaneId) (fetch : Bool) (va : BitVec 32) (s : State) : Out :=
  s.act (fun now c =>
    let k := laneKey l
    let kd : Kind := if fetch then .fetch else .load
    if !c.laneFree l then c else
    match c.walk now ((c.partOf l.t).getD 0) k va.toNat kd (c.lane k).arch.pl with
    | (c, .ok w) => c.installWalk k kd w
    | (c, .exc _) => c)

/-- `CLU_L1CTL_WRITE` (R193). -/
def execCluL1ctlWrite (ag : Agent) (t : Fin 32) (v : BitVec 64) (s : State) : Out :=
  s.act (fun _ c =>
    if !c.off && c.mayWrite ag (.CLU_L1CTL t) && c.domainOn (1 + t / 4) then c.l1ctlWrite t v else c)

end Sys2Proof.Machine
end

