-- ==== Sys2Proof/Machine/Banks.lean ====
section
/-! DEFINITION. Bank ownership and handover, the bit aliases, scrubs and the DRAM fill (chapter 09). -/
namespace Sys2Proof.Machine
namespace Chip

/-- Addresses of a bank's normal alias. -/
def inBank (n a : Nat) : Bool := decide (bankBase + 0x80000 * n ≤ a) && decide (a < bankBase + 0x80000 * (n + 1))

/-- A line of a bank. -/
def lineInBank (n line : Nat) : Bool := inBank n (64 * line)

/-- The bank is owned by the host, also in its manager role (R212, R388). -/
def hostOwns (c : Chip) (n : Nat) : Bool :=
  let r := RegName.BNK_OWNER n
  !c.gb r BNK_OWNER.BUSY && (c.gf r BNK_OWNER.TYPE == 2 || (c.gb .PRT_MGR PRT_MGR.SITE && c.gf r BNK_OWNER.TYPE == 4))

/-- The bank is owned by the manager. -/
def mgrOwns (c : Chip) (n : Nat) : Bool :=
  !c.gb (.BNK_OWNER n) BNK_OWNER.BUSY && c.gf (.BNK_OWNER n) BNK_OWNER.TYPE == 4

/-- An agent reaches a bank (R212). -/
def agentOwns (c : Chip) (ag : Agent) (n : Nat) : Bool :=
  match ag with
  | .part p => c.owns n (some p.toNat)
  | .manager => if c.gb .PRT_MGR PRT_MGR.SITE then c.hostOwns n else c.owns n (some 0)
  | .host => c.hostOwns n
  | .miller => c.mgrOwns n

/-! ### Handover (R213, R214, R490) -/

/-- The triads of the outgoing owner of a bank. -/
def ownerTriads (c : Chip) (n : Nat) : List Nat :=
  let r := RegName.BNK_OWNER n
  if c.gf r BNK_OWNER.TYPE = 1 then c.triadsOf (c.gf r BNK_OWNER.PART)
  else if c.gf r BNK_OWNER.TYPE = 4 ∧ !c.gb .PRT_MGR PRT_MGR.SITE then c.triadsOf 0
  else []

/-- Step 3: open transactions of the outgoing owner that hold a line of the bank are aborted with `OWNERSHIP`. -/
def handoverAborts (c : Chip) (n : Nat) : Chip :=
  ((c.ownerTriads n).flatMap c.keysOf).foldl (fun c key =>
    let x := (c.port key).tx
    if (c.lanesOf key).any (fun k => c.txOpen k) && (x.rset.any (lineInBank n) || x.wset.any (fun w => lineInBank n w.line))
    then c.txConflict key 0x09 else c) c

/-- A write of `BNK_OWNER` is refused (R214, R490). -/
def handoverBad (c : Chip) (n : Nat) (v : DWord) : Bool :=
  let ty := BNK_OWNER.TYPE.get v
  let p := BNK_OWNER.PART.get v
  c.gb (.BNK_OWNER n) BNK_OWNER.BUSY || decide (5 ≤ ty) || (ty == 1 && c.pstate p == 0) ||
  (ty != 0 && (!c.domainOn (9 + n / 8) || c.domainBusy (9 + n / 8)))

/-- A write of `BNK_OWNER` starts a handover (R213 steps 1 to 3). -/
def handoverStart (c : Chip) (now n : Nat) (v : DWord) : Chip :=
  if c.handoverBad n v then c.corrected now 8 else
  let c := c.handoverAborts n
  let c := c.sf (.BNK_OWNER n) BNK_OWNER.BUSY 1
  { c with handovers := c.handovers.set n (BNK_OWNER.TYPE.get v, BNK_OWNER.PART.get v, v.getLsbD 17) }

/-- Zero fill with valid check bits (R211). -/
def zeroBank (c : Chip) (n : Nat) : Chip :=
  { c with mem := c.mem.dropKeys (inBank n), ecc := c.ecc.dropKeys (fun w => inBank n (8 * w)) }

/-- A store past the sluice has not reached the bank, or a store through an alias has no answer (step 2). -/
def bankStores (c : Chip) (n : Nat) : Bool :=
  c.ports.any (fun e => e.2.outq.any (fun r => inBank n (storageAddr r.addr.toNat)) ||
    e.2.devOut.any (fun d => inBank n (storageAddr d.addr.toNat)))

/-- Work on the bank that was accepted before the handover is not over: stores, or a voted commit that holds a line of it
(step 2). -/
def bankGated (c : Chip) (n : Nat) : Bool :=
  c.bankStores n || c.commits.any (fun m => m.stage != .done && m.stage != .aborted && m.wset.any (fun w => lineInBank n w.line))

/-- Steps 4 and 5 (R213). -/
def handoverDone (c : Chip) (n : Nat) : Chip :=
  match c.handovers.find? (fun e => e.1 == n) with
  | none => c
  | some (_, ty, p, clr) =>
    let r := RegName.BNK_OWNER n
    let c := if clr then c.zeroBank n else c
    let c := { c with handovers := c.handovers.erase n }
    ((c.sf r BNK_OWNER.TYPE ty).sf r BNK_OWNER.PART p).sf r BNK_OWNER.BUSY 0

/-! ### The bit aliases (R215, R216) -/

/-- A store through an alias: the bank reads, applies and writes back as one operation; false where the read is
uncorrectable and nothing is changed. -/
def aliasStore (c : Chip) (now a : Nat) (v : DWord) (src : Option Nat) : Chip × Bool :=
  let s := storageAddr a / 8 * 8
  let n := (s - bankBase) / 0x80000
  match c.readWord now s (c.bankParty n) with
  | (c, none) => (c, false)
  | (c, some d) =>
    let w := if a < clearBase then d ||| v else d &&& ~~~v
    ((c.storeWord s w).snoopAll (lineOf s) src, true)

end Chip

/-- `BANK_HANDOVER` (R213, R214, R490). -/
def execBankHandover (ag : Agent) (n : Fin 64) (v : BitVec 64) (s : State) : Out :=
  s.act (fun now c => if !c.off && c.mayWrite ag (.BNK_OWNER n) then c.handoverStart now n v else c)

/-- `BANK_HANDOVER_END` (R213 steps 4 and 5): after the publish of commits that hold a line of the bank. -/
def execBankHandoverEnd (n : Fin 64) (s : State) : Out :=
  s.act (fun _ c => if c.bankGated n then c else c.handoverDone n)

/-- A store through a bit alias by an agent that reaches the bank (R212, R215). -/
def Chip.aliasBy (c : Chip) (now : Nat) (ag : Agent) (addr : BitVec 40) (v : DWord) (set : Bool) : Chip :=
  let a := addr.toNat
  match c.region a, set with
  | .bitSet n, true | .bitClear n, false =>
    if !c.off && c.agentOwns ag n && c.domainOn (9 + n / 8) then (c.aliasStore now a v none).1 else c
  | _, _ => c

/-- `BIT_SET_ALIAS_STORE` (R215, R216). -/
def execBitSetAliasStore (ag : Agent) (addr : BitVec 40) (v : BitVec 64) (s : State) : Out :=
  s.act (fun now c => c.aliasBy now ag addr v true)

/-- `BIT_CLEAR_ALIAS_STORE` (R215, R216). -/
def execBitClearAliasStore (ag : Agent) (addr : BitVec 40) (v : BitVec 64) (s : State) : Out :=
  s.act (fun now c => c.aliasBy now ag addr v false)

/-! ### Scrubs and fills (R218, R221, R222) -/

/-- The scrub of a line: every word is read, corrected and reported (R225 to R227). -/
def Chip.scrubLine (c : Chip) (now a : Nat) : Chip :=
  (List.range 8).foldl (fun c i => (c.readWord now (a / 64 * 64 + 8 * i) none true).1) c

/-- `BANK_SCRUB` (R218): a line of a bank or of the journal store. -/
def execBankScrub (addr : BitVec 40) (s : State) : Out :=
  s.act (fun now c =>
    match c.region addr.toNat with
    | .bank n => if !c.off && c.domainOn (9 + n / 8) then c.scrubLine now addr.toNat else c
    | .journal => if c.off then c else c.scrubLine now addr.toNat
    | _ => c)

/-- The base of a DRAM port's range (R18). -/
def dramBase (port : Nat) : Nat := 0x800000000 * port

/-- `DRAM_REGION_FILL` (R221): the background fill of a region of a trained port. -/
def execDramRegionFill (port : Fin 2) (region : BitVec 15) (s : State) : Out :=
  s.act (fun _ c =>
    if !c.off && c.gb (.DRM_CFG port) DRM_CFG.TRAINED then c.fillRegion (dramBase port + 0x100000 * region.toNat) else c)

/-- `PATROL_SCRUB` (R222): an initialised line of a port; the last line of the capacity completes a pass. -/
def execPatrolScrub (port : Fin 2) (line : BitVec 29) (s : State) : Out :=
  s.act (fun now c =>
    let a := dramBase port + 64 * line.toNat
    let on := !c.off && c.gb (.DRM_CFG port) DRM_CFG.TRAINED && (port.val == 0 || c.domainOn 28)
    if on && decide (64 * line.toNat < c.dramSize port) then
      let c := if (c.filled.get [] port).contains (64 * line.toNat / 0x100000) then c.scrubLine now a else c
      if 64 * (line.toNat + 1) = c.dramSize port then c.inc (.DRM_SCRUB port) DRM_SCRUB.PASSES else c
    else c)

end Sys2Proof.Machine
end

