-- ==== Sys2Proof/Machine/Engine.lean ====
section
/-! DEFINITION. Memory accesses of the millrace, the hopper and the millstone on behalf of an owner (R212, R293), with the
written-page log (R398 to R400), and the accessors of queues, paths and egresses. -/
namespace Sys2Proof.Machine
namespace Chip

def que (c : Chip) (q : Nat) : Que := c.chan.ques.get {} q
def setQue (c : Chip) (q : Nat) (x : Que) : Chip := { c with chan := { c.chan with ques := c.chan.ques.set q x } }
def updQue (c : Chip) (q : Nat) (f : Que → Que) : Chip := c.setQue q (f (c.que q))
def pth (c : Chip) (n : Nat) : PathS := c.chan.paths.get {} n
def setPth (c : Chip) (n : Nat) (x : PathS) : Chip := { c with chan := { c.chan with paths := c.chan.paths.set n x } }
def updPth (c : Chip) (n : Nat) (f : PathS → PathS) : Chip := c.setPth n (f (c.pth n))
def eg (c : Chip) (ln : Nat) : Egress := c.chan.egress.get {} ln
def setEg (c : Chip) (ln : Nat) (x : Egress) : Chip := { c with chan := { c.chan with egress := c.chan.egress.set ln x } }
def updEg (c : Chip) (ln : Nat) (f : Egress → Egress) : Chip := c.setEg ln (f (c.eg ln))
def modChan (c : Chip) (f : Chan → Chan) : Chip := { c with chan := f c.chan }

/-- An arrival number. -/
def arrive (c : Chip) : Nat × Chip := (c.chan.arrivals, c.modChan (fun h => { h with arrivals := h.arrivals + 1 }))

/-! ### Owners -/

/-- The owner of a queue: a partition, or the host (none) (R285). -/
def queOwner (c : Chip) (q : Nat) : Option Nat :=
  if c.gb (.QUE_CFG q) QUE_CFG.HOST then none else some (c.gf (.QUE_CFG q) QUE_CFG.OWNER)

/-- The owner reaches a bank (R212). -/
def reaches (c : Chip) (o : Option Nat) (n : Nat) : Bool :=
  match o with
  | some p => c.owns n (some p)
  | none => c.hostOwns n

/-- The status with which an engine's access at one address ends: 0x00, 0x03 `ADDR_ERROR`, 0x04 `OWNER_ERROR` (R20, R212,
R290). -/
def addrStatus (c : Chip) (o : Option Nat) (a : Nat) : Nat :=
  match c.region a with
  | .dram _ => 0
  | .bank n => if c.reaches o n then 0 else 4
  | _ => 3

/-- The status of an access to `n` bytes from `a`: checked at its start and at every 512 KiB boundary inside it, which
is where regions and banks begin (R17, R19). -/
def rangeStatus (c : Chip) (o : Option Nat) (a n : Nat) : Nat :=
  if n = 0 then 0 else
  let pts := a :: ((List.range (n / 0x80000 + 1)).map (fun i => (a / 0x80000 + 1 + i) * 0x80000)).filter
    (fun b => decide (b < a + n))
  ((pts.map (c.addrStatus o)).find? (fun s => s != 0)).getD 0

/-- Octets read for an owner, or the status of the failure (R20, R212, R227). -/
def engRead (c : Chip) (now : Nat) (o : Option Nat) (a n : Nat) : Chip × Except Nat (List Byte) :=
  let st := c.rangeStatus o a n
  if st ≠ 0 then (c, .error st) else
  match c.readBytes now o a n with
  | (c, some l) => (c, .ok l)
  | (c, none) => (c, .error 5)

/-! ### The written-page log (R398 to R400) -/

/-- The buffer that takes the bit of a write that becomes visible now (R400 step 1). -/
def logBuf (c : Chip) (p : Nat) : Nat :=
  let act := c.gb (.PRT_LOGCTL p) PRT_LOGCTL.ACTIVE != c.gb (.PRT_LOGCTL p) PRT_LOGCTL.BUSY
  if act then 0x200 * c.gf (.PRT_LOGBUF1 p) PRT_LOGBUF1.ADDR else 0x200 * c.gf (.PRT_LOGBUF0 p) PRT_LOGBUF0.ADDR

/-- Sets the bit of one page (R398, R399). -/
def logPage (c : Chip) (now p page : Nat) : Chip :=
  let r := RegName.PRT_LOGCFG p
  let first := c.gf r PRT_LOGCFG.FIRST
  if page < first ∨ first + 2 ^ c.gf r PRT_LOGCFG.LOG2 ≤ page then c.sf (.PRT_LOGCTL p) PRT_LOGCTL.OUTSIDE 1 else
  let i := page - first
  let a := c.logBuf p + i / 8
  match c.readWord now a none with
  | (c, some d) =>
    ((c.storeWord (a / 8 * 8) (d ||| BitVec.ofNat 64 (2 ^ (8 * (a % 8) + i % 8)))).snoopAll (lineOf a) none)
  | (c, none) => c

/-- Logs the pages of a write on behalf of a partition (R398). -/
def logWrite (c : Chip) (now : Nat) (o : Option Nat) (a n : Nat) : Chip :=
  match o with
  | some p =>
    if c.gb (.PRT_LOGCFG p) PRT_LOGCFG.EN && n != 0 then
      (List.range ((a + n - 1) / 4096 + 1 - a / 4096)).foldl (fun c i => c.logPage now p (a / 4096 + i)) c
    else c
  | none => c

/-- Octets written for an owner; the range has been checked. -/
def engPut (c : Chip) (now : Nat) (o : Option Nat) (a : Nat) (l : List Byte) : Chip :=
  (c.logWrite now o a l.length).writeBytes now o l.length a l

/-- A line of the range is held by a commit from its step 2 to the end of its step 6 (R268): the write waits. -/
def rangeHeld (c : Chip) (a n : Nat) : Bool :=
  c.commits.any (fun m => m.cseq.isSome && m.stage != .done && m.stage != .aborted &&
    m.rset.any (fun line => decide (a / 64 ≤ line) && decide (64 * line < a + n)))

end Chip
end Sys2Proof.Machine
end

