-- ==== Sys2Proof/Machine/Wire.lean ====
section
/-! DEFINITION. Frames as the lanes send and accept them (R284, R300, R316 to R321, R325 to R333). -/
namespace Sys2Proof.Machine

/-! ### Field values -/

/-- Octet `i` of a string. -/
def oct (l : List Byte) (i : Nat) : Nat := (l.getD i 0).toNat

/-- `n` octets from `i`, most significant first. -/
def be (l : List Byte) (i n : Nat) : Nat := natBE ((l.drop i).take n)

/-! ### WCP headers (R300) -/

/-- A WCP header. -/
structure WHdr where
  ver : Nat
  typ : Nat
  flags : Nat
  path : Nat
  epoch : Nat
  len : Nat
  seq : Nat
  ack : Nat
  deriving DecidableEq, Repr

def WHdr.bytes (h : WHdr) : List Byte :=
  BitVec.ofNat 8 (16 * h.ver + h.typ) :: BitVec.ofNat 8 h.flags ::
    (bytesBE 2 h.path ++ bytesBE 2 h.epoch ++ bytesBE 2 h.len ++ bytesBE 4 h.seq ++ bytesBE 4 h.ack)

def whdr (l : List Byte) : WHdr :=
  ⟨oct l 0 / 16, oct l 0 % 16, oct l 1, be l 2 2, be l 4 2, be l 6 2, be l 8 4, be l 12 4⟩

/-- The nonce of a GCM path (R300). -/
def wcpNonce (hdr : List Byte) (dir : Bool) : List Byte :=
  (hdr.drop 2).take 10 ++ [BitVec.ofNat 8 (128 * bit dir + oct hdr 0 % 16), 0]

/-- Header, payload and tag of a frame under a security profile (R300): none, CMAC, GCM. -/
def wcpSeal (sec : Nat) (key : List Byte) (dir : Bool) (hdr payload : List Byte) : List Byte :=
  let rk := roundKeys key
  if sec = 1 then hdr ++ payload ++ cmac rk (hdr ++ payload)
  else if sec = 2 then
    let iv := wcpNonce hdr dir
    let ct := gcmText rk iv payload
    hdr ++ ct ++ gcmTag rk iv hdr ct
  else hdr ++ payload

/-- The payload of a received frame, none where its tag is false (R303). -/
def wcpOpen (sec : Nat) (key : List Byte) (dir : Bool) (f : List Byte) : Option (List Byte) :=
  let rk := roundKeys key
  let hdr := f.take 16
  let n := be f 6 2
  let body := (f.drop 16).take n
  let tag := (f.drop (16 + n)).take 16
  if sec = 1 then (if cmac rk (hdr ++ body) = tag then some body else none)
  else if sec = 2 then
    let iv := wcpNonce hdr dir
    if gcmTag rk iv hdr body = tag then some (gcmText rk iv body) else none
  else some body

/-! ### Ethernet, IPv4 and UDP (R318, R320, R321) -/

/-- The 16-bit one's complement sum of a string. -/
def sum16 (l : List Byte) : Nat :=
  let s := (chunks 2 l).foldl (fun a b => a + natBE (if b.length = 1 then b ++ [0] else b)) 0
  let s := s % 65536 + s / 65536
  s % 65536 + s / 65536

/-- An IPv4 header without options. -/
def ipHeader (dscp ttl len src dst : Nat) : List Byte :=
  let h (ck : Nat) : List Byte :=
    [0x45, BitVec.ofNat 8 (4 * dscp)] ++ bytesBE 2 len ++ [0, 0, 0x40, 0, BitVec.ofNat 8 ttl, 17] ++ bytesBE 2 ck ++
      bytesBE 4 src ++ bytesBE 4 dst
  h (0xFFFF - sum16 (h 0))

/-- The UDP checksum over pseudo-header and datagram; the datagram's checksum octets are 0. -/
def udpSum (src dst : Nat) (d : List Byte) : Nat :=
  let s := 0xFFFF - sum16 (bytesBE 4 src ++ bytesBE 4 dst ++ [0, 17] ++ bytesBE 2 d.length ++ d)
  if s = 0 then 0xFFFF else s

/-- A UDP datagram. -/
def udpDatagram (src dst sp dp : Nat) (payload : List Byte) : List Byte :=
  let h (ck : Nat) : List Byte := bytesBE 2 sp ++ bytesBE 2 dp ++ bytesBE 2 (payload.length + 8) ++ bytesBE 2 ck ++ payload
  h (udpSum src dst (h 0))

namespace Chip

/-- Fields of a path's match registers (R282). -/
def pAddr (c : Chip) (n : Nat) : Nat := c.gf (.CHN_PATHMATCH0 n) CHN_PATHMATCH0.ADDR
def pVlan (c : Chip) (n : Nat) : Bool := c.gb (.CHN_PATHMATCH0 n) CHN_PATHMATCH0.VLANEN
def pUdp (c : Chip) (n : Nat) : Bool := c.gb (.CHN_PATHMATCH1 n) CHN_PATHMATCH1.UDP
def pPort (c : Chip) (n : Nat) : Nat := c.gf (.CHN_PATHMATCH1 n) CHN_PATHMATCH1.TYPEPORT
def pPeer (c : Chip) (n : Nat) : Nat := c.gf (.CHN_PATHMATCH1 n) CHN_PATHMATCH1.PEER
def pLane (c : Chip) (n : Nat) : Nat := c.gf (.CHN_PATHCFG n) CHN_PATHCFG.LANE
def pWcp (c : Chip) (n : Nat) : Bool := c.gb (.CHN_PATHCFG n) CHN_PATHCFG.WCP
def pSec (c : Chip) (n : Nat) : Nat := c.gf (.CHN_PATHCFG n) CHN_PATHCFG.SEC
def pEn (c : Chip) (n : Nat) : Bool := c.gb (.CHN_PATHCFG n) CHN_PATHCFG.EN
def pOwner (c : Chip) (n : Nat) : Nat := c.gf (.CHN_PATHCFG n) CHN_PATHCFG.OWNER
def pCmp (c : Chip) (n : Nat) : Bool := c.gb (.CHN_PATHCFG n) CHN_PATHCFG.CMP

/-- The Ethernet frame of a path from destination address to the end of its padding, without FCS (R318, R320, R321). -/
def ethFrame (c : Chip) (n ln : Nat) (payload : List Byte) : List Byte :=
  let vlan : List Byte := if c.pVlan n then
      [0x81, 0x00] ++ bytesBE 2 (8192 * c.gf (.CHN_PATHMATCH0 n) CHN_PATHMATCH0.PCP + c.gf (.CHN_PATHMATCH0 n) CHN_PATHMATCH0.VID)
    else []
  let ip := c.gf (.LAN_IP ln) LAN_IP.ADDR
  let body := if c.pUdp n then
      let d := udpDatagram ip (c.pPeer n) (c.pPort n) (c.pPort n) payload
      [0x08, 0x00] ++ ipHeader (c.gf (.LAN_IP ln) LAN_IP.DSCP) (c.gf (.LAN_IP ln) LAN_IP.TTL) (d.length + 20) ip (c.pPeer n) ++ d
    else bytesBE 2 (if c.pWcp n then c.gf .CHN_WCPCFG CHN_WCPCFG.ETYPE else c.pPort n) ++ payload
  let f := bytesBE 6 (c.pAddr n) ++ bytesBE 6 (c.gf (.LAN_MAC ln) LAN_MAC.MAC) ++ vlan ++ body
  f ++ List.replicate (60 - f.length) 0

end Chip

/-- A frame with its FCS (R317). -/
def withFcs (f : List Byte) : List Byte := f ++ bytesLE 4 (crc32 f)

/-- What the lane reads of an Ethernet frame without FCS: source, VLAN identifier if tagged, EtherType, and the octets
after it; none for a second tag (R320). -/
structure EthView where
  src : Nat
  vid : Option Nat
  typ : Nat
  body : List Byte
  deriving DecidableEq, Repr

def ethView (f : List Byte) : Option EthView :=
  let t := be f 12 2
  if t = 0x8100 then
    let u := be f 16 2
    if u = 0x8100 ∨ u = 0x88A8 then none else some ⟨be f 6 6, some (be f 14 2 % 4096), u, f.drop 18⟩
  else some ⟨be f 6 6, none, t, f.drop 14⟩

/-- A UDP datagram in IPv4 as R321 accepts it: source address, destination port, payload. -/
structure UdpView where
  peer : Nat
  port : Nat
  payload : List Byte
  deriving DecidableEq, Repr

/-- The checks of R321 on receipt; `ip` is the lane's address. -/
def udpView (ip : Nat) (b : List Byte) : Option UdpView :=
  let len := be b 2 2
  let d := (b.drop 20).take (be b 24 2)
  let ck := be d 6 2
  let zeroed := d.take 6 ++ [0, 0] ++ d.drop 8
  let ok := oct b 0 == 0x45 && oct b 6 % 64 == 0 && oct b 7 == 0 && !(oct b 6).testBit 5 &&
    sum16 (b.take 20) == 0xFFFF && be b 16 4 == ip && oct b 9 == 17 && decide (28 ≤ len) && decide (len ≤ b.length) &&
    decide (8 ≤ be b 24 2) && decide (be b 24 2 + 20 ≤ len) &&
    (ck == 0 || udpSum (be b 12 4) ip zeroed == ck)
  if ok then some ⟨be b 12 4, be b 22 2, d.drop 8⟩ else none

/-- The octets of a PTP message in an Ethernet frame and its offset (R325): EtherType 0x88F7, or UDP port 319. -/
def ptpAt (f : List Byte) : Option Nat :=
  let o := if be f 12 2 = 0x8100 then 18 else 14
  let t := be f (o - 2) 2
  if t = 0x88F7 then some o
  else if t = 0x0800 ∧ oct f (o + 9) = 17 ∧ be f (o + 4 * (oct f o % 16) + 2) 2 = 319 then some (o + 4 * (oct f o % 16) + 8)
  else none

/-- The frame carries an event message: Sync, Delay_Req, Pdelay_Req, Pdelay_Resp (R325). -/
def ptpEvent (f : List Byte) : Option Nat := (ptpAt f).filter (fun o => oct f o % 16 < 4)

/-- Octets of a string replaced from `i`. -/
def patch (l : List Byte) (i : Nat) (v : List Byte) : List Byte := l.take i ++ v ++ l.drop (i + v.length)

/-- A one-step Sync with its originTimestamp written and its UDP checksum recomputed (R326). -/
def oneStep (f : List Byte) (o time : Nat) : List Byte :=
  let f := patch f (o + 34) (bytesBE 6 (time / 1000000000) ++ bytesBE 4 (time % 1000000000))
  let v := if be f 12 2 = 0x8100 then 18 else 14
  if be f (v - 2) 2 = 0x0800 then
    let u := v + 4 * (oct f v % 16)
    let d := (f.drop u).take (be f (u + 4) 2)
    patch f (u + 6) (bytesBE 2 (udpSum (be f (v + 12) 4) (be f (v + 16) 4) (patch d 6 [0, 0])))
  else f

/-- A one-step Sync: messageType 0 and twoStepFlag 0. -/
def isOneStep (f : List Byte) (o : Nat) : Bool := oct f o % 16 == 0 && !(oct f (o + 6)).testBit 1

/-! ### Field lanes -/

/-- The next valid CAN FD data length (R330); none above 64. -/
def canLen (n : Nat) : Option Nat := [0, 1, 2, 3, 4, 5, 6, 7, 8, 12, 16, 20, 24, 32, 48, 64].find? (fun v => n ≤ v)

/-- Octet stuffing of R328. -/
def stuff (l : List Byte) : List Byte :=
  l.flatMap (fun b => if b = 0x7E ∨ b = 0x7D then [0x7D, b ^^^ 0x20] else [b])

/-- An HDLC frame on the line: flags, address, fields, FCS (R331). -/
def hdlcFrame (addr : Byte) (fields : List Byte) : List Byte :=
  let b := addr :: fields
  [0x7E] ++ stuff (b ++ bytesLE 2 (crc16 b)) ++ [0x7E]

namespace Chip

/-- Mode of a field lane (R328). -/
def fldMode (c : Chip) (n : Nat) : Nat := c.gf (.FLD_CFG n) FLD_CFG.MODE

/-- The frame of a non-WCP path as its lane sends it, or none where its length exceeds the limit of R319, R328 or
R330. -/
def laneFrame (c : Chip) (n : Nat) (src : List Byte) : Option (List Byte) :=
  let ln := c.pLane n
  if ln < 0x40 then
    let room := c.gf (.LAN_CFG ln) LAN_CFG.MAXFRAME - 18 - 4 * bit (c.pVlan n) - 28 * bit (c.pUdp n)
    if src.length ≤ room then some (c.ethFrame n ln src) else none
  else if 0x80 ≤ ln then some src
  else
    let k := ln - 0x40
    if c.fldMode k = 0 then
      if 8 < src.length ∧ !c.gb (.FLD_CFG k) FLD_CFG.FDTX then none
      else (canLen src.length).map (fun m => src ++ List.replicate (m - src.length) 0)
    else if 2048 < src.length then none
    else if c.fldMode k = 1 then some (hdlcFrame (BitVec.ofNat 8 (c.pAddr n)) src)
    else some src

/-- The largest LENGTH of a WCP path (R319); for the lane of another device the default MAXFRAME counts. -/
def wcpMax (c : Chip) (n : Nat) : Nat :=
  (if c.pLane n < 0x40 then c.gf (.LAN_CFG (c.pLane n)) LAN_CFG.MAXFRAME else 1518) - 18 - 4 * bit (c.pVlan n) - 28 * bit (c.pUdp n) - 16 -
    16 * bit (c.pSec n != 0)

end Chip
end Sys2Proof.Machine
end

