-- ==== Sys2Proof/Machine/Millrace.lean ====
section
/-! DEFINITION. Queues, channel programs, completions and tags (R279 to R299). -/
namespace Sys2Proof.Machine

/-- The step statuses of R290. -/
def stAborted : Nat := 0x01
def stAbandoned : Nat := 0x02
def stAddr : Nat := 0x03
def stOwner : Nat := 0x04
def stTagFail : Nat := 0x06
def stFormat : Nat := 0x07
def stTimeout : Nat := 0x08
def stStep : Nat := 0x09
def stLimit : Nat := 0x0A
def stTruncated : Nat := 0x0B
def stRing : Nat := 0x0C
def stPath : Nat := 0x0D

/-- A step as read from memory (R293). -/
def decodeStep (l : List Byte) : PStep :=
  let w0 := natLE (l.take 8)
  ⟨w0 % 256, w0 / 2 ^ 48, w0.testBit 42, w0 / 2 ^ 32 % 1024, w0 / 2 ^ 20 % 16, w0 / 2 ^ 16 % 16, w0.testBit 8,
    natLE ((l.drop 8).take 8) % 2 ^ 40, natLE ((l.drop 16).take 8) % 2 ^ 32, natLE ((l.drop 24).take 8)⟩

/-- The step's PARAM bits [14:0] and its AUX, from the entry where AUXE is 1 (R293). -/
def PStep.opt (s : PStep) : Nat := s.param % 32768
def Prog.aux (p : Prog) : Nat := if p.cur.param.testBit 15 then p.aux0 else p.cur.aux

/-- OP is defined. -/
def PStep.known (s : PStep) : Bool := decide (1 ≤ s.op) && decide (s.op ≤ 11)

/-- The index of a step within its program (R289). -/
def Prog.stepNo (p : Prog) : Nat := (p.pc + 2 ^ 40 - p.base) % 2 ^ 40 / 32 % 256

/-- The buffer a selector 1 to 3 names (R293). -/
def Prog.buffer (p : Prog) (sel : Nat) : Option (Nat × Nat) :=
  if sel = 1 then some (p.cur.addr, p.cur.len)
  else if sel = 2 then some (p.buf0, p.len0)
  else if sel = 3 then some (p.buf1, p.len1)
  else none

namespace Chip

/-! ### Rings -/

def ringOf (c : Chip) (r : RegName) (f : Fld) : Nat := 2 ^ c.gf r f
def hrSize (c : Chip) (q : Nat) : Nat := c.ringOf (.QUE_HR q) QUE_HR.LOG2
def trSize (c : Chip) (q : Nat) : Nat := c.ringOf (.QUE_TR q) QUE_TR.LOG2
def hrBase (c : Chip) (q : Nat) : Nat := 64 * c.gf (.QUE_HR q) QUE_HR.BASE
def trBase (c : Chip) (q : Nat) : Nat := 32 * c.gf (.QUE_TR q) QUE_TR.BASE
def ctla (c : Chip) (q : Nat) : Nat := 128 * c.gf (.QUE_CTLA q) QUE_CTLA.BASE
def quePath (c : Chip) (q : Nat) : Nat := c.gf (.QUE_CFG q) QUE_CFG.PATH
def queClass (c : Chip) (q : Nat) : Nat := c.gf (.QUE_CFG q) QUE_CFG.CLASS
def queGen (c : Chip) (q : Nat) : Nat := c.gf (.QUE_GEN q) QUE_GEN.GEN
def queState (c : Chip) (q : Nat) : Nat := c.gf (.QUE_STAT q) QUE_STAT.STATE
def queEn (c : Chip) (q : Nat) : Bool := c.gb (.QUE_CFG q) QUE_CFG.EN

/-- The path of a step of queue `q` (R293). -/
def stepPath (c : Chip) (q : Nat) (s : PStep) : Nat := if s.qpath then c.quePath q else s.pathNo

/-- The processor that runs a queue. -/
def cpuOf (c : Chip) (q : Nat) : Option Nat := (c.chan.cpus.find? (fun e => e.2 == q)).map Prod.fst

/-- `QUE_STAT.STATE` in step with the queue (R285). -/
def syncQ (c : Chip) (q : Nat) : Chip :=
  if c.queState q = 5 ∨ !c.queEn q then c else
  let x := c.que q
  let st := if x.abort.isSome then 4 else if x.prog.isNone then 1 else if (c.cpuOf q).isSome then 2 else 3
  c.sf (.QUE_STAT q) QUE_STAT.STATE st

/-- Frees a queue's processor. -/
def freeCpu (c : Chip) (q : Nat) : Chip := c.modChan (fun h => { h with cpus := h.cpus.filter (fun e => e.2 != q) })

/-- Gives a queue a processor: the one it has, or the lowest-numbered free one (R279). -/
def grab (c : Chip) (q : Nat) : Option Chip :=
  match c.cpuOf q with
  | some _ => some c
  | none =>
    ((List.range 16).find? (fun k => !(c.chan.cpus.keys.contains k))).map (fun k =>
      (c.modChan (fun h => { h with cpus := h.cpus.set k q })).syncQ q)

/-- The completions of a queue that cannot be written are discarded and counted (R285). -/
def dropPosts (c : Chip) (q : Nat) : Chip :=
  let n := (c.que q).posts.length
  (c.updQue q (fun x => { x with posts := [] })).sf (.QUE_STAT q) QUE_STAT.ERRS
    (min (c.gf (.QUE_STAT q) QUE_STAT.ERRS + n) QUE_STAT.ERRS.max)

/-- A ring or the control area has become foreign: the queue stops (R285). -/
def stopQueue (c : Chip) (now q : Nat) : Chip :=
  if c.queState q = 5 then c else
  (c.sf (.QUE_STAT q) QUE_STAT.STATE 5).contained now 11 (c.queOwner q) none

/-- Writes line B of the control area (R286). -/
def lineB (c : Chip) (now q : Nat) : Chip :=
  let x := c.que q
  let a := c.ctla q + 64
  if c.rangeStatus (c.queOwner q) a 64 ≠ 0 then c.stopQueue now q
  else c.engPut now (c.queOwner q) a (bytesLE 8 x.hrhead ++ bytesLE 8 x.trtail ++ bytesLE 8 (c.queGen q))

/-- A 16-bit word of line A: DOORBELL at 0, TRHEAD at 8 (R286). -/
def lineA (c : Chip) (now q off : Nat) : Chip × Except Nat Nat :=
  match c.engRead now (c.queOwner q) (c.ctla q + off) 2 with
  | (c, .ok l) => (c, .ok (natLE l))
  | (c, .error e) => (c, .error e)

/-- A tailrace entry (R289). -/
def compBytes (c : Chip) (q : Nat) (m : Comp) : List Byte :=
  let phase := bit ((c.que q).trtail / c.trSize q % 2 == 0)
  let r := m.rep
  bytesLE 8 (phase + 2 ^ 16 * r.step + 2 ^ 24 * r.status + 2 ^ 32 * m.id + 2 ^ 48 * m.gen) ++
  bytesLE 8 (r.len + 2 ^ 32 * r.path) ++ bytesLE 8 r.time ++
  bytesLE 8 (r.seq + 2 ^ 40 * r.flags + 2 ^ 48 * r.epoch)

/-- Counts of a posted completion, and its event (R285, R168, R478). -/
def postCounts (c : Chip) (q : Nat) (m : Comp) : Chip :=
  let c := c.inc (.QUE_STAT q) QUE_STAT.DONE
  let c := if m.rep.status ≠ 0 then c.inc (.QUE_STAT q) QUE_STAT.ERRS else c
  if m.noEvent then c
  else if c.gb (.QUE_CFG q) QUE_CFG.HOST then
    (if c.gb (.QUE_CFG q) QUE_CFG.EVEN then c.modChan (fun h => { h with hev := addNew h.hev q }) else c)
  else c.queueEvent q

/-- Writes the completion at the tail and advances it (R281, R289). -/
def putComp (c : Chip) (now q : Nat) (m : Comp) : Chip :=
  let a := c.trBase q + 32 * ((c.que q).trtail % c.trSize q)
  let c := c.engPut now (c.queOwner q) a (c.compBytes q m)
  let c := c.updQue q (fun x => { x with trtail := (x.trtail + 1) % 65536 })
  (c.lineB now q).postCounts q m

/-- Takes the first waiting completion off a queue. -/
def shiftPost (c : Chip) (q : Nat) : Chip := c.updQue q (fun x => { x with posts := x.posts.drop 1 })

/-- The first waiting completion: posted, discarded as stale (R292), discarded where a ring is foreign (R285), or left
for want of room (R287). -/
def postOne (c : Chip) (now q : Nat) (m : Comp) : Chip :=
  if c.gb .SYS_SNAP SYS_SNAP.BUSY then c else
  if m.gen ≠ c.queGen q then (c.shiftPost q).inc (.QUE_GEN q) QUE_GEN.STALE else
  let o := c.queOwner q
  let a := c.trBase q + 32 * ((c.que q).trtail % c.trSize q)
  if c.rangeStatus o a 32 ≠ 0 ∨ c.rangeStatus o (c.ctla q) 128 ≠ 0 then
    let c := (c.stopQueue now q).dropPosts q
    c.updQue q (fun x => { x with prog := x.prog.map (fun p => { p with phase := .posting true }) }) else
  match c.lineA now q 8 with
  | (c, .error _) => c
  | (c, .ok h) =>
    if ((c.que q).trtail + 65536 - h) % 65536 < c.trSize q ∧ !c.rangeHeld a 32 then (c.shiftPost q).putComp now q m else c

/-- Posts waiting completions as far as there is room. -/
def postAll (c : Chip) (now q : Nat) : Nat → Chip
  | 0 => c
  | n + 1 =>
    match (c.que q).posts with
    | [] => c
    | m :: _ =>
      let c' := c.postOne now q m
      if (c'.que q).posts.length < (c.que q).posts.length then c'.postAll now q n else c'

/-- Adds a completion to those that wait to be written. -/
def post (c : Chip) (q : Nat) (m : Comp) : Chip := c.updQue q (fun x => { x with posts := x.posts ++ [m] })

/-! ### Counters of the arbiters (R384, R387) -/

/-- A grant of a counter set; a request that lost a decision ends a wait. -/
def arbGrant (c : Chip) (now set : Nat) (lost : Bool) (since : Nat) : Chip :=
  let c := c.inc (.ARB_GRANTS set) ARB_GRANTS.GRANTS
  if lost then c.sf (.ARB_LONG set) ARB_LONG.LONGEST
    (min (max (c.gf (.ARB_LONG set) ARB_LONG.LONGEST) (now - since)) ARB_LONG.LONGEST.max)
  else c

/-- A request of a counter set loses its first decision. -/
def arbLose (c : Chip) (set : Nat) : Chip := c.inc (.ARB_WAITS set) ARB_WAITS.WAITS

/-! ### Programs (R293 to R296) -/

def setProg (c : Chip) (q : Nat) (p : Prog) : Chip := c.updQue q (fun x => { x with prog := some p })

/-- The program has ended: the queue takes its next entry. -/
def endProg (c : Chip) (now q : Nat) : Chip :=
  ((c.updQue q (fun x => { x with prog := none, since := now, lost := false })).freeCpu q).syncQ q

/-- The current step parks and frees the processor (R279), which a program with staging to consume keeps (R295). -/
def park (c : Chip) (q : Nat) (p : Prog) (ph : Phase) : Chip :=
  let c := c.setProg q { p with phase := ph }
  (if p.stage.isSome then c else c.freeCpu q).syncQ q

/-- The program ends with a failure's completion (R296). -/
def endFail (c : Chip) (q : Nat) (p : Prog) (r : Rep) : Chip :=
  (c.park q { p with stage := none } (.posting true)).post q ⟨p.gen, p.id, r, false⟩

/-- Reads a step; the status where it cannot be run: unreadable, or a reserved OP (R290). -/
def fetchStep (c : Chip) (now q pc : Nat) : Chip × Except Nat PStep :=
  match c.engRead now (c.queOwner q) pc 32 with
  | (c, .error e) => (c, .error e)
  | (c, .ok l) => (c, .ok (decodeStep l))

/-- A failed step: a following JUMP with COND 2 is taken, otherwise the program ends (R296). `p` is the program at the
failed step. -/
def failAt (c : Chip) (now q : Nat) (p : Prog) (r : Rep) : Chip :=
  let pc := (p.pc + 32) % 2 ^ 40
  match c.fetchStep now q pc with
  | (c, .ok s) =>
    if s.op = 9 ∧ s.opt % 4 = 2 ∧ p.count < 256 then
      (c.setProg q { p with
        pc := pc, count := p.count + 1, cur := s, phase := .ready
        prevOk := false, last := some r, stage := none, rx := none, wcp := none }).syncQ q
    else c.endFail q p r
  | (c, .error _) => c.endFail q p r

/-- A step that has not been read. -/
def noStep : PStep := ⟨0, 0, false, 0, 0, 0, false, 0, 0, 0⟩

/-- The program goes on at a step (R296): `p` carries what the step before left. -/
def enterStep (c : Chip) (now q : Nat) (p : Prog) (pc : Nat) : Chip :=
  if 256 ≤ p.count then c.endFail q p { status := stLimit, step := p.stepNo, path := c.stepPath q p.cur } else
  let p := { p with pc := pc, count := p.count + 1, phase := .ready, rx := none, wcp := none }
  match c.fetchStep now q pc with
  | (c, .error e) =>
    let p := { p with cur := noStep, stage := none }
    c.failAt now q p { status := e, step := p.stepNo }
  | (c, .ok s) =>
    let p := { p with cur := s }
    if s.known then (c.setProg q p).syncQ q
    else c.failAt now q { p with stage := none } { status := stStep, step := p.stepNo, path := c.stepPath q s }

/-- The current step ends with its report; `stage` is what it left in staging (R295, R296). -/
def finish (c : Chip) (now q : Nat) (p : Prog) (r : Rep) (stage : Option Staged := none) : Chip :=
  let r := { r with step := p.stepNo, path := c.stepPath q p.cur }
  if r.status ≠ 0 then c.failAt now q { p with stage := none } r else
  let p := { p with prevOk := true, last := some r, stage := stage }
  if p.cur.last then c.endProg now q else c.enterStep now q p ((p.pc + 32) % 2 ^ 40)

/-- The current step fails with a status. -/
def failStep (c : Chip) (now q : Nat) (p : Prog) (st : Nat) : Chip := c.finish now q p { status := st }

/-- Posts what waits; once all is posted, a NOTIFY ends its step and an ended program leaves the queue. -/
def settleOnce (c : Chip) (now q : Nat) : Chip :=
  let c := c.postAll now q ((c.que q).posts.length)
  let x := c.que q
  if x.posts.isEmpty then
    match x.prog with
    | some p =>
      if p.phase = .posting true then c.endProg now q
      else if p.phase = .posting false then c.finish now q p {}
      else c
    | none => c
  else c

/-- Two rounds: a NOTIFY that ends may lead to a step that cannot be read, which posts once more. -/
def settleQ (c : Chip) (now q : Nat) : Chip := ((c.settleOnce now q).settleOnce now q).syncQ q

/-! ### Channel decisions in a pair (R427) -/

/-- A WAIT may end now: on a standby only as the primary decided, which the primary tells it. -/
def waitMay (c : Chip) (q : Nat) : Option Chip :=
  if c.following then
    (if c.pair.decs.contains (.waitEnd (BitVec.ofNat 12 q)) then
      some { c with pair := { c.pair with decs := c.pair.decs.erase (.waitEnd (BitVec.ofNat 12 q)) } } else none)
  else some (c.leatSend (.chndec (.waitEnd (BitVec.ofNat 12 q))))

/-! ### Tags (R298, R299) -/

/-- The class of a step's tag request: the path's CLASS (R309). -/
def pathClass (c : Chip) (n : Nat) : Nat := c.gf (.CHN_PATHCFG n) CHN_PATHCFG.CLASS

/-- A path can take a tag now (R298, R299). -/
def tagFree (c : Chip) (n : Nat) : Bool :=
  c.chan.safeWait.isEmpty && decide (c.gf (.CHN_PATHSTAT n) CHN_PATHSTAT.UNACK < c.gf (.CHN_PATHCFG n) CHN_PATHCFG.QUOTA) &&
  decide ((if c.pathClass n = 0 then 0 else c.gf .CHN_TAGS CHN_TAGS.RES0) < c.gf .CHN_TAGS CHN_TAGS.FREE)

def takeTag (c : Chip) (n : Nat) : Chip :=
  (c.sf .CHN_TAGS CHN_TAGS.FREE (c.gf .CHN_TAGS CHN_TAGS.FREE - 1)).sf (.CHN_PATHSTAT n) CHN_PATHSTAT.UNACK
    (c.gf (.CHN_PATHSTAT n) CHN_PATHSTAT.UNACK + 1)

/-- A WAIT of mode 2 on the path ends once the path holds no tag (R294). -/
def waitEnds (c : Chip) (now n : Nat) : Chip :=
  if c.gf (.CHN_PATHSTAT n) CHN_PATHSTAT.UNACK ≠ 0 then c else
  c.chan.ques.keys.foldl (fun c q =>
    match (c.que q).prog with
    | some p =>
      (match p.phase with
       | .wait 2 _ _ =>
         if c.stepPath q p.cur = n then
           (match c.waitMay q with | some c => (c.finish now q p {}).settleQ now q | none => c)
         else c
       | _ => c)
    | none => c) c

/-- A tag returns to the pool. -/
def dropTag (c : Chip) (now n : Nat) : Chip :=
  ((c.sf .CHN_TAGS CHN_TAGS.FREE (min (c.gf .CHN_TAGS CHN_TAGS.FREE + 1) 16384)).sf (.CHN_PATHSTAT n) CHN_PATHSTAT.UNACK
    (c.gf (.CHN_PATHSTAT n) CHN_PATHSTAT.UNACK - 1)).waitEnds now n

/-- Parks a step for a tag or store room; `tag` where a tag is what it lacks (R299, R314). -/
def parkTag (c : Chip) (q : Nat) (p : Prog) (tag : Bool) : Chip :=
  let c := if tag && !c.chan.tagQ.contains q then c.inc .CHN_STAT CHN_STAT.TAGWAITS else c
  (c.park q p .tag).modChan (fun h => { h with tagQ := addNew h.tagQ q })

/-- The step no longer waits for a tag. -/
def unparkTag (c : Chip) (q : Nat) : Chip := c.modChan (fun h => { h with tagQ := without h.tagQ q })

/-! ### The retransmission store (R299) -/

/-- Banks of the store. -/
def storeBanks (c : Chip) : Nat := ((List.range 64).filter (fun n => c.owns n none)).length

/-- 64-byte units in use. -/
def storeUsed (c : Chip) : Nat :=
  c.chan.ques.foldl (fun a e => a + (e.2.prog.map (·.resv)).getD 0)
    (c.chan.paths.foldl (fun a e => e.2.frames.foldl (fun a f => a + f.units) a) 0)

/-- Room for `n` units. -/
def storeRoom (c : Chip) (n : Nat) : Bool := decide (c.storeUsed + n ≤ c.storeBanks * 0x2000)

/-- 64-byte units of a WCP frame with a payload of `n` octets. -/
def frameUnits (c : Chip) (n len : Nat) : Nat := (len + 16 + 16 * bit (c.pSec n != 0) + 63) / 64

end Chip
end Sys2Proof.Machine
end

