-- ==== Sys2Proof/Machine/Egress.lean ====
section
/-! DEFINITION. The PTP clock, and the egress of SerDes and field lanes (R298, R308, R318, R322 to R335, R412, R414,
R430 to R432, R438). -/
namespace Sys2Proof.Machine
namespace Chip

/-! ### The PTP clock (R324) -/

/-- `TIM_PTPRATE.RATE`, signed. -/
def ptpRate (c : Chip) : Int := ((c.rd .TIM_PTPRATE).setWidth 32).toInt

/-- The clock with its 40 fraction bits at a time. -/
def ptpFull (c : Chip) (now : Nat) : Nat :=
  let p := c.chan.ptp
  ((p.val + (now - p.at_) * (2 ^ 40 + c.ptpRate).toNat)) % 2 ^ 104

/-- `TIM_PTP` at a time. -/
def ptpNow (c : Chip) (now : Nat) : Nat := c.ptpFull now / 2 ^ 40

/-- The data rate of a SerDes lane in Gbit/s (R316, R337). -/
def laneRate (c : Chip) (ln : Nat) : Nat :=
  match c.gf (.LAN_QCFG (ln / 4)) LAN_QCFG.RATE with
  | 3 => 25
  | 2 => 10
  | _ => 1

/-- The PTP timestamp of a moment `back` ns ago on a lane: `TIM_PTP` with an error within the accuracy of R325. -/
def ptpStamp (c : Chip) (now ln back : Nat) : Nat × Chip :=
  let (i, c) := c.draw
  let w := if c.laneRate ln = 1 then 16 else 4
  ((c.ptpNow (now - back) + 2 ^ 64 + (Config.freeValue i).toNat % (2 * w + 1) - w) % 2 ^ 64, c)

/-! ### What may leave a lane -/

/-- The lane number is that of a field lane. -/
def isField (ln : Nat) : Bool := decide (0x40 ≤ ln)

/-- A SerDes lane's link is up (R322). -/
def linkUp (c : Chip) (ln : Nat) : Bool :=
  c.gb (.LAN_CFG ln) LAN_CFG.EN && c.gb (.LAN_STAT ln) LAN_STAT.LINK && c.domainOn (20 + ln / 4)

/-- A field lane's pins follow its engine (R335, R336, R338). -/
def fieldLive (c : Chip) (ln : Nat) : Bool :=
  let k := ln - 0x40
  c.gb (.FLD_CFG k) FLD_CFG.EN && !c.gb (.FLD_STAT k) FLD_STAT.SAFE && c.domainOn 26 && !c.gb (.FLD_CTL k) FLD_CTL.LOOP

/-- All output of the lane is cut: idle under the device brake, or levels of R431 and R438. -/
def laneCut (c : Chip) (ln : Nat) : Bool :=
  c.muted || c.pair.cut || (if isField ln then !c.fieldLive ln else c.flt.idle)

/-- A frame of the path may still leave: the brakes of R412 and R414. -/
def frameAllowed (c : Chip) (f : EFrame) : Bool :=
  if c.flt.deviceBrake then !c.flt.idle && (f.kind == .safe || f.kind == .control)
  else if c.flt.partBrakes.contains (c.pOwner f.path) then f.kind != .first
  else true

/-- A frame may start now: acknowledged as R430 asks, not held by a role swap. -/
def frameReady (c : Chip) (f : EFrame) : Bool :=
  (!c.paired || decide (f.need ≤ c.pair.acked)) && !(c.pair.holdOut && f.kind == .first)

/-- A frame leaves or is discarded: a non-WCP tag returns (R298). -/
def frameGone (c : Chip) (now : Nat) (f : EFrame) : Chip := if f.tag then c.dropTag now f.path else c

/-- The frame that goes first of two: SAFE frames, then CLASS, PRIO, arrival (R309, R334, R335). -/
def frameFirst (a b : EFrame) : EFrame :=
  let k (f : EFrame) : Nat × Nat := (if f.kind = .safe then 0 else 1, f.cls)
  if (k a).1 < (k b).1 then a else if (k b).1 < (k a).1 then b
  else if a.cls < b.cls then a else if b.cls < a.cls then b
  else if a.prio > b.prio then a else if b.prio > a.prio then b
  else if a.arr ≤ b.arr then a else b

/-- The best of the frames that may start. -/
def nextFrame (c : Chip) (l : List EFrame) : Option EFrame :=
  (l.filter c.frameReady).foldl (fun b f => match b with | none => some f | some g => some (frameFirst g f)) none

/-- Discards the frames of an egress that a brake stops (R298). -/
def purge (c : Chip) (now ln : Nat) : Chip :=
  let x := c.eg ln
  let gone := x.queue.filter (fun f => !c.frameAllowed f)
  gone.foldl (fun c f => c.frameGone now f) (c.setEg ln { x with queue := x.queue.filter c.frameAllowed })

/-- A frame starts: on a SerDes lane its event message is timestamped and its FCS added (R318, R325, R326). -/
def launch (c : Chip) (now ln : Nat) (f : EFrame) : Chip :=
  let ev := if isField ln then none else ptpEvent f.bytes
  let (t, c) := if ev.isSome then c.ptpStamp now ln 0 else (0, c)
  let x := c.eg ln
  let b := if isField ln then f.bytes else
    withFcs (match ev with
      | some o => if isOneStep f.bytes o then oneStep f.bytes o t else f.bytes
      | none => f.bytes)
  let others := x.queue.filter (fun g => g.arr ≠ f.arr)
  let set := if isField ln then 280 + (ln - 0x40) else 260 + ln
  let c := c.arbGrant now set f.lost f.since
  let c := (others.filter (fun g => !g.lost)).foldl (fun c _ => c.arbLose set) c
  c.setEg ln { x with
    cur := some { f with bytes := b, ptp := BitVec.ofNat 64 t }, queue := others.map (fun g => { g with lost := true })
    de := isField ln }

/-- The lane starts its next frame if it can; `line` where an HDLC or half-duplex line has been idle long enough (R331,
R332). -/
def kickLine (c : Chip) (now ln : Nat) (line : Bool) : Chip :=
  let c := c.purge now ln
  let x := c.eg ln
  let k := ln - 0x40
  let free := if isField ln then
      c.fieldLive ln && c.gf (.FLD_STAT k) FLD_STAT.CANST != 2 && (line || c.fldMode k == 0 || (c.fldMode k == 2 && c.gb (.FLD_CFG k) FLD_CFG.FULLDUP))
    else c.linkUp ln && decide (x.pausedTill ≤ now)
  if x.cur.isSome || !free || c.muted || c.pair.cut then c else
  match c.nextFrame x.queue with
  | some f => c.launch now ln f
  | none => c

def kick (c : Chip) (now ln : Nat) : Chip := c.kickLine now ln false

/-! ### Output digests (R432) -/

/-- A frame handed over, or withheld on a standby, enters the path's digest; every 64th is told to the standby. -/
def outDigest (c : Chip) (n : Nat) (b : List Byte) : Chip :=
  let x := c.pth n
  let crc := BitVec.ofNat 64 (crc64Bytes x.outCrc.toNat b.length (natLE b))
  let x := { x with outCount := x.outCount + 1, outCrc := crc }
  let out := crc ^^^ BitVec.ofNat 64 crc64Init
  if c.standby then c.setPth n { x with outHist := x.outHist ++ [(x.outCount, out)] }
  else
    let c := c.setPth n x
    if x.outCount % 64 = 0 then c.leatSend (.odigest n x.outCount out) else c

/-- A standby compares the primary's digests of a path as far as its own frames have gone. -/
def digestSettle (c : Chip) (now n : Nat) : Chip :=
  let x := c.pth n
  let due := x.outWant.filter (fun e => decide (e.1 ≤ x.outCount))
  if !c.standby || due.isEmpty then c else
  let bad := due.any (fun e => x.outHist.any (fun h => h.1 == e.1 && h.2 != e.2))
  let last := (due.map Prod.fst).foldl max 0
  let c := c.setPth n { x with
    outWant := x.outWant.filter (fun e => decide (x.outCount < e.1)), outHist := x.outHist.filter (fun h => decide (last < h.1)) }
  if bad then c.desync now else c

/-! ### Handing over -/

/-- A frame of a remote path goes round the ring (R446), or is dropped while the exporter is unreachable. -/
def remoteOut (c : Chip) (now : Nat) (f : EFrame) : Chip :=
  let d := c.pLane f.path - 0x80
  if (c.gf .CAS_STAT CAS_STAT.REACH).testBit d then
    ({ c with leat := c.leat ++ [LeatMsg.remote d f.path f.bytes] }).frameGone now f
  else
    (if c.pWcp f.path then c else c.inc (.LAN_CNT 20) LAN_CNT.DOWNDROP).frameGone now f

/-- Hands a frame to the lane's egress (R294, R322, R335, R431). -/
def handOver (c : Chip) (now : Nat) (f : EFrame) : Chip :=
  let ln := c.pLane f.path
  let (a, c) := c.arrive
  let f := { f with arr := a, since := now, cls := c.pathClass f.path, prio := c.gf (.CHN_PATHCFG f.path) CHN_PATHCFG.PRIO }
  let c := if f.kind = .first ∨ f.kind = .safe then (c.outDigest f.path f.bytes).digestSettle now f.path else c
  if c.muted then c.frameGone now f
  else if 0x80 ≤ ln then c.remoteOut now f
  else if isField ln then
    (if c.fieldLive ln then (c.updEg ln (fun x => { x with queue := x.queue ++ [f] })).kick now ln else c.frameGone now f)
  else if c.linkUp ln then (c.updEg ln (fun x => { x with queue := x.queue ++ [f] })).kick now ln
  else (c.inc (.LAN_CNT ln) LAN_CNT.DOWNDROP).frameGone now f

/-- The timestamp entry of a sent event message other than a one-step Sync (R326). -/
def sentStamp (c : Chip) (ln : Nat) (f : EFrame) : Chip :=
  match ptpEvent f.bytes with
  | none => c
  | some o =>
    if isOneStep f.bytes o then c else
    c.updEg ln (fun x =>
      if 16 ≤ x.txts.length then { x with txLost := true }
      else
        let e := 2 ^ 63 + bit x.txLost * 2 ^ 62 + oct f.bytes o % 16 * 2 ^ 58 + be f.bytes (o + 30) 2 * 2 ^ 42 +
          f.ptp.toNat % 2 ^ 42
        { x with txts := x.txts ++ [BitVec.ofNat 64 e], txLost := false })

/-- CAN error confinement (ISO 11898-1): passive from a count of 128; bus-off stays. -/
def canState (c : Chip) (k : Nat) : Chip :=
  let r := RegName.FLD_STAT k
  if c.gf r FLD_STAT.CANST = 2 then c
  else c.sf r FLD_STAT.CANST (bit (decide (128 ≤ c.gf r FLD_STAT.TEC) || decide (128 ≤ c.gf r FLD_STAT.REC)))

/-- A CAN frame was sent: the transmit error count falls. -/
def canSent (c : Chip) (k : Nat) : Chip :=
  (c.sf (.FLD_STAT k) FLD_STAT.TEC (c.gf (.FLD_STAT k) FLD_STAT.TEC - 1)).canState k

/-- The frame on the wire is whole: repetitions follow, otherwise its tag returns (R298, R308). -/
def frameSent (c : Chip) (now ln : Nat) (f : EFrame) : Chip :=
  let c := if !isField ln then c.sentStamp ln f
    else if c.fldMode (ln - 0x40) = 0 then c.canSent (ln - 0x40) else c
  let c := c.updEg ln (fun x => { x with wire := f.bytes })
  if f.reps ≠ 0 then
    c.updEg ln (fun x => { x with queue := x.queue ++ [{ f with
      reps := f.reps - 1, tries := 0, since := now, lost := false, bytes := if isField ln then f.bytes else f.bytes.take (f.bytes.length - 4) }] })
  else c.frameGone now f

/-- A frame in transmission on a lane is cut off, and what is queued is discarded (R335, R438). -/
def cutLane (c : Chip) (now ln : Nat) : Chip :=
  let x := c.eg ln
  let all := (match x.cur with | some f => [f] | none => []) ++ x.queue
  all.foldl (fun c f => c.frameGone now f) (c.setEg ln { x with cur := none, queue := [], de := false })

/-- The transmission in progress ends (R298, R322). -/
def transmitEnd (c : Chip) (now ln : Nat) : Chip :=
  if c.laneCut ln then c.cutLane now ln else
  match (c.eg ln).cur with
  | none => c.kick now ln
  | some f =>
    let k := ln - 0x40
    let c := c.updEg ln (fun x => { x with
      cur := none, de := isField ln && c.fldMode k == 2 && c.gb (.FLD_CFG k) FLD_CFG.FULLDUP })
    let c := if isField ln || c.linkUp ln then c.frameSent now ln f
      else (c.inc (.LAN_CNT ln) LAN_CNT.DOWNDROP).frameGone now f
    c.kick now ln

end Chip

/-- `EGRESS_TRANSMIT_END` (R298). -/
def execEgressTransmitEnd (ln : BitVec 8) (s : State) : Out :=
  s.act (fun now c => if c.off then c else c.transmitEnd now ln.toNat)

end Sys2Proof.Machine
end

