-- ==== Sys2Proof/Machine/Wcp.lean ====
section
/-! DEFINITION. The Worlon channel protocol: epochs, sequence assignment, acknowledgement, retransmission, SYNC and SAFE
frames (R300 to R306, R413), and the delivery of received frames to RECV steps (R307, R326, R526). -/
namespace Sys2Proof.Machine
namespace Chip

/-! ### Fields -/

def txseq (c : Chip) (n : Nat) : Nat := c.gf (.CHN_PATHSEQ n) CHN_PATHSEQ.TXSEQ
def rxnext (c : Chip) (n : Nat) : Nat := c.gf (.CHN_PATHSEQ n) CHN_PATHSEQ.RXNEXT
def epoch (c : Chip) (n : Nat) : Nat := c.gf (.CHN_PATHSTAT n) CHN_PATHSTAT.EPOCH
def peerEpoch (c : Chip) (n : Nat) : Nat := c.gf (.CHN_PATHSTAT n) CHN_PATHSTAT.PEEREPOCH
def peerValid (c : Chip) (n : Nat) : Bool := c.gb (.CHN_PATHSTAT n) CHN_PATHSTAT.PEERVALID
def awaits (c : Chip) (n : Nat) : Bool := c.gb (.CHN_PATHSTAT n) CHN_PATHSTAT.AWAIT
def setRx (c : Chip) (n v : Nat) : Chip := c.sf (.CHN_PATHSEQ n) CHN_PATHSEQ.RXNEXT v
def setPeer (c : Chip) (n e : Nat) : Chip :=
  (c.sf (.CHN_PATHSTAT n) CHN_PATHSTAT.PEEREPOCH e).sf (.CHN_PATHSTAT n) CHN_PATHSTAT.PEERVALID 1

/-- `CHN_PATHCFG.RETX` in ns. -/
def retxNs (c : Chip) (n : Nat) : Nat := 10000 * c.gf (.CHN_PATHCFG n) CHN_PATHCFG.RETX

/-- The oldest unacknowledged data sequence number that has been assigned, or TXSEQ (R305). -/
def oldest (c : Chip) (n : Nat) : Nat := ((c.pth n).frames.head?.map (·.seq)).getD (c.txseq n)

/-- The path number a WCP header carries: global in a cascade's remote path (R300, R446). -/
def wirePath (c : Chip) (n : Nat) : Nat :=
  if 0x80 ≤ c.pLane n then 1024 * c.gf .CAS_CFG CAS_CFG.ID + n else n

/-- The path's key, where its slot serves the profile: MAC for SEC 1, ENC and DEC for SEC 2 (R349). -/
def pathKey (c : Chip) (n : Nat) : Option (List Byte) :=
  let s := c.gf (.CHN_PATHCFG n) CHN_PATHCFG.KEYSLOT
  let use := c.gf (.CPH_SLOT s) CPH_SLOT.USE
  let ok := c.gb (.CPH_SLOT s) CPH_SLOT.VALID && c.gb (.CPH_SLOT s) CPH_SLOT.ASSIGNED &&
    c.gf (.CPH_SLOT s) CPH_SLOT.OWNER == c.pOwner n && c.domainOn 17
  if c.pSec n = 0 then some []
  else if ok && (if c.pSec n = 1 then use.testBit 2 else use.testBit 0 && use.testBit 1) then some (c.chan.keys.get [] s)
  else none

def pathDir (c : Chip) (n : Nat) : Bool := c.gb (.CHN_PATHAUX n) CHN_PATHAUX.DIR

/-! ### Epochs (R305, R306) -/

/-- The epoch enters the journal store's control region (R305). -/
def epochNote (c : Chip) (n e : Nat) : Chip :=
  let a := journalBase + 0x400 + 2 * n
  let w := (c.jrd (a / 8 * 8)).toNat
  let sh := 8 * (a % 8)
  c.jwr (a / 8 * 8) (BitVec.ofNat 64 (mergeBytes 8 (3 * 2 ^ (a % 8)) w (e * 2 ^ sh)))

/-- The epoch the journal store holds for a path. -/
def epochKept (c : Chip) (n : Nat) : Nat :=
  let a := journalBase + 0x400 + 2 * n
  (c.jrd (a / 8 * 8)).toNat / 2 ^ (8 * (a % 8)) % 65536

/-- A frame handed to the lane of path `n`: the WCP frame in its carrier (R300). -/
def wcpOut (c : Chip) (now n : Nat) (b : List Byte) (k : FKind) (need : Nat := 0) (q : Option Nat := none) : Chip :=
  let ln := c.pLane n
  let f := if ln < 0x40 then c.ethFrame n ln b else b
  c.handOver now { path := n, cls := 0, prio := 0, arr := 0, bytes := f, q := q, kind := k, need := need }

/-- `raise` of R305 without its SYNC: false where the reservation does not allow it yet (R306). -/
def stepEpoch (c : Chip) (n : Nat) : Chip × Bool :=
  let e := (c.epoch n + 1) % 65536
  if serialBelow 16 (c.gf .CHN_WCPCFG CHN_WCPCFG.EHIGH) e then (c, false)
  else ((c.sf (.CHN_PATHSTAT n) CHN_PATHSTAT.EPOCH e).epochNote n e, true)

/-- The control counter's next value for an ACK or SYNC; its wrap raises the epoch without a SYNC (R301). -/
def takeCtl (c : Chip) (n : Nat) : Nat × Chip :=
  let v := (c.pth n).ctl
  let c := c.updPth n (fun x => { x with ctl := (v + 1) % 2 ^ 32 })
  if v = 2 ^ 32 - 1 then
    match c.stepEpoch n with
    | (c, true) => (v, c)
    | (c, false) => (v, c.updPth n (fun x => { x with rise := some (x.rise.getD false) }))
  else (v, c)

/-- A control frame, ACK or SYNC, sealed under the path's profile (R300); nothing is sent while an epoch rise waits. -/
def sendCtl (c : Chip) (now n typ flags : Nat) (payload : List Byte) (need : Nat := 0) : Chip :=
  if (c.pth n).rise.isSome then c else
  match c.pathKey n with
  | none => c
  | some key =>
    let e := c.epoch n
    let (v, c) := c.takeCtl n
    let h : WHdr := ⟨1, typ, flags, c.wirePath n, e, payload.length, v, c.rxnext n⟩
    c.wcpOut now n (wcpSeal (c.pSec n) key (c.pathDir n) h.bytes payload) .control need

/-- The ACK frame of a path (R304). -/
def sendAck (c : Chip) (now n : Nat) : Chip :=
  let c := c.updPth n (fun x => { x with ackFrom := none })
  c.sendCtl now n 2 0 [] (c.pair.acked + c.leat.length)

/-- A SYNC (R305): the next data sequence number, or the oldest unacknowledged one in an answer, and an epoch. -/
def sendSync (c : Chip) (now n : Nat) (answer : Option Nat) : Chip :=
  match answer with
  | none =>
    let c := c.updPth n (fun x => { x with syncAt := some now })
    c.sendCtl now n 4 0 (bytesBE 4 (c.txseq n) ++ bytesBE 2 (c.epoch n) ++ [0, 0])
  | some e => c.sendCtl now n 4 4 (bytesBE 4 (c.oldest n) ++ bytesBE 2 e ++ [0, 0])

/-- The exchange of R305 begins: AWAIT, and a SYNC. -/
def beginSync (c : Chip) (now n : Nat) : Chip := (c.sf (.CHN_PATHSTAT n) CHN_PATHSTAT.AWAIT 1).sendSync now n none

/-- The path's epoch rises by 1, with a SYNC where `sync`; a rise past the reservation waits (R305, R306). -/
def raiseEpoch (c : Chip) (now n : Nat) (sync : Bool) : Chip :=
  match c.stepEpoch n with
  | (c, true) => if sync then c.beginSync now n else c
  | (c, false) => c.updPth n (fun x => { x with rise := some (sync || x.rise.getD false) })

/-- Rises that waited for the reservation go on (R306). -/
def resumeRises (c : Chip) (now : Nat) : Chip :=
  c.chan.paths.keys.foldl (fun c n =>
    match (c.pth n).rise with
    | some sync => (c.updPth n (fun x => { x with rise := none })).raiseEpoch now n sync
    | none => c) c

/-- Some path's epoch is within 16 of the reservation, or waits for it (R306). -/
def resvLow (c : Chip) : Bool :=
  c.chan.paths.any (fun e => e.2.rise.isSome || (c.pEn e.1 && c.pWcp e.1 &&
    decide ((c.gf .CHN_WCPCFG CHN_WCPCFG.EHIGH + 65536 - c.epoch e.1) % 65536 ≤ 16)))

/-! ### Data frames (R301, R302) -/

/-- Assigns the path's next data sequence number; its wrap raises the epoch without a SYNC (R301). -/
def takeSeq (c : Chip) (now n : Nat) : Nat × Chip :=
  let v := c.txseq n
  let c := c.sf (.CHN_PATHSEQ n) CHN_PATHSEQ.TXSEQ ((v + 1) % 2 ^ 32)
  (v, if v = 2 ^ 32 - 1 then c.raiseEpoch now n false else c)

/-- The header of the path's next DATA or SAFE frame: its sequence number and octets; the frame, whose tag is held, enters
the store unsealed (R297 to R301). -/
def newFrame (c : Chip) (now n typ flags len : Nat) (q : Option Nat) : Nat × List Byte × Chip :=
  let e := c.epoch n
  let (v, c) := c.takeSeq now n
  let h : WHdr := ⟨1, typ, flags, c.wirePath n, e, len, v, c.rxnext n⟩
  let f : WFrame := { seq := v, bytes := [], q := q, units := c.frameUnits n len, epoch := e }
  (v, h.bytes, c.updPth n (fun x => { x with frames := x.frames ++ [f] }))

/-- The sealed octets of an unacknowledged frame. -/
def sealFrame (c : Chip) (n seq : Nat) (b : List Byte) : Chip :=
  c.updPth n (fun x => { x with frames := x.frames.map (fun f => if f.seq = seq then { f with bytes := b } else f) })

/-- The oldest unacknowledged frame's transmission starts the timer (R302). -/
def startTimer (c : Chip) (now n : Nat) : Chip :=
  c.updPth n (fun x => if x.timer.isSome then x else { x with timer := some now })

/-- A frame of the store goes to the egress for the first time (R294, R304): the ACK field of a DATA frame may be
the acknowledgement that was due. -/
def sendData (c : Chip) (now n seq : Nat) (k : FKind) (need : Nat) : Chip :=
  match (c.pth n).frames.find? (fun f => f.seq = seq) with
  | none => c
  | some f =>
    let c := c.updPth n (fun x => { x with
      frames := x.frames.map (fun g => if g.seq = seq then { g with sent := some now, q := none } else g)
      ackFrom := if oct f.bytes 0 % 16 = 1 ∧ be f.bytes 12 4 = c.rxnext n then none else x.ackFrom })
    (c.wcpOut now n f.bytes k need).startTimer now n

/-- Retransmits every unacknowledged frame that was sent, in sequence order, and restarts the timer (R302). -/
def resend (c : Chip) (now n : Nat) : Chip :=
  let l := (c.pth n).frames.filter (fun f => f.sent.isSome)
  if l.isEmpty || c.muted then c else
  let c := c.updPth n (fun x => { x with timer := some now })
  l.foldl (fun c f =>
    (c.inc (.CHN_PATHCNT n) CHN_PATHCNT.RETRANS).wcpOut now n f.bytes (if oct f.bytes 0 % 16 = 3 then .safe else .again)) c

/-- An acknowledgement value (R303 step 3): frames below it are released with their tags. -/
def ackFrames (c : Chip) (now n a : Nat) : Chip :=
  let tx := c.txseq n
  if !(serialBelow 32 a tx || a == tx) then c else
  let gone := (c.pth n).frames.filter (fun f => serialBelow 32 f.seq a)
  if gone.isEmpty then c else
  let c := c.updPth n (fun x =>
    let rest := x.frames.filter (fun f => !serialBelow 32 f.seq a)
    { x with frames := rest, expiries := 0, timer := if rest.any (fun f => f.sent.isSome) then some now else none })
  gone.foldl (fun c _ => c.dropTag now n) (c.sf (.CHN_PATHSTAT n) CHN_PATHSTAT.DOWN 0)

/-! ### SAFE frames (R413) -/

/-- Builds and sends the SAFE frame of a path; false where it waits for a tag or for the epoch. -/
def safeFrame (c : Chip) (now n : Nat) : Chip × Bool :=
  let len := c.gf (.CHN_PATHAUX n) CHN_PATHAUX.SAFELEN
  if (c.pth n).rise.isSome || c.gf .CHN_TAGS CHN_TAGS.FREE == 0 then (c, false) else
  match c.engRead now (some (c.pOwner n)) (64 * c.gf (.CHN_PATHAUX n) CHN_PATHAUX.SAFEADDR) len with
  | (c, .error _) => (c, true)
  | (c, .ok data) =>
    match c.pathKey n with
    | none => (c, true)
    | some key =>
      let (v, h, c) := (c.takeTag n).newFrame now n 3 0 len none
      ((c.sealFrame n v (wcpSeal (c.pSec n) key (c.pathDir n) h data)).sendData now n v .safe 0, true)

/-- The paths of a braked partition that send a SAFE frame. -/
def safePaths (c : Chip) (p : Nat) : List Nat :=
  (List.range 1024).filter (fun n => c.pEn n && c.pWcp n && c.pOwner n == p &&
    c.gf (.CHN_PATHAUX n) CHN_PATHAUX.SAFELEN != 0)

/-- Builds the SAFE frames that are due, and those that waited (R413). -/
def safeFlush (c : Chip) (now : Nat) : Chip :=
  if c.flt.safeDue.isEmpty && c.chan.safeWait.isEmpty then c else
  let due := c.chan.safeWait ++ c.flt.safeDue.flatMap c.safePaths
  let c := (c.modFlt (fun f => { f with safeDue := [] })).modChan (fun h => { h with safeWait := [] })
  due.foldl (fun c n =>
    match c.safeFrame now n with
    | (c, true) => c
    | (c, false) => c.modChan (fun h => { h with safeWait := h.safeWait ++ [n] })) c

/-! ### Delivery to RECV steps -/

/-- A RECV of queue `q` waits on path `n`. -/
def recvWaits (c : Chip) (n q : Nat) : Option Nat :=
  match (c.que q).prog with
  | some p => (match p.phase with
    | .recv since => if c.stepPath q p.cur = n then some since else none
    | _ => none)
  | none => none

/-- The RECV that takes a frame of the path (R526): most urgent CLASS, highest PRIO, longest wait. -/
def recvFor (c : Chip) (n : Nat) : Option Nat :=
  let key (q : Nat) : Nat := c.queClass q * 8 + (7 - c.gf (.QUE_CFG q) QUE_CFG.PRIO)
  let better (a b : Nat) : Bool :=
    decide (key a < key b) ||
    (key a == key b && decide ((c.recvWaits n a).getD 0 < (c.recvWaits n b).getD 0))
  (c.chan.ques.keys.filter (fun q => (c.recvWaits n q).isSome)).foldl
    (fun b q => match b with | none => some q | some r => if better q r then some q else some r) none

/-- The report of a received frame (R289, R333). -/
def rxRep (i : RxItem) (st len : Nat) : Rep :=
  { status := st, len := len, time := i.time, epoch := i.epoch, flags := i.flags, seq := i.seq }

/-- Writes octets to a buffer of a step, at most its length: the status and the count written (R290). -/
def writeBuf (c : Chip) (now q : Nat) (a n : Nat) (l : List Byte) : Chip × Nat × Nat :=
  let l' := l.take n
  let st := c.rangeStatus (c.queOwner q) a l'.length
  if st ≠ 0 then (c, st, 0)
  else (c.engPut now (c.queOwner q) a l', if l'.length < l.length then stTruncated else 0, l'.length)

/-- A RECV ends: its tag returns, and its step is finished. -/
def recvDone (c : Chip) (now q : Nat) (p : Prog) (r : Rep) : Chip :=
  let n := c.stepPath q p.cur
  ((c.finish now q p r).settleQ now q).dropTag now n

/-- A RECV takes a frame that needs no expansion: the octets, and the timestamp of an event message directly after
them (R326). -/
def recvWrite (c : Chip) (now q : Nat) (p : Prog) (i : RxItem) : Chip :=
  let stamp := match i.ptp with | some t => bytesLE 8 t.toNat | none => []
  let (a, n) := (p.buffer p.cur.dsel).getD (0, 0)
  let whole := decide (i.bytes.length + stamp.length ≤ n)
  let (c, st, len) := c.writeBuf now q a n (i.bytes ++ (if whole || decide (n ≤ i.bytes.length) then stamp else []))
  let st := if st = 0 && !whole then stTruncated else st
  c.recvDone now q p (rxRep i st len)

/-- The share of the millstone: the partition of a queue. -/
def quePart (c : Chip) (q : Nat) : Nat := c.gf (.QUE_CFG q) QUE_CFG.OWNER

/-- Delivers a frame to the waiting RECV (R303 step 7, R307); on a path with CMP it is expanded first (R367). False where
no RECV waits. -/
def deliverRx (c : Chip) (now n : Nat) (i : RxItem) : Chip × Bool :=
  match c.recvFor n with
  | none => (c.inc (.CHN_PATHCNT n) CHN_PATHCNT.NOBUF, false)
  | some q =>
    match (c.que q).prog with
    | none => (c, false)
    | some p =>
      if c.pCmp n then
        let j : Job := { q := some q, part := c.quePart q, cls := c.pathClass n, len := i.bytes.length, data := i.bytes, since := now }
        let c := c.setProg q { p with phase := .job, rx := some i }
        (c.modChan (fun h => { h with mjobs := h.mjobs ++ [j] }), true)
      else (c.recvWrite now q p i, true)

/-! ### Received WCP frames (R303 to R305) -/

/-- Step 1: the header check. -/
def hdrOk (c : Chip) (n : Nat) (f : List Byte) : Bool :=
  let h := whdr f
  decide (16 ≤ f.length) && h.ver == 1 && decide (1 ≤ h.typ) && decide (h.typ ≤ 4) && decide (h.flags < 8) &&
  (h.typ == 4 || !h.flags.testBit 2) && decide (16 + h.len + 16 * bit (c.pSec n != 0) ≤ f.length) &&
  (h.typ != 2 || h.len == 0) && (h.typ != 4 || h.len == 8)

/-- The acknowledgement is asked for: at once with ACKREQ, otherwise within ACKDLY (R304). -/
def oweAck (c : Chip) (now n : Nat) (h : WHdr) : Chip :=
  if h.flags.testBit 0 then c.sendAck now n
  else c.updPth n (fun x => { x with ackFrom := some (x.ackFrom.getD now) })

/-- Steps 5 to 7 for a DATA or SAFE frame. -/
def rxData (c : Chip) (now n time : Nat) (h : WHdr) (payload : List Byte) : Chip :=
  let rx := c.rxnext n
  if c.awaits n then c
  else if serialBelow 32 h.seq rx then (c.inc (.CHN_PATHCNT n) CHN_PATHCNT.DUPS).oweAck now n h
  else if h.seq ≠ rx then c
  else
    match c.deliverRx now n { bytes := payload, time := time, epoch := h.epoch, flags := h.flags, seq := h.seq } with
    | (c, true) => (c.setRx n ((rx + 1) % 2 ^ 32)).oweAck now n h
    | (c, false) => c

/-- The SYNC exchange of R305, steps 2 and 3. -/
def rxSync (c : Chip) (now n : Nat) (h : WHdr) (pl : List Byte) : Chip :=
  let seq := be pl 0 4
  let echo := be pl 4 2
  let pe := c.peerEpoch n
  if h.flags.testBit 2 then
    if c.awaits n && echo == c.epoch n then
      (((c.setRx n seq).setPeer n h.epoch).sf (.CHN_PATHSTAT n) CHN_PATHSTAT.AWAIT 0).updPth n
        (fun x => { x with syncAt := none })
    else c
  else if !c.peerValid n || serialBelow 16 pe h.epoch then
    ((((c.setRx n seq).setPeer n h.epoch).sendSync now n (some h.epoch))).resend now n
  else if h.epoch = pe then (c.sendSync now n (some h.epoch)).resend now n
  else c.inc (.CHN_PATHCNT n) CHN_PATHCNT.DUPS

/-- Steps 2 and 3, for every type but SYNC as regards the epoch. -/
def rxNote (c : Chip) (now n : Nat) (h : WHdr) : Chip :=
  let c := if h.typ ≠ 4 ∧ c.peerValid n ∧ serialBelow 16 (c.peerEpoch n) h.epoch then
      c.sf (.CHN_PATHSTAT n) CHN_PATHSTAT.PEEREPOCH h.epoch else c
  c.ackFrames now n h.ack

/-- A received WCP frame of a path (R303); `time` is its end. -/
def rxWcp (c : Chip) (now n time : Nat) (f : List Byte) : Chip :=
  if !c.hdrOk n f then c.inc .CHN_STAT CHN_STAT.NOMATCH else
  let h := whdr f
  match (c.pathKey n).bind (fun key => wcpOpen (c.pSec n) key (!c.pathDir n) f) with
  | none => (c.inc (.CHN_PATHCNT n) CHN_PATHCNT.TAGFAIL).corrected now 11
  | some pl =>
    let c := c.rxNote now n h
    if h.typ = 4 then c.rxSync now n h pl
    else if h.typ = 2 then c
    else c.rxData now n time h pl

/-- A command that handles a received frame of a type: the frame leaves the path's input queue if it is there. On a standby
the next data frame waits for the RECV that took it on the primary (R427). -/
def rxCommand (c : Chip) (now n typ : Nat) (f : List Byte) : Chip :=
  if c.off || !c.domainOn 19 || !c.pEn n || !c.pWcp n || (whdr f).typ != typ then c else
  let x := c.pth n
  let time := ((x.rxq.find? (fun e => e.1 == f)).map Prod.snd).getD now
  if c.following && (typ == 1 || typ == 3) && be f 8 4 == c.rxnext n && (c.recvFor n).isNone then c else
  (c.setPth n { x with rxq := x.rxq.eraseP (fun e => e.1 == f) }).rxWcp now n time f

/-! ### Timers (R302, R304, R305) -/

/-- The retransmission interval has passed (R302). -/
def retxDue (c : Chip) (now n : Nat) : Chip :=
  let x := c.pth n
  match x.timer with
  | none => c
  | some t =>
    if now < t + c.retxNs n ∨ c.muted ∨ x.rise.isSome then c else
    let c := c.setPth n { x with expiries := x.expiries + 1 }
    let c := if x.expiries + 1 = 8 then
        (c.sf (.CHN_PATHSTAT n) CHN_PATHSTAT.DOWN 1).contained now 11 (some (c.pOwner n)) none else c
    c.resend now n

/-- The acknowledgement delay has passed (R304). -/
def ackDue (c : Chip) (now n : Nat) : Chip :=
  match (c.pth n).ackFrom with
  | none => c
  | some t => if now < t + 1000 * c.gf .CHN_WCPCFG CHN_WCPCFG.ACKDLY ∨ c.muted then c else c.sendAck now n

/-- The SYNC is repeated every retransmission interval until it is answered (R305). -/
def syncDue (c : Chip) (now n : Nat) : Chip :=
  match (c.pth n).syncAt with
  | none => c
  | some t => if c.awaits n && decide (t + c.retxNs n ≤ now) && !c.muted then c.sendSync now n none else c

end Chip

/-- `DATA` (R303, R304, R367, R526). -/
def execData (n : BitVec 10) (f : List (BitVec 8)) (s : State) : Out := s.act (fun now c => c.rxCommand now n.toNat 1 f)

/-- `ACK` (R303, R302). -/
def execAck (n : BitVec 10) (f : List (BitVec 8)) (s : State) : Out := s.act (fun now c => c.rxCommand now n.toNat 2 f)

/-- `SAFE` (R303). -/
def execSafe (n : BitVec 10) (f : List (BitVec 8)) (s : State) : Out := s.act (fun now c => c.rxCommand now n.toNat 3 f)

/-- `SYNC` (R305). -/
def execSync (n : BitVec 10) (f : List (BitVec 8)) (s : State) : Out := s.act (fun now c => c.rxCommand now n.toNat 4 f)

/-- `RETRANSMISSION_TIMEOUT` (R302). -/
def execRetransmissionTimeout (n : BitVec 10) (s : State) : Out := s.act (fun now c => c.retxDue now n.toNat)

/-- `ACKDLY_EXPIRY` (R304). -/
def execAckdlyExpiry (n : BitVec 10) (s : State) : Out := s.act (fun now c => c.ackDue now n.toNat)

/-- `SYNC_REPEAT` (R305). -/
def execSyncRepeat (n : BitVec 10) (s : State) : Out := s.act (fun now c => c.syncDue now n.toNat)

end Sys2Proof.Machine
end

