-- ==== Sys2Proof/Machine/Steps.lean ====
section
/-! DEFINITION. Headrace entries, and the steps of channel programs other than cipher and compression jobs (R279,
R287, R288, R293 to R299). -/
namespace Sys2Proof.Machine
namespace Chip

/-! ### Doorbells and entries (R287, R288) -/

/-- The millrace can act for a queue. -/
def millOn (c : Chip) : Bool := !c.off && c.domainOn 19

/-- WAIT of mode 3 ends (R294). -/
def doorWait (c : Chip) (now q : Nat) : Chip :=
  match (c.que q).prog with
  | some p =>
    (match p.phase with
     | .wait 3 _ _ => (match c.waitMay q with | some c => (c.finish now q p {}).settleQ now q | none => c)
     | _ => c)
  | none => c

/-- A doorbell beyond the ring (R287). -/
def ringError (c : Chip) (now q : Nat) : Chip :=
  ((c.sf (.QUE_STAT q) QUE_STAT.STATE 5).post q ⟨c.queGen q, 0xFFFF, { status := stRing }, false⟩).settleQ now q

/-- The millrace reads the DOORBELL of a queue (R287). -/
def readDoorbell (c : Chip) (now q : Nat) : Chip :=
  if !c.millOn || !c.queEn q || c.queState q == 5 || c.gb .SYS_SNAP SYS_SNAP.BUSY then c else
  match c.lineA now q 0 with
  | (c, .error e) => if e = 5 then c else c.stopQueue now q
  | (c, .ok d) =>
    let x := c.que q
    if c.hrSize q < (d + 65536 - x.hrhead) % 65536 then c.ringError now q
    else if d = x.door then c
    else
      let since := if x.door = x.hrhead then now else x.since
      (c.setQue q { x with door := d, need := c.pair.acked + c.leat.length, since := since
                           lost := x.lost && x.door != x.hrhead }).doorWait now q

/-- A queue has an entry to take. -/
def hasWork (c : Chip) (q : Nat) : Bool :=
  let x := c.que q
  c.queEn q && c.queState q == 1 && x.prog.isNone && x.posts.isEmpty && x.abort.isNone && x.door != x.hrhead

/-- The queue that takes a processor next: CLASS, then PRIO, then round robin (R279). -/
def nextQueue (c : Chip) : Option Nat :=
  let key (q : Nat) : Nat × Nat := (c.queClass q * 8 + (7 - c.gf (.QUE_CFG q) QUE_CFG.PRIO), (c.que q).turn)
  let better (a b : Nat) : Bool :=
    decide ((key a).1 < (key b).1) || ((key a).1 == (key b).1 && decide ((key a).2 < (key b).2))
  (c.chan.ques.keys.filter c.hasWork).foldl
    (fun b q => match b with | none => some q | some r => if better q r then some q else some r) none

/-- An entry that cannot be read or has an undefined KIND ends with one completion (R288). -/
def badEntry (c : Chip) (now q id st : Nat) : Chip :=
  (c.post q ⟨c.queGen q, id, { status := st }, false⟩).settleQ now q

/-- The program of an entry starts (R288, R292). -/
def startEntry (c : Chip) (now cp q : Nat) (l : List Byte) : Chip :=
  let w (i : Nat) : Nat := natLE ((l.drop (8 * i)).take 8)
  let id := w 0 % 65536
  let kind := w 0 / 65536 % 256
  if kind ≠ 1 ∧ kind ≠ 2 then c.badEntry now q id stStep else
  let base := if kind = 1 then 32 * c.gf (.QUE_PROG q) QUE_PROG.BASE else w 1 % 2 ^ 40 / 32 * 32
  let p : Prog := {
    gen := c.queGen q, id := id, buf0 := w 2 % 2 ^ 40, len0 := w 3 % 2 ^ 32
    buf1 := w 4 % 2 ^ 40, len1 := w 5 % 2 ^ 32, aux0 := w 6, base := base, pc := base
    count := 0, cur := noStep, need := (c.que q).need }
  let c := c.modChan (fun h => { h with cpus := h.cpus.set cp q })
  (c.enterStep now q p base).settleQ now q

/-- The decision that gives a queue a processor is counted (R384). -/
def queueCounts (c : Chip) (now q : Nat) : Chip :=
  let x := c.que q
  let c := c.arbGrant now (256 + c.queClass q) x.lost x.since
  (c.chan.ques.keys.filter (fun k => k != q && c.hasWork k && !(c.que k).lost)).foldl
    (fun c k => (c.updQue k (fun y => { y with lost := true })).arbLose (256 + c.queClass k)) c

/-- A queue's oldest entry is taken (R279, R288). -/
def takeEntry (c : Chip) (now cp q : Nat) : Chip :=
  let c := c.queueCounts now q
  let x := c.que q
  let a := c.hrBase q + 64 * (x.hrhead % c.hrSize q)
  let (n, c) := c.arrive
  let (c, r) := c.engRead now (c.queOwner q) a 64
  let c := (c.setQue q { x with hrhead := (x.hrhead + 1) % 65536, turn := n + 1, since := now, lost := false }).lineB now q
  match r with
  | .ok l => c.startEntry now cp q l
  | .error e =>
    let c := if e = stOwner then c.stopQueue now q else c
    c.badEntry now q 0xFFFF e

/-! ### Running a step -/

/-- The step at which the primary stopped the program of an aborted queue, on a standby (R427). -/
def abortStep (c : Chip) (q : Nat) : Option Nat :=
  c.pair.decs.findSome? (fun d => match d with | .abortStop k s => if k.toNat = q then some s.toNat else none | _ => none)

/-- An abort keeps the queue's program from going on (R311); a standby follows the primary up to its step. -/
def stepBlocked (c : Chip) (q : Nat) (p : Prog) : Bool :=
  (c.que q).abort.isSome && !(c.following && (c.abortStep q).any (fun s => decide (p.stepNo < s)))

/-- The step a command names, if it is the queue's current one and has not started, on a processor (R279). -/
def stepCmd (c : Chip) (now q op : Nat) (f : Chip → Prog → Chip) : Chip :=
  match (c.que q).prog with
  | some p =>
    if c.millOn && p.phase == .ready && p.cur.op == op && !c.stepBlocked q p then
      (match c.grab q with
       | some c => (f c p).settleQ now q
       | none => c)
    else c
  | none => c

/-- The status with which a step on a path fails before it starts: not owned or disabled, or an abort of the path under
way (R293, R311). -/
def pathStatus (c : Chip) (q n : Nat) : Nat :=
  if c.pOwner n ≠ c.gf (.QUE_CFG q) QUE_CFG.OWNER ∨ !c.pEn n then stPath
  else if (c.pth n).abort then stAborted
  else 0

/-- The length of a step's source (R293, R295); none for a bad selector or staging that was not written. -/
def srcLen (p : Prog) : Option Nat :=
  if p.cur.ssel = 4 then p.stage.map (fun s => s.bytes.length) else (p.buffer p.cur.ssel).map Prod.snd

/-- A step's source. -/
def readSrc (c : Chip) (now q : Nat) (p : Prog) : Chip × Except Nat (List Byte) :=
  if p.cur.ssel = 4 then
    match p.stage with
    | some s => (c, .ok s.bytes)
    | none => (c, .error stStep)
  else
    match p.buffer p.cur.ssel with
    | some (a, n) => c.engRead now (c.queOwner q) a n
    | none => (c, .error stStep)

/-- On a standby, sequence numbers and tags are taken in the primary's order; the primary tells it (R427). -/
def seqTurn (c : Chip) (n q : Nat) : Option Chip :=
  let d : ChnDec := .sequence (BitVec.ofNat 10 n) (BitVec.ofNat 12 q)
  if c.following then
    let first := c.pair.decs.find? (fun e => match e with | .sequence m _ => m.toNat == n | _ => false)
    if first = some d then some { c with pair := { c.pair with decs := c.pair.decs.erase d } } else none
  else some (c.leatSend (.chndec d))

/-- The conditions under which a WCP frame of `len` octets may be assigned now: a status where it fails, true where it
must wait for a tag (R298, R299, R306, R319). -/
inductive Room where
  | fails (st : Nat)
  | waits (tag : Bool)
  | free

def wcpRoom (c : Chip) (n len : Nat) : Room :=
  if c.wcpMax n < len then .fails stStep
  else if c.storeBanks = 0 ∨ c.gf (.CHN_PATHCFG n) CHN_PATHCFG.QUOTA = 0 then .fails stPath
  else if (c.pth n).rise.isSome then .waits false
  else if !c.tagFree n then .waits true
  else if !c.storeRoom (c.frameUnits n len) then .waits false
  else .free

/-! ### SEND (R294, R297, R308) -/

/-- A SEND of the sealed frame of the SEAL before it. -/
def sendSealed (c : Chip) (now q n : Nat) (p : Prog) : Chip :=
  match p.stage with
  | some s =>
    if p.cur.ssel ≠ 4 ∨ s.op ≠ 4 ∨ s.path ≠ n then c.failStep now q p stStep else
    (match s.seq with
     | none => c.failStep now q p stStep
     | some v =>
       (match (c.pth n).frames.find? (fun f => f.seq = v) with
        | none => c.failStep now q p stAborted
        | some f =>
          (c.sendData now n v .first p.need).finish now q p
            { len := be f.bytes 6 2, time := now, epoch := f.epoch, seq := v }))
  | none => c.failStep now q p stStep

/-- A SEND on a WCP path without security builds the header itself. -/
def sendPlain (c : Chip) (now q n : Nat) (p : Prog) : Chip :=
  if c.pCmp n && !(p.cur.ssel == 4 && p.stage.any (fun s => s.op == 6)) then c.failStep now q p stStep else
  match srcLen p with
  | none => c.failStep now q p stStep
  | some len =>
    match c.wcpRoom n len, c.seqTurn n q with
    | .fails st, _ => c.failStep now q p st
    | .waits tag, _ => c.parkTag q p tag
    | .free, none => c.parkTag q p false
    | .free, some c =>
      match c.readSrc now q p with
      | (c, .error st) => c.failStep now q p st
      | (c, .ok data) =>
        let (v, h, c) := (c.takeTag n).newFrame now n 1 (2 * bit (c.pCmp n)) len (some q)
        ((c.sealFrame n v (h ++ data)).sendData now n v .first p.need).finish now q p
          { len := len, time := now, epoch := be h 4 2, seq := v }

/-- SEQ in the completion of a SEND on a non-WCP path: on CAN FD the identifier with IDE in bit 29, else 0 (R289). -/
def rawSeq (c : Chip) (n : Nat) : Nat :=
  if isField (c.pLane n) && c.fldMode (c.pLane n - 0x40) == 0 then c.pAddr n % 2 ^ 30 else 0

/-- A SEND on a non-WCP path: 1 + REPEAT transmissions. -/
def sendRaw (c : Chip) (now q n : Nat) (p : Prog) : Chip :=
  if c.gf (.CHN_PATHCFG n) CHN_PATHCFG.QUOTA = 0 then c.failStep now q p stPath else
  match srcLen p with
  | none => c.failStep now q p stStep
  | some len =>
    if 16384 < len then c.failStep now q p stStep else
    match c.readSrc now q p with
    | (c, .error st) => c.failStep now q p st
    | (c, .ok data) =>
      match c.laneFrame n data with
      | none => c.failStep now q p stStep
      | some b =>
        if !c.tagFree n then c.parkTag q p true else
        let c := (c.takeTag n).handOver now { path := n, cls := 0, prio := 0, arr := 0, bytes := b, q := some q
                                              tag := true, reps := p.cur.opt % 16, need := p.need }
        c.finish now q p { len := len, time := now, seq := c.rawSeq n }

/-- The SEND step; under a partition brake it parks (R412). -/
def sendStep (c : Chip) (now q : Nat) (p : Prog) : Chip :=
  let n := c.stepPath q p.cur
  let st := c.pathStatus q n
  if p.cur.dsel ≠ 0 then c.failStep now q p stStep
  else if st ≠ 0 then c.failStep now q p st
  else if c.flt.partBrakes.contains (c.pOwner n) then c.parkTag q p false
  else if !c.pWcp n then c.sendRaw now q n p
  else if c.pSec n = 0 then c.sendPlain now q n p
  else c.sendSealed now q n p

/-! ### RECV, WAIT, COPY, JUMP, NOTIFY, MARK (R294) -/

/-- The RECV step takes its tag and waits. -/
def recvStep (c : Chip) (now q : Nat) (p : Prog) : Chip :=
  let n := c.stepPath q p.cur
  let st := c.pathStatus q n
  if p.cur.ssel ≠ 0 ∨ (p.buffer p.cur.dsel).isNone then c.failStep now q p stStep
  else if st ≠ 0 then c.failStep now q p st
  else if c.gf (.CHN_PATHCFG n) CHN_PATHCFG.QUOTA = 0 then c.failStep now q p stPath
  else if !c.tagFree n then c.parkTag q p true
  else (c.takeTag n).park q { p with stage := none } (.recv now)

/-- A RECV ends with `TIMEOUT`. -/
def recvTimeoutEnd (c : Chip) (now q : Nat) (p : Prog) : Chip := c.recvDone now q p { status := stTimeout }

/-- The WAIT step. -/
def waitStep (c : Chip) (now q : Nat) (p : Prog) : Chip :=
  let n := c.stepPath q p.cur
  let mode := p.cur.opt % 4
  let st := if mode = 2 then c.pathStatus q n else 0
  if p.cur.ssel ≠ 0 ∨ p.cur.dsel ≠ 0 then c.failStep now q p stStep
  else if st ≠ 0 then c.failStep now q p st
  else
    let till := if mode = 0 then p.aux else now + p.aux
    let met := (mode == 0 && decide (till ≤ now)) || (mode == 1 && p.aux == 0) ||
      (mode == 2 && c.gf (.CHN_PATHSTAT n) CHN_PATHSTAT.UNACK == 0)
    let waits (c : Chip) : Chip := c.park q { p with stage := none } (.wait mode now till)
    if met || c.following then
      (match c.waitMay q with
       | some c => c.finish now q p {}
       | none => waits c)
    else waits c

/-- The COPY step starts the transfer engine. -/
def copyStep (c : Chip) (now q : Nat) (p : Prog) : Chip :=
  match srcLen p with
  | none => c.failStep now q p stStep
  | some len =>
    if 0x1000000 < len ∨ (p.buffer p.cur.dsel).isNone then c.failStep now q p stStep
    else (c.setProg q { p with phase := .moving }).syncQ q

/-- The transfer engine has moved the data of a COPY; the write waits while a commit holds a line of it (R268). -/
def copyEnd (c : Chip) (now q : Nat) (p : Prog) : Chip :=
  let (a, n) := (p.buffer p.cur.dsel).getD (0, 0)
  let len := min n ((srcLen p).getD 0)
  if c.rangeHeld a len then c else
  match c.readSrc now q p with
  | (c, .error st) => c.failStep now q p st
  | (c, .ok data) =>
    let (c, st, len) := c.writeBuf now q a n data
    c.finish now q p { status := st, len := len }

/-- The JUMP step (R294): a JUMP with LAST ends the program when it is not taken. -/
def jumpStep (c : Chip) (now q : Nat) (p : Prog) : Chip :=
  let cond := p.cur.opt % 4
  if p.cur.ssel ≠ 0 ∨ p.cur.dsel ≠ 0 ∨ cond = 3 then c.failStep now q p stStep else
  let p' := { p with stage := none, prevOk := true }
  if cond = 0 ∨ (cond = 1 ∧ p.prevOk) ∨ (cond = 2 ∧ !p.prevOk) then c.enterStep now q p' (p.aux % 2 ^ 40 / 32 * 32)
  else if p.cur.last then c.endProg now q
  else c.enterStep now q p' ((p.pc + 32) % 2 ^ 40)

/-- The NOTIFY step posts a completion; without room it parks. -/
def notifyStep (c : Chip) (now q : Nat) (p : Prog) : Chip :=
  if p.cur.ssel ≠ 0 ∨ p.cur.dsel ≠ 0 then c.failStep now q p stStep else
  let r := p.last.getD { step := p.stepNo, path := c.stepPath q p.cur }
  let p := { p with phase := .posting false, stage := none }
  let c := ((c.setProg q p).post q ⟨p.gen, p.id, r, p.cur.opt.testBit 0⟩).settleQ now q
  match (c.que q).prog with
  | some p => if p.phase = .posting false then c.park q p (.posting false) else c
  | none => c

/-- The mark record (R294). -/
def markBytes (c : Chip) (now n aux : Nat) : List Byte :=
  bytesLE 8 ((c.nextCseq + 2 ^ 64 - 1) % 2 ^ 64) ++ bytesLE 8 now ++
  bytesLE 8 (c.txseq n + 2 ^ 48 * c.epoch n) ++ bytesLE 8 aux

/-- The MARK step. -/
def markStep (c : Chip) (now q : Nat) (p : Prog) : Chip :=
  let n := c.stepPath q p.cur
  let st := c.pathStatus q n
  if p.cur.ssel ≠ 0 ∨ p.cur.dsel ≠ 1 then c.failStep now q p stStep
  else if st ≠ 0 then c.failStep now q p st
  else if c.rangeHeld p.cur.addr 32 then c
  else
    let (c, st, len) := c.writeBuf now q p.cur.addr 32 (c.markBytes now n p.aux)
    c.finish now q p { status := st, len := len }

/-! ### Waits that end -/

/-- A RECV's deadline has passed (R294); the primary tells the standby (R427). -/
def recvTimeout (c : Chip) (now q : Nat) : Chip :=
  match (c.que q).prog with
  | some p =>
    (match p.phase with
     | .recv since =>
       if c.millOn && p.aux != 0 && decide (since + p.aux ≤ now) && !c.following && !c.stepBlocked q p then
         (c.leatSend (.chndec (.recvTimeout (BitVec.ofNat 12 q)))).recvTimeoutEnd now q p
       else c
     | _ => c)
  | none => c

/-- A WAIT ends with its status: a mode 2 wait that times out gives `TIMEOUT`. -/
def waitOver (c : Chip) (now q : Nat) (p : Prog) (mode : Nat) : Chip :=
  let held := c.gf (.CHN_PATHSTAT (c.stepPath q p.cur)) CHN_PATHSTAT.UNACK != 0
  (c.finish now q p { status := if mode = 2 && held then stTimeout else 0 }).settleQ now q

/-- A WAIT's condition holds or its limit has passed. -/
def waitExpiry (c : Chip) (now q : Nat) : Chip :=
  match (c.que q).prog with
  | some p =>
    (match p.phase with
     | .wait mode _ till =>
       let free := c.gf (.CHN_PATHSTAT (c.stepPath q p.cur)) CHN_PATHSTAT.UNACK == 0
       if c.millOn && !c.following && !c.stepBlocked q p && mode != 3 && (decide (till ≤ now) || (mode == 2 && free)) then
         (match c.waitMay q with | some c => c.waitOver now q p mode | none => c)
       else c
     | _ => c)
  | none => c

end Chip

/-- `DOORBELL_ADVANCE` (R287, R430). -/
def execDoorbellAdvance (q : BitVec 12) (s : State) : Out := s.act (fun now c => c.readDoorbell now q.toNat)

/-- `HEADRACE_ENTRY_TAKE` (R279, R288). -/
def execHeadraceEntryTake (cp : Fin 16) (s : State) : Out :=
  s.act (fun now c =>
    if !c.millOn || c.chan.cpus.keys.contains cp.val then c else
    match c.nextQueue with
    | some q => c.takeEntry now cp q
    | none => c)

/-- `SEND` (R294, R297). -/
def execSend (q : BitVec 12) (s : State) : Out :=
  s.act (fun now c => c.stepCmd now q.toNat 1 (fun c p => c.sendStep now q.toNat p))

/-- `RECV` (R294, R298). -/
def execRecv (q : BitVec 12) (s : State) : Out :=
  s.act (fun now c => c.stepCmd now q.toNat 2 (fun c p => c.recvStep now q.toNat p))

/-- `WAIT` (R294). -/
def execWait (q : BitVec 12) (s : State) : Out :=
  s.act (fun now c => c.stepCmd now q.toNat 3 (fun c p => c.waitStep now q.toNat p))

/-- `COPY` (R294). -/
def execCopy (q : BitVec 12) (s : State) : Out :=
  s.act (fun now c => c.stepCmd now q.toNat 8 (fun c p => c.copyStep now q.toNat p))

/-- `JUMP` (R294, R296). -/
def execJump (q : BitVec 12) (s : State) : Out :=
  s.act (fun now c => c.stepCmd now q.toNat 9 (fun c p => c.jumpStep now q.toNat p))

/-- `NOTIFY` (R294, R289). -/
def execNotify (q : BitVec 12) (s : State) : Out :=
  s.act (fun now c => c.stepCmd now q.toNat 10 (fun c p => c.notifyStep now q.toNat p))

/-- `MARK` (R294). -/
def execMark (q : BitVec 12) (s : State) : Out :=
  s.act (fun now c => c.stepCmd now q.toNat 11 (fun c p => c.markStep now q.toNat p))

/-- `TAILRACE_POLL` (R287). -/
def execTailracePoll (q : BitVec 12) (s : State) : Out :=
  s.act (fun now c => if c.millOn then c.settleQ now q.toNat else c)

/-- `TRANSFER_ENGINE_END` (R280, R294). -/
def execTransferEngineEnd (q : BitVec 12) (s : State) : Out :=
  s.act (fun now c =>
    match (c.que q.toNat).prog with
    | some p =>
      if c.millOn && p.phase == .moving && !c.stepBlocked q.toNat p then (c.copyEnd now q.toNat p).settleQ now q.toNat else c
    | none => c)

/-- `RECV_TIMEOUT` (R294). -/
def execRecvTimeout (q : BitVec 12) (s : State) : Out := s.act (fun now c => c.recvTimeout now q.toNat)

/-- `WAIT_EXPIRY` (R294). -/
def execWaitExpiry (q : BitVec 12) (s : State) : Out := s.act (fun now c => c.waitExpiry now q.toNat)

end Sys2Proof.Machine
end

