-- ==== Sys2Proof/Machine/Jobs.lean ====
section
/-! DEFINITION. The scheduling of cipher and compression jobs on their cores (R352, R356, R369, R371, R467). -/
namespace Sys2Proof.Machine

/-- What the hopper and the millstone differ in as schedulers: registers and the jobs' list. -/
inductive Pool where
  | cipher | mill
  deriving DecidableEq, Repr

namespace Chip

def jobs (c : Chip) : Pool → List Job
  | .cipher => c.chan.cjobs
  | .mill => c.chan.mjobs

def setJobs (c : Chip) (k : Pool) (l : List Job) : Chip :=
  match k with
  | .cipher => c.modChan (fun h => { h with cjobs := l })
  | .mill => c.modChan (fun h => { h with mjobs := l })

def share (c : Chip) : Pool → Share
  | .cipher => c.chan.cshare
  | .mill => c.chan.mshare

def setShare (c : Chip) (k : Pool) (x : Share) : Chip :=
  match k with
  | .cipher => c.modChan (fun h => { h with cshare := x })
  | .mill => c.modChan (fun h => { h with mshare := x })

def weight (c : Chip) (k : Pool) (p : Nat) : Nat :=
  match k with
  | .cipher => c.gf (.CPH_SHARE p) CPH_SHARE.WEIGHT
  | .mill => c.gf (.MIL_SHARE p) MIL_SHARE.WEIGHT

def coreReg : Pool → Nat → RegName
  | .cipher, i => .CPH_CORE i
  | .mill, i => .MIL_CORE i

def poolOn (c : Chip) : Pool → Bool
  | .cipher => !c.off && c.domainOn 17
  | .mill => !c.off && c.domainOn 18

def poolRes (c : Chip) : Pool → Nat
  | .cipher => c.gf .CPH_CFG CPH_CFG.RES0
  | .mill => c.gf .MIL_CFG MIL_CFG.RES0

/-- STATE and OUT of a core; both kinds have one layout (R357, R374). -/
def coreState (c : Chip) (k : Pool) (i : Nat) : Nat := c.gf (coreReg k i) CPH_CORE.STATE
def setCore (c : Chip) (k : Pool) (i st : Nat) : Chip := c.sf (coreReg k i) CPH_CORE.STATE st

/-- The free cores, lowest number first. -/
def freeCores (c : Chip) (k : Pool) : List Nat :=
  (List.range (match k with | .cipher => 16 | .mill => 8)).filter (fun i => c.coreState k i == 0)

/-! ### Deficit round robin (R352) -/

/-- Rounds of credit until one of the partitions has positive credit. -/
def rounds (w : Nat → Nat) (cr : Nat → Int) (ps : List Nat) : Nat :=
  (ps.map (fun p => (1 - cr p).toNat / (4096 * w p) + bit ((1 - cr p).toNat % (4096 * w p) != 0))).foldl
    (fun b n => match b with | none => some n | some m => some (min m n)) none |>.getD 0

/-- The partition served next among `ps`, the partitions with a waiting job of class `cls`, and the new shares. -/
def drr (c : Chip) (k : Pool) (cls : Nat) (ps : List Nat) : Option Nat × Share :=
  let x := c.share k
  let ws := ps.filter (fun p => c.weight k p != 0)
  if ws.isEmpty then (none, x) else
  let cr (p : Nat) : Int := x.credit.get 0 (64 * cls + p)
  let n := if ws.any (fun p => decide (0 < cr p)) then 0 else rounds (c.weight k) cr ws
  let x := { x with credit := ws.foldl (fun t p => t.set (64 * cls + p) (cr p + (n * c.weight k p * 4096 : Nat))) x.credit }
  let last := x.last.get 0 cls
  let order := (List.range 64).map (fun i => (last + i) % 64)
  let ok := order.find? (fun p => ws.contains p && decide (0 < x.credit.get 0 (64 * cls + p)))
  (ok, x)

/-- The job that starts next among the eligible ones: class first, with the reserve of class 0; then the partitions'
shares; then the order of requests (R352). -/
def pick (c : Chip) (k : Pool) (eligible : Job → Bool) : Option (Job × Share) :=
  let l := (c.jobs k).filter (fun j => j.core.isNone && eligible j)
  match [0, 1, 2, 3].find? (fun cls => l.any (fun j => j.cls == cls)) with
  | none => none
  | some cls =>
    let n := (c.freeCores k).length
    if n = 0 ∨ (cls ≠ 0 ∧ n ≤ c.poolRes k) then none else
    let l := l.filter (fun j => j.cls == cls)
    match l.find? (fun j => j.begun) with
    | some j => some (j, c.share k)
    | none =>
      match c.drr k cls (l.map (·.part)) with
      | (some p, x) =>
        (l.find? (fun j => j.part == p)).map (fun j =>
          (j, { credit := x.credit.set (64 * cls + p) (x.credit.get 0 (64 * cls + p) - j.len), last := x.last.set cls p }))
      | (none, x) => l.head?.map (fun j => (j, x))

/-- The decision that starts job `j` is counted; the other jobs that could start have lost it (R384). The jobs it leaves
are marked, `j` itself not. -/
def jobCounts (c : Chip) (now : Nat) (k : Pool) (eligible : Job → Bool) (j : Job) : Chip :=
  let set (p : Nat) : Nat := (match k with | .cipher => 128 | .mill => 192) + p
  let c := if j.begun then c else c.arbGrant now (set j.part) j.lost j.since
  let loses (x : Job) : Bool := x != j && x.core.isNone && !x.lost && !x.begun && eligible x
  let l := (c.jobs k).filter loses
  let c := c.setJobs k ((c.jobs k).map (fun x => if x = j then { x with lost := false } else if loses x then { x with lost := true } else x))
  l.foldl (fun c x => c.arbLose (set x.part)) c

/-! ### The job map (R467) -/

/-- Bit `q` of the job map in the journal store's control region. -/
def jobMap (c : Chip) (q : Nat) (on : Bool) : Chip :=
  let a := journalBase + 0xC00 + q / 64 * 8
  let w := (c.jrd a).toNat
  (c.jwr a (BitVec.ofNat 64 (if on then setBit w (q % 64) else clrBit w (q % 64)))).updQue q (fun x => { x with job := on })

/-- A job takes a core. -/
def occupy (c : Chip) (k : Pool) (i : Nat) (old new : Job) : Chip :=
  let c := c.setJobs k ((c.jobs k).map (fun j => if j = old then { new with core := some i, begun := true } else j))
  let c := c.setCore k i 1
  match new.q with
  | some q => c.jobMap q true
  | none => c

/-- The core is free again, or out after its current job (R356). -/
def release (c : Chip) (k : Pool) (i : Nat) : Chip :=
  if c.coreState k i = 3 then c else c.setCore k i (if c.gb (coreReg k i) CPH_CORE.OUT then 2 else 0)

/-- The job on a core. -/
def jobOn (c : Chip) (k : Pool) (i : Nat) : Option Job := (c.jobs k).find? (fun j => j.core == some i)

/-- A job leaves the list; its core is freed and its bit of the job map cleared. -/
def jobGone (c : Chip) (k : Pool) (j : Job) : Chip :=
  let c := c.setJobs k ((c.jobs k).filter (fun x => x ≠ j))
  let c := match j.core with | some i => c.release k i | none => c
  match j.q with
  | some q => c.jobMap q false
  | none => c

/-- The jobs of a queue are cancelled (R353, R370). -/
def cancelJobs (c : Chip) (q : Nat) : Chip :=
  let stop (c : Chip) (k : Pool) : Chip := ((c.jobs k).filter (fun j => j.q == some q)).foldl (fun c j => c.jobGone k j) c
  stop (stop c .cipher) .mill

/-- A datapath error of a core: the job restarts on another core; a second error within 60 minutes fails the core (R356,
R371). -/
def coreError (c : Chip) (now : Nat) (k : Pool) (i : Nat) : Chip :=
  if !c.poolOn k then c else
  let src := match k with | .cipher => 14 | .mill => 15
  let id := match k with | .cipher => i | .mill => 16 + i
  let again := c.chan.errs.any (fun e => e.1 == id && decide (now ≤ e.2 + 3600000000000))
  let c := c.setJobs k ((c.jobs k).map (fun j => if j.core = some i then { j with core := none } else j))
  let c := c.modChan (fun h => { h with errs := (id, now) :: h.errs.filter (fun e => e.1 != id) })
  let c := ((c.inc (coreReg k i) CPH_CORE.ERRS).release k i).corrected now src
  if again && c.coreState k i != 3 then (c.setCore k i 3).contained now src none none else c

/-- The manager takes a core out, or puts it back (R356, R371). -/
def coreOut (c : Chip) (k : Pool) (i : Nat) (v : Bool) : Chip :=
  let st := c.coreState k i
  let c := c.sf (coreReg k i) CPH_CORE.OUT (bit v)
  if v && st == 0 then c.setCore k i 2 else if !v && st == 2 then c.setCore k i 0 else c

end Chip
end Sys2Proof.Machine
end

