-- ==== Sys2Proof/Machine/Cipher.lean ====
section
/-! DEFINITION. The cipher engine: SEAL and OPEN jobs, key slots and unwraps (chapter 14). -/
namespace Sys2Proof.Machine

/-- The job options of SEAL and OPEN (R347). -/
structure COpt where
  mode : Nat
  ksrc : Bool
  tag : Nat
  nlen : Nat
  aad : Nat
  slot : Nat
  deriving DecidableEq, Repr

def Prog.copt (p : Prog) : COpt :=
  ⟨p.cur.opt % 8, p.cur.opt.testBit 3, p.cur.opt / 16 % 16 + 1, p.cur.opt / 256 % 8, p.aux / 65536 % 65536, p.aux % 4096⟩

/-- Reserved bits are 0, and the lengths of tag, nonce and associated data are ones R348 allows. -/
def Prog.coptOk (p : Prog) (sealing : Bool) : Bool :=
  let o := p.copt
  let resv := p.cur.opt / 2048 == 0 && p.aux / 2 ^ 32 == 0 && p.aux / 4096 % 16 == 0
  let aad := o.aad == 0 || o.mode == 5 || o.mode == 6
  resv && aad &&
  match o.mode with
  | 0 => sealing
  | 5 => o.tag == 4 || o.tag == 8 || decide (12 ≤ o.tag)
  | 6 => decide (4 ≤ o.tag) && o.tag % 2 == 0 && decide (o.nlen ≤ 6) && decide (o.aad ≤ 65279)
  | _ => true

/-- The length rules of R348 for a source of `n` octets. -/
def COpt.lenOk (o : COpt) (sealing : Bool) (n : Nat) : Bool :=
  let head := 16 + o.aad
  let tag := if sealing then 0 else o.tag
  match o.mode with
  | 0 => true
  | 1 => decide (16 < n) && n % 16 == 0
  | 5 => decide (head + tag ≤ n) && (sealing || decide (n - head - tag ≤ 16384))
  | 6 => decide (head + tag ≤ n) && decide (n - head - tag < 2 ^ (8 * (8 - o.nlen))) && (sealing || decide (n - head - tag ≤ 16384))
  | 7 => decide (tag ≤ n)
  | _ => decide (16 ≤ n)

/-- The rules of R348 on the IV block, once the source is read. -/
def COpt.ivOk (o : COpt) (src : List Byte) : Bool :=
  match o.mode with
  | 4 => decide (be src 12 4 + (src.length - 16 + 15) / 16 ≤ 2 ^ 32)
  | 5 => ((src.drop 12).take 4).all (fun b => b == 0)
  | 6 => (((src.take 16).drop (o.nlen + 7))).all (fun b => b == 0)
  | _ => true

/-- The USE bits a job needs (R348, R349). -/
def COpt.useOk (o : COpt) (sealing : Bool) (sec use : Nat) : Bool :=
  if o.mode = 0 then (if sec = 1 then use.testBit 2 else use.testBit 0 && use.testBit 1)
  else if o.mode = 7 then use.testBit 2
  else if sealing then use.testBit 0 else use.testBit 1

/-- The output of a SEAL in modes 1 to 7 (R348). -/
def sealOut (o : COpt) (key src : List Byte) : List Byte :=
  let rk := roundKeys key
  let iv := src.take 16
  let aad := (src.drop 16).take o.aad
  let pl := src.drop (16 + o.aad)
  match o.mode with
  | 1 => cbcEnc rk iv pl
  | 2 => cfbEnc rk iv pl
  | 3 => ofb rk iv pl
  | 4 => ctr rk iv pl
  | 5 => let ct := gcmText rk (iv.take 12) pl
         ct ++ (gcmTag rk (iv.take 12) aad ct).take o.tag
  | 6 => let n := iv.take (o.nlen + 7)
         ccmText rk n pl ++ ccmTag rk o.tag n aad pl
  | _ => (cmac rk src).take o.tag

/-- The output of an OPEN, none where the tag is false (R348, R351). -/
def openOut (o : COpt) (key src : List Byte) : Option (List Byte) :=
  let rk := roundKeys key
  let iv := src.take 16
  let aad := (src.drop 16).take o.aad
  let pl := src.drop (16 + o.aad)
  let ct := pl.take (pl.length - o.tag)
  let tag := pl.drop (pl.length - o.tag)
  match o.mode with
  | 1 => some (cbcDec rk iv pl)
  | 2 => some (cfbDec rk iv pl)
  | 3 => some (ofb rk iv pl)
  | 4 => some (ctr rk iv pl)
  | 5 => if (gcmTag rk (iv.take 12) aad ct).take o.tag = tag then some (gcmText rk (iv.take 12) ct) else none
  | 6 => let n := iv.take (o.nlen + 7)
         let pt := ccmText rk n ct
         if ccmTag rk o.tag n aad pt = tag then some pt else none
  | _ => let m := src.take (src.length - o.tag)
         if (cmac rk m).take o.tag = src.drop (src.length - o.tag) then some [] else none

namespace Chip

/-- The slot a job uses: AUX SLOT, or the path's KEYSLOT (R347, R349). -/
def jobSlot (c : Chip) (q : Nat) (p : Prog) : Nat :=
  let o := p.copt
  if o.ksrc && o.mode != 0 then o.slot else c.gf (.CHN_PATHCFG (c.stepPath q p.cur)) CHN_PATHCFG.KEYSLOT

/-- The slot serves the owner: loaded, and owned (R346). -/
def slotServes (c : Chip) (s : Nat) (o : Option Nat) : Bool :=
  let r := RegName.CPH_SLOT s
  c.gb r CPH_SLOT.VALID && c.gb r CPH_SLOT.ASSIGNED && o == some (c.gf r CPH_SLOT.OWNER)

/-- The status of a job's slot at its start (R346, R348). -/
def slotStatus (c : Chip) (q : Nat) (p : Prog) (sealing : Bool) : Nat :=
  let s := c.jobSlot q p
  if !c.slotServes s (c.queOwner q) then stOwner
  else if p.copt.useOk sealing (c.pSec (c.stepPath q p.cur)) (c.gf (.CPH_SLOT s) CPH_SLOT.USE) then 0
  else stStep

/-- The rules of MODE 0: a WCP path with SEC 1 or 2, and the output of a SQUEEZE where the path has CMP (R297, R349). -/
def modeZeroOk (c : Chip) (n : Nat) (p : Prog) : Bool :=
  c.pWcp n && (c.pSec n == 1 || c.pSec n == 2) &&
  (!c.pCmp n || (p.cur.ssel == 4 && p.stage.any (fun s => s.op == 6)))

/-- The job enters the hopper; it parks while its slot is loading (R346). -/
def queueCipher (c : Chip) (now q len : Nat) (p : Prog) : Chip :=
  let j : Job := { q := some q, part := c.quePart q, cls := c.queClass q, len := len, since := now }
  let c := c.setJobs .cipher (c.jobs .cipher ++ [j])
  if c.gb (.CPH_SLOT (c.jobSlot q p)) CPH_SLOT.LOADING then c.park q p .job
  else (c.setProg q { p with phase := .job }).syncQ q

/-- A SEAL in MODE 0 reserves its tag and its room, and waits for them (R295, R297, R299). -/
def sealPath (c : Chip) (now q n len : Nat) (p : Prog) : Chip :=
  if !c.modeZeroOk n p then c.failStep now q p stStep else
  match c.wcpRoom n len with
  | .fails st => c.failStep now q p st
  | .waits tag => c.parkTag q p tag
  | .free => (c.takeTag n).queueCipher now q len { p with resv := c.frameUnits n len }

/-- The SEAL and OPEN steps: their checks (R293, R347 to R349), then the job. -/
def cipherStep (c : Chip) (now q : Nat) (sealing : Bool) (p : Prog) : Chip :=
  let n := c.stepPath q p.cur
  let o := p.copt
  let onPath := o.mode == 0 || !o.ksrc
  let st := if onPath then c.pathStatus q n else 0
  let dst := p.cur.dsel == 4 || (p.buffer p.cur.dsel).isSome || (p.cur.dsel == 0 && o.mode == 7 && !sealing)
  match srcLen p with
  | none => c.failStep now q p stStep
  | some len =>
    if !p.coptOk sealing || !dst || decide (0x1000000 < len) || !o.lenOk sealing len then c.failStep now q p stStep
    else if st ≠ 0 then c.failStep now q p st
    else if o.mode = 0 then c.sealPath now q n len p
    else c.queueCipher now q len p

/-! ### Starting and ending jobs (R346, R351 to R353) -/

/-- A job of the hopper can start: its slot is not loading, and a MODE 0 frame's epoch and turn have come (R306, R346,
R427). -/
def cipherEligible (c : Chip) (j : Job) : Bool :=
  if j.begun then true else
  match j.q with
  | none => true
  | some q =>
    match (c.que q).prog with
    | none => false
    | some p =>
      let n := c.stepPath q p.cur
      !c.gb (.CPH_SLOT (c.jobSlot q p)) CPH_SLOT.LOADING &&
      (p.copt.mode != 0 || ((c.pth n).rise.isNone && (c.seqTurn n q).isSome))

/-- The key and the source a job takes when it starts, and the header of a MODE 0 frame (R301, R346). -/
def cipherBegin (c : Chip) (now q : Nat) (p : Prog) (j : Job) : Chip × Job :=
  let sealing := p.cur.op == 4
  let n := c.stepPath q p.cur
  let st := c.slotStatus q p sealing
  if st ≠ 0 then (c, { j with bad := st }) else
  match c.readSrc now q p with
  | (c, .error st) => (c, { j with bad := st })
  | (c, .ok src) =>
    if !p.copt.ivOk src then (c, { j with bad := stStep }) else
    let j := { j with key := c.chan.keys.get [] (c.jobSlot q p), data := src }
    if p.copt.mode ≠ 0 then (c, j) else
    match c.seqTurn n q with
    | none => (c, { j with bad := stStep })
    | some c =>
      let (v, h, c) := c.newFrame now n 1 (2 * bit (c.pCmp n)) src.length (some q)
      (c.setProg q { p with resv := 0, wcp := some (v, h) }, j)

/-- A reserved tag and its room return where a SEAL ends before its frame is there. -/
def unreserve (c : Chip) (now q : Nat) (p : Prog) : Chip :=
  if p.resv = 0 then c else (c.setProg q { p with resv := 0 }).dropTag now (c.stepPath q p.cur)

/-- A frame that was assigned and will never be sent leaves the store with its tag (R353). -/
def withdrawFrame (c : Chip) (now n v : Nat) : Chip :=
  if (c.pth n).frames.any (fun f => f.seq = v) then
    (c.updPth n (fun x => { x with frames := x.frames.filter (fun f => f.seq ≠ v) })).dropTag now n
  else c

/-- The output of a cipher job goes to staging or to the destination (R295, R348). -/
def cipherWrite (c : Chip) (now q : Nat) (p : Prog) (out : List Byte) (r : Rep) (seq : Option Nat) : Chip :=
  if p.cur.dsel = 4 then
    (if 16384 < out.length then c.failStep now q p stStep
     else c.finish now q p r (some ⟨out, p.cur.op, c.stepPath q p.cur, seq⟩))
  else if p.cur.dsel = 0 then c.finish now q p r
  else
    let (a, n) := (p.buffer p.cur.dsel).getD (0, 0)
    let (c, st, len) := c.writeBuf now q a n out
    c.finish now q p { r with status := st, len := len }

/-- A SEAL or OPEN job has run (R349, R351). -/
def cipherResult (c : Chip) (now q : Nat) (p : Prog) (j : Job) : Chip :=
  let n := c.stepPath q p.cur
  match p.wcp with
  | some (v, h) =>
    let b := wcpSeal (c.pSec n) j.key (c.pathDir n) h j.data
    (c.sealFrame n v b).cipherWrite now q p b { epoch := be h 4 2, seq := v } (some v)
  | none =>
    if p.cur.op = 4 then c.cipherWrite now q p (sealOut p.copt j.key j.data) {} none else
    match openOut p.copt j.key j.data with
    | some out => if p.copt.mode = 7 then c.finish now q p {} else c.cipherWrite now q p out {} none
    | none => (c.inc .CPH_STAT CPH_STAT.TAGFAIL).failStep now q p stTagFail

/-- A job of a queue ends on its core. -/
def cipherDone (c : Chip) (now q : Nat) (j : Job) : Chip :=
  match (c.que q).prog with
  | none => c.jobGone .cipher j
  | some p =>
    let (a, n) := (p.buffer p.cur.dsel).getD (0, 0)
    if c.rangeHeld a n then c else
    let c := (c.jobGone .cipher j).inc .CPH_STAT CPH_STAT.JOBS
    if j.bad ≠ 0 then ((c.unreserve now q p).failStep now q { p with resv := 0 } j.bad).settleQ now q
    else (c.cipherResult now q p j).settleQ now q

/-! ### Key slots (R341, R342) -/

/-- Zeroises a slot (R342). -/
def zeroise (c : Chip) (s : Nat) : Chip :=
  let r := RegName.CPH_SLOT s
  let c := ((c.sf r CPH_SLOT.VALID 0).sf r CPH_SLOT.KLEN 0).sf r CPH_SLOT.USE 0
  c.modChan (fun h => { h with keys := h.keys.erase s })

/-- A key enters a slot (R345 step 5). -/
def loadSlot (c : Chip) (s use : Nat) (key : List Byte) : Chip :=
  let r := RegName.CPH_SLOT s
  let c := c.modChan (fun h => { h with keys := h.keys.set s key })
  let c := (c.sf r CPH_SLOT.KLEN (key.length / 8 - 1)).sf r CPH_SLOT.USE use
  (c.sf r CPH_SLOT.GEN ((c.gf r CPH_SLOT.GEN + 1) % 65536)).sf r CPH_SLOT.VALID 1

/-- A CLR of a slot, after an unwrap into it (R342, R346). -/
def clrSlot (c : Chip) (s : Nat) : Chip :=
  if c.gb (.CPH_SLOT s) CPH_SLOT.LOADING then c.modChan (fun h => { h with clrs := addNew h.clrs s }) else c.zeroise s

/-! ### Unwraps (R343 to R346) -/

/-- A blob unwrapped: the attribute word and the key; the result code where a check fails (R340, R344, R345). -/
def unwrapKey (kek wrapped : List Byte) (root : Bool) (owner : Nat) : Except Nat (Nat × List Byte) :=
  match keyUnwrap kek wrapped with
  | none => .error 0x04
  | some pt =>
    let w := natLE (pt.take 8)
    let key := pt.drop 8
    let use := w / 2 ^ 36 % 16
    let bind := w / 2 ^ 24 % 256
    let ok := w / 2 ^ 48 == 0x4B41 && w / 2 ^ 40 % 256 == key.length && use != 0 && (!use.testBit 3 || use == 8) &&
      w / 2 ^ 32 % 16 == 0 && w % 2 ^ 24 == 0 && (bind == 0 || bind == owner + 1) &&
      (!root || use == 8 || use == 4)
    if ok then .ok (use, key) else .error 0x05

/-- The root key's octets. -/
def rootBytes : List Byte := bytesBE 32 Config.rootKey.toNat

/-- The unwraps into one slot run one after the other: the next one that waits for slot `s` starts. -/
def unwrapNext (c : Chip) (s : Nat) : Option (Nat × Bool) :=
  c.chan.unwrapQ.find? (fun e => c.gf (.CPH_UNWRAP_STAT e.1) CPH_UNWRAP_STAT.SLOT == s)

/-- The command of a partition's block ends with a result (R345). -/
def unwrapResult (c : Chip) (now p res : Nat) : Chip :=
  let r := RegName.CPH_UNWRAP_STAT p
  let c := (c.sf r CPH_UNWRAP_STAT.RESULT res).sf r CPH_UNWRAP_STAT.BUSY 0
  if res = 0 then c else (c.inc .CPH_STAT CPH_STAT.UNWRAPFAIL).corrected now 14

/-- Step 1: the target and the key-encryption slot (R345). -/
def unwrapCheck (c : Chip) (p : Nat) (mgr : Bool) (root : Bool) (kek tgt : Nat) : Nat :=
  let t := RegName.CPH_SLOT tgt
  let owner := c.gf t CPH_SLOT.OWNER
  if !c.gb t CPH_SLOT.ASSIGNED || (!mgr && owner != p) then 0x07
  else if root then (if mgr then 0 else 0x06)
  else if c.slotServes kek (some owner) && c.gf (.CPH_SLOT kek) CPH_SLOT.USE == 8 then 0 else 0x06

/-- Steps 1 and 2 of an unwrap (R345): false where it has ended. -/
def unwrapBegin (c : Chip) (now p : Nat) (mgr : Bool) : Chip :=
  let cmd := RegName.CPH_UNWRAP_CMD p
  let tgt := c.gf cmd CPH_UNWRAP_CMD.TARGET
  let kek := c.gf cmd CPH_UNWRAP_CMD.KEK
  let root := c.gb cmd CPH_UNWRAP_CMD.ROOT
  let st := c.unwrapCheck p mgr root kek tgt
  if st ≠ 0 then c.unwrapResult now p st else
  let c := (c.zeroise tgt).sf (.CPH_SLOT tgt) CPH_SLOT.LOADING 1
  let fails (c : Chip) (e : Nat) : Chip := (c.sf (.CPH_SLOT tgt) CPH_SLOT.LOADING 0).unwrapResult now p e
  let rights := if mgr then (if c.gb .PRT_MGR PRT_MGR.SITE then none else some 0) else some p
  let a := 8 * c.gf (.CPH_UNWRAP_ADDR p) CPH_UNWRAP_ADDR.ADDR
  match c.engRead now rights a 8 with
  | (c, .error _) => fails c 0x02
  | (c, .ok h) =>
    let w := natLE h
    let wlen := w / 2 ^ 32 % 256
    if w / 2 ^ 48 ≠ 0x4B42 ∨ w / 2 ^ 40 % 256 ≠ 1 ∨ (wlen ≠ 32 ∧ wlen ≠ 40 ∧ wlen ≠ 48) then fails c 0x03 else
    let u : Unwrap := { slot := tgt, kek := kek, root := root, addr := a + 8, wlen := wlen, rights := rights }
    let j : Job := { q := none, part := p, cls := c.gf cmd CPH_UNWRAP_CMD.CLASS, len := wlen, since := now }
    let c := c.modChan (fun x => { x with unwraps := x.unwraps.set p u })
    c.setJobs .cipher (c.jobs .cipher ++ [j])

/-- A GO write of a partition's block (R345, R346). -/
def unwrapGo (c : Chip) (now p : Nat) (mgr : Bool) (v : DWord) : Chip :=
  let cmd := RegName.CPH_UNWRAP_CMD p
  let st := RegName.CPH_UNWRAP_STAT p
  if c.gb st CPH_UNWRAP_STAT.BUSY && v.getLsbD 63 then c.corrected now 14 else
  let c := c.plainWrite now cmd v
  if !v.getLsbD 63 then c else
  let c := c.sf cmd CPH_UNWRAP_CMD.ROOT (bit (v.getLsbD 62))
  let tgt := c.gf cmd CPH_UNWRAP_CMD.TARGET
  let c := (c.sf st CPH_UNWRAP_STAT.BUSY 1).sf st CPH_UNWRAP_STAT.SLOT tgt
  if c.gb (.CPH_SLOT tgt) CPH_SLOT.LOADING then c.modChan (fun h => { h with unwrapQ := h.unwrapQ ++ [(p, mgr)] })
  else c.unwrapBegin now p mgr

/-- An unwrap takes its key-encryption key and the wrapped data when it starts on a core (R345 step 3, R346). -/
def unwrapTake (c : Chip) (now p : Nat) (j : Job) : Chip × Job :=
  match c.chan.unwraps.find? (fun e => e.1 == p) with
  | none => (c, { j with bad := 0x08 })
  | some (_, u) =>
    let key := if u.root then rootBytes else c.chan.keys.get [] u.kek
    match c.engRead now u.rights u.addr u.wlen with
    | (c, .error _) => (c, { j with key := key, bad := 0x02 })
    | (c, .ok d) => (c, { j with key := key, data := d })

/-- The slot is no longer loading: a CLR that waited is performed, and an unwrap that waited starts (R346). -/
def slotLoaded (c : Chip) (now s : Nat) : Chip :=
  let c := c.sf (.CPH_SLOT s) CPH_SLOT.LOADING 0
  let c := if c.chan.clrs.contains s then (c.zeroise s).modChan (fun h => { h with clrs := without h.clrs s }) else c
  match c.unwrapNext s with
  | some (p, mgr) => (c.modChan (fun h => { h with unwrapQ := h.unwrapQ.filter (fun e => e.1 != p) })).unwrapBegin now p mgr
  | none => c

/-- An unwrap ends (R345 steps 3 to 5). -/
def unwrapEnd (c : Chip) (now p : Nat) (j : Job) (u : Unwrap) : Chip :=
  let c := (c.jobGone .cipher j).modChan (fun h => { h with unwraps := h.unwraps.erase p })
  let owner := c.gf (.CPH_SLOT u.slot) CPH_SLOT.OWNER
  let r := if u.bad ≠ 0 then .error u.bad else if j.bad ≠ 0 then .error j.bad else unwrapKey j.key j.data u.root owner
  match r with
  | .ok (use, key) => ((c.loadSlot u.slot use key).unwrapResult now p 0).slotLoaded now u.slot
  | .error e => ((c.zeroise u.slot).unwrapResult now p e).slotLoaded now u.slot

/-- The unwrap of a partition is abandoned (R345): its target stays zeroised. -/
def unwrapAbandon (c : Chip) (now p : Nat) : Chip :=
  if !c.gb (.CPH_UNWRAP_STAT p) CPH_UNWRAP_STAT.BUSY then c else
  let c := c.modChan (fun h => { h with unwrapQ := h.unwrapQ.filter (fun e => e.1 != p) })
  match c.chan.unwraps.find? (fun e => e.1 == p) with
  | none => c.unwrapResult now p 0x08
  | some (_, u) =>
    let c := ((c.jobs .cipher).filter (fun j => j.q.isNone && j.part == p)).foldl (fun c j => c.jobGone .cipher j) c
    let c := c.modChan (fun h => { h with unwraps := h.unwraps.erase p })
    ((c.zeroise u.slot).unwrapResult now p 0x08).slotLoaded now u.slot

/-- A manager write of `CPH_SLOT` (R342, R391): assigning a slot assigned to another owner is refused; an unwrap into the
slot then ends without loading it. -/
def slotWrite (c : Chip) (now s : Nat) (v : DWord) : Chip :=
  let r := RegName.CPH_SLOT s
  let own := CPH_SLOT.OWNER.get v
  if c.gb r CPH_SLOT.ASSIGNED && v.getLsbD 49 && c.gf r CPH_SLOT.OWNER != own then c.cfgReport now 0x06 0 r.addr else
  let c := ((c.zeroise s).sf r CPH_SLOT.OWNER own).sf r CPH_SLOT.ASSIGNED (bit (v.getLsbD 49))
  c.modChan (fun h => { h with
    unwraps := h.unwraps.map (fun e => if e.2.slot = s then (e.1, { e.2 with bad := 0x07 }) else e) })

/-- A job of the hopper starts, if one may (R352). -/
def cipherStart (c : Chip) (now : Nat) : Chip :=
  if !c.poolOn .cipher then c else
  match c.pick .cipher c.cipherEligible, (c.freeCores .cipher).head? with
  | some (j, x), some i =>
    let c := (c.setShare .cipher x).jobCounts now .cipher c.cipherEligible j
    let j := { j with lost := false }
    if j.begun then c.occupy .cipher i j j else
    (match j.q with
     | none =>
       let (c, j') := c.unwrapTake now j.part j
       c.occupy .cipher i j j'
     | some q =>
       (match (c.que q).prog with
        | none => c
        | some p =>
          let (c, j') := c.cipherBegin now q p j
          c.occupy .cipher i j j'))
  | _, _ => c

end Chip

/-- `SEAL` (R295, R297, R347 to R349). -/
def execSeal (q : BitVec 12) (s : State) : Out :=
  s.act (fun now c => c.stepCmd now q.toNat 4 (fun c p => c.cipherStep now q.toNat true p))

/-- `OPEN` (R347, R348, R351). -/
def execOpenStep (q : BitVec 12) (s : State) : Out :=
  s.act (fun now c => c.stepCmd now q.toNat 5 (fun c p => c.cipherStep now q.toNat false p))

/-- `CIPHER_JOB_START` (R346, R352). -/
def execCipherJobStart (s : State) : Out := s.act (fun now c => c.cipherStart now)

/-- `CIPHER_JOB_END` (R351, R352): a job of a queue. -/
def execCipherJobEnd (k : Fin 16) (s : State) : Out :=
  s.act (fun now c =>
    match c.jobOn .cipher k with
    | some j => (match j.q with | some q => if c.poolOn .cipher then c.cipherDone now q j else c | none => c)
    | none => c)

/-- `UNWRAP` (R345, R346): the write `v` of the command word. -/
def execUnwrap (ag : Agent) (p : BitVec 6) (v : BitVec 64) (s : State) : Out :=
  s.act (fun now c =>
    if c.poolOn .cipher && c.mayWrite ag (.CPH_UNWRAP_CMD p.toNat) then
      c.unwrapGo now p.toNat (ag == .manager || ag == .miller) v
    else c)

/-- `UNWRAP_END` (R345). -/
def execUnwrapEnd (p : BitVec 6) (s : State) : Out :=
  s.act (fun now c =>
    match (c.jobs .cipher).find? (fun j => j.q.isNone && j.part == p.toNat && j.core.isSome),
        c.chan.unwraps.find? (fun e => e.1 == p.toNat) with
    | some j, some (_, u) => c.unwrapEnd now p.toNat j u
    | _, _ => c)

/-- `CLR` (R342, R346). -/
def execClr (ag : Agent) (n : BitVec 12) (s : State) : Out :=
  s.act (fun _ c => if c.poolOn .cipher && c.mayWrite ag (.CPH_SLOT n.toNat) then c.clrSlot n.toNat else c)

/-- `SLOT_ASSIGN` (R342, R391): the manager's write of OWNER and ASSIGNED. -/
def execSlotAssign (ag : Agent) (n : BitVec 12) (v : BitVec 64) (s : State) : Out :=
  s.act (fun now c =>
    if c.poolOn .cipher && (ag == .miller || (ag == .manager && c.mayWrite ag (.CPH_SLOT n.toNat))) then
      c.slotWrite now n.toNat v
    else c)

/-- `CIPHER_CORE_ERROR` (R356). -/
def execCipherCoreError (k : Fin 16) (s : State) : Out := s.act (fun now c => c.coreError now .cipher k)

/-- `CIPHER_CORE_OUT` (R356). -/
def execCipherCoreOut (ag : Agent) (k : Fin 16) (v : Bool) (s : State) : Out :=
  s.act (fun _ c => if c.poolOn .cipher && c.mayWrite ag (.CPH_CORE k) then c.coreOut .cipher k v else c)

end Sys2Proof.Machine
end

