-- ==== Sys2Proof/Machine/Deflate.lean ====
section
/-! DEFINITION. Deflate (RFC 1951) as the millstone accepts and produces it, and the Worlon block (R358 to R363, R368). -/
namespace Sys2Proof.Machine

/-! ### Bits -/

/-- The bits of a string in the order of RFC 1951: least significant first. -/
def toBits (l : List Byte) : List Bool := l.flatMap (fun b => (List.range 8).map (fun i => b.getLsbD i))

/-- The octet of at most 8 bits, the rest zero. -/
def bitsByte (l : List Bool) : Byte := BitVec.ofNat 8 (l.foldr (fun b a => bit b + 2 * a) 0)

/-- Bits packed into octets, padded with zero bits; `fuel` is at least the number of octets. -/
def ofBits : Nat → List Bool → List Byte
  | 0, _ => []
  | _, [] => []
  | n + 1, l => bitsByte (l.take 8) :: ofBits n (l.drop 8)

def packBits (l : List Bool) : List Byte := ofBits (l.length / 8 + 1) l

/-- `n` bits as a number, least significant first, and the rest. -/
def takeBits (n : Nat) (l : List Bool) : Option (Nat × List Bool) :=
  if l.length < n then none else some ((l.take n).foldr (fun b a => bit b + 2 * a) 0, l.drop n)

/-! ### Huffman codes -/

/-- Symbols of a code length, in ascending order. -/
def symsOf (lens : List Nat) (n : Nat) : List Nat := (lens.zipIdx.filter (fun e => e.1 == n)).map Prod.snd

/-- Decodes one symbol: code length `len`, code so far, first code of that length. -/
def huffLoop (lens : List Nat) : Nat → Nat → Nat → Nat → List Bool → Option (Nat × List Bool)
  | 0, _, _, _, _ => none
  | _, _, _, _, [] => none
  | fuel + 1, len, code, first, b :: r =>
    let code := 2 * code + bit b
    let s := symsOf lens len
    if first ≤ code ∧ code < first + s.length then some (s.getD (code - first) 0, r)
    else huffLoop lens fuel (len + 1) code (2 * (first + s.length)) r

def huffSym (lens : List Nat) (l : List Bool) : Option (Nat × List Bool) := huffLoop lens 15 1 0 0 l

/-- Codes left at length 15: negative where the lengths over-subscribe the code space (RFC 1951). -/
def huffLeft (lens : List Nat) : Int :=
  (List.range 15).foldl (fun (a : Int) i =>
    if a < 0 then a else 2 * a - ((symsOf lens (i + 1)).length : Nat)) 1

/-- The code is complete. -/
def huffFull (lens : List Nat) : Bool := huffLeft lens == 0

/-- A distance code: complete, a single code of one bit, or none at all. -/
def distOk (lens : List Nat) : Bool :=
  let n := (lens.filter (fun x => x != 0)).length
  huffFull lens || n == 0 || (n == 1 && lens.contains 1)

/-- The fixed codes. -/
def fixedLit : List Nat := List.replicate 144 8 ++ List.replicate 112 9 ++ List.replicate 24 7 ++ List.replicate 8 8
def fixedDist : List Nat := List.replicate 32 5

/-! ### Expansion -/

def lenBase : List Nat := [3, 4, 5, 6, 7, 8, 9, 10, 11, 13, 15, 17, 19, 23, 27, 31, 35, 43, 51, 59, 67, 83, 99, 115, 131, 163,
  195, 227, 258]
def lenExtra : List Nat := [0, 0, 0, 0, 0, 0, 0, 0, 1, 1, 1, 1, 2, 2, 2, 2, 3, 3, 3, 3, 4, 4, 4, 4, 5, 5, 5, 5, 0]
def distBase : List Nat := [1, 2, 3, 4, 5, 7, 9, 13, 17, 25, 33, 49, 65, 97, 129, 193, 257, 385, 513, 769, 1025, 1537, 2049,
  3073, 4097, 6145, 8193, 12289, 16385, 24577]
def distExtra : List Nat := [0, 0, 0, 0, 1, 1, 2, 2, 3, 3, 4, 4, 5, 5, 6, 6, 7, 7, 8, 8, 9, 9, 10, 10, 11, 11, 12, 12, 13, 13]

/-- A copy of `n` octets from distance `d`; the output is held newest first. -/
def copyBack (d : Nat) : Nat → List Byte → List Byte
  | 0, acc => acc
  | n + 1, acc => copyBack d n (acc.getD (d - 1) 0 :: acc)

/-- Length and distance of a match whose length symbol is read. -/
def matchOf (dist : List Nat) (sym : Nat) (l : List Bool) : Option (Nat × Nat × List Bool) := do
  if 285 < sym then none
  let i := sym - 257
  let (e, l) ← takeBits (lenExtra.getD i 0) l
  let (ds, l) ← huffSym dist l
  if 29 < ds then none
  let (de, l) ← takeBits (distExtra.getD ds 0) l
  return (lenBase.getD i 0 + e, distBase.getD ds 0 + de, l)

/-- The symbols of a block up to its end. -/
def inflateCodes (lit dist : List Nat) (olen : Nat) : Nat → List Bool → List Byte → Option (List Bool × List Byte)
  | 0, _, _ => none
  | fuel + 1, l, acc =>
    match huffSym lit l with
    | none => none
    | some (s, l) =>
      if s < 256 then
        (if acc.length < olen then inflateCodes lit dist olen fuel l (BitVec.ofNat 8 s :: acc) else none)
      else if s = 256 then some (l, acc)
      else match matchOf dist s l with
        | none => none
        | some (n, d, l) =>
          if acc.length < d ∨ olen < acc.length + n then none else inflateCodes lit dist olen fuel l (copyBack d n acc)

/-- The code lengths of a dynamic block, newest first, until `n` of them are there. -/
def readLens (cl : List Nat) (n : Nat) : Nat → List Bool → List Nat → Option (List Bool × List Nat)
  | 0, _, _ => none
  | fuel + 1, l, acc =>
    if n ≤ acc.length then (if acc.length = n then some (l, acc.reverse) else none) else
    match huffSym cl l with
    | none => none
    | some (s, l) =>
      if s < 16 then readLens cl n fuel l (s :: acc)
      else if s = 16 then
        match acc, takeBits 2 l with
        | x :: _, some (e, l) => readLens cl n fuel l (List.replicate (3 + e) x ++ acc)
        | _, _ => none
      else match takeBits (if s = 17 then 3 else 7) l with
        | some (e, l) => readLens cl n fuel l (List.replicate ((if s = 17 then 3 else 11) + e) 0 ++ acc)
        | none => none

/-- The order in which code length code lengths stand. -/
def clOrder : List Nat := [16, 17, 18, 0, 8, 7, 9, 6, 10, 5, 11, 4, 12, 3, 13, 2, 14, 1, 15]

/-- The codes of a dynamic block: literal and length, distance. -/
def dynCodes (l : List Bool) : Option (List Nat × List Nat × List Bool) := do
  let (hlit, l) ← takeBits 5 l
  let (hdist, l) ← takeBits 5 l
  let (hclen, l) ← takeBits 4 l
  if 29 < hlit then none
  let (raw, l) ← takeBits (3 * (hclen + 4)) l
  let cl := (List.range 19).map (fun s => raw / 8 ^ (clOrder.idxOf s) % 8)
  if !huffFull cl then none
  let (l, lens) ← readLens cl (hlit + 257 + hdist + 1) 321 l []
  let lit := lens.take (hlit + 257)
  let dist := lens.drop (hlit + 257)
  if !huffFull lit || !distOk dist then none
  return (lit, dist, l)

/-- A stored block; `n` is the stream's bits, to find the octet boundary. -/
def storedBlock (olen : Nat) (l : List Bool) (acc : List Byte) : Option (List Bool × List Byte) := do
  let l := l.drop (l.length % 8)
  let (len, l) ← takeBits 16 l
  let (nlen, l) ← takeBits 16 l
  if len + nlen ≠ 65535 ∨ olen < acc.length + len ∨ l.length < 8 * len then none
  return (l.drop (8 * len), (packBits (l.take (8 * len))).take len |>.reverse |>.append acc)

/-- One block of the stream; the answer tells its type and whether it was the last. -/
def inflateBlock (olen : Nat) (l : List Bool) (acc : List Byte) : Option (Nat × Bool × List Bool × List Byte) := do
  let (fin, l) ← takeBits 1 l
  let (ty, l) ← takeBits 2 l
  if ty = 0 then
    let (l, acc) ← storedBlock olen l acc
    return (0, fin == 1, l, acc)
  else if ty = 1 then
    let (l, acc) ← inflateCodes fixedLit fixedDist olen (olen + 2) l acc
    return (1, fin == 1, l, acc)
  else if ty = 2 then
    let (lit, dist, l) ← dynCodes l
    let (l, acc) ← inflateCodes lit dist olen (olen + 2) l acc
    return (2, fin == 1, l, acc)
  else none

/-- The blocks up to the last one: their types, the bits after it, and the output, newest first. -/
def inflateBlocks (olen : Nat) : Nat → List Bool → List Byte → List Nat → Option (List Nat × List Bool × List Byte)
  | 0, _, _, _ => none
  | fuel + 1, l, acc, tys =>
    match inflateBlock olen l acc with
    | none => none
    | some (ty, true, l, acc) => some (ty :: tys, l, acc)
    | some (ty, false, l, acc) => inflateBlocks olen fuel l acc (ty :: tys)

/-- A whole stream: its output where it is legal, has `olen` octets and ends within its last octet (R368 items 4 to 6). -/
def inflate (olen : Nat) (s : List Byte) : Option (List Byte × List Nat × List Bool) :=
  match inflateBlocks olen (8 * s.length) (toBits s) [] [] with
  | none => none
  | some (tys, rest, acc) => if acc.length = olen ∧ rest.length < 8 then some (acc.reverse, tys, rest) else none

/-! ### Compression (R358, R362, R363) -/

/-- The bits of a code, most significant first. -/
def codeBits (n v : Nat) : List Bool := (List.range n).map (fun i => v.testBit (n - 1 - i))

/-- A stream of one static block that holds literals only. -/
def staticLits (b : List Byte) : List Byte :=
  packBits ([true, true, false] ++
    b.flatMap (fun x => if x.toNat < 144 then codeBits 8 (0x30 + x.toNat) else codeBits 9 (0x190 + (x.toNat - 144))) ++
    codeBits 7 0)

/-- A stream of one dynamic block that holds literals only: codes of 8 bits for octets 0 to 254, of 9 bits for octet 255
and the end of block. -/
def dynLits (b : List Byte) : List Byte :=
  let three (v : Nat) : List Bool := (List.range 3).map (fun i => v.testBit i)
  let head := [true, false, true] ++ List.replicate 5 false ++ List.replicate 5 false ++ [true, true, false, false] ++
    [1, 0, 0, 3, 2, 0, 3].flatMap three
  let c8 := [true, false]
  let c9 := [true, true, true]
  let c0 := [true, true, false]
  let c16 := [false, true, true]
  packBits (head ++ c8 ++ (List.replicate 42 c16).flatten ++ c8 ++ c8 ++ c9 ++ c9 ++ c0 ++
    b.flatMap (fun x => if x.toNat < 255 then codeBits 8 x.toNat else codeBits 9 510) ++ codeBits 9 511)

/-- A stream a core may produce for a block under a Huffman choice: 1 static, 2 dynamic (R358, R363). -/
def legalStream (ty : Nat) (b s : List Byte) : Bool :=
  decide (s.length ≤ (9 * b.length + 7) / 8 + 64) &&
  match inflate b.length s with
  | some (out, tys, rest) => out == b && tys.all (fun t => t == ty) && rest.all (fun x => !x)
  | none => false

/-- The stream for a block with one kind of table. -/
def streamOf (ty : Nat) (b : List Byte) : List Byte :=
  let s := Config.deflateChoice ty [] b
  if legalStream ty b s then s else if ty = 1 then staticLits b else dynLits b

/-- The stream of a block under HUFF 1 to 3, and whether its tables are dynamic (R358). -/
def deflate (huff : Nat) (b : List Byte) : List Byte × Bool :=
  if huff = 1 then (streamOf 1 b, false)
  else if huff = 2 then (streamOf 2 b, true)
  else
    let s := streamOf 1 b
    let d := streamOf 2 b
    if d.length < s.length then (d, true) else (s, false)

/-! ### Worlon blocks (R360 to R363) -/

/-- A block with its frame. -/
def blockFrame (flags : Nat) (b stored : List Byte) : List Byte :=
  [0x4D, 0x5A, 0x01, BitVec.ofNat 8 flags] ++ bytesLE 4 b.length ++ bytesLE 4 stored.length ++ bytesLE 4 (crc32 b) ++ stored

/-- One compressed block: its octets, and whether it is stored raw (R362, R363). -/
def squeezeBlock (huff : Nat) (priv last : Bool) (b : List Byte) : List Byte × Bool :=
  let (s, dyn) := deflate huff b
  let raw := !priv && decide (b.length ≤ s.length)
  (if raw then blockFrame (1 + 4 * bit last) b b else blockFrame (2 * bit dyn + 4 * bit last) b s, raw)

/-- The blocks of a SQUEEZE (R361). -/
def squeezeAll (huff : Nat) (priv : Bool) (size : Nat) (src : List Byte) : List (List Byte × Bool) :=
  let bs := chunks size src
  bs.zipIdx.map (fun e => squeezeBlock huff priv (e.2 + 1 == bs.length) e.1)

/-- The first block of a source, expanded, and what follows it; none where a check of R368 fails. -/
def expandBlock (s : List Byte) : Option (List Byte × List Byte × Bool) :=
  let flags := (s.getD 3 0).toNat
  let olen := natLE ((s.drop 4).take 4)
  let slen := natLE ((s.drop 8).take 4)
  let raw := flags.testBit 0
  let rest := s.drop (16 + slen)
  let stored := (s.drop 16).take slen
  if s.length < 16 ∨ s.take 3 ≠ [0x4D, 0x5A, 0x01] ∨ 8 ≤ flags ∨ olen = 0 ∨ 65536 < olen ∨ (raw ∧ slen ≠ olen) ∨
      s.length < 16 + slen then none else
  let out := if raw then some stored else (inflate olen stored).map (·.1)
  match out with
  | none => none
  | some b =>
    if crc32 b ≠ natLE ((s.drop 12).take 4) ∨ (flags.testBit 2 != rest.isEmpty) then none
    else some (b, rest, flags.testBit 2)

/-- The blocks of an EXPAND up to its end or the first that fails: `true` where every block passed. -/
def expandAll : Nat → List Byte → List (List Byte) × Bool
  | 0, _ => ([], false)
  | fuel + 1, s =>
    match expandBlock s with
    | none => ([], false)
    | some (b, _, true) => ([b], true)
    | some (b, rest, false) => let (l, ok) := expandAll fuel rest; (b :: l, ok)

/-- The whole blocks that fit a length, and whether all did (R366). -/
def fitBlocks : Nat → List (List Byte) → List Byte × Bool
  | _, [] => ([], true)
  | n, b :: r =>
    if n < b.length then ([], false) else let (l, ok) := fitBlocks (n - b.length) r; (b ++ l, ok)

end Sys2Proof.Machine
end

