-- ==== Sys2Proof/Machine/Millstone.lean ====
section
/-! DEFINITION. The millstone: SQUEEZE and EXPAND jobs and the expansion of received payloads (chapter 15). -/
namespace Sys2Proof.Machine
namespace Chip

/-- HUFF as it resolves for a job: 1 static, 2 dynamic, 3 smaller (R358, R364, R374). -/
def huffOf (c : Chip) (q : Nat) (p : Prog) : Nat :=
  let h := p.cur.opt / 64 % 4
  if h ≠ 0 then h else
  let n := c.stepPath q p.cur
  let v := (c.rd (.MIL_PHUF (n / 32))).toNat / 4 ^ (n % 32) % 4
  if v = 0 then 1 else v

/-- The job options of R364. -/
def millOptOk (p : Prog) (squeeze : Bool) : Bool :=
  let o := p.cur.opt
  p.aux == 0 && o / 4096 == 0 && o % 64 == 0 && (squeeze || o == 0)

/-- The SQUEEZE and EXPAND steps: their checks, then the job (R361, R364). -/
def millStep (c : Chip) (now q : Nat) (squeeze : Bool) (p : Prog) : Chip :=
  let dst := p.cur.dsel == 4 || (p.buffer p.cur.dsel).isSome
  let st := if squeeze && p.cur.opt / 64 % 4 == 0 then c.pathStatus q (c.stepPath q p.cur) else 0
  match srcLen p with
  | none => c.failStep now q p stStep
  | some len =>
    if !millOptOk p squeeze || !dst || decide (0x1000000 < len) || (squeeze && len == 0) then c.failStep now q p stStep
    else if st ≠ 0 then c.failStep now q p st
    else
      let j : Job := { q := some q, part := c.quePart q, cls := c.queClass q, len := len, since := now }
      ((c.setJobs .mill (c.jobs .mill ++ [j])).setProg q { p with phase := .job }).syncQ q

/-- A job takes its source when it starts. -/
def millBegin (c : Chip) (now q : Nat) (p : Prog) (j : Job) : Chip × Job :=
  if p.rx.isSome then (c, j) else
  match c.readSrc now q p with
  | (c, .error st) => (c, { j with bad := st })
  | (c, .ok src) => (c, { j with data := src })

/-- The result of a job as blocks: those that passed, and the status where one failed (R368). -/
def millBlocks (c : Chip) (q : Nat) (p : Prog) (j : Job) : Chip × List (List Byte) × Nat :=
  if p.cur.op = 6 then
    let bs := squeezeAll (c.huffOf q p) (c.gb (.QUE_CFG q) QUE_CFG.PRIV) ((p.cur.opt / 256 % 16 + 1) * 4096) j.data
    let n := (bs.filter (·.2)).length
    (c.sf .MIL_STAT MIL_STAT.RAWBLK (min (c.gf .MIL_STAT MIL_STAT.RAWBLK + n) MIL_STAT.RAWBLK.max), bs.map (·.1), 0)
  else
    let (bs, ok) := expandAll (j.data.length / 16 + 1) j.data
    (if ok then c else c.inc .MIL_STAT MIL_STAT.FMTERR, bs, if ok then 0 else stFormat)

/-- The blocks go to staging, or as far as whole blocks fit to the destination (R365, R366). -/
def millWrite (c : Chip) (now q : Nat) (p : Prog) (bs : List (List Byte)) (st : Nat) : Chip :=
  if p.cur.dsel = 4 then
    let out := bs.flatten
    if 16384 < out.length then c.failStep now q p stStep
    else if st ≠ 0 then c.failStep now q p st
    else c.finish now q p {} (some ⟨out, p.cur.op, c.stepPath q p.cur, none⟩)
  else
    let (a, n) := (p.buffer p.cur.dsel).getD (0, 0)
    let (out, all) := fitBlocks n bs
    let (c, e, len) := c.writeBuf now q a n out
    c.finish now q p { status := if e ≠ 0 then e else if !all then stTruncated else st, len := len }

/-- A received payload has been expanded for its RECV (R367). -/
def recvExpanded (c : Chip) (now q : Nat) (p : Prog) (i : RxItem) (bs : List (List Byte)) (st : Nat) : Chip :=
  let (a, n) := (p.buffer p.cur.dsel).getD (0, 0)
  let (out, all) := fitBlocks n bs
  let (c, e, len) := c.writeBuf now q a n out
  c.recvDone now q p (rxRep i (if e ≠ 0 then e else if !all then stTruncated else st) len)

/-- A job ends on its core. -/
def millDone (c : Chip) (now q : Nat) (j : Job) : Chip :=
  match (c.que q).prog with
  | none => c.jobGone .mill j
  | some p =>
    let (a, n) := (p.buffer p.cur.dsel).getD (0, 0)
    if c.rangeHeld a n then c else
    let c := (c.jobGone .mill j).inc .MIL_STAT MIL_STAT.JOBS
    if j.bad ≠ 0 then (c.failStep now q p j.bad).settleQ now q else
    let (c, bs, st) := c.millBlocks q p j
    match p.rx with
    | some i => c.recvExpanded now q p i bs st
    | none => (c.millWrite now q p bs st).settleQ now q

/-- A job of the millstone starts, if one may (R369). -/
def millStart (c : Chip) (now : Nat) : Chip :=
  if !c.poolOn .mill then c else
  match c.pick .mill (fun _ => true), (c.freeCores .mill).head? with
  | some (j, x), some i =>
    let c := (c.setShare .mill x).jobCounts now .mill (fun _ => true) j
    let j := { j with lost := false }
    (match j.q.bind (fun q => (c.que q).prog.map (fun p => (q, p))) with
     | none => c
     | some (q, p) =>
       let (c, j') := if j.begun then (c, j) else c.millBegin now q p j
       c.occupy .mill i j j')
  | _, _ => c

end Chip

/-- `SQUEEZE` (R295, R358 to R366). -/
def execSqueeze (q : BitVec 12) (s : State) : Out :=
  s.act (fun now c => c.stepCmd now q.toNat 6 (fun c p => c.millStep now q.toNat true p))

/-- `EXPAND` (R364, R366, R368). -/
def execExpand (q : BitVec 12) (s : State) : Out :=
  s.act (fun now c => c.stepCmd now q.toNat 7 (fun c p => c.millStep now q.toNat false p))

/-- `COMPRESSION_JOB_START` (R369). -/
def execCompressionJobStart (s : State) : Out := s.act (fun now c => c.millStart now)

/-- `COMPRESSION_JOB_END` (R366 to R368, R372). -/
def execCompressionJobEnd (k : Fin 8) (s : State) : Out :=
  s.act (fun now c =>
    match c.jobOn .mill k with
    | some j => (match j.q with | some q => if c.poolOn .mill then c.millDone now q j else c | none => c)
    | none => c)

/-- `MILLSTONE_CORE_ERROR` (R371). -/
def execMillstoneCoreError (k : Fin 8) (s : State) : Out := s.act (fun now c => c.coreError now .mill k)

/-- `MILLSTONE_CORE_OUT` (R371). -/
def execMillstoneCoreOut (ag : Agent) (k : Fin 8) (v : Bool) (s : State) : Out :=
  s.act (fun _ c => if c.poolOn .mill && c.mayWrite ag (.MIL_CORE k) then c.coreOut .mill k v else c)

end Sys2Proof.Machine
end

