-- ==== Sys2Proof/Machine/Aborts.lean ====
section
/-! DEFINITION. Tag grants, aborts of queues, paths and partitions, and the programming of the epoch reservation (R298,
R299, R306, R311, R312, R353, R370). -/
namespace Sys2Proof.Machine

/-- A program's current step uses the path it names. -/
def Prog.onPath (p : Prog) : Bool :=
  let o := p.copt
  p.cur.op == 1 || p.cur.op == 2 || p.cur.op == 11 || (p.cur.op == 3 && p.cur.opt % 4 == 2) ||
  ((p.cur.op == 4 || p.cur.op == 5) && (o.mode == 0 || !o.ksrc)) || (p.cur.op == 6 && p.cur.opt / 64 % 4 == 0)

/-- The step has begun and has not ended. -/
def Prog.inStep (p : Prog) : Bool :=
  match p.phase with
  | .ready => false
  | .posting _ => false
  | _ => true

namespace Chip

/-- `n` octets the specification leaves undefined. -/
def freeBytes (c : Chip) (n : Nat) : Chip × List Byte :=
  ({ c with free := c.free + n }, (List.range n).map (fun i => (Config.freeValue (c.free + i)).setWidth 8))

/-- What a stopped job leaves in its destination: undefined octets for SEAL and SQUEEZE, some of its whole blocks for
EXPAND (R353, R370). -/
def stoppedOutput (c : Chip) (now q : Nat) (p : Prog) (j : Job) : Chip :=
  match p.buffer p.cur.dsel with
  | none => c
  | some (a, n) =>
    if !j.begun || c.rangeStatus (c.queOwner q) a n != 0 then c
    else if p.cur.op = 4 ∨ p.cur.op = 6 then
      let (c, l) := c.freeBytes n
      c.engPut now (c.queOwner q) a l
    else if p.cur.op = 7 then
      let bs := (expandAll (j.data.length / 16 + 1) j.data).1
      let (i, c) := c.draw
      let (out, _) := fitBlocks n (bs.take ((Config.freeValue i).toNat % (bs.length + 1)))
      c.engPut now (c.queOwner q) a out
    else c

/-- The jobs of a queue's program stop (R353, R370). -/
def stopJobs (c : Chip) (now q : Nat) (p : Prog) : Chip :=
  let l := (c.jobs .cipher ++ c.jobs .mill).filter (fun j => j.q == some q)
  (l.foldl (fun c j => c.stoppedOutput now q p j) c).cancelJobs q

/-- The tags and the store room that the current step holds return (R298). -/
def stepTags (c : Chip) (now q : Nat) (p : Prog) : Chip :=
  let c := c.unparkTag q
  let c := c.unreserve now q p
  let holds := p.cur.op == 2 && (match p.phase with | .recv _ => true | .job => true | _ => false)
  if holds then c.dropTag now (c.stepPath q p.cur) else c

/-! ### Tag grants (R299) -/

/-- The step that waits may be served now. -/
def grantable (c : Chip) (q : Nat) : Bool :=
  match (c.que q).prog with
  | some p =>
    let n := c.stepPath q p.cur
    let len := (srcLen p).getD 0
    p.phase == .tag && !c.stepBlocked q p &&
    (if p.cur.op == 2 || !c.pWcp n then c.tagFree n && !(p.cur.op == 1 && c.flt.partBrakes.contains (c.pOwner n))
     else (match c.wcpRoom n len with | .waits _ => false | _ => true) && !c.flt.partBrakes.contains (c.pOwner n))
  | none => false

/-- The waiting step served first: CLASS of its path, then arrival. -/
def grantNext (c : Chip) : Option Nat :=
  let key (q : Nat) : Nat := match (c.que q).prog with | some p => c.pathClass (c.stepPath q p.cur) | none => 4
  (c.chan.tagQ.filter c.grantable).foldl
    (fun b q => match b with | none => some q | some r => if key q < key r then some q else some r) none

/-- A waiting step is served: it starts over with its tag free. -/
def tagServe (c : Chip) (now q : Nat) : Chip :=
  match (c.que q).prog with
  | none => c
  | some p =>
    let c := c.unparkTag q
    let c := if p.cur.op = 1 then c.sendStep now q p
      else if p.cur.op = 2 then c.recvStep now q p
      else if p.cur.op = 4 then c.cipherStep now q true p
      else c
    c.settleQ now q

/-- `TAG_GRANT`: the primary decides the order and tells it; a standby follows (R299, R427). -/
def tagGrantTo (c : Chip) (now q : Nat) : Chip :=
  if !c.millOn || c.following || c.grantNext != some q then c
  else (c.leatSend (.chndec (.tagGrant (BitVec.ofNat 12 q)))).tagServe now q

/-! ### Aborts: steps 1 and 2 (R311, R312) -/

/-- A queue's abort begins. -/
def abortQueue (c : Chip) (now q : Nat) : Chip :=
  let x := c.que q
  if !c.millOn || !c.queEn q || x.abort.isSome then c else
  let (c, r) := c.lineA now q 0
  let door := match r with | .ok d => d | .error _ => x.door
  let c := c.updQue q (fun x => { x with abort := some ⟨door⟩, door := door })
  let c := (c.sf (.QUE_STAT q) QUE_STAT.STATE 4).sf (.QUE_GEN q) QUE_GEN.GEN ((c.queGen q + 1) % 65536)
  let c := if c.rangeStatus (c.queOwner q) (c.ctla q) 128 = 0 then c.lineB now q else c
  if c.standby then c
  else c.leatSend (.chndec (.abortStop (BitVec.ofNat 12 q) (BitVec.ofNat 8 ((x.prog.map Prog.stepNo).getD 255))))

/-- A path's abort begins. -/
def abortPath (c : Chip) (n : Nat) : Chip :=
  if !c.millOn || !c.pEn n then c else c.updPth n (fun x => { x with abort := true })

/-- The queues and paths of a partition. -/
def partQueues (c : Chip) (p : Nat) : List Nat :=
  (List.range 4096).filter (fun q => c.queEn q && c.queOwner q == some p)
def partPaths (c : Chip) (p : Nat) : List Nat := (List.range 1024).filter (fun n => c.pEn n && c.pOwner n == p)

/-- A requester leaves its barrier groups (R244); a lane that waits in one is released. -/
def barQuit (c : Chip) (key : Nat) : Chip :=
  let gs := (List.range 16).filter (fun g => c.barMember g key)
  let c := (gs.filter (fun g => (c.bar g).arrived.contains key)).foldl (fun c g => c.barRelease g key) c
  let c := c.updPort key (fun p => { p with barOut := gs.foldl setBit p.barOut })
  gs.foldl (fun c g => c.barLeave key g) c

/-- What a partition abort does to a requester: an open transaction is discarded (R264), stores not forwarded are
discarded, outstanding device writes abandoned (R249, R250), and its barrier groups left (R244). -/
def abortKey (c : Chip) (key : Nat) : Chip :=
  let till := if c.tstate (key / 3) = tBraked then 0 else ((c.lanesOf key).map (fun k => (c.lane k).storeSeq)).foldl max 0
  let c := c.updPort key (fun p => { p with
    devOut := [], late := p.late ++ p.devOut, dropTo := till
    tx := if p.tx.voted then p.tx else { p.tx with ended := true, wset := [], recs := [], base := [], rset := [], rdone := [], pendAbort := none } })
  c.barQuit key

/-- What a partition abort does to the triads of the partition: also, sweeps stop (R191). -/
def abortTriad (c : Chip) (t : Nat) : Chip :=
  (c.keysOf t).foldl (fun c k => c.abortKey k) ([0, 1, 2].foldl (fun c i => c.sweepStop (3 * t + i)) c)

/-- A partition's abort begins: its queues and paths in parallel, and its triads' work. -/
def abortPart (c : Chip) (now p : Nat) : Chip :=
  let c := (c.triadsOf p).foldl (fun c t => c.abortTriad t) c
  (c.partPaths p).foldl (fun c n => c.abortPath n) ((c.partQueues p).foldl (fun c q => c.abortQueue now q) c)

/-! ### Steps 3 to 5 -/

/-- Frames of an egress that are withdrawn (R298, R311). -/
def withdraw (c : Chip) (now : Nat) (w : EFrame → Bool) : Chip :=
  c.chan.egress.keys.foldl (fun c ln =>
    let x := c.eg ln
    (x.queue.filter w).foldl (fun c f => c.frameGone now f) (c.setEg ln { x with queue := x.queue.filter (fun f => !w f) })) c

/-- Frames of a queue that were sealed and not sent leave the store (R353). -/
def withdrawSealed (c : Chip) (now q : Nat) : Chip :=
  c.chan.paths.keys.foldl (fun c n =>
    ((c.pth n).frames.filter (fun f => f.q == some q)).foldl (fun c f => c.withdrawFrame now n f.seq) c) c

/-- The program of a queue stops at its current step. -/
def stopProg (c : Chip) (now q : Nat) : Chip :=
  match (c.que q).prog with
  | none => c
  | some p =>
    let c := (c.stopJobs now q p).stepTags now q p
    ((c.updQue q (fun x => { x with prog := none })).freeCpu q)

/-- Old completions are discarded, the `ABORTED` one is posted; a queue whose rings are foreign counts it only (R285,
R292). -/
def abortPost (c : Chip) (now q : Nat) : Chip :=
  let o := c.queOwner q
  let c := c.post q ⟨c.queGen q, 0xFFFF, { status := stAborted }, false⟩
  if c.rangeStatus o (c.trBase q) (32 * c.trSize q) = 0 ∧ c.rangeStatus o (c.ctla q) 128 = 0 then
    (c.lineB now q).settleQ now q
  else c.dropPosts q

/-- The work of an aborted queue has stopped (R311 steps 3 to 5). -/
def queueStopped (c : Chip) (now q : Nat) : Chip :=
  let x := c.que q
  match x.abort with
  | none => c
  | some a =>
    let follows := !c.following || (match c.abortStep q, x.prog with
      | some s, some p => decide (s ≤ p.stepNo)
      | some _, none => true
      | none, _ => false)
    if !c.millOn || !follows then c else
    let c := { c with pair := { c.pair with decs := c.pair.decs.filter (fun d => match d with
      | .abortStop k _ => k.toNat != q | _ => true) } }
    let c := ((c.stopProg now q).withdraw now (fun f => f.q == some q && f.tag)).withdrawSealed now q
    let c := c.updQue q (fun x => { x with abort := none, hrhead := a.door })
    (c.sf (.QUE_STAT q) QUE_STAT.STATE 1).abortPost now q

/-- The steps on an aborted path fail with `ABORTED` in their own completions. -/
def failOnPath (c : Chip) (now n : Nat) : Chip :=
  c.chan.ques.keys.foldl (fun c q =>
    match (c.que q).prog with
    | some p =>
      if p.onPath && p.inStep && c.stepPath q p.cur == n && (c.que q).abort.isNone then
        ((((c.stopJobs now q p).stepTags now q p).failStep now q { p with resv := 0 } stAborted).settleQ now q)
      else c
    | none => c) c

/-- Every unacknowledged frame is dropped and its tags return; the timer stops. -/
def dropFrames (c : Chip) (now n : Nat) : Chip :=
  let gone := (c.pth n).frames
  let c := c.updPth n (fun x => { x with
    frames := [], timer := none, expiries := 0, ackFrom := none, rxq := [] })
  gone.foldl (fun c _ => c.dropTag now n) c

/-- The work of an aborted path has stopped (R311 steps 3 to 5, R302, R305); SAFE frames still leave (R395). -/
def pathStopped (c : Chip) (now n : Nat) : Chip :=
  if !c.millOn || !(c.pth n).abort then c else
  let c := ((c.failOnPath now n).withdraw now (fun f => f.path == n && f.kind != .safe)).dropFrames now n
  let c := (c.sf (.CHN_PATHSTAT n) CHN_PATHSTAT.DOWN 0).sf (.CHN_PATHSTAT n) CHN_PATHSTAT.PEERVALID 0
  let c := if c.pWcp n then c.raiseEpoch now n true else c
  let c := c.updPth n (fun x => { x with abort := false })
  let q := c.gf (.CHN_PATHCFG n) CHN_PATHCFG.QUEUE
  if c.queEn q then
    (c.post q ⟨c.queGen q, 0xFFFF, { status := stAborted, path := n }, false⟩).settleQ now q
  else c

/-- The work of a partition has stopped: its queues, its paths and its unwrap (R311, R345). -/
def partStopped (c : Chip) (now p : Nat) : Chip :=
  let c := (c.partQueues p).foldl (fun c q => c.queueStopped now q) c
  ((c.partPaths p).foldl (fun c n => c.pathStopped now n) c).unwrapAbandon now p

/-- An abort command for a target. -/
def abortTarget (c : Chip) (now : Nat) : AbortTarget → Chip
  | .queue q => c.abortQueue now q.toNat
  | .path n => c.abortPath n.toNat
  | .part p => c.abortPart now p.toNat

/-! ### The epoch reservation (R306) -/

/-- The device's flash, by port (0 or 1) and offset; an erased octet reads 0xFF (R461). -/
def flashKey (port off : Nat) : Nat := 2 ^ 32 * port + off
def flashRd (c : Chip) (port off n : Nat) : List Byte := (List.range n).map (fun i => c.flash.get 0xFF (flashKey port (off + i)))
def flashWr (c : Chip) (port : Nat) : Nat → List Byte → Chip
  | _, [] => c
  | off, b :: r =>
    ({ c with flash := c.flash.put 0xFF (flashKey port off) b }).flashWr port (off + 1) r
def flashErase (c : Chip) (port off n : Nat) : Chip :=
  { c with flash := c.flash.dropKeys (fun k => decide (flashKey port off ≤ k) && decide (k < flashKey port (off + n))) }

/-- The epoch reservation area. -/
def resvArea : Nat := 0x110000
def resvRecords : Nat := 0x2000

/-- A record of the area. -/
def resvRecord (h : Nat) : List Byte :=
  let hi := 0x4552 * 65536 + h
  bytesLE 4 (crc32c (bytesLE 4 hi)) ++ bytesLE 4 hi

/-- The H of a record, if it is valid. -/
def resvOf (l : List Byte) : Option Nat :=
  let h := natLE (l.drop 4) % 65536
  if l = resvRecord h then some h else none

/-- The latest valid H of a port's area. -/
def resvLast (c : Chip) (port : Nat) : Option Nat :=
  (List.range resvRecords).foldl (fun b i =>
    match resvOf (c.flashRd port (resvArea + 8 * i) 8) with | some h => some h | none => b) none

/-- Appends a record at a port; a full area is erased first. -/
def resvAppend (c : Chip) (port h : Nat) : Chip :=
  let erased := List.replicate 8 (0xFF : Byte)
  match (List.range resvRecords).find? (fun i =>
      (List.range (resvRecords - i)).all (fun j => c.flashRd port (resvArea + 8 * (i + j)) 8 == erased)) with
  | some i => c.flashWr port (resvArea + 8 * i) (resvRecord h)
  | none => (c.flashErase port resvArea 0x10000).flashWr port resvArea (resvRecord h)

/-- The flash ports fitted: `BOOT_SEL` 0b000 fits both (R452). -/
def flashPorts (c : Chip) : List Nat :=
  match c.gf .CFG_STAT CFG_STAT.BOOTSEL with
  | 0 => [0, 1]
  | 1 => [0]
  | 2 => [1]
  | _ => []

/-- The latest reservation of the fitted devices: the higher one; 0 with no valid record. -/
def resvKept (c : Chip) : Nat := (c.flashPorts.map (fun p => (c.resvLast p).getD 0)).foldl max 0

/-- A reservation is in every fitted device, and in `EHIGH`. -/
def resvWrite (c : Chip) (h : Nat) : Chip :=
  (c.flashPorts.foldl (fun c p => c.resvAppend p h) c).sf .CHN_WCPCFG CHN_WCPCFG.EHIGH h

/-- The miller begins to program the reservation raised by 64 (R306). -/
def resvBegin (c : Chip) : Chip :=
  if !c.off && c.chan.resv.isNone && c.resvLow then
    c.modChan (fun h => { h with resv := some ((c.gf .CHN_WCPCFG CHN_WCPCFG.EHIGH + 64) % 65536) })
  else c

/-- The program has ended: the reservation holds, and the rises that waited go on. -/
def resvEnd (c : Chip) (now : Nat) : Chip :=
  match c.chan.resv with
  | none => c
  | some h => ((c.modChan (fun x => { x with resv := none })).resvWrite h).resumeRises now

end Chip

/-- `TAG_GRANT` (R298, R299). -/
def execTagGrant (q : BitVec 12) (s : State) : Out := s.act (fun now c => c.tagGrantTo now q.toNat)

/-- `QUEUE_ABORT` (R311 steps 1 and 2, R312). -/
def execQueueAbort (ag : Agent) (q : BitVec 12) (s : State) : Out :=
  s.act (fun now c => if c.mayWrite ag (.QUE_CMD q.toNat) then c.abortQueue now q.toNat else c)

/-- `PATH_ABORT` (R311 step 1, R312). -/
def execPathAbort (ag : Agent) (n : BitVec 10) (s : State) : Out :=
  s.act (fun _ c => if c.mayWrite ag (.CHN_PATHCTL n.toNat) then c.abortPath n.toNat else c)

/-- `EPOCH_RESERVATION_PROGRAM` (R306). -/
def execEpochReservationProgram (s : State) : Out := s.act (fun _ c => c.resvBegin)

/-- `EPOCH_RESERVATION_END` (R306). -/
def execEpochReservationEnd (s : State) : Out := s.act (fun now c => c.resvEnd now)

end Sys2Proof.Machine
end

