-- ==== Sys2Proof/Machine/Lanes.lean ====
section
/-! DEFINITION. Frames arriving on lanes, links, PTP and PPS, and the field lanes' errors and loops (chapter 13, R284,
R307, R427, R446). -/
namespace Sys2Proof.Machine
namespace Chip

/-! ### Exports of a cascade (R446) -/

/-- The export that binds a local path. -/
def exportOf (c : Chip) (n : Nat) : Option Nat :=
  if c.gf .PAR_CFG PAR_CFG.TOPO ≠ 2 then none else
  (List.range 64).find? (fun e => c.gb (.CAS_EXPORT e) CAS_EXPORT.EN && c.gf (.CAS_EXPORT e) CAS_EXPORT.PATH == n)

/-- The PATH field a received WCP frame of the path carries: on an exported path the importer's global number. -/
def rxPathNo (c : Chip) (n : Nat) : Nat :=
  match c.exportOf n with
  | some e => 1024 * c.gf (.CAS_EXPORT e) CAS_EXPORT.DEV + c.gf (.CAS_EXPORT e) CAS_EXPORT.PROXY
  | none => n

/-! ### Matching (R284, R320, R321) -/

/-- What an Ethernet frame gives a path: the WCP frame or the octets after the EtherType or UDP header; none where it does
not match. `f` is the frame without its FCS. -/
def ethMatch (c : Chip) (n : Nat) (f : List Byte) : Option (List Byte) :=
  match ethView f with
  | none => none
  | some v =>
    let vlan := if c.pVlan n then v.vid == some (c.gf (.CHN_PATHMATCH0 n) CHN_PATHMATCH0.VID) else v.vid.isNone
    let whole (b : List Byte) : Option (List Byte) :=
      if c.pWcp n && be b 2 2 != c.rxPathNo n then none else some b
    if v.src ≠ c.pAddr n ∨ !vlan then none
    else if c.pUdp n then
      if v.typ ≠ 0x0800 then none else
      match udpView (c.gf (.LAN_IP (c.pLane n)) LAN_IP.ADDR) v.body with
      | some u => if u.peer = c.pPeer n ∧ u.port = c.pPort n then whole u.payload else none
      | none => none
    else if v.typ = (if c.pWcp n then c.gf .CHN_WCPCFG CHN_WCPCFG.ETYPE else c.pPort n) then whole v.body
    else none

/-- What a frame on a lane gives a path. -/
def frameMatch (c : Chip) (n : Nat) : RxFrame → Option (List Byte)
  | .eth b => c.ethMatch n (b.take (b.length - 4))
  | .can ide id _ _ _ _ d =>
    if ide = (c.pAddr n).testBit 29 ∧ c.pAddr n % 2 ^ 29 ≤ id.toNat ∧ id.toNat ≤ c.pPeer n % 2 ^ 29 then some d else none
  | .hdlc o _ => if oct o 0 = c.pAddr n % 256 then some ((o.take (o.length - 2)).drop 1) else none
  | .async o _ => some (o.take 2048)

/-- The lowest-numbered enabled path that takes a frame of a lane, and its octets (R284). -/
def findPath (c : Chip) (ln : Nat) (f : RxFrame) : Option (Nat × List Byte) :=
  (List.range 1024).findSome? (fun n =>
    if c.pEn n && c.pLane n == ln then (c.frameMatch n f).map (fun b => (n, b)) else none)

/-- Frame flags of a completion (R333). -/
def rxFlags : RxFrame → Nat
  | .can _ _ fdf brs esi _ _ => bit fdf + 2 * bit brs + 4 * bit esi
  | .async _ errs => bit (errs != 0)
  | _ => 0

/-! ### Acceptance on the lane (R317, R328, R331, R332) -/

/-- The frame is a PAUSE frame (Annex 31B): its quanta. -/
def pauseOf (b : List Byte) : Option Nat := if be b 12 2 = 0x8808 ∧ be b 14 2 = 1 then some (be b 16 2) else none

/-- A SerDes lane receives: its link is up and it is not in far-end loop. -/
def rxOpen (c : Chip) (ln : Nat) : Bool :=
  decide (ln < 20) && c.linkUp ln && c.gf (.LAN_CTL ln) LAN_CTL.LOOP != 2 && !c.flt.idle

/-- A pause of transmission: 512 bit times a quantum; 0 ends it. -/
def pauseLane (c : Chip) (now ln quanta : Nat) : Chip :=
  if !c.gb (.LAN_CFG ln) LAN_CFG.PAUSEEN then c else
  let c := c.updEg ln (fun x => { x with pausedTill := now + quanta * 512 / c.laneRate ln })
  (c.sf (.LAN_STAT ln) LAN_STAT.PAUSED (bit (quanta != 0))).kick now ln

/-- The owner of a SerDes lane (R402). -/
def lanParty (c : Chip) (ln : Nat) : Option Nat :=
  let o := c.lanOwner.get 64 ln
  if o = 64 then none else some o

/-- The lane's own checks of an Ethernet frame: true where it goes to path matching. -/
def ethAccept (c : Chip) (now ln : Nat) (b : List Byte) : Chip × Bool :=
  if !c.rxOpen ln then (c, false)
  else if withFcs (b.take (b.length - 4)) ≠ b then ((c.inc (.LAN_CNT ln) LAN_CNT.FCSERR).corrected now 12, false)
  else
    let own := be b 0 6 == c.gf (.LAN_MAC ln) LAN_MAC.MAC || (oct b 0).testBit 0
    if b.length < 64 ∨ c.gf (.LAN_CFG ln) LAN_CFG.MAXFRAME < b.length ∨ !own then (c, false)
    else match pauseOf b with
      | some k => (c.pauseLane now ln k, false)
      | none => (c, true)

/-- The receiver of a half-duplex line is off while `DE` is high (R331, R332). -/
def deaf (c : Chip) (ln : Nat) : Bool :=
  (c.eg ln).de && !(c.fldMode (ln - 0x40) == 2 && c.gb (.FLD_CFG (ln - 0x40)) FLD_CFG.FULLDUP)

/-- A count of a field lane rises by `n`, saturating. -/
def fldCount (c : Chip) (k : Nat) (f : Fld) (n : Nat) : Chip :=
  c.sf (.FLD_CNT k) f (min (c.gf (.FLD_CNT k) f + n) f.max)

/-- The lane's own checks of a field frame, in the lane's mode. -/
def fldAccept (c : Chip) (ln : Nat) (f : RxFrame) : Chip × Bool :=
  let k := ln - 0x40
  if !c.gb (.FLD_CFG k) FLD_CFG.EN || !c.domainOn 26 then (c, false) else
  match f, c.fldMode k with
  | .can _ _ _ _ _ remote _, 0 =>
    if c.gf (.FLD_STAT k) FLD_STAT.CANST = 2 then (c, false)
    else if remote then (c.fldCount k FLD_CNT.RXERR 1, false)
    else
      let rec_ := c.gf (.FLD_STAT k) FLD_STAT.REC
      ((c.sf (.FLD_STAT k) FLD_STAT.REC (if 127 < rec_ then 119 else rec_ - 1)).canState k, true)
  | .hdlc o aborted, 1 =>
    if c.deaf ln then (c, false)
    else if aborted then (c.fldCount k FLD_CNT.ERRFR 1, false)
    else
      let b := o.take (o.length - 2)
      if o.length < 3 ∨ 2051 < o.length ∨ b ++ bytesLE 2 (crc16 b) ≠ o then (c.fldCount k FLD_CNT.RXERR 1, false)
      else (c, true)
  | .async _ errs, 2 => if c.deaf ln then (c, false) else (c.fldCount k FLD_CNT.RXERR errs.toNat, true)
  | _, _ => (c, false)

/-- The lane's own checks of any frame. -/
def laneAccept (c : Chip) (now ln : Nat) (f : RxFrame) : Chip × Bool :=
  match f with
  | .eth b => if ln < 0x40 then c.ethAccept now ln b else (c, false)
  | f => if 0x40 ≤ ln ∧ ln < 0x80 then c.fldAccept ln f else (c, false)

/-! ### Delivery (R303, R307, R325, R326, R427, R446) -/

/-- The PTP timestamp of a received event message, at its start; a standby, which has no such message of its own, has a
free one. -/
def rxPtp (c : Chip) (now ln : Nat) (f : RxFrame) : Option DWord × Chip :=
  match f with
  | .eth b =>
    if (ptpEvent b).isSome then
      let (t, c) := if c.following then (fun (i, c) => ((Config.freeValue i).toNat, c)) c.draw
        else c.ptpStamp now ln (b.length * 8 / c.laneRate ln)
      (some (BitVec.ofNat 64 t), c)
    else (none, c)
  | _ => (none, c)

/-- Octets for a path: a WCP frame waits to be handled, any other frame goes to a waiting RECV or is dropped. -/
def pathInput (c : Chip) (now n time : Nat) (b : List Byte) (flags : Nat) (ptp : Option DWord) : Chip :=
  if c.pWcp n then c.updPth n (fun x => { x with rxq := x.rxq ++ [(b, time)] })
  else (c.deliverRx now n { bytes := b, time := time, flags := flags, ptp := ptp }).1

/-- A frame of path `n`: an exported path's frame goes round the ring, another is delivered here. -/
def takeFrame (c : Chip) (now ln n time : Nat) (f : RxFrame) (b : List Byte) : Chip :=
  match c.exportOf n with
  | some e =>
    let dev := c.gf (.CAS_EXPORT e) CAS_EXPORT.DEV
    if (c.gf .CAS_STAT CAS_STAT.REACH).testBit dev then
      { c with leat := c.leat ++ [LeatMsg.remoteRx dev (c.gf (.CAS_EXPORT e) CAS_EXPORT.PROXY) time b] }
    else c
  | none =>
    let (ptp, c) := c.rxPtp now ln f
    c.pathInput now n time b (rxFlags f) ptp

/-- The shadow window in ns (R440). -/
def shadowNs (c : Chip) : Nat := 10000 * c.gf .PAR_CFG PAR_CFG.SHADOW

/-- A standby keeps what its own lanes receive (R440). -/
def keepShadow (c : Chip) (now ln : Nat) (f : RxFrame) : Chip :=
  let young := c.pair.shadow.filter (fun e => decide (now ≤ e.2.2 + c.shadowNs))
  { c with pair := { c.pair with shadow := young ++ [(ln, f, now)] } }

/-- A frame the lane has accepted is matched and taken, on a primary after it has been forwarded, unless no RECV
waits for it (R284, R427). -/
def matchFrame (c : Chip) (now ln : Nat) (f : RxFrame) : Chip :=
  if !c.domainOn 19 then c else
  match c.findPath ln f with
  | none => c.inc .CHN_STAT CHN_STAT.NOMATCH
  | some (n, b) =>
    let fwd := c.pWcp n || (c.recvFor n).isSome
    (if fwd then c.leatSend (.input ln n f now) else c).takeFrame now ln n now f b

/-- A frame arrives on a lane (R284). -/
def frameIn (c : Chip) (now ln : Nat) (f : RxFrame) : Chip :=
  if c.off then c else
  match c.laneAccept now ln f with
  | (c, false) => c
  | (c, true) => if c.following then c.keepShadow now ln f else if c.muted then c else c.matchFrame now ln f

/-! ### Links (R322, R323) -/

/-- A retrain begins. -/
def startRetrain (c : Chip) (ln : Nat) : Chip :=
  (((c.sf (.LAN_STAT ln) LAN_STAT.LINK 0).sf (.LAN_STAT ln) LAN_STAT.TRAINING 1).inc (.LAN_STAT ln) LAN_STAT.RETRAINS).bookInc
    (0xA20 + 4 * ln)

/-- Frames waiting at the egress of a lane that is down are discarded. -/
def downDrop (c : Chip) (now ln : Nat) : Chip :=
  let x := c.eg ln
  x.queue.foldl (fun c f => (c.inc (.LAN_CNT ln) LAN_CNT.DOWNDROP).frameGone now f) (c.setEg ln { x with queue := [] })

/-- Loss of link. -/
def linkLost (c : Chip) (now ln : Nat) : Chip :=
  let was := c.gb (.LAN_STAT ln) LAN_STAT.LINK
  if 20 ≤ ln ∨ !was then c else
  let c := c.startRetrain ln
  let c := if c.gb (.LAN_CFG ln) LAN_CFG.CRIT then c.contained now 12 (c.lanParty ln) none else c.corrected now 12
  c.downDrop now ln

/-- The lane is up; one under a live test stays down (R491). -/
def linkGood (c : Chip) (now ln : Nat) : Chip :=
  if 20 ≤ ln ∧ ln < 24 ∧ c.gf .PAR_CFG PAR_CFG.TOPO ≠ 0 then c.sf .PAR_STAT ⟨ln - 4, ln - 4⟩ 1
  else if 20 ≤ ln ∨ !c.gb (.LAN_CFG ln) LAN_CFG.EN ∨ !c.domainOn (20 + ln / 4) ∨ c.gf (.LAN_QCFG (ln / 4)) LAN_QCFG.RATE = 0 ∨
    !(c.testsOn 4 ln).isEmpty then c
  else ((c.sf (.LAN_STAT ln) LAN_STAT.TRAINING 0).sf (.LAN_STAT ln) LAN_STAT.LINK 1).kick now ln

/-- Software asks for a retrain. -/
def retrainLane (c : Chip) (now ln : Nat) : Chip :=
  if 20 ≤ ln ∨ !c.gb (.LAN_CFG ln) LAN_CFG.EN ∨ c.gb (.LAN_STAT ln) LAN_STAT.TRAINING then c
  else (c.startRetrain ln).downDrop now ln

/-- An enabled path names the lane. -/
def pathNames (c : Chip) (code : Nat) : Bool := (List.range 1024).any (fun n => c.pEn n && c.pLane n == code)

/-- A write of LOOP. -/
def loopLane (c : Chip) (now ln v : Nat) : Chip :=
  if v ≠ 0 ∧ c.pathNames ln then c.corrected now 12 else c.sf (.LAN_CTL ln) LAN_CTL.LOOP v

/-- A write of a field lane's LOOP: refused as R323 states, in source 12. -/
def loopField (c : Chip) (now k : Nat) (v : Bool) : Chip :=
  if v && c.pathNames (0x40 + k) then c.corrected now 12 else c.sf (.FLD_CTL k) FLD_CTL.LOOP (bit v)

/-! ### PTP and PPS (R324 to R327, R339) -/

/-- The clock is set to a value with 40 fraction bits; no edge of `PPS_OUT` for seconds it has passed. -/
def ptpPut (c : Chip) (now v : Nat) : Chip :=
  c.modChan (fun h => { h with ptp := { h.ptp with at_ := now, val := v, next := v / 2 ^ 40 / 1000000000 } })

/-- The signed sum of a step. -/
def ptpStep (c : Chip) (now : Nat) (v : DWord) : Chip := c.ptpPut now ((c.ptpFull now + v.toNat * 2 ^ 40) % 2 ^ 104)

/-- A new rate takes effect from now on. -/
def ptpRateWrite (c : Chip) (now : Nat) (v : DWord) : Chip :=
  let full := c.ptpFull now
  (c.modChan (fun h => { h with ptp := { h.ptp with at_ := now, val := full } })).plainWrite now .TIM_PTPRATE v

/-- `PPS_OUT` rises at a whole second. -/
def ppsRise (c : Chip) (now : Nat) : Chip :=
  let sec := c.ptpNow now / 1000000000
  if sec ≤ c.chan.ptp.next then c else
  let high := if c.gb .TIM_PPS TIM_PPS.OUTEN && !c.muted && !c.pair.cut then some (now + 1000 * c.gf .TIM_PPS TIM_PPS.WIDTH)
    else c.chan.ptp.high
  c.modChan (fun h => { h with ptp := { h.ptp with next := sec, high := high } })

/-- `PPS_OUT` falls. -/
def ppsFall (c : Chip) (now : Nat) : Chip :=
  if c.chan.ptp.high.any (fun t => decide (t ≤ now)) then c.modChan (fun h => { h with ptp := { h.ptp with high := none } })
  else c

/-- The level of `PPS_OUT` (R327, R431). -/
def ppsOut (c : Chip) : Bool := c.chan.ptp.high.isSome && !c.muted

/-- A rising edge of `PPS_IN`. -/
def ppsIn (c : Chip) (now : Nat) : Chip :=
  ((c.wr .TIM_PPSIN (BitVec.ofNat 64 (c.ptpNow now))).wr .TIM_PPSNOW (BitVec.ofNat 64 now)).ppsEvent

/-- A write of `TIM_PPS`. -/
def ppsWrite (c : Chip) (now : Nat) (v : DWord) : Chip :=
  let w := TIM_PPS.WIDTH.get v
  let c := c.sf .TIM_PPS TIM_PPS.OUTEN (TIM_PPS.OUTEN.get v)
  if w = 0 then c.corrected now 19 else c.sf .TIM_PPS TIM_PPS.WIDTH w

/-- Removes the oldest transmit timestamp. -/
def txtsPop (c : Chip) (ln : Nat) : Chip := c.updEg ln (fun x => { x with txts := x.txts.drop 1 })

/-! ### Field lanes (R328 to R332, R338) -/

/-- The frame in transmission goes back to the queue. -/
def backToQueue (c : Chip) (now ln : Nat) (f : EFrame) : Chip :=
  c.updEg ln (fun x => { x with cur := none, queue := x.queue ++ [{ f with since := now, lost := false }] })

/-- A CAN transmission ends in lost arbitration or in an error. -/
def canRetry (c : Chip) (now k : Nat) (lostArb : Bool) : Chip :=
  let ln := 0x40 + k
  match (c.eg ln).cur with
  | none => c
  | some f =>
    if c.fldMode k ≠ 0 then c
    else if c.laneCut ln then c.cutLane now ln
    else if lostArb then (c.backToQueue now ln f).kick now ln
    else
      let c := c.fldCount k FLD_CNT.ERRFR 1
      let c := (c.sf (.FLD_STAT k) FLD_STAT.TEC (min (c.gf (.FLD_STAT k) FLD_STAT.TEC + 8) 255)).canState k
      if f.tries < c.gf (.FLD_CFG k) FLD_CFG.RETRY then (c.backToQueue now ln { f with tries := f.tries + 1 }).kick now ln
      else (((c.fldCount k FLD_CNT.DROPS 1).updEg ln (fun x => { x with cur := none })).frameGone now f).kick now ln

/-- A CAN lane enters bus-off. -/
def canOff (c : Chip) (now k : Nat) : Chip :=
  let ln := 0x40 + k
  if !c.gb (.FLD_CFG k) FLD_CFG.EN || c.fldMode k != 0 || c.gf (.FLD_STAT k) FLD_STAT.CANST == 2 then c else
  let c := match (c.eg ln).cur with | some f => c.backToQueue now ln f | none => c
  ((c.sf (.FLD_STAT k) FLD_STAT.CANST 2).fldCount k FLD_CNT.BUSOFF 1).contained now 13
    (some (c.gf (.FLD_CFG k) FLD_CFG.OWNER)) none

/-- Automatic bus-off recovery: both counts 0, error active. -/
def canBack (c : Chip) (now k : Nat) : Chip :=
  if c.gf (.FLD_STAT k) FLD_STAT.CANST ≠ 2 then c else
  (((c.sf (.FLD_STAT k) FLD_STAT.CANST 0).sf (.FLD_STAT k) FLD_STAT.TEC 0).sf (.FLD_STAT k) FLD_STAT.REC 0).kick now (0x40 + k)

/-- The safe levels of a field lane: those of its record, or those that a warm device reset holds until the record is loaded
again (R336). -/
def safeLevels (c : Chip) (k : Nat) : Option (Bool × Bool) :=
  if !c.domainOn 26 || c.off then none
  else if c.gb (.FLD_CFG k) FLD_CFG.EN then some (c.gb (.FLD_CFG k) FLD_CFG.SAFETXD, c.gb (.FLD_CFG k) FLD_CFG.SAFEDE)
  else (c.misc.held.find? (fun e => e.1 == k)).map (fun e => e.2)

/-- The levels of `TXD` and `DE` of a field lane where the lane does not follow its engine: none for high impedance
(R331, R335, R336, R431, R438). -/
def fieldPins (c : Chip) (k : Nat) : Option (Bool × Bool) :=
  (c.safeLevels k).map (fun v => if c.muted || c.pair.cut then (true, false) else v)

end Chip

/-- A lane register write by an agent. -/
def Chip.lanWrite (c : Chip) (ag : Agent) (n : Nat) (f : Chip → Chip) : Chip :=
  if !c.off && c.domainOn (20 + n / 4) && c.mayWrite ag (.LAN_CTL n) && decide (n < 20) then f c else c

/-- `FRAME_RECEIVED` (R284, R317, R328, R331, R332). -/
def execFrameReceived (ln : BitVec 8) (f : RxFrame) (s : State) : Out := s.act (fun now c => c.frameIn now ln.toNat f)

/-- `LINK_LOSS` (R322). -/
def execLinkLoss (n : Fin 24) (s : State) : Out := s.act (fun now c => if c.off then c else c.linkLost now n)

/-- `LINK_UP` (R322). -/
def execLinkUp (n : Fin 24) (s : State) : Out := s.act (fun now c => if c.off then c else c.linkGood now n)

/-- `RETRAIN` (R322, R323). -/
def execRetrain (ag : Agent) (n : Fin 24) (s : State) : Out :=
  s.act (fun now c => c.lanWrite ag n (fun c => c.retrainLane now n))

/-- `LOOP` (R323). -/
def execLoop (ag : Agent) (n : Fin 24) (v : BitVec 2) (s : State) : Out :=
  s.act (fun now c => c.lanWrite ag n (fun c => c.loopLane now n v.toNat))

/-- `PAUSE` (R317): an accepted PAUSE frame. -/
def execPause (n : Fin 24) (quanta : BitVec 16) (s : State) : Out :=
  s.act (fun now c => if !c.off && c.rxOpen n then c.pauseLane now n quanta.toNat else c)

/-- `PAUSE_END` (R317). -/
def execPauseEnd (n : Fin 24) (s : State) : Out :=
  s.act (fun now c =>
    if c.off || decide (now < (c.eg n).pausedTill) then c else (c.sf (.LAN_STAT n) LAN_STAT.PAUSED 0).kick now n)

/-- `PTP_SET` (R324). -/
def execPtpSet (ag : Agent) (v : BitVec 64) (s : State) : Out :=
  s.act (fun now c => if !c.off && c.mayWrite ag .TIM_PTP then c.ptpPut now (v.toNat * 2 ^ 40) else c)

/-- `PTP_STEP` (R324). -/
def execPtpStep (ag : Agent) (v : BitVec 64) (s : State) : Out :=
  s.act (fun now c => if !c.off && c.mayWrite ag .TIM_PTPSTEP then c.ptpStep now v else c)

/-- `TXTS_READ` (R326). -/
def execTxtsRead (ag : Agent) (n : Fin 24) (s : State) : Out :=
  s.act (fun _ c =>
    if !c.off && c.domainOn (20 + n / 4) && c.mayRead ag (.LAN_TXTS n) then c.txtsPop n else c)

/-- `PPS_OUT_RISE` (R327, R431). -/
def execPpsOutRise (s : State) : Out := s.act (fun now c => if c.off then c else c.ppsRise now)

/-- `PPS_OUT_FALL` (R327). -/
def execPpsOutFall (s : State) : Out := s.act (fun now c => c.ppsFall now)

/-- `PPS_IN_EDGE` (R327, R167). -/
def execPpsInEdge (s : State) : Out := s.act (fun now c => if c.off then c else c.ppsIn now)

/-- `TIM_PPS_WRITE` (R339). -/
def execTimPpsWrite (ag : Agent) (v : BitVec 64) (s : State) : Out :=
  s.act (fun now c => if !c.off && c.mayWrite ag .TIM_PPS then c.ppsWrite now v else c)

/-- `CAN_RETRANSMIT` (R330). -/
def execCanRetransmit (n : Fin 64) (lostArb : Bool) (s : State) : Out :=
  s.act (fun now c => if c.off then c else c.canRetry now n lostArb)

/-- `HDLC_TRANSMIT_START` (R331, R332): the line has been idle for IDLE character times. -/
def execHdlcTransmitStart (n : Fin 64) (s : State) : Out :=
  s.act (fun now c => if c.off || c.fldMode n == 0 then c else c.kickLine now (0x40 + n) true)

/-- `ASYNC_FRAME_END` (R332). -/
def execAsyncFrameEnd (n : Fin 64) (octets : List (BitVec 8)) (errs : BitVec 12) (s : State) : Out :=
  s.act (fun now c => c.frameIn now (0x40 + n) (.async octets errs))

/-- `BUSOFF` (R328, R338). -/
def execBusoff (n : Fin 64) (s : State) : Out := s.act (fun now c => if c.off then c else c.canOff now n)

/-- `BUS_OFF_RECOVERY` (R328). -/
def execBusOffRecovery (n : Fin 64) (s : State) : Out := s.act (fun now c => if c.off then c else c.canBack now n)

/-- `FLD_LOOP` (R323, R338). -/
def execFldLoop (ag : Agent) (n : Fin 64) (v : Bool) (s : State) : Out :=
  s.act (fun now c => if !c.off && c.domainOn 26 && c.mayWrite ag (.FLD_CTL n) then c.loopField now n v else c)

end Sys2Proof.Machine
end

