-- ==== Sys2Proof/Machine/Arbiter.lean ====
section
/-! DEFINITION. The shaft arbiters: decisions, turn hints and counters (chapter 16). -/
namespace Sys2Proof.Machine
namespace Chip

def arb (c : Chip) (a : Nat) : Arb := c.arbs.get {} a
def setArb (c : Chip) (a : Nat) (x : Arb) : Chip := { c with arbs := c.arbs.set a x }

/-! ### Class and priority (R377) -/

/-- Class and priority of a queue. -/
def queueRank (c : Chip) (q : Nat) : Nat × Nat := (c.queClass q, c.gf (.QUE_CFG q) QUE_CFG.PRIO)

/-- Class and priority of a core's, the host's or the miller's port. -/
def portRank (c : Chip) (p : Nat) : Nat × Nat := (c.gf (.ARB_PORT p) ARB_PORT.CLASS, c.gf (.ARB_PORT p) ARB_PORT.PRIO)

/-- A channel processor: the queue it serves, or the path of the received frame it handles. -/
def cpuRank (c : Chip) (k : Nat) : Nat × Nat :=
  match c.chan.cpus.find? (fun e => e.1 == k) with
  | some (_, q) => c.queueRank q
  | none =>
    match c.chan.paths.find? (fun e => !e.2.rxq.isEmpty) with
    | some (n, _) => (c.pathClass n, c.gf (.CHN_PATHCFG n) CHN_PATHCFG.PRIO)
    | none => (3, 0)

/-- The hopper or the millstone: its oldest running job's queue. -/
def poolRank (c : Chip) (k : Pool) : Nat × Nat :=
  match (c.jobs k).find? (fun j => j.core.isSome) with
  | some j => (match j.q with | some q => c.queueRank q | none => (j.cls, 0))
  | none => (3, 0)

/-- Class and priority of a shaft port's request. -/
def reqRank (c : Chip) (p : Nat) : Nat × Nat :=
  if p < 2 then (0, 7)
  else if p < 98 ∨ p = 124 ∨ p = 125 then c.portRank p
  else if p < 106 then c.portRank (2 + (c.sweep (12 * (p - 98) + c.sweepAt.get 0 (p - 98))).key)
  else if p < 122 then c.cpuRank (p - 106)
  else if p = 122 then c.poolRank .cipher
  else if p = 123 then c.poolRank .mill
  else (3, 0)

/-- The level of R379: 8 × class + priority. -/
def reqLevel (c : Chip) (p : Nat) : Nat := 8 * (c.reqRank p).1 + (c.reqRank p).2

/-! ### One decision (R378 to R380) -/

/-- The ports of requests that are pending in the sense of R28: those of R380 are held. -/
def admitted (c : Chip) (a : Nat) (x : Arb) : List Nat :=
  let ps := x.reqs.map (·.port)
  let cls (p : Nat) : Nat := (c.reqRank p).1
  let hold1 := c.gf (.ARB_ARB a) ARB_ARB.RSV2 != 0 && ps.any (fun p => decide (2 ≤ cls p)) &&
    x.win1.countP id == 16 - c.gf (.ARB_ARB a) ARB_ARB.RSV2
  let hold2 := c.gf (.ARB_ARB a) ARB_ARB.RSV3 != 0 && ps.any (fun p => cls p == 3) &&
    x.win2.countP id == 16 - c.gf (.ARB_ARB a) ARB_ARB.RSV3
  ps.filter (fun p => !(hold1 && cls p == 1) && !(hold2 && cls p == 2))

/-- The most urgent class, then the highest priority, among ports. -/
def topLevel (c : Chip) (ps : List Nat) : Option (Nat × Nat) :=
  (ps.map c.reqRank).foldl (fun b r => match b with
    | none => some r
    | some s => if r.1 < s.1 ∨ (r.1 = s.1 ∧ s.2 < r.2) then some r else some s) none

/-- Weighted round robin within a level: the port granted, and the credits and pointer after it. -/
def wrr (c : Chip) (lvl : Nat) (ps : List Nat) (x : Arb) : Option (Nat × Arb) :=
  let has (t : Tab Nat) (p : Nat) : Bool := t.get 0 (128 * lvl + p) != 0
  let fresh := (List.range 128).foldl (fun t p => t.set (128 * lvl + p) (c.gf (.ARB_PORT p) ARB_PORT.WEIGHT)) x.credit
  let credit := if ps.any (has x.credit) then x.credit else fresh
  let from_ := x.ptr.get 0 lvl
  ((List.range 128).map (fun i => (from_ + i) % 128)).find? (fun p => ps.contains p && has credit p) |>.map (fun p =>
    (p, { x with
      credit := credit.set (128 * lvl + p) (credit.get 0 (128 * lvl + p) - 1), ptr := x.ptr.set lvl ((p + 1) % 128) }))

/-- The windows of R380 after a grant to class `g`. -/
def windows (c : Chip) (x : Arb) (g : Nat) : Arb :=
  let cls := x.reqs.map (fun r => (c.reqRank r.port).1)
  let x := if cls.any (fun k => decide (2 ≤ k)) then { x with win1 := ((g == 1) :: x.win1).take 16 } else x
  if cls.any (fun k => k == 3) then { x with win2 := ((g == 2) :: x.win2).take 16 } else x

/-- One decision: the port granted and the arbiter after it. -/
def decision (c : Chip) (a : Nat) (x : Arb) : Option (Nat × Arb) :=
  let ps := c.admitted a x
  match c.topLevel ps with
  | none => none
  | some (k, pr) =>
    match c.wrr (8 * k + pr) (ps.filter (fun p => c.reqRank p == (k, pr))) x with
    | none => none
    | some (p, y) =>
      let y := c.windows y k
      some (p, { y with reqs := y.reqs.filter (fun r => r.port != p) })

/-! ### Hints (R382, R383) -/

/-- The grants the arbiter would make before that of `p`, at most 15. -/
def grantsAhead (c : Chip) (a p : Nat) : Nat → Arb → Nat
  | 0, _ => 15
  | n + 1, x =>
    match c.decision a x with
    | none => 15
    | some (g, y) => if g = p then 0 else min 15 (1 + grantsAhead c a p n y)

/-- A core's port keeps the hint of its most recent losing request. `rem` is the remaining time of the transfer in
progress in 1/16 ns. -/
def giveHint (c : Chip) (a rem : Nat) (x : Arb) (r : ArbReq) : Chip :=
  if r.port < 2 ∨ 98 ≤ r.port then c else
  let key := r.port - 2
  let g := c.grantsAhead a r.port 15 x
  let w := min 0xFFFF ((rem + c.gf (.ARB_ARB a) ARB_ARB.MEANXFER * (g + 1) + 15) / 16)
  c.updPort key (fun p =>
    if !r.lost then { p with hint := some ⟨g, w⟩, hintArb := some a }
    else if p.hintArb = some a then { p with hint := some ⟨g, w⟩ } else p)

/-- The mean transfer time over the last 16 transfers. -/
def meanNote (c : Chip) (a now : Nat) (x : Arb) : Chip × Arb :=
  let x := match x.last with
    | some t => { x with times := ((16 * (now - t)) :: x.times).take 16 }
    | none => x
  (c.sf (.ARB_ARB a) ARB_ARB.MEANXFER (min 0xFFFF (x.times.sum / 16)), { x with last := some now })

/-- A shaft arbiter decides (R378, R381, R384): `arrived` are the ports whose requests became pending since the last
decision. -/
def arbDecide (c : Chip) (now a : Nat) (arrived : List Nat) : Chip :=
  let x := c.arb a
  let was := !x.reqs.isEmpty
  let news := (arrived.filter (fun p => !(x.reqs.any (fun r => r.port == p)))).map (fun p => ({ port := p, since := now } : ArbReq))
  let x := { x with reqs := x.reqs ++ news }
  let (c, x) := if was then c.meanNote a now x else (c, { x with last := some now })
  match c.decision a x with
  | none => c.setArb a x
  | some (p, y) =>
    let (i, c) := c.draw
    let rem := (Config.freeValue i).toNat % (c.gf (.ARB_ARB a) ARB_ARB.MEANXFER + 1)
    let r := (x.reqs.find? (fun r => r.port == p)).getD ⟨p, now, false⟩
    let c := c.arbGrant (now + (rem + 15) / 16) p r.lost r.since
    let c := y.reqs.foldl (fun c r => if r.lost then c else c.arbLose r.port) c
    let c := y.reqs.foldl (fun c r => c.giveHint a rem y r) c
    c.setArb a { y with reqs := y.reqs.map (fun r => { r with lost := true }) }

/-- A write of `ARB_PORT` (R385, R386). -/
def arbPortWrite (c : Chip) (now n : Nat) (v : DWord) : Chip :=
  let r := RegName.ARB_PORT n
  let w := ARB_PORT.WEIGHT.get v
  let c := (c.lockedTry now r v).sf r ARB_PORT.PRIO (ARB_PORT.PRIO.get v)
  if w = 0 then c.corrected now 10 else c.sf r ARB_PORT.WEIGHT w

end Chip

/-- `ARBITER_DECISION` (R378 to R384). -/
def execArbiterDecision (a : Fin 11) (arrived : List (BitVec 7)) (s : State) : Out :=
  s.act (fun now c => if c.off then c else c.arbDecide now a (arrived.foldl (fun l p => addNew l p.toNat) []))

/-- `ARB_PORT_WRITE` (R385, R386). -/
def execArbPortWrite (ag : Agent) (n : BitVec 7) (v : BitVec 64) (s : State) : Out :=
  s.act (fun now c => if !c.off && c.mayWrite ag (.ARB_PORT n.toNat) then c.arbPortWrite now n.toNat v else c)

/-- `LONGEST_CLEAR` (R387). -/
def execLongestClear (ag : Agent) (k : Fin 344) (s : State) : Out :=
  s.act (fun _ c => if !c.off && c.mayWrite ag (.ARB_LONG k) then c.sf (.ARB_LONG k) ARB_LONG.LONGEST 0 else c)

end Sys2Proof.Machine
end

