-- ==== Sys2Proof/Machine/Governor.lean ====
section
/-! DEFINITION. The governor and the reference clock's supervision (R42 to R53). -/
namespace Sys2Proof.Machine
namespace Chip

/-- The parts that a monitor channel reports are powered (R487, R488). -/
def chanOn (c : Chip) (m : Nat) : Bool :=
  let up (d : Nat) : Bool := c.domainOn d && !c.domainBusy d
  if m < 8 then up (1 + m)
  else if m = 9 then (List.range 8).any (fun g => up (9 + g))
  else if m = 10 then up 19
  else if m = 11 then up 17
  else if m = 12 then up 18
  else true

/-- The lowest reading among powered channels, and its channel. -/
def speedIndex (c : Chip) (mons : List (BitVec 12)) : Option (Nat × Nat) :=
  (List.range 13).foldl (fun b m =>
    if c.chanOn m then
      let v := (mons.getD m 0).toNat
      match b with
      | some (_, w) => if v < w then some (m, v) else b
      | none => some (m, v)
    else b) none

/-- Readings enter `GOV_MON`; a channel whose domain is off reads 0 (R53). -/
def noteMons (c : Chip) (mons : List (BitVec 12)) : Chip :=
  (List.range 13).foldl (fun c m => c.wr (.GOV_MON m) (if c.chanOn m then (mons.getD m 0).setWidth 64 else 0)) c

/-- `GOV_INDEX` takes a speed index. -/
def noteIndex (c : Chip) (x : Nat × Nat) : Chip :=
  (c.sf .GOV_INDEX GOV_INDEX.MON x.1).sf .GOV_INDEX GOV_INDEX.INDEX x.2

def govFloor (c : Chip) : Nat := c.gf .GOV_FLOOR GOV_FLOOR.FLOOR
def govMargin (c : Chip) : Nat := c.gf .GOV_CTRL GOV_CTRL.MARGIN
def govCmd (c : Chip) : Nat := c.gf .GOV_VOLT GOV_VOLT.CMD

/-- Commands a voltage in mV; ATMAX follows (R45, R53). -/
def govVolt (c : Chip) (mv : Nat) : Chip :=
  (c.sf .GOV_VOLT GOV_VOLT.CMD mv).sf .GOV_STATUS GOV_STATUS.ATMAX (bit (mv == 900))

/-- A start of a stretch: kept while the condition holds. -/
def since (o : Option Nat) (now : Nat) (b : Bool) : Option Nat := if b then some (o.getD now) else none

/-- The voltage is held: HOLD, a recalibration, or a regulator that does not acknowledge (R48, R51, R52). -/
def govHeld (c : Chip) : Bool :=
  c.gb .GOV_CTRL GOV_CTRL.HOLD || c.gb .GOV_STATUS GOV_STATUS.RECALBUSY || c.gov.retryAt.isSome

/-- The comparison of R45 and the stretches of R45 step 2 and R47 for an index. -/
def govCompare (c : Chip) (now idx : Nat) : Chip :=
  let fl := c.govFloor
  let cmd := c.govCmd
  let above := since c.gov.aboveSince now (decide (fl + 2 * c.govMargin < idx))
  let c := { c with gov := { c.gov with aboveSince := above } }
  let c :=
    if c.govHeld then c
    else if idx < fl + c.govMargin ∧ cmd < 900 then c.govVolt (cmd + 5)
    else if above.any (fun t => decide (t + 1000000 ≤ now)) && decide (650 < cmd) then c.govVolt (cmd - 5)
    else c
  { c with gov := { c.gov with belowSince := since c.gov.belowSince now (decide (idx < fl) && c.govCmd == 900) } }

/-- The floor has been missed for 20 µs at 0.90 V (R47). -/
def floorMissed (c : Chip) (now : Nat) : Chip :=
  if c.gov.belowSince.any (fun t => decide (t + 20000 ≤ now)) && !c.gb .GOV_STATUS GOV_STATUS.FLOORMISS then
    (c.sf .GOV_STATUS GOV_STATUS.FLOORMISS 1).contained now 19 none none
  else c

/-- New readings (R45, R51). -/
def govReadings (c : Chip) (now : Nat) (mons : List (BitVec 12)) : Chip :=
  let busy := c.gb .GOV_STATUS GOV_STATUS.RECALBUSY
  let c := c.noteMons mons
  match c.speedIndex mons with
  | none => c
  | some x => (if busy then c else c.noteIndex x).govCompare now x.2

/-- The regulator acknowledges, with its read-back. -/
def avsAck (c : Chip) (meas : BitVec 10) : Chip :=
  ({ c with gov := { c.gov with nacks := 0, retryAt := none } }).sf .GOV_VOLT GOV_VOLT.MEAS meas.toNat

/-- A transaction is not acknowledged; the third in a row is AVSERR (R48). -/
def avsNack (c : Chip) (now : Nat) : Chip :=
  let c := { c with gov := { c.gov with nacks := c.gov.nacks + 1 } }
  if c.gov.nacks = 3 then
    (({ c with gov := { c.gov with retryAt := some (now + 1000000) } }).sf .GOV_STATUS GOV_STATUS.AVSERR 1).contained now 19 none none
  else c

/-- Starts recalibration (R51). -/
def recalStart (c : Chip) : Chip :=
  if c.gb .GOV_STATUS GOV_STATUS.RECALBUSY then c
  else (c.sf .GOV_STATUS GOV_STATUS.RECALBUSY 1).sf .GOV_CTRL GOV_CTRL.RECAL 1

/-- Ends recalibration with the readings under the new scaling (R51). -/
def recalEnd (c : Chip) (now : Nat) (mons : List (BitVec 12)) : Chip :=
  if c.gb .GOV_STATUS GOV_STATUS.RECALBUSY then
    ((c.sf .GOV_STATUS GOV_STATUS.RECALBUSY 0).sf .GOV_CTRL GOV_CTRL.RECAL 0).govReadings now mons
  else c

/-- A write of `GOV_CTRL` (R51, R53). -/
def govCtrlWrite (c : Chip) (now : Nat) (v : DWord) : Chip :=
  let c := (c.lockedTry now .GOV_CTRL v).sf .GOV_CTRL GOV_CTRL.HOLD (bit (v.getLsbD 1))
  if v.getLsbD 0 then c.recalStart else c

/-- A write of `GOV_FLOOR`: FLOOR from BASE to 2,400 (R49). -/
def govFloorWrite (c : Chip) (now : Nat) (v : DWord) : Chip :=
  let c := c.lockedTry now .GOV_FLOOR v
  let n := GOV_FLOOR.FLOOR.get v
  if c.gf .GOV_FLOOR GOV_FLOOR.BASE ≤ n ∧ n ≤ 2400 then c.sf .GOV_FLOOR GOV_FLOOR.FLOOR n else c.corrected now 19

/-- A write of `GOV_STATUS`: FLOORMISS stays while the index is below the floor (R47). -/
def govStatusWrite (c : Chip) (now : Nat) (v : DWord) : Chip :=
  let below := c.gf .GOV_INDEX GOV_INDEX.INDEX < c.govFloor
  let keep := c.gb .GOV_STATUS GOV_STATUS.FLOORMISS && decide below
  let c := c.plainWrite now .GOV_STATUS v
  if keep then c.sf .GOV_STATUS GOV_STATUS.FLOORMISS 1 else c

end Chip

/-- `GOVERNOR_TICK` (R45, R51, R52): new monitor readings every 10 µs. -/
def execGovernorTick (mons : List (BitVec 12)) (s : State) : Out :=
  s.act (fun now c => if c.off then c else c.govReadings now mons)

/-- `AVSBUS_TRANSACTION_END` (R48). -/
def execAvsbusTransactionEnd (ack : Bool) (meas : BitVec 10) (s : State) : Out :=
  s.act (fun now c =>
    if c.off || c.gov.retryAt.isSome then c else if ack then c.avsAck meas else c.avsNack now)

/-- `AVSBUS_RETRY` (R48): every 1 ms while the regulator does not acknowledge. -/
def execAvsbusRetry (ack : Bool) (meas : BitVec 10) (s : State) : Out :=
  s.act (fun now c =>
    match c.gov.retryAt with
    | some t =>
      if c.off || decide (now < t) then c
      else if ack then c.avsAck meas
      else { c with gov := { c.gov with retryAt := some (now + 1000000) } }
    | none => c)

/-- `FLOORMISS` (R47, R51). -/
def execFloormiss (mons : List (BitVec 12)) (s : State) : Out :=
  s.act (fun now c =>
    if c.off then c else
    match c.speedIndex mons with
    | some x => if x.2 < c.govFloor ∧ c.govCmd = 900 then c.floorMissed now else c
    | none => c)

/-- `UNDERV` (R48). -/
def execUnderv (s : State) : Out :=
  s.act (fun now c => if c.off then c else (c.sf .GOV_STATUS GOV_STATUS.UNDERV 1).fatal now 19)

/-- `RECAL` (R51). -/
def execRecal (ag : Agent) (s : State) : Out :=
  s.act (fun _ c => if !c.off && c.mayWrite ag .GOV_CTRL then c.recalStart else c)

/-- `RECALIBRATION_END` (R51). -/
def execRecalibrationEnd (mons : List (BitVec 12)) (s : State) : Out :=
  s.act (fun now c => c.recalEnd now mons)

/-- `GOV_FLOOR_WRITE` (R49). -/
def execGovFloorWrite (ag : Agent) (v : BitVec 64) (s : State) : Out :=
  s.act (fun now c => if !c.off && c.mayWrite ag .GOV_FLOOR then c.govFloorWrite now v else c)

/-- `REFCLK_LOSS` (R42). -/
def execRefclkLoss (s : State) : Out :=
  s.act (fun now c =>
    if c.off then c
    else ((c.sf .TIM_STATUS TIM_STATUS.LOSS 1).sf .TIM_STATUS TIM_STATUS.LOCK 0).fatal now 19)

/-- `REFCLK_DRIFT` (R42). -/
def execRefclkDrift (s : State) : Out :=
  s.act (fun now c => if c.off then c else (c.sf .TIM_STATUS TIM_STATUS.DRIFT 1).contained now 19 none none)

end Sys2Proof.Machine
end

