-- ==== Sys2Proof/Machine/Image.lean ====
section
/-! DEFINITION. Elfold images: copies, headers, records, and the checks that make a copy valid (R451 to R457). -/
namespace Sys2Proof.Machine

/-! ### Headers and records -/

/-- A doubleword of a string. -/
def dw (l : List Byte) (i : Nat) : Nat := natLE ((l.drop (8 * i)).take 8)

/-- The header words the loader uses (R454). -/
structure ImgHdr where
  seq : Nat
  length : Nat
  records : Nat
  pfx : Nat
  deriving DecidableEq, Repr

/-- The header of a copy, or the reason why it is not well formed: 2 header, 3 length (R454, R469). -/
def imgHdr (h : List Byte) : Except Nat ImgHdr :=
  let w0 := dw h 0
  let w1 := dw h 1
  let w2 := dw h 2
  let w3 := dw h 3
  let resv := w1 % 2 ^ 32 == 0 && w3 / 2 ^ 32 == 0 && (List.range 9).all (fun i => dw h (7 + i) == 0)
  if w0 / 2 ^ 32 ≠ 0x454C4644 ∨ w0 / 2 ^ 24 % 256 ≠ 1 ∨ w0 % 65536 ≠ 128 ∨ !resv then .error 2
  else if w2 % 2 ^ 32 % 8 ≠ 0 ∨ 2 ^ 26 < w2 % 2 ^ 32 ∨ w2 % 2 ^ 32 < 152 then .error 3
  else .ok ⟨w1 / 2 ^ 32, w2 % 2 ^ 32, w2 / 2 ^ 32, w3 % 2 ^ 32⟩

/-- A record: TYPE, RVER, INDEX, body, and the offset of its end in the image (R455). -/
structure Rec where
  typ : Nat
  rver : Nat
  idx : Nat
  body : List Byte
  ends : Nat
  deriving DecidableEq, Repr

/-- Word `i` of a record's body. -/
def Rec.w (r : Rec) (i : Nat) : DWord := BitVec.ofNat 64 (dw r.body i)

/-- The records in octets that begin at offset `off`; none where they do not fill them exactly. -/
def parseRecs : Nat → Nat → List Byte → Option (List Rec)
  | 0, _, l => if l.isEmpty then some [] else none
  | n + 1, off, l =>
    if l.isEmpty then some [] else
    let w0 := dw l 0
    let blen := w0 % 2 ^ 32
    if l.length < 16 ∨ blen % 8 ≠ 0 ∨ l.length < 16 + blen ∨ w0 / 2 ^ 32 % 256 ≠ 0 ∨ dw l 1 % 2 ^ 32 ≠ 0 then none else
    let r : Rec := ⟨w0 / 2 ^ 48, w0 / 2 ^ 40 % 256, dw l 1 / 2 ^ 32, (l.drop 16).take blen, off + 16 + blen⟩
    (parseRecs n (off + 16 + blen) (l.drop (16 + blen))).map (r :: ·)

/-- The length of a body in words, and the INDEX values, that R455 gives a TYPE. -/
def recShape (r : Rec) : Bool :=
  let n := r.body.length / 8
  r.rver == 1 &&
  match r.typ with
  | 0x01 => (decide (r.idx < 64) && n == 1) || ((r.idx == 0x100 || r.idx == 0x101) && n == 10)
  | 0x02 => r.idx == 0 && n == 3073
  | 0x03 => r.idx == 0 && n == 40
  | 0x04 => r.idx == 0 && n == 2
  | 0x05 => (decide (r.idx < 20) && n == 1) || (r.idx == 0x100 && n == 4)
  | 0x06 => (decide (r.idx < 128) && n == 1) || (decide (0x100 ≤ r.idx) && decide (r.idx < 0x10B) && n == 1) || (r.idx == 0x200 && n == 5)
  | 0x07 => (decide (r.idx < 64) && n == 3) || (r.idx == 0x100 && n == 1)
  | 0x08 => decide (r.idx < 1024) && n == 3
  | 0x09 => (decide (r.idx < 20) && n == 4) || (decide (0x100 ≤ r.idx) && decide (r.idx < 0x105) && n == 1)
  | 0x0A => decide (r.idx < 64) && n == 2
  | 0x0B => decide (r.idx < 1024) && n == 5
  | 0x0C => decide (r.idx < 4096) && n == 5
  | 0x0D => r.idx == 0 && n == 1
  | 0x0E => (r.idx == 0 || (decide (0x100 ≤ r.idx) && decide (r.idx < 0x140))) && n == 1
  | 0x0F => r.idx == 0 && n == 1
  | 0x10 => decide (r.idx < 4096) && decide (3 ≤ n)
  | 0x11 => decide (2 ≤ n)
  | _ => false

/-- Ascending TYPE, within one TYPE ascending INDEX, each pair once. -/
def recsOrdered : List Rec → Bool
  | [] => true
  | [_] => true
  | a :: b :: l => (decide (a.typ < b.typ) || (a.typ == b.typ && decide (a.idx < b.idx))) && recsOrdered (b :: l)

/-- Target and octets of a LOAD record. -/
def Rec.load (r : Rec) : Nat × List Byte :=
  let w := dw r.body 0
  (w % 2 ^ 40 / 8 * 8, (r.body.drop 8).take (w / 2 ^ 40 + 1))

/-- The DRAM address of the microcode copy, and its octets. -/
def Rec.microcode (r : Rec) : Nat × List Byte := (dw r.body 0 % 2 ^ 40 / 4096 * 4096, r.body.drop 8)

/-- A BANK record of a DRAM port. -/
def Rec.dramPort (r : Rec) : Bool := r.typ == 1 && decide (0x100 ≤ r.idx)

/-- A LOAD target lies in DRAM or the normal alias of bank memory, outside the microcode copy; a port's capacity is that
of its BANK record (R456). -/
def loadOk (cap : Nat → Nat) (mc : Nat × Nat) (r : Rec) : Bool :=
  let (a, l) := r.load
  let z := a + l.length
  let inDram (p : Nat) : Bool := decide (0x800000000 * p ≤ a) && decide (z ≤ 0x800000000 * p + cap p)
  (inDram 0 || inDram 1 || (decide (bankBase ≤ a) && decide (z ≤ bankBase + 0x2000000))) &&
  (mc.2 == 0 || decide (z ≤ mc.1) || decide (mc.1 + mc.2 ≤ a)) && decide (l.length + 8 ≤ r.body.length)

/-- Capacity of a DRAM port by its `DRM_CFG` (R219). -/
def dramCap (v : DWord) : Nat :=
  if DRM_CFG.PRESENT.get v = 1 then 2 ^ 33 * (1 + DRM_CFG.DENS.get v) * (1 + DRM_CFG.RANKS.get v) else 0

/-- Structural soundness (R456). -/
def imgSound (h : ImgHdr) (rs : List Rec) : Bool :=
  let cap (p : Nat) : Nat := ((rs.find? (fun r => r.typ == 1 && r.idx == 0x100 + p)).map (fun r => dramCap (r.w 0))).getD 0
  let mc := ((rs.find? (fun r => r.typ == 2)).map (fun r => (r.microcode.1, if cap 0 = 0 then 0 else 24576))).getD (0, 0)
  let lastBank := ((rs.filter Rec.dramPort).map (·.ends)).foldl max 128
  rs.all recShape && recsOrdered rs && rs.length == h.records &&
  (rs.filter (fun r => r.typ == 2)).length == 1 && (rs.filter (fun r => r.typ == 3)).length == 1 &&
  (rs.filter (fun r => r.typ == 0x11)).all (loadOk cap mc) &&
  (h.pfx == 128 || rs.any (fun r => r.ends == h.pfx)) && decide (lastBank ≤ h.pfx)

/-! ### Copies in flash (R451, R452) -/

/-- The port and offset of a copy's slot. -/
def copyAt (sel : Nat) (b : Bool) : Nat × Nat :=
  match sel, b with
  | 2, b => (1, if b then 0x5000000 else 0x1000000)
  | 1, b => (0, if b then 0x5000000 else 0x1000000)
  | _, b => (bit b, 0x1000000)

namespace Chip

/-- `BOOT_SEL` as sampled. -/
def bootSel (c : Chip) : Nat := c.gf .CFG_STAT CFG_STAT.BOOTSEL

/-- Octets of a copy. -/
def copyRd (c : Chip) (b : Bool) (off n : Nat) : List Byte :=
  let (p, o) := copyAt c.bootSel b
  c.flashRd p (o + off) n

/-- A copy's header. -/
def copyHdr (c : Chip) (b : Bool) : Except Nat ImgHdr := imgHdr (c.copyRd b 0 128)

/-- A key blob of the key area at an offset, unwrapped under the root key: a MAC key of 256 bits (R453, R481). -/
def areaKey (c : Chip) (port off : Nat) : Option (List Byte) :=
  let w := natLE (c.flashRd port off 8)
  let wlen := w / 2 ^ 32 % 256
  if w / 2 ^ 48 ≠ 0x4B42 ∨ w / 2 ^ 40 % 256 ≠ 1 ∨ wlen ≠ 48 then none else
  match unwrapKey rootBytes (c.flashRd port (off + 8) wlen) true 255 with
  | .ok (4, key) => some key
  | _ => none

/-- The ports whose key areas are read, in order (R452); for the management key also without a boot (R481). -/
def keyPorts (c : Chip) : List Nat :=
  match c.bootSel with
  | 1 => [0]
  | 2 => [1]
  | _ => [0, 1]

/-- The key at an offset of the key area. -/
def keyAt (c : Chip) (off : Nat) : Option (List Byte) := c.keyPorts.findSome? (fun p => c.areaKey p off)

/-- The tag check of the prefix (R454): words 4 and 5 count as 0. -/
def prefixOk (c : Chip) (b : Bool) (h : ImgHdr) (key : List Byte) : Bool :=
  let l := c.copyRd b 0 h.pfx
  decide (128 ≤ h.pfx) && decide (h.pfx + 24 ≤ h.length) &&
  cmac (roundKeys key) (patch l 32 (List.replicate 16 0)) == (l.drop 32).take 16

/-- The records of a copy. -/
def copyRecs (c : Chip) (b : Bool) (h : ImgHdr) : Option (List Rec) :=
  parseRecs (h.length / 16) 128 (c.copyRd b 128 (h.length - 152))

/-- The verdict on a whole copy after its header: 0 valid, 4 PTAG, 5 CRC, 6 CMAC, 7 structure (R457, R469). -/
def copyVerdict (c : Chip) (b : Bool) (h : ImgHdr) (key : List Byte) : Nat :=
  let l := c.copyRd b 0 h.length
  if !c.prefixOk b h key then 4
  else if (l.drop (h.length - 24)).take 8 ≠ bytesLE 8 (crc32c (l.take (h.length - 24))) then 5
  else if cmac (roundKeys key) (l.take (h.length - 16)) ≠ l.drop (h.length - 16) then 6
  else match c.copyRecs b h with
    | some rs => if imgSound h rs then 0 else 7
    | none => 7

/-- The records of the copy in use, after a load. -/
def imageRecs (c : Chip) : List Rec :=
  match c.boot.copy with
  | some b => (match c.copyHdr b with | .ok h => (c.copyRecs b h).getD [] | .error _ => [])
  | none => []

end Chip
end Sys2Proof.Machine
end

