-- ==== Sys2Proof/Machine/Load.lean ====
section
/-! DEFINITION. Applying the records of an image (R455, R456 and the rules of each record), and the resumption of the
journal, the queues and the paths after it (R275, R306, R313, R466, R467). -/
namespace Sys2Proof.Machine

/-- The stored value after a load: RW and RWL fields take the record's value, every other bit keeps its own. -/
def loadFields (fs : List FldSpec) (old v : DWord) : DWord :=
  fs.foldl (fun w f =>
    let b : Fld := ⟨f.hi, f.lo⟩
    if f.acc == .rw || f.acc == .rwl then b.put w (b.get v) else w) old

namespace Chip

/-! ### Registers from records -/

/-- A register takes a record's word. -/
def loadReg (c : Chip) (r : RegName) (v : DWord) : Chip := c.wr r (loadFields r.fields (c.rd r) v)

/-- A field whose value is out of range is loaded with its default and reported (R7, R469). -/
def loadDefault (c : Chip) (now typ : Nat) (r : RegName) (f : Fld) (ok : Nat → Bool) (dflt : Nat) : Chip :=
  if ok (c.gf r f) then c else (c.sf r f dflt).cfgReport now 0x02 typ r.addr

/-- A record loaded with EN 0, reported with code 0x03 (R7, R469). -/
def loadOff (c : Chip) (now typ : Nat) (r : RegName) (f : Fld) : Chip := (c.sf r f 0).cfgReport now 0x03 typ r.addr

/-! ### Records 0x01 to 0x06 -/

/-- BANK: an owner of a bank (R213, R218); reserved TYPE values leave it unowned. -/
def applyBank (c : Chip) (now : Nat) (r : Rec) : Chip :=
  let n := RegName.BNK_OWNER r.idx
  (c.loadReg n (r.w 0)).loadDefault now 1 n BNK_OWNER.TYPE (fun v => decide (v ≤ 4)) 0

/-- BANK of a DRAM port, after the training: the patrol interval (R222). -/
def applyDram (c : Chip) (now p : Nat) (r : Rec) : Chip :=
  (c.loadReg (.DRM_SCRUB p) (r.w 1)).loadDefault now 1 (.DRM_SCRUB p) DRM_SCRUB.INTERVAL (fun v => v != 0) 24

/-- MICROCODE (R54 to R57): every control store is written; the copy lies in DRAM of port 0, where that is fitted. -/
def applyMicrocode (c : Chip) (r : Rec) : Chip :=
  let c := { c with stores := c.stores.map (fun e => (e.1, { e.2 with badWords := [], wrongWords := [] })) }
  if c.dramSize 0 = 0 then c else
    let (a, l) := r.microcode
    c.setBytes a l

/-- TRIAD_MODES (R129, R162, R189). -/
def applyModes (c : Chip) (now : Nat) (r : Rec) : Chip :=
  let c := (List.range 32).foldl (fun c t =>
    (c.loadReg (.CLU_TCFG t) (r.w t)).loadDefault now 3 (.CLU_TCFG t) CLU_TCFG.DIGLOG
      (fun v => decide (8 ≤ v) && decide (v ≤ 16)) 10) c
  (List.range 8).foldl (fun c k => c.loadReg (.CLU_CFG k) (r.w (32 + k))) c

/-- GOV (R49, R50): MARGIN, BASE, FLOOR. -/
def applyGov (c : Chip) (now : Nat) (r : Rec) : Chip :=
  let c := c.sf .GOV_CTRL GOV_CTRL.MARGIN (GOV_CTRL.MARGIN.get (r.w 0))
  let base := GOV_FLOOR.BASE.get (r.w 1)
  let floor := GOV_FLOOR.FLOOR.get (r.w 1)
  let c := c.sf .GOV_FLOOR GOV_FLOOR.BASE base
  let c := if base < 1200 then c.sf .GOV_STATUS GOV_STATUS.BELOWREF 1 else c
  if base ≤ floor ∧ floor ≤ 2400 then c.sf .GOV_FLOOR GOV_FLOOR.FLOOR floor else c.corrected now 19

/-- FAULT_POLICY (R422). -/
def applyPolicy (c : Chip) (now : Nat) (r : Rec) : Chip :=
  if r.idx < 20 then
    let n := RegName.FLT_POLICY r.idx
    let c := c.loadReg n (r.w 0)
    let c := c.loadDefault now 5 n FLT_POLICY.ESC (fun v => v != 3 && (v != 1 || decide (r.idx < 8))) 0
    c.loadDefault now 5 n FLT_POLICY.GRACE1 (fun v => decide (1 ≤ v) && decide (v ≤ 1000000)) 1000
  else
    let c := (c.loadReg .FLT_ERRMASK (r.w 0)).loadReg .FLT_RECOV (r.w 1)
    let c := c.loadDefault now 5 .FLT_RECOV FLT_RECOV.QUIET (fun v => v != 0) 1000
    let c := c.sf .FLT_BRAKE FLT_BRAKE.SAFEHOLD (FLT_BRAKE.SAFEHOLD.get (r.w 2))
    c.loadReg .FLT_RELPERM (r.w 3)

/-- ARB_POLICY (R387; R298, R310, R353, R370, R251). -/
def applyArb (c : Chip) (now : Nat) (r : Rec) : Chip :=
  if r.idx < 128 then
    let n := RegName.ARB_PORT r.idx
    let w := c.gf n ARB_PORT.WEIGHT
    let c := c.loadReg n (r.w 0)
    if c.gf n ARB_PORT.WEIGHT = 0 then (c.sf n ARB_PORT.WEIGHT w).corrected now 10 else c
  else if r.idx < 0x200 then c.loadReg (.ARB_ARB (r.idx - 0x100)) (r.w 0)
  else
    let c := c.sf .CHN_TAGS CHN_TAGS.RES0 (CHN_TAGS.RES0.get (r.w 0))
    let c := (c.loadReg .CHN_WCPCFG (r.w 1)).loadReg .CPH_CFG (r.w 2)
    let c := c.loadDefault now 6 .CPH_CFG CPH_CFG.RES0 (fun v => decide (v ≤ 8)) 2
    let c := (c.loadReg .MIL_CFG (r.w 3)).loadDefault now 6 .MIL_CFG MIL_CFG.RES0 (fun v => decide (v ≤ 4)) 1
    let c := c.sf .SYS_DEVTIMEOUT SYS_DEVTIMEOUT.LIMIT (SYS_DEVTIMEOUT.LIMIT.get (r.w 4))
    c.loadDefault now 6 .SYS_DEVTIMEOUT SYS_DEVTIMEOUT.LIMIT (fun v => decide (1 ≤ v) && decide (v ≤ 4000)) 64

/-! ### Partitions, windows, lanes -/

/-- The lowest set bit of a mask below 32. -/
def lowestOf (m : Nat) : Nat := ((List.range 32).find? (fun i => m.testBit i)).getD 0

/-- What other partitions hold of a mask. -/
def takenBy (c : Chip) (p : Nat) (f : Fld) : Nat :=
  (List.range 64).foldl (fun v q => if q = p then v else v ||| c.gf (.PRT_CFG q) f) 0

/-- Resources bound to another partition already are not bound again (R390, R391). -/
def dropTaken (c : Chip) (now p : Nat) (f : Fld) : Chip :=
  let r := RegName.PRT_CFG p
  let both := c.gf r f &&& c.takenBy p f
  if both = 0 then c else (c.sf r f (c.gf r f - both)).cfgReport now 0x06 7 r.addr

/-- PARTITION (R390, R393, R401, R422). -/
def applyPart (c : Chip) (now : Nat) (r : Rec) : Chip :=
  if r.idx = 0x100 then c.loadReg .PRT_MGR (r.w 0) else
  let p := r.idx
  let c := (c.loadReg (.PRT_CFG p) (r.w 0)).sf (.PRT_CFG p) PRT_CFG.DEFINED 1
  let c := ((c.dropTaken now p PRT_CFG.TRIADS).dropTaken now p PRT_CFG.BARGRANT).dropTaken now p PRT_CFG.PTP
  let c := c.barGrants p
  let w := (r.w 1).toNat
  let c := c.setPart p { entry := BitVec.ofNat 32 w, sp := BitVec.ofNat 32 (w / 2 ^ 32) }
  let s := (r.w 2).toNat
  let c := (c.sf (.CPH_SHARE p) CPH_SHARE.WEIGHT (s % 256)).sf (.MIL_SHARE p) MIL_SHARE.WEIGHT (s / 256 % 256)
  let c := c.sf (.FLT_NOTE p) FLT_NOTE.TRIAD (lowestOf (c.gf (.PRT_CFG p) PRT_CFG.TRIADS))
  c.sf (.PRT_STATE p) PRT_STATE.STATE 1

/-- WINDOW (R207). -/
def applyWindow (c : Chip) (r : Rec) : Chip :=
  let p := r.idx / 16
  let w := r.idx % 16
  ((c.loadReg (.PRT_WBASE p w) (r.w 0)).loadReg (.PRT_WLIMIT p w) (r.w 1)).loadReg (.PRT_WOFFSET p w) (r.w 2)

/-- LANE (R337, R390): a SerDes lane with its owner, or the rate of a quad. -/
def applyLane (c : Chip) (now : Nat) (r : Rec) : Chip :=
  if 0x100 ≤ r.idx then c.loadReg (.LAN_QCFG (r.idx - 0x100)) (r.w 0) else
  let n := r.idx
  let c := ((c.loadReg (.LAN_CFG n) (r.w 0)).loadReg (.LAN_MAC n) (r.w 1)).loadReg (.LAN_IP n) (r.w 2)
  let o := (r.w 3).toNat
  let c := { c with lanOwner := c.lanOwner.set n (if o.testBit 6 then 64 else o % 64) }
  c.loadDefault now 9 (.LAN_CFG n) LAN_CFG.MAXFRAME (fun v => decide (64 ≤ v) && decide (v ≤ 9216)) 1518

/-- FEC is used at 25.78125 GBd alone (R337); checked when the rates of the quads are there. -/
def checkLane (c : Chip) (now n : Nat) : Chip :=
  let r := RegName.LAN_CFG n
  let top := if c.gf (.LAN_QCFG (n / 4)) LAN_QCFG.RATE = 3 then 2 else 0
  c.loadDefault now 9 r LAN_CFG.FEC (fun v => decide (v ≤ top)) 0

/-- The bit timing keeps the limits of R329. -/
def timingOk (cfg tim : DWord) : Bool :=
  if FLD_CFG.MODE.get cfg = 0 then
    decide (1 ≤ FLD_TIMING.NBRP.get tim) && decide (FLD_TIMING.NSJW.get tim ≤ FLD_TIMING.NTSEG2.get tim) &&
    decide (FLD_TIMING.DSJW.get tim ≤ FLD_TIMING.DTSEG2.get tim) &&
    (FLD_CFG.BRSTX.get cfg == 0 || decide (1 ≤ FLD_TIMING.DBRP.get tim))
  else decide (160 ≤ tim.toNat % 2 ^ 24)

/-- FIELD (R328, R329, R338). -/
def applyField (c : Chip) (now : Nat) (r : Rec) : Chip :=
  let n := RegName.FLD_CFG r.idx
  let c := (c.loadReg n (r.w 0)).loadReg (.FLD_TIMING r.idx) (r.w 1)
  let bad := FLD_CFG.MODE.get (r.w 0) == 3 || !timingOk (r.w 0) (r.w 1)
  if c.gb n FLD_CFG.EN && bad then c.loadOff now 0x0A n FLD_CFG.EN else c

/-! ### Paths and queues -/

/-- The bits of `MIL_PHUF` of a path (R374). -/
def setPathHuf (c : Chip) (n v : Nat) : Chip := c.sf (.MIL_PHUF (n / 32)) ⟨2 * (n % 32) + 1, 2 * (n % 32)⟩ v

/-- PATH (R282). -/
def applyPath (c : Chip) (now : Nat) (r : Rec) : Chip :=
  let n := r.idx
  let c := (c.loadReg (.CHN_PATHCFG n) (r.w 0)).loadReg (.CHN_PATHMATCH0 n) (r.w 1)
  let c := (c.loadReg (.CHN_PATHMATCH1 n) (r.w 2)).loadReg (.CHN_PATHAUX n) (r.w 3)
  let c := c.loadDefault now 0x0B (.CHN_PATHCFG n) CHN_PATHCFG.RETX (fun v => v != 0) 10
  c.setPathHuf n ((r.w 4).toNat % 4)

/-- A range lies in the normal alias of banks of an owner: a partition, or the host (R285). -/
def bankRange (c : Chip) (o : Option Nat) (a n : Nat) : Bool :=
  decide (bankBase ≤ a) && decide (a + n ≤ bankBase + 0x2000000) && c.rangeStatus o a n == 0

/-- Both rings and the control area of a queue lie in banks of an owner. -/
def ringsOwned (c : Chip) (o : Option Nat) (q : Nat) : Bool :=
  c.bankRange o (c.hrBase q) (64 * c.hrSize q) && c.bankRange o (c.trBase q) (32 * c.trSize q) &&
  c.bankRange o (c.ctla q) 128

/-- QUEUE (R285): the ring sizes, and at most 64 privileged queues. -/
def applyQueue (c : Chip) (now : Nat) (r : Rec) : Chip :=
  let q := r.idx
  let n := RegName.QUE_CFG q
  let c := ((c.loadReg n (r.w 0)).loadReg (.QUE_HR q) (r.w 1)).loadReg (.QUE_TR q) (r.w 2)
  let c := (c.loadReg (.QUE_CTLA q) (r.w 3)).loadReg (.QUE_PROG q) (r.w 4)
  let size (v : Nat) : Bool := decide (4 ≤ v) && decide (v ≤ 12)
  let c := if size (c.gf (.QUE_HR q) QUE_HR.LOG2) && size (c.gf (.QUE_TR q) QUE_TR.LOG2) || !c.gb n QUE_CFG.EN then c
    else c.loadOff now 0x0C n QUE_CFG.EN
  let privs := (List.range 4096).filter (fun i => c.gb (.QUE_CFG i) QUE_CFG.PRIV)
  if 64 < privs.length then (c.sf n QUE_CFG.PRIV 0).corrected now 11 else c

/-- The rings of an enabled queue belong to its owner, else EN is loaded as 0 and a contained fault is raised (R285). -/
def checkQueue (c : Chip) (now q : Nat) : Chip :=
  if !c.queEn q || c.ringsOwned (c.queOwner q) q then c
  else (c.sf (.QUE_CFG q) QUE_CFG.EN 0).contained now 18 none none

/-- LANE of a path is reserved (R282). -/
def laneReserved (c : Chip) (n : Nat) : Bool :=
  let l := c.pLane n
  !(decide (l ≤ 0x13) || (decide (0x40 ≤ l) && decide (l ≤ 0x7F)) ||
    (decide (0x80 ≤ l) && decide (l ≤ 0x83) && c.gf .PAR_CFG PAR_CFG.TOPO == 2))

/-- The path's OWNER owns its lane, or the manager does; a remote lane is its exporter's (R391). -/
def laneServes (c : Chip) (n : Nat) : Bool :=
  let l := c.pLane n
  if l < 0x40 then c.lanOwner.get 64 l == 64 || c.lanOwner.get 64 l == c.pOwner n
  else if l < 0x80 then c.gf (.FLD_CFG (l - 0x40)) FLD_CFG.OWNER == c.pOwner n
  else true

/-- A lower path keeps the plain asynchronous lane of this one (R284). -/
def asyncTaken (c : Chip) (n : Nat) : Bool :=
  let l := c.pLane n
  isField l && c.fldMode (l - 0x40) == 2 && (List.range n).any (fun m => c.pEn m && c.pLane m == l)

/-- The checks of an enabled PATH record against the others (R283, R284, R319, R328, R391, R413). -/
def checkPath (c : Chip) (now n : Nat) : Chip :=
  if !c.pEn n then c else
  let q := c.gf (.CHN_PATHCFG n) CHN_PATHCFG.QUEUE
  let o := if c.gb (.QUE_CFG q) QUE_CFG.HOST then none else some (c.pOwner n)
  let key := c.pSec n == 0 || c.pSec n == 3 ||
    c.ownsSlot (c.pOwner n) (c.gf (.CHN_PATHCFG n) CHN_PATHCFG.KEYSLOT)
  let bad := c.laneReserved n || !c.ringsOwned o q || !key || !c.laneServes n ||
    (isField (c.pLane n) && c.pWcp n) || c.asyncTaken n
  let c := if bad then c.loadOff now 0x0B (.CHN_PATHCFG n) CHN_PATHCFG.EN else c
  if c.pWcp n && decide (c.pLane n < 0x40) then
    c.loadDefault now 0x0B (.CHN_PATHAUX n) CHN_PATHAUX.SAFELEN (fun v => decide (v ≤ c.wcpMax n)) 0
  else c

/-! ### Pair, cascade, book, keys, data -/

/-- PAIR (R423, R450). -/
def applyPair (c : Chip) (now : Nat) (r : Rec) : Chip :=
  let c := (c.loadReg .PAR_CFG (r.w 0)).sf .PAR_CFG PAR_CFG.TOPO 1
  let c := c.loadDefault now 0x0D .PAR_CFG PAR_CFG.LAGMAX (fun v => decide (20 ≤ v) && decide (v ≤ 100)) 100
  c.loadDefault now 0x0D .PAR_CFG PAR_CFG.HBLOSS (fun v => decide (4 ≤ v) && decide (v ≤ 16)) 10

/-- CASCADE (R423, R450). -/
def applyCascade (c : Chip) (r : Rec) : Chip :=
  if r.idx = 0 then (c.loadReg .CAS_CFG (r.w 0)).sf .PAR_CFG PAR_CFG.TOPO 2
  else c.loadReg (.CAS_EXPORT (r.idx - 0x100)) (r.w 0)

/-- The leat's quad runs in PAIR and CASCADE topologies (R315, R425). -/
def leatQuad (c : Chip) : Chip :=
  if c.gf .PAR_CFG PAR_CFG.TOPO = 0 then c else
  let c := c.sf (.LAN_QCFG 5) LAN_QCFG.RATE 3
  (c.sf .SYS_PWRCTL ⟨25, 25⟩ 1).sf .SYS_PWRSTAT ⟨25, 25⟩ 1

/-- KEYBLOB (R340 to R345): the slot is assigned, and the blob unwrapped into it. -/
def applyKey (c : Chip) (now : Nat) (r : Rec) : Chip :=
  let s := r.idx
  let own := (r.w 1).toNat % 64
  let c := ((c.zeroise s).sf (.CPH_SLOT s) CPH_SLOT.OWNER own).sf (.CPH_SLOT s) CPH_SLOT.ASSIGNED 1
  let root := (r.w 0).getLsbD 63
  let kek := entBits (r.w 0) 59 48
  let h := (r.w 2).toNat
  let wlen := h / 2 ^ 32 % 256
  let fails := (c.inc .CPH_STAT CPH_STAT.UNWRAPFAIL).corrected now 14
  if h / 2 ^ 48 ≠ 0x4B42 ∨ h / 2 ^ 40 % 256 ≠ 1 ∨ (wlen ≠ 32 ∧ wlen ≠ 40 ∧ wlen ≠ 48) then fails
  else if !root && !(c.slotServes kek (some own) && c.gf (.CPH_SLOT kek) CPH_SLOT.USE == 8) then fails
  else
    match unwrapKey (if root then rootBytes else c.chan.keys.get [] kek) ((r.body.drop 24).take wlen) root own with
    | .ok (use, key) => c.loadSlot s use key
    | .error _ => fails

/-- LOAD: the data at its target. -/
def applyLoad (c : Chip) (r : Rec) : Chip :=
  let (a, l) := r.load
  c.setBytes a l

/-- BOOK_POLICY (R497). -/
def applyBook (c : Chip) (now : Nat) (r : Rec) : Chip :=
  (c.loadReg .BOK_POLICY (r.w 0)).loadDefault now 0x0F .BOK_POLICY BOK_POLICY.INTERVAL
    (fun v => decide (10 ≤ v) && decide (v ≤ 60)) 10

/-- One record, in image order (R458 step 6). -/
def applyRec (c : Chip) (now : Nat) (r : Rec) : Chip :=
  match r.typ with
  | 0x01 => if r.idx < 64 then c.applyBank now r else c.applyDram now (r.idx - 0x100) r
  | 0x02 => c.applyMicrocode r
  | 0x03 => c.applyModes now r
  | 0x04 => c.applyGov now r
  | 0x05 => c.applyPolicy now r
  | 0x06 => c.applyArb now r
  | 0x07 => c.applyPart now r
  | 0x08 => c.applyWindow r
  | 0x09 => c.applyLane now r
  | 0x0A => c.applyField now r
  | 0x0B => c.applyPath now r
  | 0x0C => c.applyQueue now r
  | 0x0D => c.applyPair now r
  | 0x0E => c.applyCascade r
  | 0x0F => c.applyBook now r
  | 0x10 => c.applyKey now r
  | _ => c.applyLoad r

/-- The records an image applies: with both a PAIR and a CASCADE record, neither (R423). -/
def usable (rs : List Rec) : List Rec × Bool :=
  let has (t : Nat) : Bool := rs.any (fun r => r.typ == t && r.idx == 0)
  if has 0x0D && has 0x0E then (rs.filter (fun r => r.typ ≠ 0x0D ∧ r.typ ≠ 0x0E), true) else (rs, false)

/-- Step 6 of R458: every record, then the checks that need others. -/
def applyImage (c : Chip) (now : Nat) (rs : List Rec) : Chip :=
  let (rs, both) := usable rs
  let c := rs.foldl (fun c r => c.applyRec now r) c
  let c := if both then c.cfgReport now 0x02 0x0D RegName.PAR_CFG.addr else c
  let c := c.leatQuad
  let idx (t : Nat) : List Nat := (rs.filter (fun r => r.typ == t)).map (·.idx)
  let c := ((idx 0x09).filter (· < 20)).foldl (fun c n => c.checkLane now n) c
  let c := (idx 0x0C).foldl (fun c q => c.checkQueue now q) c
  (idx 0x0B).foldl (fun c n => c.checkPath now n) c

/-! ### Queues and paths after a load (R306, R313) -/

/-- The lines that a replay of the ring publishes (R275). -/
def replayLines (c : Chip) (keep : Nat → Bool) : List Nat :=
  (c.entries.filter (fun e => keep e.st && (e.st == stComplete || e.st == stMirrored || e.st == stCopy) && c.entryOk e)).flatMap
    (fun e => (bodyLines e.lines ((c.ringRead (7 + 10 * e.lines) (e.off + 8)).drop 7)).map (·.line))

/-- A 16-bit word of line A of a queue as it stands. -/
def lineWord (c : Chip) (q off : Nat) : Nat := (c.rawNat 2 (c.ctla q + off))

/-- The doorbells of the enabled queues. -/
def doorbells (c : Chip) : List (Nat × Nat) :=
  ((List.range 4096).filter c.queEn).map (fun q => (q, c.lineWord q 0))

/-- The oldest headrace entry behind doorbell `d` that lines `ls` contain, counting back at most the ring size. -/
def oldestEntry (c : Chip) (q d : Nat) (ls : List Nat) : Option Nat :=
  (List.range (c.hrSize q)).foldl (fun b j =>
    let i := (d + 65536 - (j + 1)) % 65536
    if ls.contains (lineOf (c.hrBase q + 64 * (i % c.hrSize q))) then some i else b) none

/-- A queue resumes (R313): GEN 1, an empty tailrace, and the entries of replayed write sets to run. -/
def resumeQueue (c : Chip) (now q was : Nat) (ls : List Nat) : Chip :=
  let d := c.lineWord q 0
  let head := if d = was then d else (c.oldestEntry q d ls).getD d
  let c := (c.sf (.QUE_GEN q) QUE_GEN.GEN 1).setQue q
    { hrhead := head, trtail := c.lineWord q 8, door := d, since := now }
  (c.lineB now q).syncQ q

/-- The journal and then the queues: the entries of the ring that `keep` names are replayed, the others discarded (R275,
R276, R466). -/
def resumeRings (c : Chip) (now : Nat) (keep : Nat → Bool) : Chip :=
  let was := c.doorbells
  let ls := c.replayLines keep
  let c := c.replayRing now keep
  was.foldl (fun c e => c.resumeQueue now e.1 e.2 ls) c

/-- The paths resume (R305, R306, R313): after a warm reset the epoch of the journal store rises by 1, after a cold reset
step 2 of R458 has set it; PEERVALID 0, and the exchange of R305 on enabled WCP paths. -/
def resumePath (c : Chip) (now : Nat) (warm : Bool) (n : Nat) : Chip :=
  let c := (c.wr (.CHN_PATHSEQ n) 0).sf (.CHN_PATHSTAT n) CHN_PATHSTAT.PEERVALID 0
  let c := c.sf (.CHN_PATHSTAT n) CHN_PATHSTAT.AWAIT 1
  let live := c.pEn n && c.pWcp n
  if warm then (c.sf (.CHN_PATHSTAT n) CHN_PATHSTAT.EPOCH (c.epochKept n)).raiseEpoch now n live
  else
    let c := c.epochNote n (c.epoch n)
    if live then c.beginSync now n else c

/-- The queues whose jobs a warm reset discarded get one `ABANDONED` completion, and the job map is cleared (R467). -/
def abandonJobs (c : Chip) (now : Nat) : Chip :=
  let a := journalBase + 0xC00
  let qs := (List.range 4096).filter (fun q => (c.jrd (a + q / 64 * 8)).getLsbD (q % 64))
  let c := (qs.filter c.queEn).foldl (fun c q =>
    (c.post q { gen := 1, id := 0xFFFF, rep := { status := stAbandoned } }).settleQ now q) c
  (List.range 64).foldl (fun c i => c.jwr (a + 8 * i) 0) c

end Chip
end Sys2Proof.Machine
end

