-- ==== Sys2Proof/Machine/Book.lean ====
section
/-! DEFINITION. The mill book (R495 to R498) and the management epoch kept with it (R482). -/
namespace Sys2Proof.Machine

def bookMagic : Nat := 0x4B4F4F4200010000

/-- Offsets of the book that hold one 8-byte value; the others hold two 4-byte counts (R495). -/
def bookEight (o : Nat) : Bool :=
  o == 0x18 || o == 0x20 || o == 0x40 || o == 0x50 || (decide (0x80 ≤ o) && decide (o < 0x200)) ||
  (decide (0xA80 ≤ o) && decide (o < 0xA90)) || (decide (0xB00 ≤ o) && decide (o < 0xF00))

/-- Offset of a save slot in its flash device (R451, R497). -/
def saveSlot (slot : Nat) : Nat := 0x10000 + 0x10000 * slot

namespace Chip

/-- An 8-byte word of the book (R495): the header from the registers, the rest from the counters. -/
def bookWord (c : Chip) (o : Nat) : Nat :=
  if o = 0 then bookMagic
  else if o = 8 then c.gf .BOK_STAT BOK_STAT.SAVESEQ
  else if o = 0x10 then c.gf .MGT_STAT MGT_STAT.MEPOCH
  else if bookEight o then c.book.get 0 o
  else c.book.get 0 o + 2 ^ 32 * c.book.get 0 (o + 4)

/-- The whole book, as a copy made in one instant (R496). -/
def bookBytes (c : Chip) : List Byte := (List.range 512).flatMap (fun i => bytesLE 8 (c.bookWord (8 * i)))

/-- A copy of the book as a save writes it: the raised sequence, the time and the CRC in its header (R495, R497). -/
def saveImage (c : Chip) (seq now : Nat) : List Byte :=
  let b := c.bookBytes
  let h := [bookMagic, seq, c.gf .MGT_STAT MGT_STAT.MEPOCH, now, crc32c ((b.drop 0x40).take 0xEC0)]
  h.flatMap (bytesLE 8) ++ b.drop 40

/-- The ports that hold save areas: those of the key area. -/
def savePorts (c : Chip) : List Nat := c.keyPorts

/-- The save sequence in a slot whose MAGIC and CRC verify (R498). -/
def saveSeq (c : Chip) (port slot : Nat) : Option Nat :=
  let b := c.flashRd port (saveSlot slot) 4096
  if dw b 0 = bookMagic ∧ dw b 4 % 2 ^ 32 = crc32c ((b.drop 0x40).take 0xEC0) then some (dw b 1) else none

/-- The slot with the highest save sequence, with it. -/
def bestSave (c : Chip) : Option (Nat × Nat × Nat) :=
  (c.savePorts.flatMap (fun p => (List.range 16).map (fun s => (p, s)))).foldl (fun b e =>
    match c.saveSeq e.1 e.2, b with
    | some n, some (m, _) => if m < n then some (n, e) else b
    | some n, none => some (n, e)
    | none, _ => b) none

/-- The counters of a saved copy. -/
def bookOf (b : List Byte) : Tab Nat :=
  (List.range 504).foldl (fun t i =>
    let o := 8 * (i + 8)
    let v := dw b (i + 8)
    if bookEight o then t.put 0 o v else (t.put 0 o (v % 2 ^ 32)).put 0 (o + 4) (v / 2 ^ 32)) []

/-- Step 2 of R458 at a cold reset (R482, R498): the book is restored, the cold reset counted, and MEPOCH rises; the new
MEPOCH is written into the save area. -/
def coldBook (c : Chip) (now : Nat) : Chip :=
  match c.bestSave with
  | some (n, p, s) =>
    let b := c.flashRd p (saveSlot s) 4096
    let e := (dw b 2 + 1) % 65536
    let c := { c with book := bookOf b }
    let c := (((c.sf .BOK_STAT BOK_STAT.SAVESEQ n).sf .BOK_STAT BOK_STAT.SLOT s).sf .BOK_STAT BOK_STAT.PORT p).sf
      .MGT_STAT MGT_STAT.MEPOCH e
    (c.bookInc 0x48).flashWr p (saveSlot s + 16) (bytesLE 8 e)
  | none =>
    let c := ((c.sf .MGT_STAT MGT_STAT.MEPOCH 1).bookInc 0x48).corrected now 18
    c.savePorts.foldl (fun c p => c.flashWr p (saveSlot 0) (c.saveImage 0 now)) c

/-- The position after a port and slot in the rotation (R497). -/
def nextSave (c : Chip) (port slot : Nat) : Nat × Nat :=
  if c.bootSel = 0 then (if port = 0 then (1, slot) else (0, (slot + 1) % 16)) else (port, (slot + 1) % 16)

/-- A save begins at the next position of the rotation (R497). -/
def saveBegin (c : Chip) : Chip :=
  if c.off || c.misc.save.isSome then c else
  let (p, s) := c.nextSave (c.gf .BOK_STAT BOK_STAT.PORT) (c.gf .BOK_STAT BOK_STAT.SLOT)
  let p := if c.savePorts.contains p then p else c.savePorts.headD 0
  ({ c with misc := { c.misc with save := some (p, s, false) } }).sf .BOK_STAT BOK_STAT.BUSY 1

/-- The read-back of a save has ended (R497): a first failure is retried at the next position, a second one is a contained
fault. -/
def saveEnd (c : Chip) (now : Nat) (ok : Bool) : Chip :=
  match c.misc.save with
  | none => c
  | some (p, s, again) =>
    let n := (c.gf .BOK_STAT BOK_STAT.SAVESEQ + 1) % 2 ^ 32
    let fin (c : Chip) : Chip := ({ c with misc := { c.misc with save := none } }).sf .BOK_STAT BOK_STAT.BUSY 0
    let c := c.flashErase p (saveSlot s) 0x10000
    if ok then
      let img := c.saveImage n now
      let c := c.flashWr p (saveSlot s) img
      let c := { c with book := (c.book.put 0 0x18 now).put 0 0x20 (dw img 4) }
      fin (((c.sf .BOK_STAT BOK_STAT.SAVESEQ n).sf .BOK_STAT BOK_STAT.SLOT s).sf .BOK_STAT BOK_STAT.PORT p)
    else
      let c := c.inc .BOK_STAT BOK_STAT.SAVEFAIL
      if again then (fin c).contained now 18 none none
      else
        let (p, s) := c.nextSave p s
        { c with misc := { c.misc with save := some (p, s, true) } }

/-- A periodic save is due (R497). -/
def saveDue (c : Chip) (now : Nat) : Bool :=
  decide (c.misc.saveAt + 60000000000 * c.gf .BOK_POLICY BOK_POLICY.INTERVAL ≤ now)

/-! ### The seconds of the histograms (R495) -/

/-- The bin of a signed temperature. -/
def tempBin (tj : Int) : Nat := min (((tj + 40) / 10).toNat) 15

/-- The bin of a commanded voltage in mV. -/
def voltBin (mv : Nat) : Nat := min ((mv - 650) / 16) 15

/-- The bin of a speed index. -/
def indexBin (i : Nat) : Nat := if i < 900 then 0 else min ((i - 800) / 100) 15

/-- A second with the always-on supply up (R495). -/
def powerSecond (c : Chip) : Chip :=
  let tj := (BitVec.ofNat 8 (c.gf .GOV_TEMP GOV_TEMP.TJ)).toInt
  let c := (c.bookInc8 0x40).bookInc8 (0x80 + 8 * tempBin tj)
  let c := c.bookInc8 (0x100 + 8 * voltBin (c.govCmd))
  c.bookInc8 (0x180 + 8 * indexBin (c.gf .GOV_INDEX GOV_INDEX.INDEX))

end Chip

/-- `SAVE`: `BOK_CTL.SAVE` (R497). -/
def execSave (ag : Agent) (s : State) : Out := s.act (fun _ c => if c.mayWrite ag .BOK_CTL then c.saveBegin else c)

/-- `BOOK_SAVE_INTERVAL` (R497). -/
def execBookSaveInterval (s : State) : Out :=
  s.act (fun now c =>
    if c.saveDue now then ({ c with misc := { c.misc with saveAt := now } }).saveBegin else c)

/-- `BOOK_SAVE_END` (R497). -/
def execBookSaveEnd (ok : Bool) (s : State) : Out := s.act (fun now c => c.saveEnd now ok)

/-- `POWER_ON_SECOND` (R495). -/
def execPowerOnSecond (s : State) : Out := s.act (fun _ c => c.powerSecond)

end Sys2Proof.Machine
end

