-- ==== Sys2Proof/Machine/Boot.lean ====
section
/-! DEFINITION. Resets, boot and staging (R42, R43, R451 to R469, R506, R511). -/
namespace Sys2Proof.Machine

/-! ### What a warm device reset keeps (R464 and the register rules of each chapter) -/

/-- The fields of a register that a warm device reset leaves unchanged. -/
def keptFields : RegName → List Fld
  | .CLU_TCOUNT _ | .CLU_TSYND _ | .CLU_SLUTEST _ | .CLU_TXCOUNT _ _ | .CLU_FSYND _ | .CLU_CSSTAT _ => [⟨63, 0⟩]
  | .SYS_SHAFTSYND | .BNK_ECC _ | .DRM_ECC _ _ | .DRM_EADR _ _ | .LAN_CNT _ | .FLD_CNT _ => [⟨63, 0⟩]
  | .CPH_STAT | .MIL_STAT | .ARB_GRANTS _ | .ARB_WAITS _ | .ARB_LONG _ | .FLT_RECOVERIES => [⟨63, 0⟩]
  | .TIM_STATUS | .TIM_PTP | .TIM_PTPRATE | .TIM_PTPSTEP | .TIM_PPS | .TIM_PPSIN | .TIM_PPSNOW => [⟨63, 0⟩]
  | .CFG_SYND | .MGT_STAT | .MGT_CFG | .BOK_STAT => [⟨63, 0⟩]
  | .SYS_DEVTIMEOUT => [SYS_DEVTIMEOUT.TIMEOUTS]
  | .LAN_STAT _ => [LAN_STAT.RETRAINS]
  | .CPH_CORE _ => [CPH_CORE.ERRS]
  | .MIL_CORE _ => [MIL_CORE.ERRS]
  | .CPH_SLOT _ => [CPH_SLOT.GEN]
  | .PRT_STATE _ => [PRT_STATE.RESETS]
  | .FLT_STATUS => [⟨61, 0⟩]
  | .PAR_STAT => [PAR_STAT.TAKEOVERS]
  | .CAS_STAT => [CAS_STAT.LINKLOSS]
  | .CAS_CFG => [CAS_CFG.ID]
  | .HST_STAT => [HST_STAT.LINKDOWNS]
  | .GOV_TEMP => [GOV_TEMP.PEAK]
  | .CFG_STAT => [CFG_STAT.BOOTSEL]
  | .CHN_WCPCFG => [CHN_WCPCFG.EHIGH]
  | _ => []

/-- The register table after a warm device reset: every other field returns to its reset value. -/
def keepRegs (t : Tab DWord) : Tab DWord :=
  t.foldl (fun u e =>
    match regOf e.1 with
    | some r => u.put r.reset e.1 ((keptFields r).foldl (fun w f => f.put w (f.get e.2)) r.reset)
    | none => u) []

/-- An address in the journal store. -/
def inJournal (a : Nat) : Bool := decide (journalBase ≤ a) && decide (a < journalBase + 0x100000)

namespace Chip

/-- A sweep stopped by the reset leaves STOPPED at 1 and POS (R192). -/
def keepSweeps (old c : Chip) : Chip :=
  (List.range 96).foldl (fun c k =>
    let r := RegName.CLU_SWEEP (k / 12) (k % 12)
    if old.gb r CLU_SWEEP.BUSY then (c.sf r CLU_SWEEP.STOPPED 1).sf r CLU_SWEEP.POS (old.gf r CLU_SWEEP.POS)
    else c) c

/-- The safe levels that the field lanes keep through the reload (R336). -/
def heldLevels (c : Chip) : List (Nat × Bool × Bool) :=
  (List.range 64).filterMap (fun n => (c.safeLevels n).map (fun v => (n, v)))

/-- The die after every domain but the always-on one has been reset (R464, R465). -/
def warmState (c : Chip) : Chip :=
  let n : Chip := {
    off := false, regs := keepRegs c.regs, flash := c.flash, book := c.book, free := c.free
    mem := c.mem.dropKeys (fun a => !inJournal a)
    ecc := c.ecc.dropKeys (fun w => !inJournal (8 * w))
    stores := ((List.range 104).filter (fun k => c.gb (.CLU_CSSTAT k) CLU_CSSTAT.FAILED)).map (fun k => (k, { failed := true }))
    chan := { ptp := c.chan.ptp }
    arbs := c.arbs.map (fun e => (e.1, {}))
    mgt := { c.mgt with running := [] }, misc := { save := c.misc.save, saveAt := c.misc.saveAt, therm := c.misc.therm, hotFrom := c.misc.hotFrom, held := c.heldLevels }
    boot := { pairRole := c.boot.pairRole, casId := c.boot.casId, corePg := c.boot.corePg, refclk := c.boot.refclk }
    pair := { watchOut := c.pair.watchOut } }
  keepSweeps c n

/-! ### Choosing a copy (R457, R459) -/

/-- The code that tells why a copy is not used (R469). -/
def setReason (c : Chip) (b : Bool) (k : Nat) : Chip :=
  c.sf .CFG_STAT (if b then CFG_STAT.BREASON else CFG_STAT.AREASON) k

/-- No copy is valid: a fatal fault of source 18 (R457). -/
def noCopy (c : Chip) (now : Nat) : Chip :=
  let c := { c with boot := { c.boot with step := 0, copy := none, order := [] } }
  let c := (c.sf .CFG_SYND CFG_SYND.CODE 5).sf .CFG_SYND CFG_SYND.TYPE 0
  (c.sf .CFG_SYND CFG_SYND.ADDR 0).fatal now 18

/-- The BANK records of DRAM ports in a copy's prefix. -/
def dramRecs (c : Chip) (b : Bool) (h : ImgHdr) : List Rec :=
  ((parseRecs (h.pfx / 16) 128 (c.copyRd b 128 (h.pfx - 128))).getD []).filter Rec.dramPort

/-- DRAM has been trained with these very records. -/
def sameDram (c : Chip) (l : List Rec) : Bool :=
  match c.boot.trained with
  | none => false
  | some b => match c.copyHdr b with
    | .ok h => c.dramRecs b h == l
    | .error _ => false

/-- Step 4 of R458 for a copy whose prefix verifies: training, unless it is done or no port is fitted (R459, R460). -/
def trainFor (c : Chip) (b : Bool) (h : ImgHdr) (rest : List Bool) : Chip :=
  let l := c.dramRecs b h
  let fit := l.any (fun r => DRM_CFG.PRESENT.get (r.w 0) == 1)
  let done := c.sameDram l || !fit
  { c with boot := { c.boot with
      step := if done then 5 else 4, copy := some b, order := rest, trained := if fit then c.boot.trained else some b } }

/-- The copies still to try, in order. -/
def tryCopies (c : Chip) (now : Nat) : List Bool → Chip
  | [] => c.noCopy now
  | b :: rest =>
    match c.copyHdr b with
    | .error k => (c.setReason b k).tryCopies now rest
    | .ok h => if c.prefixOk b h c.boot.key then c.trainFor b h rest else (c.setReason b 4).tryCopies now rest

/-- Step 3 of R458: both headers, the higher sequence first, copy A at equal ones. -/
def readHeaders (c : Chip) (now : Nat) (key : List Byte) : Chip :=
  let one (c : Chip) (b : Bool) : Chip := match c.copyHdr b with | .ok _ => c.setReason b 8 | .error k => c.setReason b k
  let order := match c.copyHdr false, c.copyHdr true with
    | .ok a, .ok b => if a.seq < b.seq then [true, false] else [false, true]
    | .ok _, .error _ => [false]
    | .error _, .ok _ => [true]
    | .error _, .error _ => []
  let c := one (one c false) true
  ({ c with boot := { c.boot with key := key, first := order.head? } }).tryCopies now order

/-- Every path's epoch at a cold reset, and the reservation raised by 64 (R306). -/
def coldEpochs (c : Chip) : Chip :=
  let h := c.resvKept
  let c := c.resvWrite ((h + 64) % 65536)
  (List.range 1024).foldl (fun c n => c.sf (.CHN_PATHSTAT n) CHN_PATHSTAT.EPOCH ((h + 1) % 65536)) c

/-- Steps 2 and 3 of R458: the key area, the reservation and the book at a cold reset, and the choice of a copy. With
`BOOT_SEL` 0b111, and with a reserved value, which is a fatal fault, nothing is loaded (R452). -/
def bootGo (c : Chip) (now : Nat) : Chip :=
  let c := { c with boot := { c.boot with since := now, step := 0 } }
  let c := if c.boot.warm then c else
    let k := c.keyAt 0x1000
    let c := ({ c with mgt := { c.mgt with key := k.getD [] } }).sf .MGT_STAT MGT_STAT.KEY (bit k.isSome)
    c.coldBook now
  match c.bootSel with
  | 0 | 1 | 2 =>
    let c := if c.boot.warm then c else c.coldEpochs
    (match c.keyAt 0 with
     | some key => c.readHeaders now key
     | none => ((c.setReason false 9).setReason true 9).noCopy now)
  | 7 => c
  | _ => c.fatal now 18

/-- Step 1 of R458: the load waits for the lock of the time base and for `CORE_PG` (R43, R511). -/
def bootBegin (c : Chip) (now : Nat) (warm : Bool) : Chip :=
  let c := { c with boot := { c.boot with warm := warm } }
  let c := if c.boot.refclk then c.sf .TIM_STATUS TIM_STATUS.LOCK 1 else c
  if c.boot.refclk && c.boot.corePg then c.bootGo now else { c with boot := { c.boot with step := 1 } }

/-- The die at the release of `PORST_N` (R452, R506). -/
def coldRelease (c : Chip) (p : BootPins) : Chip :=
  let n : Chip := {
    off := p.testMode, flash := c.flash, free := c.free
    boot := { pairRole := p.pairRole, casId := p.casId.toNat, corePg := p.corePg, refclk := p.refclk } }
  if p.testMode then n else
    (n.sf .CFG_STAT CFG_STAT.BOOTSEL p.bootSel.toNat).sf .CAS_CFG CAS_CFG.ID p.casId.toNat

/-- A warm device reset (R464, R465); the load restarts. -/
def warmReset (c : Chip) (now : Nat) : Chip :=
  if c.off then c else ((c.warmState).bookInc 0x4C).bootBegin now true

/-! ### The steps of a load (R458) -/

/-- The device is in LOAD and the load waits at a step. -/
def loading (c : Chip) (n : Nat) : Bool := !c.off && c.gf .FLT_STATE FLT_STATE.STATE == 1 && c.boot.step == n

/-- Addresses of a DRAM port. -/
def inPort (p a : Nat) : Bool := decide (0x800000000 * p ≤ a) && decide (a < 0x800000000 * (p + 1))

/-- A port takes its parameters; its contents are lost to the training (R220, R221). -/
def trainPort (c : Chip) (p : Nat) (r : Rec) (pass : Bool) : Chip :=
  let c := { c with
    mem := c.mem.dropKeys (inPort p), ecc := c.ecc.dropKeys (fun w => inPort p (8 * w)), filled := c.filled.erase p }
  let c := (c.loadReg (.DRM_CFG p) (r.w 0)).wr (.DRM_INIT p) 0
  c.sf (.DRM_CFG p) DRM_CFG.TRAINED (bit (pass && DRM_CFG.PRESENT.get (r.w 0) == 1))

/-- The training has ended (R220): a fitted port that fails is a fatal fault of source 9, and the load stops. -/
def trainEnd (c : Chip) (now : Nat) (pass : Nat → Bool) : Chip :=
  if !c.loading 4 then c else
  match c.boot.copy with
  | none => c
  | some b => match c.copyHdr b with
    | .error _ => c
    | .ok h =>
      let l := c.dramRecs b h
      let bad := l.any (fun r => DRM_CFG.PRESENT.get (r.w 0) == 1 && !pass (r.idx - 0x100))
      let c := l.foldl (fun c r => c.trainPort (r.idx - 0x100) r (pass (r.idx - 0x100))) c
      if bad then ({ c with boot := { c.boot with step := 0 } }).fatal now 9
      else { c with boot := { c.boot with step := 5, trained := some b } }

/-- The copy tried is the one in use (R457, R469). -/
def useCopy (c : Chip) (now : Nat) (b : Bool) (seq : Nat) : Chip :=
  let c := ((c.setReason b 0).sf .CFG_STAT CFG_STAT.COPY (bit b)).sf .CFG_STAT CFG_STAT.SEQ seq
  let c := { c with boot := { c.boot with step := 6 } }
  if c.boot.first = some b then c
  else (c.sf .FLT_STATUS FLT_STATUS.FALLBACK 1).cfgReport now 0x04 0 0

/-- The copy has been streamed and verified, or failed (R457, R459). -/
def verifyEnd (c : Chip) (now : Nat) : Chip :=
  if !c.loading 5 then c else
  match c.boot.copy with
  | none => c
  | some b => match c.copyHdr b with
    | .error k => (c.setReason b k).tryCopies now c.boot.order
    | .ok h =>
      let v := c.copyVerdict b h c.boot.key
      if v = 0 then c.useCopy now b h.seq else (c.setReason b v).tryCopies now c.boot.order

/-- The second pass over a copy that is not staged (R460): its verdict. -/
def secondPass (c : Chip) : Nat :=
  match c.boot.copy with
  | none => 7
  | some b => match c.copyHdr b with
    | .ok h => if c.dramSize 0 = 0 ∧ c.dramSize 1 = 0 then c.copyVerdict b h c.boot.key else 0
    | .error k => k

/-- Duration of the load in ms (R469). -/
def loadMs (c : Chip) (now : Nat) : Chip := c.sf .CFG_STAT CFG_STAT.LOADMS (min ((now - c.boot.since) / 1000000) 1023)

/-- Steps 6 and 7 of R458: the records, then the journal, the queues and the paths; LOAD to TEST. In PAIR topology the
journal waits for the pair to form (R276, R443, R466). -/
def loadEnd (c : Chip) (now : Nat) : Chip :=
  if !c.loading 6 then c else
  let v := c.secondPass
  if v ≠ 0 then
    let b := c.boot.copy.getD false
    ((c.setReason b v).corrected now 18).tryCopies now c.boot.order
  else
  let warm := c.boot.warm
  let c := c.applyImage now c.imageRecs
  let inPair := c.gf .PAR_CFG PAR_CFG.TOPO == 1
  let c := if inPair then c.sf .PAR_STAT PAR_STAT.STATE 1 else c.resumeRings now (fun _ => true)
  let c := (List.range 1024).foldl (fun c n => c.resumePath now warm n) c
  let c := if warm && !inPair then c.abandonJobs now else c
  let c := { c with boot := { c.boot with step := 8 }, misc := { c.misc with held := [] } }
  (c.loadMs now).sf .FLT_STATE FLT_STATE.STATE 2

/-! ### Start of partitions and of RUN (R393, R416, R458 steps 8 and 9) -/

/-- A triad of the partition failed its start-up sluice test (R155). -/
def sluiceBad (c : Chip) (p : Nat) : Bool :=
  (c.triadsOf p).any (fun t => c.gb (.CLU_SLUTEST t) CLU_SLUTEST.DONE && c.tstate t == tUnavailable &&
    !c.gb (.CLU_SLUTEST t) CLU_SLUTEST.PASS)

/-- A partition starts at its entry point (R65, R336, R393). -/
def startPart (c : Chip) (now p : Nat) : Chip :=
  let c := c.sf (.PRT_STATE p) PRT_STATE.STATE 2
  let c := (List.range 64).foldl (fun c n =>
    if c.gf (.FLD_CFG n) FLD_CFG.OWNER == p && c.gb (.FLD_CFG n) FLD_CFG.EN && !c.triadHolds n then c.sf (.FLD_STAT n) FLD_STAT.SAFE 0
    else c) c
  (c.triadsOf p).foldl (fun c t => c.startTriad now t) c

/-- The partitions with AUTOSTART start once the start-up tests have passed (R393). -/
def autostart (c : Chip) (now : Nat) : Chip :=
  ((List.range 64).filter (fun p => c.gb (.PRT_CFG p) PRT_CFG.DEFINED && c.gb (.PRT_CFG p) PRT_CFG.AUTOSTART &&
    c.pstate p == 1 && !c.sluiceBad p)).foldl (fun c p => c.startPart now p) c

/-- The attributions of one source. -/
def attrsOf (c : Chip) (s : Nat) : List Nat := (List.range 65).filter (fun k => c.attributed s k)

/-- TEST to RUN, or to FAULT where a contained fault was raised in LOAD or TEST; its grace timers start now (R416). -/
def enterRun (c : Chip) (now : Nat) : Chip :=
  if !c.flt.early then c.sf .FLT_STATE FLT_STATE.STATE 3 else
  let c := (List.range 20).foldl (fun c s => (c.attrsOf s).foldl (fun c k => c.startGrace now s k) c) c
  ((c.modFlt (fun f => { f with early := false })).quiet now).sf .FLT_STATE FLT_STATE.STATE 4

/-- A core that failed at load takes no lane role (R54, R461). -/
def failCore (c : Chip) (k : Nat) : Chip :=
  (c.sf (.CLU_CSSTAT k) CLU_CSSTAT.FAILED 1).setStore k { (c.cstore k) with failed := true }

/-- The start-up sluice test of a triad (R154, R155). -/
def startSluice (c : Chip) (now t : Nat) (m : Byte) : Chip :=
  let c := (c.updTriad t (fun x => { x with sluMask := m })).sluNote t 0xFF
  if c.gb (.CLU_SLUTEST t) CLU_SLUTEST.PASS then c
  else if c.gb (.CLU_TCFG t) CLU_TCFG.SLUCONT then (c.setT t tUnavailable).triadContained now t 0x09
  else c.triadFatal now t 0x09

/-- The faults that the start-up tests find (R461, R494): the tests of cores, snoop filters, loaders and the switch run at a
cold reset alone. -/
def startFaults (c : Chip) (now : Nat) (r : StartUpResult) : Chip :=
  let c := r.failedCores.foldl (fun c k => c.failCore k.val) c
  let c := if c.boot.warm || (r.snoopOk && r.loaderOk) then c else c.fatal now 0
  let c := if c.boot.warm || r.switchOk then c else c.fatal now 10
  if r.collectorOk then c else c.fatal now 18

/-- The verdicts of a triad's sluice test; a triad that is not listed passed. -/
def maskOf (r : StartUpResult) (t : Nat) : Byte := ((r.sluice.find? (fun e => e.1.val == t)).map Prod.snd).getD 0xFF

/-- Step 8 has ended: a low `BRAKE_REQ_N` or a fatal fault leads to SAFE (R416, R420); in PAIR topology the device waits for
its partner (R443); else step 9. -/
def testsEnd (c : Chip) (now : Nat) (r : StartUpResult) : Chip :=
  if c.off || c.gf .FLT_STATE FLT_STATE.STATE != 2 || c.boot.step != 8 then c else
  let c := c.startFaults now r
  let c := (List.range 32).foldl (fun c t => c.startSluice now t (maskOf r t)) c
  let c := if r.brakeReqLow && !c.flt.deviceBrake then
    (c.sf .FLT_STATUS FLT_STATUS.EXTBRAKE 1).brakeDevice now 2 else c
  let c := { c with boot := { c.boot with step := 0 } }
  if c.gf .FLT_STATE FLT_STATE.STATE != 2 then c
  else if c.gf .PAR_CFG PAR_CFG.TOPO = 1 then { c with boot := { c.boot with step := 9, joinFrom := some now } }
  else (c.enterRun now).autostart now

/-! ### Staging (R462, R463) -/

/-- Memory that the manager may read. -/
def mgrReadable (c : Chip) (a n : Nat) : Bool :=
  let one (a : Nat) : Bool := match c.region a with
    | .dram _ => true
    | .bank k => c.mgrOwns k && c.domainOn (9 + k / 8)
    | _ => false
  let pts := a :: ((List.range (n / 0x80000 + 1)).map (fun i => (a / 0x80000 + 1 + i) * 0x80000)).filter (fun b => decide (b < a + n))
  n == 0 || (pts.all one && one (a + n - 1))

/-- Words read for the staging engine; none where one is uncorrectable. -/
def stageRead (c : Chip) (now : Nat) : Nat → Nat → List Byte → Chip × Option (List Byte)
  | 0, _, acc => (c, some acc)
  | n + 1, a, acc =>
    match c.readWord now a none with
    | (c, some d) => stageRead c now n (a + 8) (acc ++ bytesLE 8 d.toNat)
    | (c, none) => (c, none)

def stageResult (c : Chip) (k : Nat) : Chip := c.sf .CFG_STGSTAT CFG_STGSTAT.RESULT k

/-- A staging command that is not performed (R462, R469). -/
def stageRefuse (c : Chip) (now k : Nat) : Chip :=
  let c := c.cfgReport now 0x08 0 0
  if k = 0 then c else c.stageResult k

/-- An operation begins: BUSY, and its end is awaited. -/
def stageStart (c : Chip) (x : Stage) : Chip :=
  let c := { c with stage := x }
  ((c.stageResult 1).sf .CFG_STGSTAT CFG_STGSTAT.DONE 0).sf .CFG_STGSTAT CFG_STGSTAT.BUSY 1

/-- The staging engine is asked for ERASE, WRITE or FINISH of a slot (R462): false where it does not start. `data` are the
octets of a WRITE. -/
def stageGo (c : Chip) (now : Nat) (b : Bool) (op off : Nat) (data : List Byte) (mgt : Bool) : Chip × Bool :=
  let busy := c.gb .CFG_STGSTAT CFG_STGSTAT.BUSY
  let x := c.stage
  let ready := x.erased && x.slot == b
  if busy || op == 0 then (c.stageRefuse now 0, false)
  else if op = 1 then (c.stageStart { slot := b, op := 1, mgt := mgt }, true)
  else if !ready then (c.stageRefuse now 7, false)
  else if op = 2 ∧ (off % 256 ≠ 0 ∨ data.length % 256 ≠ 0 ∨ 2 ^ 26 < off + data.length) then (c.stageResult 3, false)
  else (c.stageStart { x with op := op, off := off, data := data, mgt := mgt }, true)

/-- The slot of the copy not in use. -/
def freeSlot (c : Chip) : Bool := !(c.boot.copy.getD true)

/-- A GO write of `CFG_STGCMD` (R462). -/
def stageWrite (c : Chip) (now : Nat) (v : DWord) (op : Nat) : Chip :=
  let busy := c.gb .CFG_STGSTAT CFG_STGSTAT.BUSY
  let go := v.getLsbD 63
  if busy && go then c.stageRefuse now 0 else
  let c := c.plainWrite now .CFG_STGCMD v
  if !go || c.gf .CFG_STGCMD CFG_STGCMD.OP ≠ op then c else
  let n := CFG_STGCMD.LEN.get v
  let a := 256 * c.gf .CFG_STGADDR CFG_STGADDR.ADDR
  if op ≠ 2 then (c.stageGo now c.freeSlot op 0 [] false).1
  else if !c.stage.erased then c.stageRefuse now 7
  else if !c.mgrReadable a n then c.stageResult 2
  else match c.stageRead now (n / 8) a [] with
    | (c, none) => c.stageResult 2
    | (c, some d) =>
      if n % 256 ≠ 0 then c.stageResult 3 else (c.stageGo now c.freeSlot 2 (CFG_STGCMD.OFFSET.get v) d false).1

/-- Octets of the first 4 KiB, which are held, and the rest, which are programmed (R462). -/
def stageProgram (c : Chip) : Chip :=
  let x := c.stage
  let (p, o) := copyAt c.bootSel x.slot
  let k := 4096 - min x.off 4096
  let held := patch (x.held ++ List.replicate (4096 - x.held.length) 0xFF) x.off (x.data.take k)
  ({ c with stage := { x with held := held } }).flashWr p (o + max x.off 4096) (x.data.drop k)

/-- FINISH: the held octets, then the check of the slot (R457, R462): the result. -/
def stageFinish (c : Chip) : Chip × Nat :=
  let x := c.stage
  let (p, o) := copyAt c.bootSel x.slot
  let c := c.flashWr p o x.held
  let key := (c.keyAt 0).getD []
  match c.copyHdr x.slot with
  | .error _ => (c, 6)
  | .ok h =>
    if c.copyVerdict x.slot h key ≠ 0 then (c, 6)
    else if c.boot.copy.isSome && decide (h.seq ≤ c.gf .CFG_STAT CFG_STAT.SEQ) then (c, 5)
    else (c, 0)

/-- The operation ends with a result (R462, R469). -/
def stageDone (c : Chip) (res done : Nat) (er : Bool) : Chip :=
  let c := { c with stage := { c.stage with op := 0, data := [], erased := er, mgt := false } }
  ((c.stageResult res).sf .CFG_STGSTAT CFG_STGSTAT.DONE (min done (2 ^ 26 - 1))).sf .CFG_STGSTAT CFG_STGSTAT.BUSY 0

/-- The running operation has ended; a failure of the flash device is result 4. -/
def stageEnd (c : Chip) (ok : Bool) : Chip :=
  let x := c.stage
  if x.op = 0 then c else
  if !ok then c.stageDone 4 0 (x.op ≠ 1 && x.erased) else
  match x.op with
  | 1 =>
    let (p, o) := copyAt c.bootSel x.slot
    (c.flashErase p o 0x4000000).stageDone 0 0x4000000 true
  | 2 => (c.stageProgram).stageDone 0 x.data.length true
  | _ =>
    let (c, r) := c.stageFinish
    c.stageDone r 0x4000000 false

end Chip

/-! ### Commands -/

/-- `PORST_N_RELEASE` (R40, R452, R458, R506). -/
def execPorstNRelease (pins : BootPins) (s : State) : Out :=
  if s.chip.off then
    let c := s.chip.coldRelease pins
    .next { s with now := 0, chip := if pins.testMode then c else c.bootBegin 0 false }
  else .next s

/-- `PORST_N_ASSERT` (R416, R464): only flash and fuses are kept. -/
def execPorstNAssert (s : State) : Out := .next { s with now := 0, chip := { flash := s.chip.flash, free := s.chip.free } }

/-- `RESET_N` (R464, R465). -/
def execResetN (s : State) : Out := s.act (fun now c => c.warmReset now)

/-- `CFG_RESET`: `CFG_CTL.RESET` (R464, R469). -/
def execCfgReset (ag : Agent) (s : State) : Out :=
  s.act (fun now c => if c.mayWrite ag .CFG_CTL then c.warmReset now else c)

/-- `REFCLK_RELOCK` (R42, R43). -/
def execRefclkRelock (s : State) : Out :=
  s.act (fun now c =>
    if c.off then c else
    let c := ({ c with boot := { c.boot with refclk := true } }).sf .TIM_STATUS TIM_STATUS.LOCK 1
    if c.boot.step == 1 && c.boot.corePg then c.bootGo now else c)

/-- `CORE_PG_RISE` (R511): a load that waits goes on. -/
def execCorePgRise (s : State) : Out :=
  s.act (fun now c =>
    if c.off then c else
    let c := { c with boot := { c.boot with corePg := true } }
    if c.boot.step == 1 && c.boot.refclk then c.bootGo now else c)

/-- `CORE_PG_FALL` (R511). -/
def execCorePgFall (s : State) : Out :=
  s.act (fun now c => if c.off then c else ({ c with boot := { c.boot with corePg := false } }).fatal now 19)

/-- `DRAM_TRAINING_END` (R220, R458 step 4). -/
def execDramTrainingEnd (pass0 pass1 : Bool) (s : State) : Out :=
  s.act (fun now c => c.trainEnd now (fun p => if p = 0 then pass0 else pass1))

/-- `COPY_VERIFY_END` (R457, R458 step 5). -/
def execCopyVerifyEnd (s : State) : Out := s.act (fun now c => c.verifyEnd now)

/-- `CONFIGURATION_LOAD_END` (R458 steps 6 and 7). -/
def execConfigurationLoadEnd (s : State) : Out := s.act (fun now c => c.loadEnd now)

/-- `START_UP_TESTS_END` (R458 steps 8 and 9). -/
def execStartUpTestsEnd (res : StartUpResult) (s : State) : Out := s.act (fun now c => c.testsEnd now res)

/-- `ERASE`, `STAGE_WRITE`, `FINISH`: writes of `CFG_STGCMD` with their OP (R462). -/
def execErase (ag : Agent) (v : BitVec 64) (s : State) : Out :=
  s.act (fun now c => if c.mayWrite ag .CFG_STGCMD then c.stageWrite now v 1 else c)
def execStageWrite (ag : Agent) (v : BitVec 64) (s : State) : Out :=
  s.act (fun now c => if c.mayWrite ag .CFG_STGCMD then c.stageWrite now v 2 else c)
def execFinish (ag : Agent) (v : BitVec 64) (s : State) : Out :=
  s.act (fun now c => if c.mayWrite ag .CFG_STGCMD then c.stageWrite now v 3 else c)

end Sys2Proof.Machine
end

