-- ==== Sys2Proof/Machine/PowerTest.lean ====
section
/-! DEFINITION. Power domains, live tests and the temperature (R487 to R494, R520). -/
namespace Sys2Proof.Machine
namespace Chip

/-! ### Power domains (R487 to R489) -/

def modMisc (c : Chip) (f : Misc → Misc) : Chip := { c with misc := f c.misc }

/-- Some enabled path satisfies `p`. -/
def anyPath (c : Chip) (p : Nat → Bool) : Bool := (List.range 1024).any (fun n => c.pEn n && p n)

/-- A partition window or a host window reaches DRAM port 1. -/
def port1Used (c : Chip) : Bool :=
  let hits (b l : Nat) : Bool := decide (b < 0x1000000) && decide (0x800000 ≤ l) && decide (b ≤ l)
  let win (p w : Nat) : Bool :=
    let o := c.gf (.PRT_WOFFSET p w) PRT_WOFFSET.OFFSET
    let b := c.gf (.PRT_WBASE p w) PRT_WBASE.BASE
    let n := c.gf (.PRT_WLIMIT p w) PRT_WLIMIT.LIMIT - b
    c.gb (.PRT_WBASE p w) PRT_WBASE.EN && (hits ((b + o) % 2 ^ 28) ((b + o) % 2 ^ 28 + n))
  (List.range 64).any (fun p => (List.range 16).any (win p)) ||
  (List.range 32).any (fun k => c.gb (.HST_WBASE k) HST_WBASE.EN &&
    hits (c.gf (.HST_WBASE k) HST_WBASE.BASE) (c.gf (.HST_WLIMIT k) HST_WLIMIT.LIMIT))

/-- The condition under which a domain may be switched off (R487). -/
def mayPowerDown (c : Chip) (d : Nat) : Bool :=
  if d = 0 then false
  else if d ≤ 8 then
    (List.range 4).all (fun j => c.tstate (4 * (d - 1) + j) == 0 || c.tstate (4 * (d - 1) + j) == 6) &&
    c.gf (.CLU_SPARE (d - 1)) CLU_SPARE.STATE != 1
  else if d ≤ 16 then
    (List.range 8).all (fun j => c.gf (.BNK_OWNER (8 * (d - 9) + j)) BNK_OWNER.TYPE == 0 &&
      !c.gb (.BNK_OWNER (8 * (d - 9) + j)) BNK_OWNER.BUSY)
  else if d = 17 then !c.anyPath (fun n => c.pSec n == 1 || c.pSec n == 2) && c.chan.cjobs.isEmpty && c.chan.unwraps.isEmpty
  else if d = 18 then !c.anyPath c.pCmp && c.chan.mjobs.isEmpty
  else if d = 19 then !c.anyPath (fun _ => true) && !(List.range 4096).any c.queEn
  else if d ≤ 24 then !c.anyPath (fun n => decide (c.pLane n < 20) && c.pLane n / 4 == d - 20)
  else if d = 25 then c.gf .PAR_CFG PAR_CFG.TOPO == 0
  else if d = 26 then !c.anyPath (fun n => isField (c.pLane n))
  else if d = 27 then (List.range 30).all (fun k => k == 0 || k == 27 || !c.domainOn k)
  else if d = 28 then !c.port1Used
  else !c.gb .PRT_MGR PRT_MGR.SITE

/-- Bit `d` of `SYS_PWRCTL`, of ON and of BUSY. -/
def setReq (c : Chip) (d v : Nat) : Chip := c.sf .SYS_PWRCTL ⟨d, d⟩ v
def setOn (c : Chip) (d v : Nat) : Chip := c.sf .SYS_PWRSTAT ⟨d, d⟩ v
def setPwrBusy (c : Chip) (d v : Nat) : Chip := c.sf .SYS_PWRSTAT ⟨30 + d, 30 + d⟩ v

/-- A request to switch a domain (R488). -/
def pwrReq (c : Chip) (now d : Nat) (on : Bool) : Chip :=
  if d = 0 then c
  else if c.domainBusy d then
    (c.setReq d (bit on)).modMisc (fun m => { m with pwrWait := m.pwrWait.filter (fun e => e.1 != d) ++ [(d, on)] })
  else if c.domainOn d = on then c.setReq d (bit on)
  else if !on && !c.mayPowerDown d then (c.setReq d 1).corrected now 19
  else (c.setReq d (bit on)).setPwrBusy d 1

/-- A write of `SYS_PWRCTL`: a request for every domain whose bit changes. -/
def pwrWrite (c : Chip) (now : Nat) (v : DWord) : Chip :=
  (List.range 30).foldl (fun c d => if (c.rd .SYS_PWRCTL).getLsbD d = v.getLsbD d then c else c.pwrReq now d (v.getLsbD d)) c

/-- The registers of paths and queues, which their domain loses. -/
def millReg : RegName → Bool
  | .CHN_PATHCFG _ | .CHN_PATHMATCH0 _ | .CHN_PATHMATCH1 _ | .CHN_PATHAUX _ | .CHN_PATHSTAT _ | .CHN_PATHSEQ _ => true
  | .QUE_CFG _ | .QUE_HR _ | .QUE_TR _ | .QUE_CTLA _ | .QUE_PROG _ | .QUE_STAT _ | .QUE_GEN _ => true
  | _ => false

/-- The records of the image of one TYPE. -/
def recsOf (c : Chip) (typ : Nat) : List Rec := c.imageRecs.filter (fun r => r.typ == typ)

/-- A cluster comes up: control stores rewritten, caches empty, sluice tests run. -/
def clusterUp (c : Chip) (now cl : Nat) : Chip :=
  let c := (List.range 12).foldl (fun c i => c.setLane (12 * cl + i) {}) c
  let c := (List.range 13).foldl (fun c i => c.storeRewrite (13 * cl + i)) c
  (List.range 4).foldl (fun c j => c.startSluice now (4 * cl + j) 0xFF) c

/-- The millrace comes up: path and queue registers from the image, then the queues and paths as after a load (R313). -/
def millUp (c : Chip) (now : Nat) : Chip :=
  let lost (a : Nat) : Bool := match regOf a with | some r => millReg r | none => false
  let c := { c with regs := c.regs.dropKeys lost, chan := { c.chan with ques := [], paths := [], cpus := [], tagQ := [] } }
  let c := (c.recsOf 0x0B).foldl (fun c r => c.applyPath now r) c
  let c := (c.recsOf 0x0C).foldl (fun c r => c.applyQueue now r) c
  let c := (c.recsOf 0x0C).foldl (fun c r => c.checkQueue now r.idx) c
  let c := (c.recsOf 0x0B).foldl (fun c r => c.checkPath now r.idx) c
  let c := ((List.range 4096).filter c.queEn).foldl (fun c q => c.resumeQueue now q (c.lineWord q 0) []) c
  ((List.range 1024).filter c.pEn).foldl (fun c n => c.resumePath now true n) c

/-- The cipher engine comes up: slots zeroised, KEYBLOB records unwrapped again. -/
def cipherUp (c : Chip) (now : Nat) : Chip :=
  let c := c.chan.keys.keys.foldl (fun c s => c.zeroise s) c
  (c.recsOf 0x10).foldl (fun c r => c.applyKey now r) c

/-- Lanes of a quad begin to train, where they are enabled. -/
def quadUp (c : Chip) (g : Nat) : Chip :=
  (List.range 4).foldl (fun c j =>
    if c.gb (.LAN_CFG (4 * g + j)) LAN_CFG.EN then c.sf (.LAN_STAT (4 * g + j)) LAN_STAT.TRAINING 1 else c) c

/-- The lanes of a quad are down. -/
def quadDown (c : Chip) (g : Nat) : Chip :=
  (List.range 4).foldl (fun c j =>
    (c.sf (.LAN_STAT (4 * g + j)) LAN_STAT.LINK 0).sf (.LAN_STAT (4 * g + j)) LAN_STAT.TRAINING 0) c

/-- DRAM port 1 comes up: its contents are lost. -/
def dramUp (c : Chip) : Chip :=
  match (c.recsOf 0x01).find? (fun r => r.idx == 0x101) with
  | some r => c.trainPort 1 r true
  | none => c

/-- A domain has come up (R487). -/
def powered (c : Chip) (now d : Nat) : Chip :=
  if d ≤ 8 then c.clusterUp now (d - 1)
  else if d ≤ 16 then (List.range 8).foldl (fun c j => c.zeroBank (8 * (d - 9) + j)) c
  else if d = 17 then c.cipherUp now
  else if d = 19 then c.millUp now
  else if 20 ≤ d ∧ d ≤ 24 then c.quadUp (d - 20)
  else if d = 26 then (List.range 64).foldl (fun c n => c.fieldSafe n) c
  else if d = 28 then c.dramUp
  else c

/-- A domain has gone down. -/
def unpowered (c : Chip) (d : Nat) : Chip :=
  if 20 ≤ d ∧ d ≤ 24 then c.quadDown (d - 20)
  else if d = 25 then c.sf .PAR_STAT PAR_STAT.LANES 0
  else if d = 29 then (c.sf .HST_STAT HST_STAT.UP 0).sf .HST_STAT HST_STAT.WIDTH 0
  else c

/-- A transition ends; a request that waited for it follows. -/
def pwrEnd (c : Chip) (now d : Nat) : Chip :=
  if c.off || !c.domainBusy d then c else
  let c := c.setPwrBusy d 0
  let c := if c.domainOn d then (c.setOn d 0).unpowered d else (c.setOn d 1).powered now d
  match c.misc.pwrWait.find? (fun e => e.1 == d) with
  | some e => (c.modMisc (fun m => { m with pwrWait := m.pwrWait.filter (fun e => e.1 != d) })).pwrReq now d e.2
  | none => c

/-! ### Live tests (R491 to R494) -/

def tKind (c : Chip) (k : Nat) : Nat := c.gf (.SYS_TEST k) SYS_TEST.KIND
def tTarget (c : Chip) (k : Nat) : Nat := c.gf (.SYS_TEST k) SYS_TEST.TARGET
def tLane (c : Chip) (k : Nat) : Nat := c.gf (.SYS_TEST k) SYS_TEST.LANE
def tState (c : Chip) (k : Nat) : Nat := c.gf (.SYS_TEST k) SYS_TEST.STATE
def setTest (c : Chip) (k st : Nat) : Chip := c.sf (.SYS_TEST k) SYS_TEST.STATE st

/-- How many targets a kind has, and the power domain of a target; none for a kind that is not defined. -/
def testDomain (kind target : Nat) : Option Nat :=
  match kind with
  | 1 | 8 => if target < 32 then some (1 + target / 4) else none
  | 2 => if target < 8 then some (1 + target) else none
  | 3 => if target < 64 then some (9 + target / 8) else none
  | 4 => if target < 20 then some (20 + target / 4) else none
  | 5 => if target < 64 then some 26 else none
  | 6 => if target < 16 then some 17 else none
  | 7 => if target < 8 then some 18 else none
  | 9 => some 0
  | _ => none

/-- GO: the request is queued, or refused (R490, R494). -/
def testGo (c : Chip) (now k : Nat) : Chip :=
  if c.tState k = 1 ∨ c.tState k = 2 then c else
  match testDomain (c.tKind k) (c.tTarget k) with
  | none => c.setTest k 6
  | some d =>
    if c.tKind k = 1 ∧ c.tLane k = 3 then c.setTest k 6
    else if !c.domainOn d || c.domainBusy d then (c.setTest k 6).corrected now 19
    else (c.setTest k 1).modMisc (fun m => { m with tests := without m.tests k ++ [k] })

/-- CANCEL of a queued request. -/
def testCancel (c : Chip) (k : Nat) : Chip :=
  if c.tState k = 1 then (c.setTest k 5).modMisc (fun m => { m with tests := without m.tests k }) else c

/-- A write of `SYS_TEST`: KIND, LANE and TARGET of a slot that is queued or running do not change. -/
def testWrite (c : Chip) (now k : Nat) (v : DWord) : Chip :=
  let c := if c.tState k = 1 ∨ c.tState k = 2 then c else c.plainWrite now (.SYS_TEST k) v
  let c := if SYS_TEST.CANCEL.get v = 1 then c.testCancel k else c
  if SYS_TEST.GO.get v = 1 then c.testGo now k else c

/-- Two slots name one target. -/
def sameTarget (c : Chip) (a b : Nat) : Bool :=
  c.tKind a == c.tKind b && c.tTarget a == c.tTarget b && (c.tKind a != 1 || c.tLane a == c.tLane b)

/-- No path bound to a lane holds a tag or a queued frame. -/
def laneIdle (c : Chip) (ln : Nat) : Bool :=
  (c.eg ln).cur.isNone && (c.eg ln).queue.isEmpty &&
  !(List.range 1024).any (fun n => c.pLane n == ln && c.pEn n && c.gf (.CHN_PATHSTAT n) CHN_PATHSTAT.UNACK != 0)

/-- The target of a request is free (R491). -/
def testFree (c : Chip) (k : Nat) : Bool :=
  let n := c.tTarget k
  match c.tKind k with
  | 1 => c.tstate n == tVoting
  | 2 => c.gf (.CLU_SPARE n) CLU_SPARE.STATE == 0
  | 3 => c.gf (.BNK_OWNER n) BNK_OWNER.TYPE == 0 && !c.gb (.BNK_OWNER n) BNK_OWNER.BUSY
  | 4 => c.laneIdle n
  | 5 => c.laneIdle (0x40 + n)
  | 8 => c.tstate n == tVoting || c.tstate n == tDegraded
  | 9 => !c.gb .GOV_STATUS GOV_STATUS.RECALBUSY
  | _ => true

/-- The lane under BIST leaves the vote (R147 step 1); the triad runs two out of two. -/
def bistLane (c : Chip) (t i : Nat) : Chip :=
  let c := (c.fenceLane t i).updTriad t (fun x => { x with alive := without x.alive i })
  c.setT t tDegraded

/-- What a test takes while it runs. -/
def testTake (c : Chip) (k : Nat) : Chip :=
  let n := c.tTarget k
  match c.tKind k with
  | 1 => c.bistLane n (c.tLane k)
  | 2 => c.sf (.CLU_SPARE n) CLU_SPARE.STATE 3
  | 3 => c.sf (.BNK_OWNER n) BNK_OWNER.BUSY 1
  | 4 => (c.sf (.LAN_STAT n) LAN_STAT.LINK 0).sf (.LAN_STAT n) LAN_STAT.TRAINING 1
  | 5 => c.fieldSafe n
  | 6 => c.coreOut .cipher n true
  | 7 => c.coreOut .mill n true
  | 8 => c.sluCmd n
  | 9 => c.recalStart
  | _ => c

/-- A queued test starts once its target is free and no earlier request names it. -/
def testStart (c : Chip) (k : Nat) : Chip :=
  let before := c.misc.tests.takeWhile (· != k) ++ (List.range 16).filter (fun j => c.tState j == 2)
  if c.off || c.tState k != 1 || before.any (c.sameTarget k) || !c.testFree k then c
  else ((c.setTest k 2).modMisc (fun m => { m with tests := without m.tests k })).testTake k

/-- A core that comes back from a test stays out where OUT asks for it. -/
def coreBack (c : Chip) (p : Pool) (i src now : Nat) (pass : Bool) : Chip :=
  if pass then c.coreOut p i false
  else ((c.coreOut p i false).setCore p i 3).contained now src none none

/-- A triad's lane comes back by a rebuild, or is failed (R143, R146, R493). -/
def bistEnd (c : Chip) (now t i : Nat) (pass : Bool) : Chip :=
  if c.tstate t ≠ tDegraded then c
  else if pass then c.startRebuild t i false
  else
    let core := c.coreOf t i
    let c := (c.sf (.CLU_CSSTAT core) CLU_CSSTAT.FAILED 1).setStore core { (c.cstore core) with failed := true }
    let c := c.triadContained now t 0x03
    if core % 13 != 12 && c.spareFree (t / 4) then (c.triadCorrected now t 0x05).startSwap t i else c.degrade now t i

/-- A test returns its target, or leaves it failed (R491, R493). -/
def testGive (c : Chip) (now k : Nat) (pass : Bool) : Chip :=
  let n := c.tTarget k
  match c.tKind k with
  | 1 => c.bistEnd now n (c.tLane k) pass
  | 2 => if pass then c.sf (.CLU_SPARE n) CLU_SPARE.STATE 0
    else (c.sf (.CLU_SPARE n) CLU_SPARE.STATE 2).contained now n none none
  | 3 => if pass then (c.zeroBank n).sf (.BNK_OWNER n) BNK_OWNER.BUSY 0 else c.contained now 8 none none
  | 4 => if pass then c.linkGood now n else (c.sf (.LAN_STAT n) LAN_STAT.TRAINING 0).contained now 12 none none
  | 5 => if pass then c.fieldBack n else c.contained now 13 none none
  | 6 => c.coreBack .cipher n 14 now pass
  | 7 => c.coreBack .mill n 15 now pass
  | _ => c

/-- The test's own work is done: a core has ended its job, the sluice test and the recalibration end by themselves (R156, R51). -/
def testRan (c : Chip) (k : Nat) : Bool :=
  match c.tKind k with
  | 6 => c.coreState .cipher (c.tTarget k) != 1
  | 7 => c.coreState .mill (c.tTarget k) != 1
  | 8 => !(c.triad (c.tTarget k)).sluReq
  | 9 => !c.gb .GOV_STATUS GOV_STATUS.RECALBUSY
  | _ => true

/-- A running test ends. -/
def testEnd (c : Chip) (now k : Nat) (pass : Bool) (detail : Nat) : Chip :=
  if c.off || c.tState k != 2 || !c.testRan k then c else
  let pass := pass && (c.tKind k != 8 || c.gb (.CLU_SLUTEST (c.tTarget k)) CLU_SLUTEST.PASS)
  let c := (c.setTest k (if pass then 3 else 4)).sf (.SYS_TEST k) SYS_TEST.DETAIL detail
  c.testGive now k pass

/-- A partition's reset or removal ends the tests on what it covers (R492): its triads and lanes. -/
def testsGone (c : Chip) (p : Nat) : Chip :=
  let mine (k : Nat) : Bool :=
    let n := c.tTarget k
    match c.tKind k with
    | 1 | 8 => c.ownsTriad p n
    | 4 => c.ownsLan p n
    | 5 => c.ownsFld p n
    | _ => false
  ((List.range 16).filter (fun k => c.tState k == 2 && mine k)).foldl (fun c k => c.setTest k 5) c

/-! ### Temperature (R520, R521) -/

/-- The highest reading and its sensor. -/
def hottest (temps : List (BitVec 8)) : Option (Int × Nat) :=
  temps.zipIdx.foldl (fun b (e : BitVec 8 × Nat) => match b with
    | some (v, _) => if v < e.1.toInt then some (e.1.toInt, e.2) else b
    | none => some (e.1.toInt, e.2)) none

/-- A byte of a signed value. -/
def signedByte (v : Int) : Nat := (BitVec.ofInt 8 v).toNat

/-- `GOV_TEMP` takes TJ, its sensor and the peak. -/
def noteTemp (c : Chip) (tj : Int) (s : Nat) : Chip :=
  let peak := (BitVec.ofNat 8 (c.gf .GOV_TEMP GOV_TEMP.PEAK)).toInt
  let c := (c.sf .GOV_TEMP GOV_TEMP.TJ (signedByte tj)).sf .GOV_TEMP GOV_TEMP.SENSOR s
  if peak < tj then c.sf .GOV_TEMP GOV_TEMP.PEAK (signedByte tj) else c

/-- The sensors are read. -/
def thermSample (c : Chip) (now : Nat) (temps : List (BitVec 8)) : Chip :=
  match hottest temps with
  | none => c
  | some (tj, s) =>
    let c := (c.noteTemp tj s).modMisc (fun m => { m with
      therm := if 110 ≤ tj then true else if tj ≤ 105 then false else m.therm
      hotFrom := if tj < 118 then none else some (m.hotFrom.getD now) })
    if 125 ≤ tj then c.fatal now 19 else c

/-- TJ has been at or above 118 °C for 1 ms. -/
def overTemp (c : Chip) (now : Nat) : Chip :=
  match c.misc.hotFrom with
  | some t => if t + 1000000 ≤ now then (c.modMisc (fun m => { m with hotFrom := none })).contained now 19 none none else c
  | none => c

/-- A write by the manager, or the miller, of a register of power or tests. -/
def byPower (c : Chip) (ag : Agent) (r : RegName) (f : Chip → Chip) : Chip :=
  if !c.off && c.mayWrite ag r then f c else c

end Chip

/-- `POWER_DOWN` (R487 to R489). -/
def execPowerDown (ag : Agent) (d : Fin 30) (s : State) : Out :=
  s.act (fun now c => c.byPower ag .SYS_PWRCTL (fun c => c.pwrReq now d false))

/-- `POWER_UP` (R487, R488). -/
def execPowerUp (ag : Agent) (d : Fin 30) (s : State) : Out :=
  s.act (fun now c => c.byPower ag .SYS_PWRCTL (fun c => c.pwrReq now d true))

/-- `POWER_TRANSITION_END` (R487, R488). -/
def execPowerTransitionEnd (d : Fin 30) (s : State) : Out := s.act (fun now c => c.pwrEnd now d)

/-- `GO`: a write of `SYS_TEST` (R490, R491, R499). -/
def execGo (ag : Agent) (k : Fin 16) (v : BitVec 64) (s : State) : Out :=
  s.act (fun now c => c.byPower ag (.SYS_TEST k) (fun c => c.testWrite now k v))

/-- `CANCEL` (R499). -/
def execCancel (ag : Agent) (k : Fin 16) (s : State) : Out :=
  s.act (fun _ c => c.byPower ag (.SYS_TEST k) (fun c => c.testCancel k))

/-- `TEST_START` (R491, R492). -/
def execTestStart (k : Fin 16) (s : State) : Out := s.act (fun _ c => c.testStart k)

/-- `TEST_END` (R491, R493). -/
def execTestEnd (k : Fin 16) (pass : Bool) (detail : BitVec 32) (s : State) : Out :=
  s.act (fun now c => c.testEnd now k pass detail.toNat)

/-- `THERMAL_SAMPLE` (R520, R521). -/
def execThermalSample (temps : List (BitVec 8)) (s : State) : Out :=
  s.act (fun now c => if c.off then c else c.thermSample now temps)

/-- `OVERTEMPERATURE` (R520). -/
def execOvertemperature (s : State) : Out := s.act (fun now c => if c.off then c else c.overTemp now)

end Sys2Proof.Machine
end

