-- ==== Sys2Proof/Machine/Partitions.lean ====
section
/-! DEFINITION. Partition commands, reset and removal, and the written-page log's control (R393 to R400, R490). -/
namespace Sys2Proof.Machine
namespace Chip

/-! ### Commands (R393, R394, R490) -/

/-- A command that is not performed (R393, R469). -/
def prtRefuse (c : Chip) (now p : Nat) : Chip := c.cfgReport now 0x07 0 (RegName.PRT_CTL p).addr

/-- A triad of the partition lies in a cluster that is off or in transition (R490). -/
def clusterDown (c : Chip) (p : Nat) : Bool :=
  (c.triadsOf p).any (fun t => !c.domainOn (1 + t / 4) || c.domainBusy (1 + t / 4))

/-- START of a stopped partition; under the device brake nothing starts, nor does a partition with a triad whose sluice
failed its start-up test (R155). -/
def prtStart (c : Chip) (now p : Nat) : Chip :=
  if c.pstate p ≠ 1 ∨ c.clusterDown p ∨ c.sluiceBad p ∨ c.flt.deviceBrake then c.prtRefuse now p else c.startPart now p

/-- Steps 1 to 3 of R395; live tests on what the partition holds end (R492). -/
def prtHalt (c : Chip) (now p st : Nat) (again : Bool) : Chip :=
  let c := (c.testsGone p).setPart p { (c.part p) with again := again }
  let c := (c.brakePart p).sf (.PRT_STATE p) PRT_STATE.STATE st
  (c.safeFlush now).abortPart now p

/-- RESET of a running or braked partition. -/
def prtReset (c : Chip) (now p : Nat) : Chip :=
  if (c.pstate p ≠ 2 ∧ c.pstate p ≠ 3) ∨ c.flt.deviceBrake then c.prtRefuse now p else c.prtHalt now p 4 true

/-- REMOVE; of a partition in RESETTING it takes over at the step reached. -/
def prtRemove (c : Chip) (now p : Nat) : Chip :=
  if c.flt.deviceBrake then c.prtRefuse now p
  else if c.pstate p = 4 then (c.setPart p { (c.part p) with again := false }).sf (.PRT_STATE p) PRT_STATE.STATE 5
  else if c.pstate p = 2 ∨ c.pstate p = 3 then c.prtHalt now p 5 false
  else c.prtRefuse now p

/-- RESET and REMOVE through `PRT_CTL`, which the manager partition does not accept for itself (R394). -/
def ctlReset (c : Chip) (now p : Nat) : Chip := if c.isMgrPart p then c.prtRefuse now p else c.prtReset now p
def ctlRemove (c : Chip) (now p : Nat) : Chip := if c.isMgrPart p then c.prtRefuse now p else c.prtRemove now p

/-- A write of `PRT_CTL`: START, RESET, REMOVE in the order of their bits. -/
def prtCtlWrite (c : Chip) (now p : Nat) (v : DWord) : Chip :=
  let c := if v.getLsbD 0 then c.prtStart now p else c
  let c := if v.getLsbD 1 then c.ctlReset now p else c
  if v.getLsbD 2 then c.ctlRemove now p else c

/-! ### Step 4 of R395 -/

/-- The triads of a partition become IDLE; one in UNAVAILABLE leaves it only at the next configuration load (R143). -/
def idleTriad (c : Chip) (t : Nat) : Chip :=
  let c := [0, 1, 2].foldl (fun c i => (c.haltLane (3 * t + i)).setLane (3 * t + i) {}) c
  let c := (c.updTriad t (fun x => { x with
    recs := [], digs := [], areqs := [], aready := [], ares := [], bin := [], round := none, wants := []
    rebuild := none, restarting := false, braked := false })).setVote t []
  if c.tstate t = tUnavailable then c else c.setT t tIdle

/-- Banks of a partition go back unowned and zeroed; one on its way to the partition arrives unowned. -/
def freeBanks (c : Chip) (p : Nat) : Chip :=
  let c := { c with handovers := c.handovers.map (fun (e : Nat × Nat × Nat × Bool) =>
    if e.2.1 = 1 ∧ e.2.2.1 = p then (e.1, 0, 0, true) else e) }
  (List.range 64).foldl (fun c n =>
    if c.ownsBank p n && !c.gb (.BNK_OWNER n) BNK_OWNER.BUSY then
      ((c.zeroBank n).sf (.BNK_OWNER n) BNK_OWNER.TYPE 0).sf (.BNK_OWNER n) BNK_OWNER.PART 0
    else c) c

/-- Its key slots are zeroised and unassigned (R342). -/
def freeSlots (c : Chip) (p : Nat) : Chip :=
  (List.range 4096).foldl (fun c s =>
    if c.ownsSlot p s then
      ((c.zeroise s).sf (.CPH_SLOT s) CPH_SLOT.ASSIGNED 0).sf (.CPH_SLOT s) CPH_SLOT.OWNER 0
    else c) c

/-- Windows, barrier groups, the PTP right and the written-page log end. -/
def freeRights (c : Chip) (p : Nat) : Chip :=
  let c := (List.range 16).foldl (fun c w => c.sf (.PRT_WBASE p w) PRT_WBASE.EN 0) c
  let c := ((c.sf (.PRT_CFG p) PRT_CFG.BARGRANT 0).barGrants p).sf (.PRT_CFG p) PRT_CFG.PTP 0
  c.sf (.PRT_LOGCFG p) PRT_LOGCFG.EN 0

/-- Step 4 of R395; the brake is released with it (R412). -/
def prtFree (c : Chip) (p : Nat) : Chip :=
  let c := (c.triadsOf p).foldl (fun c t => c.idleTriad t) c
  let c := ((c.freeBanks p).freeSlots p).freeRights p
  c.modFlt (fun f => { f with partBrakes := without f.partBrakes p })

/-! ### What a RESET assigns again (R396) -/

/-- A conflict with what another owner holds by now (R391, R469). -/
def prtConflict (c : Chip) (now typ : Nat) (r : RegName) : Chip := c.cfgReport now 0x06 typ r.addr

/-- A BANK record of the partition; the banks assigned so far are listed. -/
def againBank (now : Nat) (x : Chip × List Nat) (r : Rec) : Chip × List Nat :=
  let n := RegName.BNK_OWNER r.idx
  if x.1.gf n BNK_OWNER.TYPE == 0 && !x.1.gb n BNK_OWNER.BUSY then (x.1.applyBank now r, r.idx :: x.2)
  else (x.1.prtConflict now 1 n, x.2)

/-- The PARTITION record: shares, barrier groups and the PTP right. -/
def againPart (c : Chip) (now p : Nat) (r : Rec) : Chip :=
  let s := (r.w 2).toNat
  let c := (c.sf (.CPH_SHARE p) CPH_SHARE.WEIGHT (s % 256)).sf (.MIL_SHARE p) MIL_SHARE.WEIGHT (s / 256 % 256)
  let c := c.sf (.PRT_CFG p) PRT_CFG.BARGRANT (PRT_CFG.BARGRANT.get (r.w 0))
  let c := c.sf (.PRT_CFG p) PRT_CFG.PTP (PRT_CFG.PTP.get (r.w 0))
  ((c.dropTaken now p PRT_CFG.BARGRANT).barGrants p).dropTaken now p PRT_CFG.PTP

/-- A KEYBLOB record for one of its slots. -/
def againKey (c : Chip) (now : Nat) (r : Rec) : Chip :=
  if c.gb (.CPH_SLOT r.idx) CPH_SLOT.ASSIGNED then c.prtConflict now 0x10 (.CPH_SLOT r.idx) else c.applyKey now r

/-- A LOAD record as far as it targets banks of the list. -/
def againLoad (c : Chip) (banks : List Nat) (r : Rec) : Chip :=
  let (a, l) := r.load
  (l.zip (List.range l.length)).foldl (fun c e =>
    if banks.any (fun n => inBank n (a + e.2)) then c.setByte (a + e.2) e.1 else c) c

/-- Steps 1 to 3 of R396. -/
def prtAgain (c : Chip) (now p : Nat) : Chip :=
  let rs := c.imageRecs
  let mine (r : Rec) : Bool := BNK_OWNER.TYPE.get (r.w 0) == 1 && BNK_OWNER.PART.get (r.w 0) == p
  let (c, banks) := (rs.filter (fun r => r.typ == 1 && decide (r.idx < 64) && mine r)).foldl (againBank now) (c, [])
  let c := (rs.filter (fun r => r.typ == 7 && r.idx == p)).foldl (fun c r => c.againPart now p r) c
  let c := (rs.filter (fun r => r.typ == 8 && r.idx / 16 == p)).foldl (fun c r => c.applyWindow r) c
  let c := (rs.filter (fun r => r.typ == 0x11)).foldl (fun c r => c.againLoad banks r) c
  (rs.filter (fun r => r.typ == 0x10 && (r.w 1).toNat % 64 == p)).foldl (fun c r => c.againKey now r) c

/-- A voted commit of the partition has not yet been published (R395 step 3), or a forwarded store is not yet at its
target (R250). -/
def prtPending (c : Chip) (p : Nat) : Bool :=
  c.commits.any (fun m => m.part.toNat == p && m.stage != .done && m.stage != .aborted) ||
  (c.triadsOf p).any (fun t => (c.keysOf t).any (fun k => !(c.port k).outq.isEmpty))

/-- The work of the partition has stopped: steps 4 and 5 of R395, and R396. -/
def prtStopped (c : Chip) (now p : Nat) : Chip :=
  let st := c.pstate p
  if c.off || (st != 4 && st != 5) || c.prtPending p then c else
  let c := (c.partStopped now p).prtFree p
  if (c.part p).again then
    let c := (c.setPart p { (c.part p) with again := false }).inc (.PRT_STATE p) PRT_STATE.RESETS
    (c.prtAgain now p).startPart now p
  else c.sf (.PRT_STATE p) PRT_STATE.STATE 1

/-! ### The written-page log (R399, R400) -/

/-- A buffer of 2^LOG2 / 8 bytes at `a` is aligned and lies in banks of the manager. -/
def logBufOk (c : Chip) (lg a : Nat) : Bool :=
  let n := 2 ^ lg / 8
  let k (x : Nat) : Nat := (x - bankBase) / 0x80000
  a % n == 0 && decide (bankBase ≤ a) && decide (a + n ≤ bankBase + 0x2000000) && c.mgrOwns (k a) && c.mgrOwns (k (a + n - 1))

/-- LOG2 is in its range, and both buffers are good. -/
def logOk (c : Chip) (lg a b : Nat) : Bool :=
  decide (12 ≤ lg) && decide (lg ≤ 22) && c.logBufOk lg (0x200 * a) && c.logBufOk lg (0x200 * b)

/-- A write of `PRT_LOGCFG`. -/
def logCfgWrite (c : Chip) (now p : Nat) (v : DWord) : Chip :=
  let ok := c.logOk (PRT_LOGCFG.LOG2.get v) (c.gf (.PRT_LOGBUF0 p) PRT_LOGBUF0.ADDR) (c.gf (.PRT_LOGBUF1 p) PRT_LOGBUF1.ADDR)
  if PRT_LOGCFG.EN.get v = 1 ∧ !ok then c.corrected now 18 else c.plainWrite now (.PRT_LOGCFG p) v

/-- A write of a buffer's address: while the log is on, the buffers stay where R399 asks. -/
def logBufWrite (c : Chip) (now p : Nat) (r : RegName) (v : DWord) : Chip :=
  let d := c.plainWrite now r v
  let ok := d.logOk (c.gf (.PRT_LOGCFG p) PRT_LOGCFG.LOG2) (d.gf (.PRT_LOGBUF0 p) PRT_LOGBUF0.ADDR)
    (d.gf (.PRT_LOGBUF1 p) PRT_LOGBUF1.ADDR)
  if c.gb (.PRT_LOGCFG p) PRT_LOGCFG.EN && !ok then c.corrected now 18 else d

/-- SWAP (R400 step 1); one written while BUSY is not performed. -/
def logSwap (c : Chip) (p : Nat) : Chip := c.sf (.PRT_LOGCTL p) PRT_LOGCTL.BUSY 1

/-- R400 step 2. -/
def logSwapped (c : Chip) (p : Nat) : Chip :=
  let r := RegName.PRT_LOGCTL p
  if c.gb r PRT_LOGCTL.BUSY then
    (c.sf r PRT_LOGCTL.ACTIVE (1 - c.gf r PRT_LOGCTL.ACTIVE)).sf r PRT_LOGCTL.BUSY 0
  else c

/-- A write of `PRT_LOGCTL`. -/
def logCtlWrite (c : Chip) (now p : Nat) (v : DWord) : Chip :=
  let c := c.plainWrite now (.PRT_LOGCTL p) v
  if v.getLsbD 63 then c.logSwap p else c

/-- A manager's command on a register, where the agent may write it. -/
def byWriter (c : Chip) (ag : Agent) (r : RegName) (f : Chip → Chip) : Chip :=
  if !c.off && c.mayWrite ag r then f c else c

end Chip

/-- `START` (R393, R490). -/
def execStart (ag : Agent) (p : BitVec 6) (s : State) : Out :=
  s.act (fun now c => c.byWriter ag (.PRT_CTL p.toNat) (fun c => c.prtStart now p.toNat))

/-- `PARTITION_RESET` (R393 to R396). -/
def execPartitionReset (ag : Agent) (p : BitVec 6) (s : State) : Out :=
  s.act (fun now c => c.byWriter ag (.PRT_CTL p.toNat) (fun c => c.ctlReset now p.toNat))

/-- `REMOVE` (R393 to R395). -/
def execRemove (ag : Agent) (p : BitVec 6) (s : State) : Out :=
  s.act (fun now c => c.byWriter ag (.PRT_CTL p.toNat) (fun c => c.ctlRemove now p.toNat))

/-- `PARTITION_STOPPED` (R395 steps 4 and 5, R396). -/
def execPartitionStopped (p : BitVec 6) (s : State) : Out := s.act (fun now c => c.prtStopped now p.toNat)

/-- `SWAP` (R400 step 1). -/
def execSwap (ag : Agent) (p : BitVec 6) (s : State) : Out :=
  s.act (fun _ c => c.byWriter ag (.PRT_LOGCTL p.toNat) (fun c => c.logSwap p.toNat))

/-- `SWAP_DONE` (R400 step 2). -/
def execSwapDone (p : BitVec 6) (s : State) : Out := s.act (fun _ c => c.logSwapped p.toNat)

/-- `PRT_LOGCFG_WRITE` (R399, R401). -/
def execPrtLogcfgWrite (ag : Agent) (p : BitVec 6) (v : BitVec 64) (s : State) : Out :=
  s.act (fun now c => c.byWriter ag (.PRT_LOGCFG p.toNat) (fun c => c.logCfgWrite now p.toNat v))

end Sys2Proof.Machine
end

