-- ==== Sys2Proof/Machine/FaultCmds.lean ====
section
/-! DEFINITION. The fault collector's commands: reports, grace timers and their escalation, the clearing of faults, the
brakes by software, and the way back from FAULT (R402 to R420). -/
namespace Sys2Proof.Machine

/-- The partition an attribution names, or the manager. -/
def attrParty : Attr → Option Nat
  | .part p => some p.toNat
  | .manager => none

namespace Chip

/-! ### Ending an attribution (R409) -/

/-- Whose faults a triad's are. -/
def triadKey (c : Chip) (t : Nat) : Nat := c.attrKey (c.partOf t)

/-- The triads of cluster `s` whose faults go to attribution `k`. -/
def attrTriads (c : Chip) (s k : Nat) : List Nat :=
  if s < 8 then [4 * s, 4 * s + 1, 4 * s + 2, 4 * s + 3].filter (fun t => c.triadKey t == k) else []

/-- An attribution ends: its timer stops and its triads' bits of `FLT_TATTR` clear. -/
def endAttr (c : Chip) (s k : Nat) : Chip :=
  let c := c.modFlt (fun f => { f with grace1 := f.grace1.filter (fun e => !(e.1 == s && e.2.1 == k)) })
  let clr (r : RegName) (b : Nat) (c : Chip) : Chip := c.wr r (BitVec.ofNat 64 (clrBit (c.rd r).toNat b))
  let c := (c.attrTriads s k).foldl (fun c t => clr .FLT_TATTR t c) c
  if k = 64 then clr .FLT_MATTR s c else clr (.FLT_ATTR s) k c

/-- The contained bit of a source clears when no attribution of it remains. -/
def settleSticky (c : Chip) (s : Nat) : Chip :=
  if (List.range 65).any (fun k => c.attributed s k) then c
  else c.wr .FLT_STATUS (BitVec.ofNat 64 (clrBit (c.rd .FLT_STATUS).toNat (3 * s + 1)))

/-! ### Escalation (R410) -/

/-- What the end of a grace timer sets in its scope. -/
def escalateTo (c : Chip) (now s k : Nat) : Chip :=
  if k = 64 then (if s = 17 then c else c.brakeDevice now 4) else
  match c.gf (.FLT_POLICY s) FLT_POLICY.ESC with
  | 0 => c.brakePart k
  | 1 => ((c.triadsOf k).filter (fun t => (c.rd .FLT_TATTR).getLsbD t)).foldl (fun c t => c.brakeTriad t) c
  | _ => c.brakeDevice now 4

/-- A grace timer has ended with its attribution still set; the attribution ends and the contained bit stays. -/
def escalate (c : Chip) (now s k : Nat) : Chip :=
  let c := (c.escalateTo now s k).quiet now
  (c.endAttr s k).safeFlush now

/-- A timer of the attribution has ended. -/
def graceOver (c : Chip) (now s k : Nat) : Bool :=
  c.flt.grace1.any (fun e => e.1 == s && e.2.1 == k && decide (e.2.2 ≤ now))

/-- The end of a contained grace timer. -/
def graceEnd (c : Chip) (now s k : Nat) : Chip := if c.graceOver now s k then c.escalate now s k else c

/-- A write ends an attribution, unless its timer has ended already: the clear then comes too late (R410). -/
def clearAttr (c : Chip) (now s k : Nat) : Chip :=
  if !c.attributed s k then c
  else if c.graceOver now s k then c.escalate now s k
  else (c.endAttr s k).settleSticky s

/-- The end of a corrected grace timer: a contained fault of the manager if the bit is still set (R407). -/
def grace0End (c : Chip) (now s : Nat) : Chip :=
  match c.flt.grace0.find? (fun e => e.1 == s && decide (e.2 ≤ now)) with
  | none => c
  | some e =>
    let c := c.modFlt (fun f => { f with grace0 := f.grace0.erase e })
    if c.sticky s 0 then c.contained now s none none else c

/-- The grace timers of attributions without one start now, where the device leaves the standby's role (R433). -/
def resumeGrace (c : Chip) (now : Nat) : Chip :=
  (List.range 20).foldl (fun c s => (c.attrsOf s).foldl (fun c k =>
    if c.flt.grace1.any (fun e => e.1 == s && e.2.1 == k) then c else c.startGrace now s k) c) c

/-- No grace timer runs on a standby (R433). -/
def stopGrace (c : Chip) : Chip := c.modFlt (fun f => { f with grace0 := [], grace1 := [] })

/-! ### Register writes (R405, R406, R409, R421) -/

/-- What of a written `FLT_ATTR` an agent may end. -/
def attrMask (ag : Agent) (v : DWord) : DWord :=
  match ag with
  | .part p => v &&& BitVec.ofNat 64 (2 ^ p.toNat)
  | _ => v

/-- A write of `FLT_ATTR`. -/
def attrWrite (c : Chip) (now : Nat) (ag : Agent) (s : Nat) (v : DWord) : Chip :=
  ((List.range 64).filter (fun p => (attrMask ag v).getLsbD p)).foldl (fun c p => c.clearAttr now s p) c

/-- A write of `FLT_MATTR`. -/
def mattrWrite (c : Chip) (now : Nat) (v : DWord) : Chip :=
  ((List.range 20).filter (fun s => v.getLsbD s)).foldl (fun c s => c.clearAttr now s 64) c

/-- A contained bit written 1 ends every attribution of its source. -/
def clearSource (c : Chip) (now s : Nat) : Chip :=
  let c := (c.attrsOf s).foldl (fun c k => c.clearAttr now s k) c
  c.wr .FLT_STATUS (BitVec.ofNat 64 (clrBit (c.rd .FLT_STATUS).toNat (3 * s + 1)))

/-- A write of `FLT_STATUS`. -/
def statusWrite (c : Chip) (now : Nat) (v : DWord) : Chip :=
  let c := ((List.range 20).filter (fun s => v.getLsbD (3 * s + 1))).foldl (fun c s => c.clearSource now s) c
  c.wr .FLT_STATUS (c.rd .FLT_STATUS &&& ~~~(v &&& 0x3FFFFFFFFFFFFFFF))

/-- A read of `FLT_STATUS` by the manager clears RECOVERED. -/
def statusRead (c : Chip) (ag : Agent) : Chip := if ag = .manager then c.sf .FLT_STATUS FLT_STATUS.RECOVERED 0 else c

/-- A write of `FLT_BRAKE` (R415, R422). -/
def brakeWrite (c : Chip) (now : Nat) (v : DWord) : Chip :=
  let c := c.plainWrite now .FLT_BRAKE v
  let c := if v.getLsbD 61 then c.brakeTriad (c.gf .FLT_BRAKE FLT_BRAKE.TRIAD) else c
  let c := if v.getLsbD 62 then c.brakePart (c.gf .FLT_BRAKE FLT_BRAKE.PART) else c
  (if v.getLsbD 63 then c.brakeDevice now 5 else c).safeFlush now

/-- A write of `FLT_NOTE`: a triad the partition does not hold is refused (R422). -/
def noteWrite (c : Chip) (now p : Nat) (v : DWord) : Chip :=
  if c.ownsTriad p (FLT_NOTE.TRIAD.get v) then c.plainWrite now (.FLT_NOTE p) v else c.corrected now 18

/-! ### Time (R414, R416, R417) -/

/-- SAFEHOLD has passed since the device brake: the SerDes lanes of quads 0 to 4 send idle. -/
def safeholdEnd (c : Chip) (now : Nat) : Chip :=
  if c.off || !c.flt.deviceBrake || c.flt.idle || decide (now < c.flt.brakedAt + 1000000 * c.gf .FLT_BRAKE FLT_BRAKE.SAFEHOLD)
  then c
  else (List.range 20).foldl (fun c ln => c.purge now ln) (c.modFlt (fun f => { f with idle := true }))

/-- The recoveries history of the mill book (R495). -/
def bookReturn (c : Chip) (limit : Bool) : Chip :=
  let i := c.book.get 0 0xA80
  let w := c.flt.quietBits + if limit then 3 * 2 ^ 60 else 0
  { c with book := (((c.book.put 0 (0xB00 + 16 * i) (c.book.get 0 0x40)).put 0 (0xB08 + 16 * i) w).put 0 0xA80
      ((i + 1) % 64)).put 0 0xA88 (c.book.get 0 0xA88 + 1) }

/-- The quiet period has ended with no grace timer running: FAULT to RUN, or to SAFE past the recovery limit. -/
def quietEnd (c : Chip) (now : Nat) : Chip :=
  let early := decide (now < c.flt.quietFrom + 1000000 * c.gf .FLT_RECOV FLT_RECOV.QUIET)
  if c.off || c.gf .FLT_STATE FLT_STATE.STATE != 4 || !c.flt.grace0.isEmpty || !c.flt.grace1.isEmpty || early then c else
  let span := 1000000000 * c.gf .FLT_RECOV FLT_RECOV.WINDOW
  let l := now :: c.flt.returns.filter (fun t => decide (now ≤ t + span))
  let exceeded := decide (c.gf .FLT_RECOV FLT_RECOV.LIMIT < l.length)
  let c := (c.modFlt (fun f => { f with returns := l })).inc .FLT_RECOVERIES FLT_RECOVERIES.COUNT
  let c := (c.sf .FLT_STATUS FLT_STATUS.RECOVERED 1).bookReturn exceeded
  if exceeded then (c.brakeDevice now 3).safeFlush now else c.sf .FLT_STATE FLT_STATE.STATE 3

end Chip

/-- `CORRECTED_FAULT` (R402, R407). -/
def execCorrectedFault (src : Fin 20) (s : State) : Out := s.act (fun now c => if c.off then c else c.corrected now src)

/-- `CONTAINED_FAULT` (R402, R408); a triad is named where it reports in its own cluster's source. -/
def execContainedFault (src : Fin 20) (who : Attr) (triad : Option (Fin 32)) (s : State) : Out :=
  s.act (fun now c => if c.off then c else
    c.contained now src (attrParty who) ((triad.map Fin.val).filter (fun t => t / 4 == src.val)))

/-- `FATAL_FAULT` (R411). -/
def execFatalFault (src : Fin 20) (s : State) : Out :=
  s.act (fun now c => if c.off then c else (c.fatal now src).safeFlush now)

/-- `GRACE0_EXPIRY` (R407). -/
def execGrace0Expiry (src : Fin 20) (s : State) : Out := s.act (fun now c => c.grace0End now src)

/-- `GRACE_EXPIRY` (R410). -/
def execGraceExpiry (src : Fin 20) (who : Attr) (s : State) : Out :=
  s.act (fun now c => c.graceEnd now src ((attrParty who).getD 64))

/-- `FLT_ATTR_WRITE` (R409, R421). -/
def execFltAttrWrite (ag : Agent) (src : Fin 20) (v : BitVec 64) (s : State) : Out :=
  s.act (fun now c => c.byWriter ag (.FLT_ATTR src) (fun c => c.attrWrite now ag src v))

/-- `FLT_MATTR_WRITE` (R409). -/
def execFltMattrWrite (ag : Agent) (v : BitVec 64) (s : State) : Out :=
  s.act (fun now c => c.byWriter ag .FLT_MATTR (fun c => c.mattrWrite now v))

/-- `FLT_STATUS_WRITE` (R405, R406). -/
def execFltStatusWrite (ag : Agent) (v : BitVec 64) (s : State) : Out :=
  s.act (fun now c => c.byWriter ag .FLT_STATUS (fun c => c.statusWrite now v))

/-- `FLT_STATUS_READ` (R405). -/
def execFltStatusRead (ag : Agent) (s : State) : Out := s.act (fun _ c => c.statusRead ag)

/-- `DEVICE_BRAKE`: `FLT_BRAKE.DEVICE` (R412, R415). -/
def execDeviceBrake (ag : Agent) (s : State) : Out :=
  s.act (fun now c => c.byWriter ag .FLT_BRAKE (fun c => (c.brakeDevice now 5).safeFlush now))

/-- `PARTB`: `FLT_BRAKE.PARTB` with its PART (R412, R415). -/
def execPartb (ag : Agent) (p : BitVec 6) (s : State) : Out :=
  s.act (fun now c => c.byWriter ag .FLT_BRAKE (fun c =>
    ((c.sf .FLT_BRAKE FLT_BRAKE.PART p.toNat).brakePart p.toNat).safeFlush now))

/-- `TRIADB`: `FLT_BRAKE.TRIADB` with its TRIAD (R412, R415). -/
def execTriadb (ag : Agent) (t : Fin 32) (s : State) : Out :=
  s.act (fun _ c => c.byWriter ag .FLT_BRAKE (fun c => (c.sf .FLT_BRAKE FLT_BRAKE.TRIAD t).brakeTriad t))

/-- `SAFEHOLD_EXPIRY` (R414). -/
def execSafeholdExpiry (s : State) : Out := s.act (fun now c => c.safeholdEnd now)

/-- `QUIET_PERIOD_END` (R416, R417). -/
def execQuietPeriodEnd (s : State) : Out := s.act (fun now c => c.quietEnd now)

/-- `BRAKE_REQ`: the ball has been low for 1 µs (R420). -/
def execBrakeReq (s : State) : Out :=
  s.act (fun now c => if c.off then c else
    ((c.sf .FLT_STATUS FLT_STATUS.EXTBRAKE 1).brakeDevice now 2).safeFlush now)

end Sys2Proof.Machine
end

