-- ==== Sys2Proof/Machine/Roles.lean ====
section
/-! DEFINITION. The roles of a pair: heartbeats, loss of channels, takeover, role swap, forming (R434 to R443). -/
namespace Sys2Proof.Machine
namespace Chip

def modPair (c : Chip) (f : Pair → Pair) : Chip := { c with pair := f c.pair }
def inPair (c : Chip) : Bool := c.gf .PAR_CFG PAR_CFG.TOPO == 1
def setPar (c : Chip) (st : Nat) : Chip := c.sf .PAR_STAT PAR_STAT.STATE st
def takeovers (c : Chip) : Nat := c.gf .PAR_STAT PAR_STAT.TAKEOVERS
def leatOk (c : Chip) : Bool := c.gb .PAR_STAT PAR_STAT.LEATOK
def watchOk (c : Chip) : Bool := c.gb .PAR_STAT PAR_STAT.WATCHOK

/-- The device acts as primary, with its partner or without. -/
def primary (c : Chip) : Bool := c.paired || c.pairState == 3

/-! ### Heartbeats (R426, R435) -/

/-- The first 8 bytes of the CMAC of the image in use. -/
def imageCmac (c : Chip) : Nat :=
  match c.boot.copy with
  | some b => (match c.copyHdr b with | .ok h => natLE (c.copyRd b (h.length - 16) 8) | .error _ => 0)
  | none => 0

/-- The heartbeat of the device: a device that forms, is detached or rejoins says that it joins, with its `PAIR_ROLE` as
role. -/
def heartOf (c : Chip) (ring : Option (Fin 2)) : HeartMsg :=
  { primary := if c.parted then c.boot.pairRole else c.primary, joining := c.parted
    takeovers := BitVec.ofNat 16 c.takeovers, imageSeq := BitVec.ofNat 32 (c.gf .CFG_STAT CFG_STAT.SEQ)
    cmac := BitVec.ofNat 64 c.imageCmac, cseq := BitVec.ofNat 64 c.pair.cseq, ring := ring }

/-- The device sends heartbeats: it is loaded and not in SAFE; its engines always answer the probe. -/
def beats (c : Chip) : Bool :=
  let st := c.gf .FLT_STATE FLT_STATE.STATE
  !c.off && (st == 2 || st == 3 || st == 4)

/-! ### Lag and horizons (R428) -/

/-- Every running triad stands at the count of its latest `HORIZON`. -/
def horizonsMet (c : Chip) : Bool :=
  (List.range 32).all (fun t => c.split t || !c.live t ||
    (c.voting t).all (fun i => decide ((c.triad t).horizon ≤ (c.lane (3 * t + i)).retired)))

/-- The lag of a triad in ns: the age of the oldest horizon it has not reached. -/
def lagOf (c : Chip) (now t : Nat) : Nat :=
  if c.split t || !c.live t then 0 else
  match (c.triad t).marks.find? (fun m => decide (c.minRetired t < m.1)) with
  | some m => now - m.2
  | none => 0

/-- The standby's lag in ns. -/
def lag (c : Chip) (now : Nat) : Nat := ((List.range 32).map (c.lagOf now)).foldl max 0

/-- `PAR_STAT.LAG` (R450). -/
def lagNote (c : Chip) (now : Nat) : Chip := c.sf .PAR_STAT PAR_STAT.LAG (min (c.lag now / 1000) 255)

/-! ### What follows a change of role -/

/-- Whatever waits at the egresses starts, where it may. -/
def kickAll (c : Chip) (now : Nat) : Chip := c.chan.egress.keys.foldl (fun c ln => c.kick now ln) c

/-- Every leat message sent so far counts as acknowledged. -/
def ackAll (c : Chip) : Chip := { c with leat := [], pair := { c.pair with acked := c.pair.acked + c.leat.length } }

/-- The enabled WCP paths. -/
def wcpPaths (c : Chip) : List Nat := (List.range 1024).filter (fun n => c.pEn n && c.pWcp n)

/-- The epoch of every enabled WCP path rises, with no SYNC (R305, R437 step 4). -/
def raiseAll (c : Chip) (now : Nat) : Chip := c.wcpPaths.foldl (fun c n => c.raiseEpoch now n false) c

/-- The triads, the barrier groups, the commits and the egresses go on by the device's own sources (R437 step 5). -/
def localOps (c : Chip) (now : Nat) : Chip :=
  let c := (List.range 32).foldl (fun c t => if c.live t && !c.split t then c.nextRound t else c) c
  let c := (List.range 16).foldl (fun c g => c.barCheck g) c
  (c.commitPumpAll now).kickAll now

/-- The partner is declared lost (R436): commits publish without it, frames leave without its acknowledgement, a copy is
abandoned. -/
def partnerLost (c : Chip) (now : Nat) : Chip :=
  let c := (c.ackAll).modPair (fun p => { p with
    prim := true, swap := 0, holdOut := false, copying := false, admitted := false })
  let c := if c.snap.any (fun r => r.rejoin) then ({ c with snap := none }).sf .SYS_SNAP SYS_SNAP.BUSY 0 else c
  let c := c.setPar 3
  let c := (c.commits.filter (fun m => m.stage == .ack)).foldl (fun c m => c.tryPublish now m) c
  c.kickAll now

/-- The mill book counts a takeover as new primary, `PAR_STAT` too (R437, R442). -/
def countTakeover (c : Chip) : Chip := (c.inc .PAR_STAT PAR_STAT.TAKEOVERS).bookInc8 0x50

/-- Steps 2 and 4 of R437, and the retransmission of step 3; the catch-up begins. -/
def takeover (c : Chip) (now : Nat) : Chip :=
  let c := ((c.modPair (fun p => { p with prim := true, catchUp := true, swap := 0, sentAt := now })).setPar 3).countTakeover
  let c := { c with leat := [] }
  let c := c.wcpPaths.foldl (fun c n => c.resend now n) (c.resumeGrace now)
  (c.raiseAll now).kickAll now

/-! ### Shadow frames (R440) -/

/-- A shadow frame matches a forwarded one: the same lane, the same bytes, end times within 5 µs. -/
def shadowKnown (c : Chip) (now : Nat) (e : Nat × RxFrame × Nat) : Bool :=
  let at_ := c.timeNow e.2.2
  decide (now ≤ e.2.2 + c.shadowNs) == false ||
  c.pair.inputs.any (fun i => i.1 == e.1 && i.2.1 == e.2.1 &&
    decide (i.2.2 ≤ at_ + 5000) && decide (at_ ≤ i.2.2 + 5000))

/-- Each shadow frame that matches none is delivered once, in time order. -/
def shadowsIn (c : Chip) (now : Nat) : Chip :=
  let l := c.pair.shadow.filter (fun e => !c.shadowKnown now e)
  l.foldl (fun c e => c.matchFrame now e.1 e.2.1) (c.modPair (fun p => { p with shadow := [], inputs := [] }))

/-- The catch-up has ended: step 5 of R437. -/
def catchUpEnd (c : Chip) (now : Nat) : Chip :=
  if !c.pair.catchUp || !c.horizonsMet then c else
  let c := c.modPair (fun p => { p with catchUp := false, decs := [], heldIn := [] })
  ((c.localOps now).shadowsIn now).corrected now 16

/-! ### Loss of a channel (R436) -/

/-- A rejoin is abandoned by a failure of either channel (R444). -/
def rejoinLost (c : Chip) (now : Nat) : Chip :=
  if c.pairState = 6 then c.setPar 5
  else if c.pair.copying then c.partnerLost now
  else c

/-- The leat is lost. A standby that still gets watch edges will be detached by the next one; with the watch lost too, it
takes over. -/
def leatLost (c : Chip) (now : Nat) : Chip :=
  if !c.leatOk then c else
  let c := c.sf .PAR_STAT PAR_STAT.LEATOK 0
  if c.pairState = 1 then c else
  let c := (c.contained now 16 none none).rejoinLost now
  if c.paired then c.partnerLost now
  else if c.standby && !c.watchOk then c.takeover now
  else c

/-- The watch is lost. -/
def watchLost (c : Chip) (now : Nat) : Chip :=
  if !c.watchOk then c else
  let c := c.sf .PAR_STAT PAR_STAT.WATCHOK 0
  if c.pairState = 1 then c else
  let c := (c.contained now 16 none none).rejoinLost now
  if c.standby && !c.leatOk then c.takeover now else c

/-- Nothing has arrived on a channel for HBLOSS µs. -/
def channelLost (c : Chip) (now : Nat) (watch : Bool) : Chip :=
  let since := if watch then c.pair.watchAt else c.pair.leatAt
  if c.off || !c.inPair || decide (now < since + 1000 * c.gf .PAR_CFG PAR_CFG.HBLOSS) then c
  else if watch then c.watchLost now else c.leatLost now

/-- The standby's lag exceeds LAGMAX (R428). -/
def lagOver (c : Chip) (now : Nat) : Chip :=
  if c.off || !c.standby || decide (c.lag now ≤ 1000 * c.gf .PAR_CFG PAR_CFG.LAGMAX) then c
  else (c.lagNote now).detachSelf now

/-- A primary cuts all output 100 µs after its last heartbeat (R438). -/
def outputCut (c : Chip) (now : Nat) : Chip :=
  if c.off || !c.inPair || !c.primary || c.pair.cut || decide (now < c.pair.sentAt + 100000) then c else
  let c := c.modPair (fun p => { p with cut := true })
  c.chan.egress.keys.foldl (fun c ln => if ln < 20 || isField ln then c.cutLane now ln else c) c

/-! ### Role swap (R442) -/

/-- Step 1, on the primary of a formed pair. -/
def swapStart (c : Chip) : Chip :=
  if c.pairState = 2 ∧ !c.off then ((c.modPair (fun p => { p with prim := true, swap := 1 })).setPar 7).leatPut .handover
  else c

/-- A swap falls due every SWAPINT minutes. -/
def swapDue (c : Chip) (now : Nat) : Chip :=
  let n := c.gf .PAR_CFG PAR_CFG.SWAPINT
  if n = 0 ∨ now < c.pair.swapAt + 60000000000 * n then c else c.swapStart

/-- Step 2: the triads are held at a horizon, and the egress of new frames. -/
def swapHold (c : Chip) : Chip :=
  let c := c.modPair (fun p => { p with swap := 2, holdOut := true })
  (List.range 32).foldl (fun c t =>
    let h := ((c.voting t).map (fun i => (c.lane (3 * t + i)).retired)).foldl max 0
    c.updTriad t (fun x => { x with horizon := h })) c

/-- Step 4 on the new primary. -/
def becomePrimary (c : Chip) (now : Nat) : Chip :=
  let c := c.modPair (fun p => { p with
    prim := true, swap := 0, swapAt := now, sentAt := now, decs := [], inputs := [], heldIn := [], shadow := [] })
  let c := ((c.setPar 2).countTakeover).resumeGrace now
  ((c.raiseAll now).localOps now).corrected now 16

/-- Step 4 on the new standby: its lanes take the levels of R431, and it decides nothing more for its triads. -/
def becomeStandby (c : Chip) (now : Nat) : Chip :=
  let c := ((c.ackAll).stopGrace).modPair (fun p => { p with
    prim := false, swap := 0, swapAt := now, holdOut := false, shadow := [], inputs := [] })
  let c := c.setPar 4
  let c := c.chan.egress.keys.foldl (fun c ln => if ln < 20 || isField ln then c.cutLane now ln else c) c
  let c := (List.range 32).foldl (fun c t => c.updTriad t (fun x => { x with
    round := none, wants := x.wants.filter ownDecision, marks := [] })) c
  c.corrected now 16

/-- What a standby in a swap answers as soon as it can: its lag is below 10 µs; it has reached the horizon. -/
def swapPoll (c : Chip) (now : Nat) : Chip :=
  if c.pairState ≠ 7 ∨ c.pair.prim then c
  else if c.pair.swap = 1 ∧ c.lag now < 10000 then (c.leatPut .handover).modPair (fun p => { p with swap := 2 })
  else if c.pair.swap = 3 ∧ c.horizonsMet then (c.becomePrimary now).leatPut .handover
  else c

/-- A `HANDOVER` message. -/
def handoverIn (c : Chip) (now : Nat) : Chip :=
  if c.off then c
  else if c.pairState = 4 then ((c.modPair (fun p => { p with prim := false, swap := 1 })).setPar 7).swapPoll now
  else if c.pairState ≠ 7 then c
  else if c.pair.prim then
    (if c.pair.swap = 1 then c.swapHold else if c.pair.swap = 3 then c.becomeStandby now else c)
  else if c.pair.swap = 2 then (c.modPair (fun p => { p with swap := 3 })).swapPoll now
  else c

/-! ### Forming (R443) -/

/-- The device leaves TEST in a role: its rings and queues resume, and the load is over. -/
def joinAs (c : Chip) (now st : Nat) (keep : Nat → Bool) : Chip :=
  let warm := c.boot.warm
  let c := { c with boot := { c.boot with step := 0, joinFrom := none } }
  let c := (c.setPar st).modPair (fun p => { p with prim := st == 2 || st == 3, swapAt := now, waitStart := st == 4, sentAt := now })
  let c := c.resumeRings now keep
  let c := if warm then c.abandonJobs now else c
  let c := if c.gf .FLT_STATE FLT_STATE.STATE = 2 then c.enterRun now else c
  if st = 2 ∨ st = 3 then c.autostart now else c

/-- It runs as primary with its partner lost; entries that it holds for the partner are committed (R276). -/
def joinAlone (c : Chip) (now : Nat) : Chip := c.joinAs now 3 (fun st => st == stCopy)

/-- Both partners wait in TEST: the pair forms, or not. -/
def formWith (c : Chip) (now : Nat) (h : HeartMsg) : Chip :=
  let same := h.imageSeq.toNat == c.gf .CFG_STAT CFG_STAT.SEQ && h.cmac.toNat == c.imageCmac
  if h.primary == c.boot.pairRole then
    (({ c with boot := { c.boot with step := 0, joinFrom := none } }).fatal now 16).safeFlush now
  else if !same then
    let c := c.contained now 16 none none
    if c.boot.pairRole then c.joinAlone now else c.joinAs now 5 (fun _ => false)
  else c.joinAs now (if c.boot.pairRole then 2 else 4) (fun _ => false)

/-- The device waits in TEST, and both channels have been heard: a partner that runs is rejoined (R444). -/
def formTry (c : Chip) (now : Nat) : Chip :=
  if c.boot.step ≠ 9 ∨ !c.leatOk ∨ !c.watchOk ∨ c.gf .FLT_STATE FLT_STATE.STATE ≠ 2 then c else
  match c.pair.partner with
  | none => c
  | some h => if h.joining then c.formWith now h else c.joinAs now 5 (fun _ => false)

/-- JOINWAIT has passed. -/
def joinWaitEnd (c : Chip) (now : Nat) : Chip :=
  match c.boot.joinFrom with
  | none => c
  | some t =>
    if c.off || c.boot.step != 9 || c.gf .FLT_STATE FLT_STATE.STATE != 2 ||
      decide (now < t + 1000000 * c.gf .PAR_CFG PAR_CFG.JOINWAIT) then c
    else if !c.leatOk && !c.watchOk then c.joinAlone now
    else ({ c with boot := { c.boot with joinFrom := none } }).contained now 16 none none

/-! ### Heartbeats received (R435, R439, R444) -/

/-- Two primaries: the one with the lower count brakes; at equal counts the one with `PAIR_ROLE` low. -/
def doublePrimary (c : Chip) (now : Nat) (h : HeartMsg) : Chip :=
  let mine := c.takeovers
  if mine < h.takeovers.toNat ∨ (mine = h.takeovers.toNat ∧ !c.boot.pairRole) then
    ((c.sf .PAR_STAT PAR_STAT.DBLPRIM 1).fatal now 16).safeFlush now
  else c

/-- The primary begins to copy to a partner that joins, where it is admitted (R444). -/
def joinTry (c : Chip) : Chip :=
  let joins := (c.pair.partner.map (fun h => h.joining)).getD false
  if c.pairState == 3 && joins && c.leatOk && c.watchOk && !c.pair.copying &&
    (c.gb .PAR_CFG PAR_CFG.AUTOJOIN || c.pair.admitted) then
    c.modPair (fun p => { p with copying := true, admitted := false })
  else c

/-- A heartbeat from the partner. -/
def pairHeart (c : Chip) (now : Nat) (h : HeartMsg) : Chip :=
  let c := (c.modPair (fun p => { p with leatAt := now, partner := some h })).sf .PAR_STAT PAR_STAT.LEATOK 1
  if c.boot.step = 9 then c.formTry now
  else if c.primary && h.primary && !h.joining then c.doublePrimary now h
  else if c.paired && h.joining then (c.partnerLost now).joinTry
  else if c.paired then (c.ackAll).kickAll now
  else if c.pairState = 3 then c.joinTry
  else if h.primary && !h.joining then ({ c with leat := [] }).sf .PAR_STAT PAR_STAT.TAKEOVERS h.takeovers.toNat
  else c

/-- An edge on `PAIR_WATCH_IN`: a standby that has lost the leat knows that its partner lives, and is detached (R436). -/
def watchEdge (c : Chip) (now : Nat) : Chip :=
  if c.off || !c.inPair then c else
  let c := (c.modPair (fun p => { p with watchAt := now })).sf .PAR_STAT PAR_STAT.WATCHOK 1
  if c.boot.step = 9 then c.formTry now
  else if c.standby && !c.leatOk then c.partSelf
  else c.joinTry

/-- A leat lane goes down (R425, R449, R495); the last one is the loss of the leat. -/
def leatLaneLost (c : Chip) (now k : Nat) : Chip :=
  let f : Fld := ⟨16 + k, 16 + k⟩
  if c.off || c.gf .PAR_CFG PAR_CFG.TOPO == 0 || !c.gb .PAR_STAT f then c else
  let c := (c.sf .PAR_STAT f 0).bookInc 0x5C
  if c.gf .PAR_STAT PAR_STAT.LANES = 0 ∧ c.inPair then c.leatLost now else c.corrected now 16

/-! ### `PAR_CTL` (R427, R450) -/

/-- A write of `PAR_CTL` acts on a primary of the pair alone. -/
def onPrimary (c : Chip) (f : Chip → Chip) : Chip := if c.inPair && c.primary then f c else c

/-- ADMIT. -/
def admitPartner (c : Chip) : Chip := (c.modPair (fun p => { p with admitted := true })).joinTry

/-- DETACH. -/
def detachPartner (c : Chip) (now : Nat) : Chip := if c.paired then c.partnerLost now else c

/-- A write of `PAR_CTL`. -/
def parCtlWrite (c : Chip) (now : Nat) (v : DWord) : Chip :=
  c.onPrimary (fun c =>
    let c := if v.getLsbD 0 then c.swapStart else c
    let c := if v.getLsbD 1 then c.admitPartner else c
    let c := if v.getLsbD 2 then c.detachPartner now else c
    if v.getLsbD 3 then c.warmReset now else c)

end Chip

/-- `WATCH_TOGGLE` (R435). -/
def execWatchToggle (s : State) : Out :=
  s.act (fun _ c => if c.beats && c.inPair then c.modPair (fun p => { p with watchOut := !p.watchOut }) else c)

/-- `WATCH_EDGE` (R435, R436, R443). -/
def execWatchEdge (s : State) : Out := s.act (fun now c => c.watchEdge now)

/-- `CHANNEL_LOSS` (R435, R436). -/
def execChannelLoss (watch : Bool) (s : State) : Out := s.act (fun now c => c.channelLost now watch)

/-- `CATCH_UP_END` (R437). -/
def execCatchUpEnd (s : State) : Out := s.act (fun now c => c.catchUpEnd now)

/-- `LAG_EXCEEDED` (R428). -/
def execLagExceeded (s : State) : Out := s.act (fun now c => c.lagOver now)

/-- `OUTPUT_CUT` (R438). -/
def execOutputCut (s : State) : Out := s.act (fun now c => c.outputCut now)

/-- `ROLE_SWAP` (R442). -/
def execRoleSwap (ag : Agent) (s : State) : Out :=
  s.act (fun _ c => c.byWriter ag .PAR_CTL (fun c => c.onPrimary (fun c => c.swapStart)))

/-- `SWAPINT_EXPIRY` (R442). -/
def execSwapintExpiry (s : State) : Out := s.act (fun now c => c.swapDue now)

/-- `DETACH` (R450). -/
def execDetach (ag : Agent) (s : State) : Out :=
  s.act (fun now c => c.byWriter ag .PAR_CTL (fun c => c.onPrimary (fun c => c.detachPartner now)))

/-- `ADMIT` (R444). -/
def execAdmitStandby (ag : Agent) (s : State) : Out :=
  s.act (fun _ c => c.byWriter ag .PAR_CTL (fun c => c.onPrimary (fun c => c.admitPartner)))

/-- `RESETBOTH` (R450). -/
def execResetboth (ag : Agent) (s : State) : Out :=
  s.act (fun now c => c.byWriter ag .PAR_CTL (fun c => c.onPrimary (fun c => c.warmReset now)))

/-- `JOINWAIT_EXPIRY` (R443). -/
def execJoinwaitExpiry (s : State) : Out := s.act (fun now c => c.joinWaitEnd now)

/-- `LEAT_LANE_LOSS` (R425). -/
def execLeatLaneLoss (k : Fin 4) (s : State) : Out := s.act (fun now c => c.leatLaneLost now k)

/-- `HANDOVER` (R442). -/
def execHandover (s : State) : Out := s.act (fun now c => c.handoverIn now)

end Sys2Proof.Machine
end

