-- ==== Sys2Proof/Machine/Follow.lean ====
section
/-! DEFINITION. The messages of the leat on a device that follows its partner or rejoins, the acknowledgements, and the
timers that send heartbeats, horizons and output digests (R426 to R435, R440, R444, R445). -/
namespace Sys2Proof.Machine
namespace Chip

/-- A message that arrives on the leat (R435). -/
def leatIn (c : Chip) (now : Nat) (f : Chip → Chip) : Chip :=
  if c.off then c else f (c.modPair (fun p => { p with leatAt := now }))

/-- A forwarded message: only a device that follows takes it (R427). -/
def followIn (c : Chip) (now : Nat) (f : Chip → Chip) : Chip := c.leatIn now (fun c => if c.following then f c else c)

/-! ### `HEART` (R426, R435, R445) -/

/-- Devices, reach, master and broken links as the ring links tell (R445): with every link lost a device is alone, and with
one lost the others are still reached the other way. -/
def ringReach (c : Chip) : Chip :=
  let n := c.gf .CAS_CFG CAS_CFG.SIZE
  let lost := c.cas.lost
  let heard := c.cas.heard.keys
  let reach := if heard.any (fun k => !lost.contains k) then List.range n else [c.casId]
  let c := c.sf .CAS_STAT CAS_STAT.REACH (reach.foldl setBit 0)
  let c := c.sf .CAS_STAT CAS_STAT.MASTER (reach.foldl min c.casId)
  (c.sf .CAS_STAT CAS_STAT.BROKEN (bit !lost.isEmpty)).barCheck 15

/-- A heartbeat of a ring neighbour. -/
def ringHeart (c : Chip) (now : Nat) (k : Fin 2) : Chip :=
  ringReach { c with cas := { c.cas with heard := c.cas.heard.set k.val now, lost := without c.cas.lost k.val } }

/-- A heartbeat. -/
def heartIn (c : Chip) (now : Nat) (h : HeartMsg) : Chip :=
  match h.ring with
  | some k => if c.off || !c.cascade then c else c.ringHeart now k
  | none => if c.inPair then c.leatIn now (fun c => c.pairHeart now h) else c

/-! ### `INPUT` and `CHNDEC` (R427) -/

/-- Removes the first of equal entries that wait for a RECV. -/
def heldDrop (c : Chip) (e : Nat × Nat × RxFrame × Nat) : Chip :=
  c.modPair (fun p => { p with heldIn := p.heldIn.erase e })

/-- A forwarded frame is delivered as the primary delivered it. -/
def inputTake (c : Chip) (now ln n time : Nat) (f : RxFrame) : Chip :=
  match c.frameMatch n f with
  | some b => c.takeFrame now ln n time f b
  | none => c

/-- Frames that waited for the RECV which took them on the primary go to it. -/
def heldPump (c : Chip) (now : Nat) : Chip :=
  c.pair.heldIn.foldl (fun c (e : Nat × Nat × RxFrame × Nat) =>
    if (c.recvFor e.1).isSome then (c.heldDrop e).inputTake now e.2.1 e.1 e.2.2.2 e.2.2.1 else c) c

/-- A forwarded frame: remembered for the shadow frames (R440), then taken, on a non-WCP path by the RECV that took it. -/
def inputIn (c : Chip) (now ln n time : Nat) (f : RxFrame) : Chip :=
  let old := c.timeNow now - (c.shadowNs + 5000)
  let c := c.modPair (fun p => { p with inputs := p.inputs.filter (fun e => decide (old ≤ e.2.2)) ++ [(ln, f, time)] })
  if c.pWcp n then c.inputTake now ln n time f
  else (c.modPair (fun p => { p with heldIn := p.heldIn ++ [(n, ln, f, time)] })).heldPump now

/-- A decision of the primary is followed as soon as the program stands where the primary's stood. -/
def decOne (c : Chip) (now : Nat) (d : ChnDec) : Chip :=
  let at1 (q : BitVec 12) (f : Prog → Chip) : Chip := match (c.que q.toNat).prog with
    | some p => f p
    | none => c
  match d with
  | .sequence _ q => at1 q (fun p => if p.phase = .tag then c.tagServe now q.toNat else c)
  | .tagGrant q => at1 q (fun p => if p.phase = .tag then c.tagServe now q.toNat else c)
  | .recvTimeout q => at1 q (fun p => match p.phase with
    | .recv _ =>
      if (c.pth (c.stepPath q.toNat p.cur)).rxq.isEmpty then
        (c.modPair (fun x => { x with decs := x.decs.erase d })).recvTimeoutEnd now q.toNat p
      else c
    | _ => c)
  | .waitEnd q => at1 q (fun p => match p.phase with
    | .wait mode _ _ => (match c.waitMay q.toNat with | some c => c.waitOver now q.toNat p mode | none => c)
    | _ => c)
  | .abortStop _ _ => c

/-- The primary's decisions, in their order. -/
def decPump (c : Chip) (now : Nat) : Chip := c.pair.decs.foldl (fun c d => c.decOne now d) c

/-- A decision of the primary. -/
def decIn (c : Chip) (now : Nat) (d : ChnDec) : Chip :=
  (c.modPair (fun p => { p with decs := p.decs ++ [d] })).decPump now

/-! ### `EVENT`, `READ`, `INVAL` (R427) -/

/-- Items enter the replay lists of the voting lanes; a lane that stands at the count takes them at once. -/
def replayIn (c : Chip) (t : Nat) (ns : List Nat) (count : Nat) : Chip :=
  let add := ns.map (fun n => (n, count))
  let c := (c.voting t).foldl (fun c i => c.updLane (3 * t + i) (fun l => { l with replay := l.replay ++ add })) c
  (c.voting t).foldl (fun c i =>
    if (c.lane (3 * t + i)).retired = count then c.takeReplay (3 * t + i) (c.lane (3 * t + i)).replay.length else c) c

/-- An item of the primary's delivery log, or a commit that it aborted. -/
def eventIn (c : Chip) (now t n count : Nat) : Chip :=
  if c.split t || !c.live t then c
  else if 2 ^ 33 + 0x100 ≤ n ∧ n < 2 ^ 33 + 0x103 then
    (c.updTriad t (fun x => { x with tendAborts := x.tendAborts ++ [(n - (2 ^ 33 + 0x100), count)] })).commitPump now (3 * t)
  else (c.logEvent t n count).replayIn t [n] count

/-- The result of an agreed read (R427, R434). -/
def readIn (c : Chip) (now t rseq : Nat) (v : DWord) (err timebase : Bool) : Chip :=
  let c := c.updTriad t (fun x => { x with leatReads := x.leatReads ++ [(rseq, v, err)] })
  if timebase then (c.wr .PAR_TOFF (v - BitVec.ofNat 64 now)).modPair (fun p => { p with timebase := v }) else c

/-- Invalidations applied at a count; with no line named, of the whole data cache. -/
def invalIn (c : Chip) (t count : Nat) (lines : List Nat) : Chip :=
  if c.split t || !c.live t then c
  else c.replayIn t (if lines.isEmpty then [2 ^ 37] else lines.map (2 ^ 38 + ·)) count

/-! ### `EXTW` (R427, R475 to R477) -/

/-- The host window that an address falls in. -/
def hostWindow (c : Chip) (a : Nat) : Option Nat :=
  (List.range 32).find? (fun k => c.gb (.HST_WBASE k) HST_WBASE.EN &&
    decide (c.gf (.HST_WBASE k) HST_WBASE.BASE ≤ a / 4096) && decide (a / 4096 ≤ c.gf (.HST_WLIMIT k) HST_WLIMIT.LIMIT))

/-- A host write, logged for the partition of its window (R476). -/
def hostPut (c : Chip) (now a : Nat) (l : List Byte) : Chip :=
  let p := match c.hostWindow a with
    | some k => if c.gf (.HST_WBASE k) HST_WBASE.KIND = 1 then some (c.gf (.HST_WBASE k) HST_WBASE.PART) else none
    | none => none
  (c.logWrite now p a l.length).writeBytes now none l.length a l

/-- A host doorbell: word 0 of line A of the queue's control area. -/
def hostDoor (c : Chip) (now q v : Nat) : Chip := (c.engPut now none (c.ctla q) (bytesLE 8 v)).readDoorbell now q

/-- A host write or a management command that the primary has performed. -/
def extwIn (c : Chip) (now : Nat) : ExtWrite → Chip
  | .hostMem a l => c.hostPut now a.toNat l
  | .hostDoorbell q v => if c.gb (.QUE_CFG q.toNat) QUE_CFG.HOST then c.hostDoor now q.toNat v.toNat else c
  | .abort t => c.abortTarget now t
  | .brakePart p => c.brakePart p.toNat
  | .brakeDevice => c.brakeDevice now 6
  | .partReset p => c.prtReset now p.toNat

/-! ### `HORIZON` (R428, R443) -/

/-- A horizon: the first one starts the standby's partitions; later ones let the triads run on. -/
def horizonIn (c : Chip) (now t count sent : Nat) : Chip :=
  let c := if c.pair.waitStart then (c.modPair (fun p => { p with waitStart := false })).autostart now else c
  let own := (sent + 2 ^ 64 - (c.rd .PAR_TOFF).toNat) % 2 ^ 64
  let low := c.minRetired t
  let c := c.updTriad t (fun x => { x with
    horizon := max x.horizon count, marks := x.marks.filter (fun m => decide (low < m.1)) ++ [(count, own)] })
  (c.lagNote now).swapPoll now

/-! ### `JOURNAL` and `JACK` (R265, R270, R426, R432) -/

/-- The words are a whole entry. -/
def entryShape (ws : List DWord) : Bool :=
  match ws with
  | w0 :: _ => ws.length == 8 + 10 * entBits w0 39 32
  | [] => false

/-- A commit entry of the primary enters the ring as `COPY`, if it fits. -/
def copyIn (c : Chip) (ws : List DWord) : Chip × Bool :=
  if !entryShape ws then (c, false) else
  let c := c.ringRoom (8 * ws.length) 6400
  if !c.ringFits (8 * ws.length) then (c, false) else
  let w0 := ws.getD 0 0
  let cs := (ws.getD 1 0).toNat
  let (c, _) := c.putEntry w0 (ws.drop 1) stCopy
  let c := (c.jwr (journalBase + 0x10) (BitVec.ofNat 64 (cs + 1))).jwr (journalBase + 0x200 + 8 * entBits w0 31 26) (BitVec.ofNat 64 cs)
  (c.modPair (fun p => { p with cseq := cs }), true)

/-- `JOURNAL`: the entry is stored and acknowledged; commits that waited for it go on. -/
def journalIn (c : Chip) (now : Nat) (ws : List DWord) : Chip :=
  match c.copyIn ws with
  | (c, true) => (c.leatPut (.jack (ws.getD 1 0).toNat)).commitPumpAll now
  | (c, false) => c

/-- Messages sent up to the entry with sequence number `cs` are acknowledged. -/
def ackTo (c : Chip) (cs : Nat) : Chip :=
  if c.leat.any (· == .journal cs) then
    let rest := (c.leat.dropWhile (· != .journal cs)).drop 1
    { c with leat := rest, pair := { c.pair with acked := c.pair.acked + (c.leat.length - rest.length) } }
  else c

/-- `JACK`: the entry is mirrored and the commit goes on. -/
def jackIn (c : Chip) (now cs : Nat) : Chip :=
  if !c.paired then c else
  let c := c.ackTo cs
  let c := match c.commits.find? (fun m => m.stage == .ack && m.cseq == some cs) with
    | some m =>
      let c := match m.off with | some o => c.entryState o stMirrored | none => c
      c.tryPublish now m
    | none => c
  c.kickAll now

/-! ### `ODIGEST` and `PFAULT` (R432, R433) -/

def odigestIn (c : Chip) (now n count : Nat) (crc : DWord) : Chip :=
  (c.updPth n (fun x => { x with outWant := x.outWant ++ [(count, crc)] })).digestSettle now n

/-- The standby's contained fault: PFLT, and a contained fault of the manager. -/
def pfaultIn (c : Chip) (now src cls : Nat) : Chip :=
  if !c.paired ∨ cls ≠ 1 then c
  else (c.wr .PAR_STAT (BitVec.ofNat 64 (setBit (c.rd .PAR_STAT).toNat (28 + src)))).contained now 16 none none

end Chip

/-! ### The checkpoint in a `REJOIN` (R138, R444) -/

/-- Two words of a doubleword. -/
def halves (v : Nat) : List Word := [BitVec.ofNat 32 v, BitVec.ofNat 32 (v / 2 ^ 32)]

/-- The words of a checkpoint: those of its digest, the counts and hash, and for an open transaction the saved registers and
the write set. -/
def ckptWords (k : Ckpt) (x : TxCtx) : List Word :=
  digestWords k.arch k.retired ++
  [BitVec.ofNat 32 k.txNo, BitVec.ofNat 32 k.digNo, BitVec.ofNat 32 k.evNo] ++ halves k.whash.toNat ++
  match k.save with
  | none => []
  | some a => digestWords a 0 ++ [BitVec.ofNat 32 x.first] ++ (x.before k.storeSeq).flatMap (fun w =>
      halves w.line ++ halves w.mask.toNat ++ (List.range 16).map (fun i => BitVec.ofNat 32 (w.data.toNat / 2 ^ (32 * i))))

/-- The registers in digest words. -/
def archOf (l : List Word) : Arch :=
  let at1 (i : Nat) : Word := l.getD i 0
  let a : Arch := {
    pc := at1 0, status := at1 65, estatus := at1 66, epc := at1 67, ecause := at1 68, eval := at1 69, excShadow := at1 70
    vbr := at1 71, mvbr := at1 72, sscratch := at1 73, mscratch := at1 74, ptbr := at1 75, asid := at1 76, fpsr := at1 77
    bargroup := at1 78, txstatus := at1 79, handler := at1 80 }
  let a := (List.range 31).foldl (fun a i => a.setG (BitVec.ofNat 5 (i + 1)) (at1 (2 + i))) a
  (List.range 32).foldl (fun a i => a.setF (BitVec.ofNat 5 i) (at1 (33 + i))) a

/-- The lines of a write set in words, 20 words a line. -/
def wsetOf : Nat → List Word → List WLine
  | 0, _ => []
  | n + 1, l =>
    if l.length < 20 then [] else
    let two (i : Nat) : Nat := (l.getD i 0).toNat + 2 ^ 32 * (l.getD (i + 1) 0).toNat
    let data := BitVec.ofNat 512 (natLE ((l.take 20).drop 4 |>.flatMap (fun w => bytesLE 4 w.toNat)))
    ⟨two 0, BitVec.ofNat 64 (two 2), data⟩ :: wsetOf n (l.drop 20)

/-- The checkpoint and the transaction context in words. -/
def ckptOf (retired sseq rseq : Nat) (l : List Word) : Option (Ckpt × TxCtx) :=
  let at1 (i : Nat) : Nat := (l.getD i 0).toNat
  let a := archOf l
  let k : Ckpt := {
    arch := a, retired := retired, storeSeq := sseq, readSeq := rseq, txNo := at1 81, digNo := at1 82, evNo := at1 83
    whash := BitVec.ofNat 64 (at1 84 + 2 ^ 32 * at1 85), crc := digestCrc a retired }
  if l.length = 86 then some (k, {})
  else if l.length < 168 ∨ (l.length - 168) % 20 ≠ 0 then none
  else
    let ws := wsetOf ((l.length - 168) / 20) (l.drop 168)
    some ({ k with save := some (archOf (l.drop 86)), txLines := ws.map (·.line) }, { first := at1 167, wset := ws, base := ws })

namespace Chip

/-! ### `REJOIN` on the joining device (R444) -/

/-- A triad stands at a checkpoint of the primary's; it runs once the pair is formed. -/
def joinTriad (c : Chip) (now t : Nat) (k : Ckpt) (tx : TxCtx) : Chip :=
  if c.split t then c else
  let c := c.startVoting now t
  if !c.live t then c else
  let alive := c.voting t
  let c := [0, 1, 2].foldl (fun c i => c.setLane (3 * t + i) (k.resume t i)) c
  let c := c.updTriad t (fun x => { x with
    ckpt := some k, nextSeq := alive.map (fun i => (i, k.seqNext)), nextDig := alive.map (fun i => (i, k.digNo))
    nextRead := alive.map (fun i => (i, k.readSeq)), fwdSeq := k.seqNext, digNext := k.digNo, elogBase := k.evNo
    elog := [], horizon := k.retired, marks := [], tendAborts := [], leatReads := [] })
  let c := c.updPort (3 * t) (fun p => { p with tx := tx })
  let c := if k.save.isNone then c.setRestart t k
    else (c.updTriad t (fun x => { x with restart := none })).sf (.CLU_TSTATE t) CLU_TSTATE.RPVALID 0
  match c.partOf t with
  | some p => c.sf (.PRT_STATE p) PRT_STATE.STATE 2
  | none => c

/-- An unacknowledged frame of the primary's retransmission store, with its tag. -/
def retxIn (c : Chip) (now n seq : Nat) (b : List Byte) : Chip :=
  let f : WFrame := { seq := seq, bytes := b, sent := some now, units := (b.length + 63) / 64, epoch := c.epoch n }
  (c.updPth n (fun x => { x with frames := x.frames ++ [f] })).takeTag n

/-- A path's counters. -/
def pathIn (c : Chip) (n e tx rx : Nat) : Chip :=
  let c := (c.sf (.CHN_PATHSTAT n) CHN_PATHSTAT.EPOCH e).epochNote n e
  (c.sf (.CHN_PATHSEQ n) CHN_PATHSEQ.TXSEQ tx).sf (.CHN_PATHSEQ n) CHN_PATHSEQ.RXNEXT rx

/-- A queue's indexes. -/
def queueIn (c : Chip) (now q hr tr gen : Nat) : Chip :=
  ((c.sf (.QUE_GEN q) QUE_GEN.GEN gen).setQue q { hrhead := hr, trtail := tr, door := hr, since := now }).syncQ q

/-- The copy is complete: the device is the standby. -/
def rejoined (c : Chip) (now : Nat) : Chip :=
  let c := (c.setPar 4).modPair (fun p => { p with prim := false, waitStart := false, swapAt := now, decs := [], heldIn := [] })
  c.chan.ques.keys.foldl (fun c q => c.readDoorbell now q) c

/-- One message of the copy. -/
def rejoinOne (c : Chip) (now : Nat) : RejoinMsg → Chip
  | .mem a l => c.writeBytes now none l.length a.toNat l
  | .retx n s b => c.retxIn now n.toNat s.toNat b
  | .checkpoint t r s q ws => match ckptOf r.toNat s.toNat q.toNat ws with
    | some (k, x) => c.joinTriad now t k x
    | none => c
  | .path n e x r => c.pathIn n.toNat e.toNat x.toNat r.toNat
  | .queue q h t g => c.queueIn now q.toNat h.toNat t.toNat g.toNat
  | .timer t k d => c.wr (.CLU_EVTIMER t k) d
  | .evcfg t v => c.wr (.CLU_EVCFG t) v
  | .event t n => c.updPort (3 * t) (fun p => { p with pend := addNew p.pend n.toNat })
  | .journal ws => (c.copyIn ws).1
  | .finished => c.rejoined now

/-- A device that rejoins takes the copy; the first message begins it. -/
def rejoinIn (c : Chip) (now : Nat) (r : RejoinMsg) : Chip :=
  if c.inPair && (c.pairState == 5 || c.pairState == 6) then (c.setPar 6).rejoinOne now r else c

/-! ### Timers (R428, R432, R435, R442) -/

/-- A heartbeat is sent every 2 µs; on a pair it restarts the timer that cuts the output (R438). -/
def heartDue (c : Chip) (now : Nat) : Chip :=
  if !c.beats then c
  else if c.cascade then (c.leatPut (.heart (c.heartOf (some 0)))).leatPut (.heart (c.heartOf (some 1)))
  else if c.inPair then
    let c := c.modPair (fun p => { p with sentAt := now, cut := false })
    (((c.leatPut (.heart (c.heartOf none))).lagNote now).swapPoll now).kickAll now
  else c

/-- Step 2 of a swap is over once every triad stands at the horizon. -/
def swapSend (c : Chip) (now : Nat) : Chip :=
  if c.pair.swap = 2 ∧ c.pair.prim ∧ c.pairState = 7 ∧ c.horizonsMet then
    let c := ((List.range 32).filter (fun t => c.live t && !c.split t)).foldl (fun c t =>
      c.leatSend (.horizon t (c.triad t).horizon (c.timeNow now))) c
    (c.leatPut .handover).modPair (fun p => { p with swap := 3 })
  else c

/-- The primary sends a `HORIZON` for each running triad at least every 1 µs. -/
def horizonDue (c : Chip) (now t : Nat) : Chip :=
  if c.off || !c.paired then c else
  let c := if c.live t && !c.split t then c.leatSend (.horizon t (c.minRetired t) (c.timeNow now)) else c
  c.swapSend now

/-- The primary sends a path's digest at least every 1 ms. -/
def odigestDue (c : Chip) (n : Nat) : Chip :=
  if c.off || !c.paired then c else
  let x := c.pth n
  c.leatSend (.odigest n x.outCount (x.outCrc ^^^ BitVec.ofNat 64 crc64Init))

end Chip

/-- `HEART` (R426, R435, R439, R445). -/
def execHeart (h : HeartMsg) (s : State) : Out := s.act (fun now c => c.heartIn now h)

/-- `INPUT` (R426, R427). -/
def execInput (ln : BitVec 8) (path : BitVec 10) (f : RxFrame) (time : BitVec 64) (s : State) : Out :=
  s.act (fun now c => c.followIn now (fun c => c.inputIn now ln.toNat path.toNat time.toNat f))

/-- `EVENT` (R426, R427). -/
def execLeatEvent (t : Fin 32) (ev : BitVec 40) (count : BitVec 64) (s : State) : Out :=
  s.act (fun now c => c.followIn now (fun c => c.eventIn now t ev.toNat count.toNat))

/-- `READ` (R426, R427, R434). -/
def execLeatRead (t : Fin 32) (rseq : BitVec 32) (v : BitVec 64) (err timebase : Bool) (s : State) : Out :=
  s.act (fun now c => c.followIn now (fun c => c.readIn now t rseq.toNat v err timebase))

/-- `INVAL` (R426, R427). -/
def execInval (t : Fin 32) (count : BitVec 64) (lines : List (BitVec 34)) (s : State) : Out :=
  s.act (fun now c => c.followIn now (fun c => c.invalIn t count.toNat (lines.map (·.toNat))))

/-- `CHNDEC` (R426, R427). -/
def execChndec (dec : ChnDec) (s : State) : Out := s.act (fun now c => c.followIn now (fun c => c.decIn now dec))

/-- `EXTW` (R426, R427). -/
def execExtw (w : ExtWrite) (s : State) : Out := s.act (fun now c => c.followIn now (fun c => c.extwIn now w))

/-- `HORIZON` (R428, R443). -/
def execHorizon (t : Fin 32) (count : BitVec 64) (sent : BitVec 64) (s : State) : Out :=
  s.act (fun now c => c.followIn now (fun c => c.horizonIn now t count.toNat sent.toNat))

/-- `JOURNAL` (R270, R426, R432). -/
def execJournal (e : List (BitVec 64)) (s : State) : Out :=
  s.act (fun now c => c.followIn now (fun c => c.journalIn now e))

/-- `JACK` (R265, R426, R430). -/
def execJack (cseq : BitVec 64) (s : State) : Out := s.act (fun now c => c.leatIn now (fun c => c.jackIn now cseq.toNat))

/-- `ODIGEST` (R432). -/
def execOdigest (n : BitVec 10) (count : BitVec 64) (crc : BitVec 64) (s : State) : Out :=
  s.act (fun now c => c.followIn now (fun c => c.odigestIn now n.toNat count.toNat crc))

/-- `PFAULT` (R433). -/
def execPfault (src : Fin 20) (cls : BitVec 2) (s : State) : Out :=
  s.act (fun now c => c.leatIn now (fun c => c.pfaultIn now src cls.toNat))

/-- `REJOIN` (R444). -/
def execRejoin (r : RejoinMsg) (s : State) : Out := s.act (fun now c => c.leatIn now (fun c => c.rejoinIn now r))

/-- `HEARTBEAT_TIMER` (R435, R438). -/
def execHeartbeatTimer (s : State) : Out := s.act (fun now c => c.heartDue now)

/-- `HORIZON_TIMER` (R428). -/
def execHorizonTimer (t : Fin 32) (s : State) : Out := s.act (fun now c => c.horizonDue now t)

/-- `ODIGEST_TIMER` (R432). -/
def execOdigestTimer (n : BitVec 10) (s : State) : Out := s.act (fun _ c => c.odigestDue n.toNat)

end Sys2Proof.Machine
end

