-- ==== Sys2Proof/Machine/Cascade.lean ====
section
/-! DEFINITION. The cascade, consistent snapshots, and the copy of a rejoin on the primary (R444 to R449). -/
namespace Sys2Proof.Machine
namespace Chip

/-! ### Snapshots (R447) -/

/-- Live triads in TRIAD mode. -/
def triadsLive (c : Chip) : List Nat := (List.range 32).filter (fun t => c.live t && !c.split t)

/-- The words of the record: CSEQ, the checkpoint counts, TXSEQ, RXNEXT and EPOCH of each path, HRHEAD, TRTAIL and GEN of
each queue. -/
def snapWords (c : Chip) (counts : List (Nat × Nat)) : List Nat :=
  let count (t : Nat) : Nat := ((counts.find? (fun e => e.1 == t)).map Prod.snd).getD 0
  [(c.nextCseq + 2 ^ 64 - 1) % 2 ^ 64] ++ (List.range 32).map count ++
  (List.range 1024).flatMap (fun n => [c.txseq n + 2 ^ 32 * c.rxnext n, c.epoch n]) ++
  (List.range 4096).map (fun q => (c.que q).hrhead + 2 ^ 16 * (c.que q).trtail + 2 ^ 32 * c.queGen q)

def snapSize : Nat := 8 * (1 + 32 + 2 * 1024 + 4096)

/-- The record lies in banks of the manager. -/
def snapOk (c : Chip) (a : Nat) : Bool :=
  let k (x : Nat) : Nat := (x - bankBase) / 0x80000
  decide (bankBase ≤ a) && decide (a + snapSize ≤ bankBase + 0x2000000) && c.mgrOwns (k a) && c.mgrOwns (k (a + snapSize - 1))

/-- The triad has reached its count, and the digest there is decided; for a rejoin its stores are all at their targets. -/
def snapReached (c : Chip) (t : Nat) : Bool :=
  let x := c.triad t
  let mine (d : DigRec) : Bool := d.kind == .forced
  !c.live t ||
    (!x.wants.contains .digest && !x.round.any (fun r => r.decisions.contains .digest) &&
     !x.digs.any (fun e => mine e.2) && (c.voting t).all (fun i => !(c.lane (3 * t + i)).digests.any mine) &&
     (!c.snap.any (·.rejoin) || (c.port (3 * t)).outq.isEmpty))

/-- What a snapshot held goes on: commits, completions, doorbells. -/
def snapRelease (c : Chip) (now : Nat) : Chip :=
  let c := ({ c with snap := none }).sf .SYS_SNAP SYS_SNAP.BUSY 0
  let c := c.commitPumpAll now
  c.chan.ques.keys.foldl (fun c q => (c.settleQ now q).readDoorbell now q) c

/-! ### The copy of a rejoin (R444 steps 2 and 3) -/

/-- The pages that are copied: bank memory that is on, and DRAM under an enabled window. -/
def copyPages (c : Chip) : List Nat :=
  let bank (n : Nat) : List Nat :=
    if c.domainOn (9 + n / 8) then (List.range 128).map (fun i => (bankBase + 0x80000 * n) / 4096 + i) else []
  let win (p w : Nat) : List Nat :=
    if !c.gb (.PRT_WBASE p w) PRT_WBASE.EN then [] else
    let b := c.gf (.PRT_WBASE p w) PRT_WBASE.BASE
    ((List.range (c.gf (.PRT_WLIMIT p w) PRT_WLIMIT.LIMIT + 1 - b)).map (fun i =>
      (b + i + c.gf (.PRT_WOFFSET p w) PRT_WOFFSET.OFFSET) % 2 ^ 28)).filter (fun g =>
        match c.region (4096 * g) with | .dram _ => true | _ => false)
  (List.range 64).flatMap bank ++
  ((List.range 64).filter (fun p => c.gb (.PRT_CFG p) PRT_CFG.DEFINED)).flatMap (fun p => (List.range 16).flatMap (win p))

def pageMsg (c : Chip) (g : Nat) : RejoinMsg :=
  .mem (BitVec.ofNat 40 (4096 * g)) ((List.range 4096).map (fun i => c.byte (4096 * g + i)))

/-- The checkpoint of a triad: a lane that waits at `TEND` presents its commit record anew. -/
def ckptMsgs (c : Chip) (t : Nat) : List RejoinMsg :=
  match (c.triad t).ckpt with
  | none => []
  | some k => [.checkpoint (Fin.ofNat 32 t) (BitVec.ofNat 64 k.retired) (BitVec.ofNat 32 k.storeSeq)
      (BitVec.ofNat 32 k.readSeq) (ckptWords k (c.port (3 * t)).tx)]

/-- Timers, event enables and pending events of a triad. -/
def eventMsgs (c : Chip) (t : Nat) : List RejoinMsg :=
  let f := Fin.ofNat 32 t
  [.evcfg f (c.rd (.CLU_EVCFG t))] ++
  (List.range 4).map (fun k => .timer f (Fin.ofNat 4 k) (c.rd (.CLU_EVTIMER t k))) ++
  (c.port (3 * t)).pend.map (fun n => .event f (BitVec.ofNat 16 n))

/-- A path's counters, then its unacknowledged frames. -/
def pathMsgs (c : Chip) (n : Nat) : List RejoinMsg :=
  let i := BitVec.ofNat 10 n
  [.path i (BitVec.ofNat 16 (c.epoch n)) (BitVec.ofNat 32 (c.txseq n)) (BitVec.ofNat 32 (c.rxnext n))] ++
  ((c.pth n).frames.filter (fun f => f.sent.isSome)).map (fun f => .retx i (BitVec.ofNat 32 f.seq) f.bytes)

def queMsg (c : Chip) (q : Nat) : RejoinMsg :=
  let x := c.que q
  .queue (BitVec.ofNat 12 q) (BitVec.ofNat 16 x.hrhead) (BitVec.ofNat 16 x.trtail) (BitVec.ofNat 16 (c.queGen q))

/-- The journal entries not yet `PUBLISHED`. -/
def journalMsgs (c : Chip) : List RejoinMsg :=
  (c.entries.filter (fun e => e.st == stComplete || e.st == stMirrored || e.st == stCopy)).map (fun e =>
    .journal (c.ringRead (8 + 10 * e.lines) e.off))

/-- Everything a joining device is given. -/
def copyMsgs (c : Chip) : List RejoinMsg :=
  c.copyPages.map c.pageMsg ++ ((List.range 1024).filter c.pEn).flatMap c.pathMsgs ++
  c.triadsLive.flatMap c.ckptMsgs ++ ((List.range 4096).filter c.queEn).map c.queMsg ++
  c.triadsLive.flatMap c.eventMsgs ++ c.journalMsgs ++ [.finished]

/-- Step 4: the pair is formed. -/
def rejoinEnd (c : Chip) (now : Nat) : Chip :=
  let c := (c.copyMsgs.map LeatMsg.rejoin).foldl (fun c m => c.leatPut m) c
  let c := (c.setPar 2).modPair (fun p => { p with copying := false, admitted := false, swapAt := now })
  c.snapRelease now

/-! ### The course of a snapshot -/

/-- The snapshot ends once every triad has reached its count: the record is written, or the copy sent. -/
def snapEnd (c : Chip) (now : Nat) (r : SnapRun) : Chip :=
  if r.rejoin then c.rejoinEnd now
  else
    let l := (c.snapWords r.counts).flatMap (bytesLE 8)
    (c.writeBytes now none l.length r.addr l).snapRelease now

/-- Triads that have reached their counts. -/
def snapPoll (c : Chip) (now : Nat) : Chip :=
  match c.snap with
  | none => c
  | some r =>
    let hit := r.left.filter c.snapReached
    let note := (hit.filter c.live).map (fun t => (t, (((c.triad t).ckpt).getD {}).retired))
    let r := { r with left := r.left.filter (fun t => !hit.contains t), counts := r.counts ++ note }
    let c := { c with snap := some r }
    if r.left.isEmpty then c.snapEnd now r else c

/-- A snapshot begins: a forced digest point in every running triad. -/
def snapStart (c : Chip) (now a : Nat) (rejoin : Bool) : Chip :=
  let ts := c.triadsLive
  let c := { c with snap := some { addr := a, rejoin := rejoin, left := ts } }
  let c := c.sf .SYS_SNAP SYS_SNAP.BUSY 1
  (ts.foldl (fun c t => c.want t .digest) c).snapPoll now

/-- A write of `SYS_SNAP`: one that cannot be performed is reported. -/
def snapWrite (c : Chip) (now : Nat) (v : DWord) : Chip :=
  let busy := c.gb .SYS_SNAP SYS_SNAP.BUSY
  let c := c.plainWrite now .SYS_SNAP v
  let casc := SYS_SNAP.CASC.get v == 1
  let a := 64 * SYS_SNAP.ADDR.get v
  if SYS_SNAP.GO.get v = 0 then c
  else if busy || (casc && !c.casMaster) || !c.snapOk a then c.cfgReport now 0x07 0 RegName.SYS_SNAP.addr
  else (if casc then c.leatPut (.globalOp (.snapshot (BitVec.ofNat 40 a))) else c).snapStart now a false

/-- The copy of a rejoin has been made; the snapshot follows. -/
def copyDone (c : Chip) (now : Nat) : Chip :=
  if c.off || c.pairState != 3 || !c.pair.copying || c.gb .SYS_SNAP SYS_SNAP.BUSY then c
  else c.snapStart now 0 true

/-! ### Ring (R445, R446, R448) -/

/-- No heartbeat on a ring link for 10 µs. -/
def ringLost (c : Chip) (now k : Nat) : Chip :=
  if c.off || !c.cascade || c.cas.lost.contains k || decide (now < c.cas.heard.get 0 k + 10000) then c else
  let c := ({ c with cas := { c.cas with lost := addNew c.cas.lost k } }).inc .CAS_STAT CAS_STAT.LINKLOSS
  (c.ringReach).contained now 16 none none

/-- A frame of the ring. -/
def relayIn (c : Chip) (now : Nat) : RelayMsg → Chip
  | .toImporter n time b =>
    if c.pEn n.toNat && decide (0x80 ≤ c.pLane n.toNat) && c.domainOn 19 then c.pathInput now n.toNat time.toNat b 0 none else c
  | .toExporter e b =>
    let r := RegName.CAS_EXPORT e.toNat
    let n := c.gf r CAS_EXPORT.PATH
    if !c.gb r CAS_EXPORT.EN then c else
    match c.laneFrame n b with
    | some f => c.handOver now { path := n, cls := 0, prio := 0, arr := 0, bytes := f, kind := .control }
    | none => c
  | .transit d b => c.leatPut (.relay (.transit d b))

/-- A `GLOBAL` message. -/
def globalIn (c : Chip) (now : Nat) : GlobalMsg → Chip
  | .barrierArrive d m a =>
    if c.casMaster then
      ({ c with cas := { c.cas with bars := c.cas.bars.set d.toNat (m.toNat, a.toNat) } }).barCheck 15
    else c
  | .barrierRelease => if c.casMaster then c else c.barEnd 15
  | .snapshot a => if c.casMaster || c.gb .SYS_SNAP SYS_SNAP.BUSY || !c.snapOk a.toNat then c else c.snapStart now a.toNat false
  | .reset => if c.casMaster then c else c.warmReset now

/-- A warm reset of every device of the cascade. -/
def resetAll (c : Chip) (now : Nat) : Chip :=
  if c.casMaster then (c.warmReset now).leatPut (.globalOp .reset) else c

end Chip

/-- `RELAY` (R446). -/
def execRelay (r : RelayMsg) (s : State) : Out :=
  s.act (fun now c => if c.off || !c.cascade then c else c.relayIn now r)

/-- `GLOBAL` (R445, R447, R448). -/
def execGlobalMsg (g : GlobalMsg) (s : State) : Out :=
  s.act (fun now c => if c.off || !c.cascade then c else c.globalIn now g)

/-- `RING_LINK_LOSS` (R445, R449). -/
def execRingLinkLoss (k : Fin 2) (s : State) : Out := s.act (fun now c => c.ringLost now k)

/-- `RESETALL` (R448, R450). -/
def execResetall (ag : Agent) (s : State) : Out :=
  s.act (fun now c => c.byWriter ag .CAS_CTL (fun c => c.resetAll now))

/-- `SNAPSHOT`: a write of `SYS_SNAP` (R447, R450). -/
def execSnapshot (ag : Agent) (v : BitVec 64) (s : State) : Out :=
  s.act (fun now c => c.byWriter ag .SYS_SNAP (fun c => c.snapWrite now v))

/-- `REJOIN_COPY_END` (R444). -/
def execRejoinCopyEnd (s : State) : Out := s.act (fun now c => c.copyDone now)

/-- `DELIVERY_COUNT_REACHED` (R164 to R172, R248, R447): the selected event and the decisions are taken at C. -/
def execDeliveryCountReached (t : Fin 32) (s : State) : Out := s.act (fun now c => (c.countReached now t).snapPoll now)

end Sys2Proof.Machine
end

