-- ==== Sys2Proof/Machine/RegAccess.lean ====
section
/-! DEFINITION. Reads and writes of device registers as the register network performs them, with every effect a register
has beyond storage (R6 to R9, R25, R392), and `REGISTER_WRITE`. -/
namespace Sys2Proof.Machine

/-- How a target answers an access (R20, R246, R487). -/
inductive Answer where
  | ok (v : DWord)
  /-- an error response -/
  | refused
  /-- no response within the limit -/
  | silent
  deriving DecidableEq, Repr

namespace Chip

/-! ### Writes with rules of their own -/

/-- A path's RETX stays within 1 to 255 (R282): a write of 0 leaves it. -/
def pathCfgWrite (c : Chip) (now n : Nat) (v : DWord) : Chip :=
  let was := c.gf (.CHN_PATHCFG n) CHN_PATHCFG.RETX
  let c := c.plainWrite now (.CHN_PATHCFG n) v
  if CHN_PATHCFG.RETX.get v = 0 then (c.sf (.CHN_PATHCFG n) CHN_PATHCFG.RETX was).corrected now 11 else c

/-- Queues with PRIV at 1 (R285). -/
def privQueues (c : Chip) : Nat := ((List.range 4096).filter (fun q => c.gb (.QUE_CFG q) QUE_CFG.PRIV)).length

/-- A write that would make a 65th privileged queue leaves PRIV at 0 (R285). -/
def queCfgWrite (c : Chip) (now q : Nat) (v : DWord) : Chip :=
  let d := c.plainWrite now (.QUE_CFG q) v
  if QUE_CFG.PRIV.get v = 1 ∧ 64 < d.privQueues then (d.sf (.QUE_CFG q) QUE_CFG.PRIV 0).corrected now 11 else d

/-- Requesters that a change of membership takes out of a group leave it (R242, R244). -/
def barDrop (c : Chip) (g : Nat) (old : List Nat) : Chip :=
  (old.filter (fun k => !c.barMember g k)).foldl (fun c k => c.barLeave k g) (c.barCheck g)

/-- A write of `PRT_CFG`: a barrier group that another partition holds is not granted (R391). -/
def prtCfgWrite (c : Chip) (now p : Nat) (v : DWord) : Chip :=
  let r := RegName.PRT_CFG p
  if PRT_CFG.BARGRANT.get v &&& c.takenBy p PRT_CFG.BARGRANT != 0 then (c.lockedTry now r v).cfgReport now 0x06 0 r.addr else
  let d := (c.plainWrite now r v).barGrants p
  let ch := (List.range 16).filter (fun g => (c.gf r PRT_CFG.BARGRANT).testBit g != (d.gf r PRT_CFG.BARGRANT).testBit g)
  ch.foldl (fun d g => d.barDrop g (c.barMembers g)) d

/-- A host window of KIND 2 is accepted while the host is the manager (R476). -/
def winWrite (c : Chip) (now k : Nat) (v : DWord) : Chip :=
  if HST_WBASE.KIND.get v = 2 ∧ !c.gb .PRT_MGR PRT_MGR.SITE then c.corrected now 18 else c.plainWrite now (.HST_WBASE k) v

/-- A write of `CPH_SLOT` (R342): a partition clears, the manager assigns and clears. -/
def slotPut (c : Chip) (now : Nat) (ag : Agent) (n : Nat) (v : DWord) : Chip :=
  let c := if ag == .manager || ag == .miller then c.slotWrite now n v else c
  if v.getLsbD 48 then c.clrSlot n else c

/-- A write of a core's OUT bit (R356, R371). -/
def outWrite (c : Chip) (k : Pool) (i : Nat) (v : DWord) : Chip := c.coreOut k i (v.getLsbD 0)

/-- `LAN_CTL`: LOOP, then RETRAIN (R322, R323). -/
def lanCtlWrite (c : Chip) (now n : Nat) (v : DWord) : Chip :=
  let c := c.loopLane now n (LAN_CTL.LOOP.get v)
  if v.getLsbD 0 then c.retrainLane now n else c

/-- `CFG_STGCMD` (R462). -/
def stgWrite (c : Chip) (now : Nat) (v : DWord) : Chip := c.stageWrite now v (CFG_STGCMD.OP.get v)

/-- The effect of a write that does its work when its bit 0 is written 1. -/
def onBit0 (c : Chip) (v : DWord) (f : Chip → Chip) : Chip := if v.getLsbD 0 then f c else c

/-- A permitted write of a channel, lane or engine register. -/
def unitPut (c : Chip) (now : Nat) (ag : Agent) (v : DWord) : RegName → Chip
  | .CHN_PATHCFG n => c.pathCfgWrite now n v
  | .CHN_PATHCTL n => c.onBit0 v (fun c => c.abortPath n)
  | .QUE_CFG q => c.queCfgWrite now q v
  | .QUE_CMD q => c.onBit0 v (fun c => c.abortQueue now q)
  | .LAN_CTL n => c.lanCtlWrite now n v
  | .FLD_CTL n => c.loopField now n (FLD_CTL.LOOP.get v == 1)
  | .TIM_PTP => c.ptpPut now (v.toNat * 2 ^ 40)
  | .TIM_PTPSTEP => c.ptpStep now v
  | .TIM_PTPRATE => c.ptpRateWrite now v
  | .TIM_PPS => c.ppsWrite now v
  | .CPH_CORE k => c.outWrite .cipher k v
  | .MIL_CORE k => c.outWrite .mill k v
  | .CPH_UNWRAP_CMD p => c.unwrapGo now p (ag == .manager || ag == .miller) v
  | .CPH_SLOT n => c.slotPut now ag n v
  | r => c.plainWrite now r v

/-- A permitted write of a device register: its stored fields (R7, R8) and the effect its chapter gives it. -/
def regPut (c : Chip) (now : Nat) (ag : Agent) (r : RegName) (v : DWord) : Chip :=
  match r with
  | .GOV_CTRL => c.govCtrlWrite now v
  | .GOV_FLOOR => c.govFloorWrite now v
  | .GOV_STATUS => c.govStatusWrite now v
  | .CLU_TCTL t => c.tctlWrite now t v
  | .CLU_L1CTL t => c.l1ctlWrite t v
  | .BNK_OWNER n => c.handoverStart now n v
  | .ARB_PORT n => c.arbPortWrite now n v
  | .ARB_LONG k => if v.getLsbD 63 then c.sf (.ARB_LONG k) ARB_LONG.LONGEST 0 else c
  | .PRT_CFG p => c.prtCfgWrite now p v
  | .PRT_CTL p => c.prtCtlWrite now p v
  | .PRT_LOGCFG p => c.logCfgWrite now p v
  | .PRT_LOGBUF0 p => c.logBufWrite now p (.PRT_LOGBUF0 p) v
  | .PRT_LOGBUF1 p => c.logBufWrite now p (.PRT_LOGBUF1 p) v
  | .PRT_LOGCTL p => c.logCtlWrite now p v
  | .FLT_STATUS => c.statusWrite now v
  | .FLT_ATTR s => c.attrWrite now ag s v
  | .FLT_MATTR => c.mattrWrite now v
  | .FLT_BRAKE => c.brakeWrite now v
  | .FLT_NOTE p => c.noteWrite now p v
  | .PAR_CTL => c.parCtlWrite now v
  | .CAS_CTL => c.onBit0 v (fun c => c.resetAll now)
  | .SYS_SNAP => c.snapWrite now v
  | .SYS_PWRCTL => c.pwrWrite now v
  | .SYS_TEST k => c.testWrite now k v
  | .CFG_CTL => c.onBit0 v (fun c => c.warmReset now)
  | .CFG_STGCMD => c.stgWrite now v
  | .HST_WBASE k => c.winWrite now k v
  | .BOK_CTL => c.onBit0 v (fun c => c.saveBegin)
  | r => c.unitPut now ag v r

/-! ### Reads -/

/-- The value a register reads as: the clock registers, the queue of transmit timestamps and the word of the journal store
stand elsewhere; every other register is stored. -/
def regGet (c : Chip) (now : Nat) : RegName → DWord
  | .TIM_NOW => BitVec.ofNat 64 now
  | .TIM_PTP => BitVec.ofNat 64 (c.ptpNow now)
  | .LAN_TXTS n => (c.eg n).txts.headD 0
  | .SYS_COMMITSEQ => BitVec.ofNat 64 c.nextCseq
  | .PAR_STAT => (c.lagNote now).rd .PAR_STAT
  | r => c.rd r

/-- What a read does to the register: a transmit timestamp is removed (R326), RECOVERED clears (R405). -/
def regTaken (c : Chip) (ag : Agent) : RegName → Chip
  | .LAN_TXTS n => c.txtsPop n
  | .FLT_STATUS => c.statusRead ag
  | _ => c

/-- The target of an access answers: its power domain is on (R487). -/
def answers (c : Chip) (a : Nat) : Bool := !c.off && c.domainOn (powerDomain a)

/-- A word of a device-typed region as an agent reads it (R19, R20, R22, R392). -/
def devGet (c : Chip) (now : Nat) (ag : Agent) (a : Nat) : Chip × Answer :=
  if !c.answers a then (c, .silent) else
  match c.region a with
  | .journal =>
    if !c.devReadable ag a then (c, .refused) else
    match c.readWord now a none with
    | (c, some d) => (c, .ok d)
    | (c, none) => (c, .refused)
  | .bitSet n | .bitClear n =>
    if !c.agentOwns ag n then (c, .refused) else
    match c.readWord now (storageAddr a / 8 * 8) (c.bankParty n) with
    | (c, some d) => (c, .ok d)
    | (c, none) => (c, .refused)
  | .register =>
    if !c.devReadable ag a then (c, .refused)
    else if bookWindow a then (c, .ok (BitVec.ofNat 64 (c.bookWord (a % 0x1000))))
    else match regOf a with
      | some r => (c.regTaken ag r, .ok (c.regGet now r))
      | none => (c, .refused)
  | _ => (c, .refused)

/-- A word written to a device-typed region by an agent; `src` is the requester, where a core issued it (R20, R25, R215,
R392). -/
def devPut (c : Chip) (now : Nat) (ag : Agent) (a : Nat) (v : DWord) (src : Option Nat) : Chip × Answer :=
  if !c.answers a then (c, .silent) else
  match c.region a with
  | .bitSet n | .bitClear n =>
    if !c.agentOwns ag n then (c, .refused) else
    match c.aliasStore now a v src with
    | (c, true) => (c, .ok 0)
    | (c, false) => (c, .refused)
  | .register =>
    if bookWindow a then (c, if ag == .manager || ag == .miller then .ok 0 else .refused)
    else match regOf a with
      | some r => if c.mayWrite ag r then (c.regPut now ag r v, .ok 0) else (c, .refused)
      | none => (c, .refused)
  | _ => (c, .refused)

/-- The fault source of the block at a device-typed address (R23, R402). -/
def targetSource (a : Nat) : Nat :=
  if a < 0xF000000000 then 8
  else if 0xF001000000 ≤ a then (a - 0xF001000000) / 0x10000
  else if 0xF000210000 ≤ a then 13
  else if 0xF000200000 ≤ a then 12
  else if 0xF000100000 ≤ a then 11
  else match a / 0x10000 % 16 with
    | 4 => 10
    | 6 => 8
    | 7 => 9
    | 8 => 14
    | 9 => 15
    | 10 => 16
    | 11 => 16
    | 12 => 17
    | 13 => 17
    | 2 => 19
    | 15 => 19
    | _ => 18

end Chip

/-- `REGISTER_WRITE` (R25, R392): a write that an agent's access rights do not permit is not performed. -/
def execRegisterWrite (ag : Agent) (addr : BitVec 40) (v : BitVec 64) (s : State) : Out :=
  s.act (fun now c =>
    match c.region addr.toNat with
    | .register => (c.devPut now ag addr.toNat v none).1
    | _ => c)

end Sys2Proof.Machine
end

