-- ==== Sys2Proof/Machine/Bus.lean ====
section
/-! DEFINITION. Accesses past the lanes: stores reaching their targets, device-typed writes and loads with their answers
and timeouts, the results of agreed reads, and commits that waited (chapters 07, 10, 11). -/
namespace Sys2Proof.Machine
namespace Chip

/-- The partition on whose behalf a requester's accesses are made. -/
def keyPart (c : Chip) (key : Nat) : Nat := (c.partOf (key / 3)).getD 0

/-- `SYS_DEVTIMEOUT.LIMIT` in ns (R246). -/
def devLimit (c : Chip) : Nat := 1000 * c.gf .SYS_DEVTIMEOUT SYS_DEVTIMEOUT.LIMIT

/-- A commit that waits at a requester goes on if it can, also one of an earlier run (R277). -/
def pumpKey (c : Chip) (now key : Nat) : Chip := (c.commitPump now key).commitPump now (key + 1000)

/-- What may go on once a store of a requester has left its port: the store buffers, a commit at its step 2 (R265), a cache
switch (R193), a snapshot (R447). -/
def outMoved (c : Chip) (now key : Nat) : Chip :=
  (((c.sbDrain key).pumpKey now key).l1Pump (key / 3)).snapPoll now

/-! ### Memory-typed stores (R232, R233, R236) -/

/-- The oldest store of a requester is accepted by its target, unless a commit holds its line (R268); the caches of its own
requester see a store of the debugger as another agent's. -/
def storeAccept (c : Chip) (now key : Nat) : Chip :=
  let p := c.port key
  match p.outq with
  | [] => c
  | r :: rest =>
    if r.dev then (c.setPort key (issueDev now p p.outq.length)).outMoved now key
    else if c.lineHeld (lineOf r.addr.toNat) (some key) then c
    else
      let c := c.setPort key { p with outq := rest }
      let c := c.storeVisible now r.addr.toNat r.be.toNat r.data (some (c.keyPart key)) (if r.dbg then none else some key)
      (c.updPort key (fun p => issueDev now p p.outq.length)).outMoved now key

/-! ### Device-typed writes (R236, R237, R246 to R248) -/

/-- A device-typed access that ends with an error (R246, R523). -/
def devError (c : Chip) (now a : Nat) : Chip := (c.corrected now (targetSource a)).inc .SYS_DEVTIMEOUT SYS_DEVTIMEOUT.TIMEOUTS

/-- A device-typed write that ends with an error (R246). -/
def devWriteError (c : Chip) (now key a : Nat) : Chip := (c.devError now a).pendDwe key (BitVec.ofNat 32 (a / 256))

/-- The oldest outstanding write whose target answers and which no earlier one to the same target precedes (R236). -/
def nextDev (c : Chip) : List Nat → List DevOut → Option DevOut
  | _, [] => none
  | before, d :: r =>
    let g := devTarget d.addr.toNat
    if c.answers d.addr.toNat && !before.contains g then some d else c.nextDev (g :: before) r

/-- A write is performed at its target. -/
def devPerform (c : Chip) (now key : Nat) (d : DevOut) : Chip × Answer :=
  c.devPut now (c.coreAgent (c.keyPart key)) d.addr.toNat d.data (some key)

/-- The answer to a device-typed write; with none awaited, a write that timed out is performed late (R247). -/
def devWriteEnd (c : Chip) (now key : Nat) : Chip :=
  let p := c.port key
  match c.nextDev [] p.devOut, p.late with
  | some d, _ =>
    let c := c.setPort key (issueDev now { p with devOut := p.devOut.erase d } p.outq.length)
    match c.devPerform now key d with
    | (c, .ok _) => c.outMoved now key
    | (c, _) => (c.devWriteError now key d.addr.toNat).outMoved now key
  | none, d :: r => ((c.setPort key { p with late := r }).devPerform now key d).1
  | none, [] => c

/-- The oldest outstanding write has had no response for LIMIT µs (R246, R247). -/
def devWriteLate (c : Chip) (now key : Nat) : Chip :=
  let p := c.port key
  match p.devOut with
  | d :: r =>
    if now < d.issued + c.devLimit then c else
    let c := c.setPort key (issueDev now { p with devOut := r, late := p.late ++ [d] } p.outq.length)
    (c.devWriteError now key d.addr.toNat).outMoved now key
  | [] => c

/-! ### Device-typed loads (R178, R236, R523) -/

/-- An earlier write of the requester to the target has not been performed (R236). -/
def devBefore (c : Chip) (key a : Nat) : Bool :=
  let p := c.port key
  p.outq.any (fun r => r.dev && devTarget r.addr.toNat == devTarget a) ||
  p.devOut.any (fun d => devTarget d.addr.toNat == devTarget a)

/-- A read of an alias or of the journal store that an agent may make and that is refused all the same: its word is
uncorrectable (R227). -/
def wordLost (c : Chip) (ag : Agent) (a : Nat) : Bool :=
  match c.region a with
  | .journal => c.devReadable ag a
  | .bitSet n | .bitClear n => c.agentOwns ag n
  | _ => false

/-- A device-typed load is performed: its value and whether it ended with an error, the value of an error being what
`Chip.loadError` reads; none while it has no answer. -/
def devLoadNow (c : Chip) (now key a : Nat) : Chip × Option (DWord × Bool) :=
  if c.devBefore key a then (c, none) else
  match c.devGet now (c.coreAgent (c.keyPart key)) a with
  | (c, .ok v) => (c, some (v, false))
  | (c, .refused) =>
    if c.wordLost (c.coreAgent (c.keyPart key)) a then (c, some (BitVec.ofNat 64 (a / 256), true))
    else (c.devError now a, some (0, true))
  | (c, .silent) => (c, none)

/-- The device-typed load of a SPLIT core returns; whether it did. -/
def splitLoad (c : Chip) (now k : Nat) : Chip × Bool :=
  match (c.lane k).devLoad, (c.lane k).devResult with
  | some (a, _), none =>
    match c.devLoadNow now k a.toNat with
    | (c, some r) => (c.updLane k (fun l => { l with devResult := some r }), true)
    | (c, none) => (c, false)
  | _, _ => (c, false)

/-! ### Agreed reads (R176, R177, R427, R434) -/

/-- A lane that presents the request has a transaction open: the read is not logged (R151, R177). -/
def readInTx (c : Chip) (t : Nat) (r : AReq) : Bool :=
  (c.voting t).any (fun i => (c.lane (3 * t + i)).areq == some r && (c.lane (3 * t + i)).save.isSome)

/-- The address word of an agreed read in the log area (R271): 0 for one that reads no address. -/
def ARKind.addr : ARKind → Nat
  | .load a => a.toNat
  | _ => 0

/-- A result enters the result buffer with the invalidations queued before the read (R172), goes to the standby, and is
logged (R177, R271). -/
def readResult (c : Chip) (t : Nat) (r : AReq) (v : DWord) (err : Bool) : Chip :=
  let x := c.triad t
  let f := c.following
  let tx := c.readInTx t r
  let e : ARes := { req := r, value := v, err := err, invs := if f then [] else x.invq, invAll := x.invAll && !f }
  let n := ((c.voting t).map (fun i => (c.lane (3 * t + i)).retired)).foldl max 0
  let i := x.rlog.length
  let c := c.setTriad t { x with
    aready := x.aready.filter (fun q => q.1.rseq != r.rseq), ares := x.ares ++ [e]
    invq := if f then x.invq else [], invAll := x.invAll && f
    leatReads := x.leatReads.filter (fun q => q.1 != r.rseq), rlog := if tx then x.rlog else x.rlog ++ [e] }
  let c := (c.tellInv t n e.invs e.invAll).leatSend (.read t r.rseq v err (r.kind == .timebase))
  if tx then c else
  let a := logArea t + 0x800 + 32 * (i % 16)
  (((c.storeWord a (BitVec.ofNat 64 r.rseq)).storeWord (a + 8) (BitVec.ofNat 64 (ARKind.addr r.kind))).storeWord (a + 16) v).logLimit t

/-- `TIMEBASE` as a triad reads it: never below the last value returned (R434). -/
def timebaseNow (c : Chip) (now : Nat) : Nat := max (c.timeNow now) c.pair.timebase.toNat

/-- The access of an agreed read, made once for the triad: its result, none while there is no answer. -/
def readOnce (c : Chip) (now t : Nat) : ARKind → Chip × Option (DWord × Bool)
  | .load a => c.devLoadNow now (3 * t) a.toNat
  | .timebase =>
    let v := BitVec.ofNat 64 (c.timebaseNow now)
    (c.modPair (fun p => { p with timebase := v }), some (v, false))
  | .txstatus => (c, some ((c.lane (c.repLane (3 * t))).arch.txstatus.setWidth 64, false))
  | .hint =>
    let v := hintWord (c.port (3 * t)).hint
    (c.updPort (3 * t) (fun p => { p with hint := none }), some (v.setWidth 64, false))
  | .bararrive g => (c.barArrive g.toNat (3 * t), some (0, false))

/-- The oldest agreed request of a triad: it takes a result that the primary forwarded; a following device has no other
source (R427). At a full log nothing is read for the log (R151). -/
def agreedNow (c : Chip) (now t : Nat) : Chip :=
  let x := c.triad t
  match x.aready with
  | [] => c
  | (r, _) :: _ =>
    if c.off || !c.live t || (c.gb (.CLU_TSTATE t) CLU_TSTATE.LOGFULL && !c.readInTx t r) then c else
    match x.leatReads.find? (fun q => q.1 == r.rseq) with
    | some (_, v, err) =>
      let c := match r.kind with
        | .bararrive g => c.barArrive g.toNat (3 * t)
        | _ => c
      c.readResult t r v err
    | none =>
      if c.following then c else
      match c.readOnce now t r.kind with
      | (c, some (v, err)) => c.readResult t r v err
      | (c, none) => c

/-- A device-typed load of a triad has had no response for LIMIT µs. -/
def agreedLate (c : Chip) (now t : Nat) : Chip :=
  match (c.triad t).aready with
  | (r, since) :: _ =>
    match r.kind with
    | .load a =>
      if c.off || c.following || !c.live t || c.gb (.CLU_TSTATE t) CLU_TSTATE.LOGFULL || decide (now < since + c.devLimit) then c
      else (c.devError now a.toNat).readResult t r 0 true
    | _ => c
  | [] => c

/-- A device-typed load of a SPLIT core has had no response for LIMIT µs. -/
def splitLate (c : Chip) (now k : Nat) : Chip :=
  match (c.lane k).devLoad, (c.lane k).devResult with
  | some (a, since), none =>
    if now < since + c.devLimit then c
    else (c.devError now a.toNat).updLane k (fun l => { l with devResult := some (0, true) })
  | _, _ => c

/-- The commit of a requester goes on if it waits at a stage. -/
def pumpAt (c : Chip) (now key : Nat) (st : CommitStep) : Chip :=
  if !c.off && c.commits.any (fun m => (m.key == key || m.key == key + 1000) && m.stage == st) then c.pumpKey now key else c

end Chip

/-- `MEMORY_ACCESS_RESPONSE` (R232, R233, R178): an uncached load of a SPLIT core returns, otherwise the requester's oldest
store is accepted. -/
def execMemoryAccessResponse (l : LaneId) (s : State) : Out :=
  s.act (fun now c =>
    if c.off then c else
    match c.splitLoad now (laneKey l) with
    | (c, true) => c
    | (c, false) => c.storeAccept now (c.portKey l.t l.i))

/-- `DEVICE_WRITE_RESPONSE` (R236, R246, R247). -/
def execDeviceWriteResponse (l : LaneId) (s : State) : Out :=
  s.act (fun now c => if c.off then c else c.devWriteEnd now (c.portKey l.t l.i))

/-- `DEVICE_WRITE_TIMEOUT` (R246, R247). -/
def execDeviceWriteTimeout (l : LaneId) (s : State) : Out :=
  s.act (fun now c => if c.off then c else c.devWriteLate now (c.portKey l.t l.i))

/-- `DEVICE_LOAD_TIMEOUT` (R523): the agreed read of the lane's triad, or the load of a SPLIT core. -/
def execDeviceLoadTimeout (l : LaneId) (s : State) : Out :=
  s.act (fun now c => if c.split l.t then c.splitLate now (laneKey l) else c.agreedLate now l.t)

/-- `AGREED_READ_RESULT` (R176, R177). -/
def execAgreedReadResult (t : Fin 32) (s : State) : Out := s.act (fun now c => c.agreedNow now t)

/-- `COMMIT_RING_ROOM` (R274). -/
def execCommitRingRoom (l : LaneId) (s : State) : Out :=
  s.act (fun now c => c.pumpAt now (c.portKey l.t l.i) .ring)

/-- `COMMIT_HOLD_END` (R268). -/
def execCommitHoldEnd (l : LaneId) (s : State) : Out :=
  s.act (fun now c => c.pumpAt now (c.portKey l.t l.i) .hold)

end Sys2Proof.Machine
end

