-- ==== Sys2Proof/Machine/Control.lean ====
section
/-! DEFINITION. Branches, jumps, traps, the return from an exception, undefined encodings and fetch faults (R87, R88,
R97, R98, R100, R83). -/
namespace Sys2Proof.Machine

/-- A branch: taken to `pc + 2 × sx(OFF)` when the test holds (R97). -/
def branch (taken : Bool) (pc : Word) (off : BitVec 13) : Res (Arch → Arch) :=
  .ok (fun x => if taken then { x with pc := target pc off } else x)

/-- `BR.EQ` (R97). -/
def execBrEq (l : LaneId) (a b : Reg) (off : BitVec 13) (s : State) : Out :=
  s.act (fun now c => c.regInstr now l (.brEq l a b off) 4 (ctSteps 2 4) (fun v => branch (v.gr a == v.gr b) v.pc off))
/-- `BR.NE` (R97). -/
def execBrNe (l : LaneId) (a b : Reg) (off : BitVec 13) (s : State) : Out :=
  s.act (fun now c => c.regInstr now l (.brNe l a b off) 4 (ctSteps 2 4) (fun v => branch (v.gr a != v.gr b) v.pc off))
/-- `BR.LT` (R97), signed. -/
def execBrLt (l : LaneId) (a b : Reg) (off : BitVec 13) (s : State) : Out :=
  s.act (fun now c => c.regInstr now l (.brLt l a b off) 4 (ctSteps 2 4)
    (fun v => branch (decide ((v.gr a).toInt < (v.gr b).toInt)) v.pc off))
/-- `BR.GE` (R97), signed. -/
def execBrGe (l : LaneId) (a b : Reg) (off : BitVec 13) (s : State) : Out :=
  s.act (fun now c => c.regInstr now l (.brGe l a b off) 4 (ctSteps 2 4)
    (fun v => branch (decide ((v.gr b).toInt ≤ (v.gr a).toInt)) v.pc off))
/-- `BR.LTU` (R97). -/
def execBrLtu (l : LaneId) (a b : Reg) (off : BitVec 13) (s : State) : Out :=
  s.act (fun now c => c.regInstr now l (.brLtu l a b off) 4 (ctSteps 2 4)
    (fun v => branch (decide ((v.gr a).toNat < (v.gr b).toNat)) v.pc off))
/-- `BR.GEU` (R97). -/
def execBrGeu (l : LaneId) (a b : Reg) (off : BitVec 13) (s : State) : Out :=
  s.act (fun now c => c.regInstr now l (.brGeu l a b off) 4 (ctSteps 2 4)
    (fun v => branch (decide ((v.gr b).toNat ≤ (v.gr a).toNat)) v.pc off))
/-- `BR.Z` (R97). -/
def execBrZ (l : LaneId) (f : Form) (a : Reg) (off : BitVec 13) (s : State) : Out :=
  s.act (fun now c => c.regInstr now l (.brZ l f a off) (formLen f) (ctSteps 2 4)
    (fun v => branch (v.gr a == 0) v.pc off))
/-- `BR.NZ` (R97). -/
def execBrNz (l : LaneId) (f : Form) (a : Reg) (off : BitVec 13) (s : State) : Out :=
  s.act (fun now c => c.regInstr now l (.brNz l f a off) (formLen f) (ctSteps 2 4)
    (fun v => branch (v.gr a != 0) v.pc off))

/-- `JMP` (R98). -/
def execJmp (l : LaneId) (off : BitVec 26) (s : State) : Out :=
  s.act (fun now c => c.regInstr now l (.jmp l off) 4 (fun _ => 2)
    (fun v => .ok (fun x => { x with pc := target v.pc off })))

/-- `CALL` (R98): `lk` := pc + 4. -/
def execCall (l : LaneId) (off : BitVec 26) (s : State) : Out :=
  s.act (fun now c => c.regInstr now l (.call l off) 4 (fun _ => 2)
    (fun v => .ok (fun x => { x.setG 31 (v.pc + 4) with pc := target v.pc off })))

/-- A register target: an odd one raises `INSTR_MISALIGNED` at the jump, which then has no effect (R98). -/
def jumpTo (t : Word) (link : Option Word) : Res (Arch → Arch) :=
  if t.getLsbD 0 then .exc ⟨0x05, 3, t.toNat⟩
  else .ok (fun x => { (match link with | some k => x.setG 31 k | none => x) with pc := t })

/-- `JMPR` (R98). -/
def execJmpr (l : LaneId) (a : Reg) (s : State) : Out :=
  s.act (fun now c => c.regInstr now l (.jmpr l a) 4 (fun _ => 2) (fun v => jumpTo (v.gr a) none))
/-- `CALLR` (R98): the target is the old register value, also for `lk`. -/
def execCallr (l : LaneId) (a : Reg) (s : State) : Out :=
  s.act (fun now c => c.regInstr now l (.callr l a) 4 (fun _ => 2) (fun v => jumpTo (v.gr a) (some (v.pc + 4))))
/-- `RET` (R98). -/
def execRet (l : LaneId) (f : Form) (s : State) : Out :=
  s.act (fun now c => c.regInstr now l (.ret l f) (formLen f) (fun _ => 2) (fun v => jumpTo (v.gr 31) none))

/-- `TRAP` (R100): cause 0x02 at offset by level; at level S in the manager partition a number from 0x80 targets M
(R81). -/
def execTrap (l : LaneId) (f : Form) (n : BitVec 8) (s : State) : Out :=
  s.act (fun now c => c.instr l (.trap l f n) (fun c =>
    let k := (laneKey l)
    let m := (c.lane k).arch.pl == 1 && (c.partOf l.t).any (fun p => c.isMgrPart p) && decide (0x80 ≤ n.toNat)
    (c.updLane k (fun x => { x with steps := x.steps + 6 })).raise now k ⟨0x03, 3, n.toNat⟩ m))

/-- `BRK` (R100, R158): `BREAKPOINT` with the address of the `BRK`, or a halt of the triad while a debugger holds it. -/
def execBrk (l : LaneId) (s : State) : Out :=
  s.act (fun now c => c.instr l (.brk l) (fun c =>
    let k := (laneKey l)
    if (c.triad l.t).holdAt.isSome then (c.retire k 4 4 id).want l.t .halt
    else (c.updLane k (fun x => { x with steps := x.steps + 4 })).raise now k ⟨0x04, 3, (c.lane k).arch.pc.toNat⟩))

/-- `STATUS` after `XRET`: `ESTATUS` but for SPLIT and TX (R83). -/
def xretStatus (a : Arch) : Word :=
  SR.TX.put (SR.SPLIT.put a.estatus (a.st SR.SPLIT)) (a.st SR.TX)

/-- `XRET` (R83, R76): `PRIVILEGE` at level U, or at S with `ESTATUS.PL` M; inside a transaction an abort `DISALLOWED`
(R109). -/
def execXret (l : LaneId) (s : State) : Out :=
  s.act (fun now c => c.instr l (.xret l) (fun c =>
    let k := (laneKey l)
    let a := (c.lane k).arch
    if a.pl = 0 ∨ (a.pl = 1 ∧ SR.PL.get a.estatus = 2) then c.raise now k (privilege (instrBits (.xret l)))
    else if (c.lane k).save.isSome then c.abortTx k 0x06
    else
      let feed : Option LoadDelay :=
        if a.st SR.LDS = 1 then
          let n := BitVec.ofNat 5 (a.st SR.LDREG)
          some ⟨if a.st SR.LDF = 1 then .f n else .g n, a.excShadow⟩
        else none
      (c.updLane k (fun x => { x.retire 4 6 (fun y => { y with pc := a.epc, status := xretStatus y }) none with
        feed := feed })).afterRetire k))

/-- An undefined encoding raises `ILLEGAL_INSTRUCTION` with the instruction bits (R87), and so do `CALLM` and `RETM` with a
reserved mask bit, but for `CALLM` to an odd target (R78); another encoding chapter 04 defines is no undefined one, and
nothing happens. -/
def execUndefinedEncoding (l : LaneId) (f : Form) (w : BitVec 32) (s : State) : Out :=
  s.act (fun now c => c.fresh l (fun c =>
    match decodePrenyx l f w.toNat with
    | none => c.raise now (laneKey l) (illegal w.toNat)
    | some (.callm _ t m) =>
      let tgt := (c.lane (laneKey l)).view.gr t
      if m.toNat < 2 ^ 14 then c
      else if tgt.toNat % 2 = 1 then c.raise now (laneKey l) ⟨0x05, 3, tgt.toNat⟩
      else c.raise now (laneKey l) (illegal w.toNat)
    | some (.retm _ m) => if m.toNat < 2 ^ 14 then c else c.raise now (laneKey l) (illegal w.toNat)
    | some _ => c))

namespace Chip

/-- The fetch of one halfword (R80 step 1, R21): misalignment, translation, window, bank, access, uncorrectable error. -/
def fetchCheck (c : Chip) (now : Nat) (p k va : Nat) : Chip × Res Unit :=
  if va % 2 = 1 then (c, .exc ⟨0x05, 0, va⟩) else
  match c.translate now p k va .fetch with
  | (c, .exc e) => (c, .exc e)
  | (c, .ok pa) =>
    match c.place p pa va .fetch with
    | .exc e => (c, .exc e)
    | .ok (a, r) =>
      if !r.isMem then (c, .exc ⟨0x07, 0, va⟩) else
      match c.readWord now a (some p) with
      | (c, some _) => (c, .ok ())
      | (c, none) => (c, .exc ⟨0x14, 0, a / 256⟩)

end Chip

/-- The fetch of the instruction at `pc`, or of its second halfword, faults: the exception with `EPC` at the first halfword
and `EVAL` at the halfword that faulted (R88). A fetch that meets no fault leaves the state as the checks leave it. -/
def execInstructionFetchFault (l : LaneId) (f : Form) (s : State) : Out :=
  s.act (fun now c => c.fresh l (fun c =>
    let k := (laneKey l)
    let pc := (c.lane k).arch.pc.toNat
    let p := (c.partOf l.t).getD 0
    match c.fetchCheck now p k pc with
    | (c, .exc e) => c.raise now k e
    | (c, .ok _) =>
      match f with
      | .half => c
      | .full =>
        match c.fetchCheck now p k ((pc + 2) % 2 ^ 32) with
        | (c, .exc e) => c.raise now k e
        | (c, .ok _) => c))

end Sys2Proof.Machine
end

