-- ==== Sys2Proof/Machine/Float.lean ====
section
/-! DEFINITION. IEEE 754-2019 binary32 arithmetic as chapter 05 fixes it, on exact integers: every finite operand is
±m·2^e, the operation is computed exactly, and the result is rounded once (R117 to R125). -/
namespace Sys2Proof.Machine

/-- A finite value's magnitude and sign: (−1)^neg · m · 2^(e − 149 − bias of the operation). Exponents are kept as
naturals offset so that 2^0 stands for the least subnormal of the offset in use. -/
structure Unp where
  neg : Bool
  m : Nat
  e : Int
  deriving DecidableEq, Repr

/-- The classes of an operand (R117). -/
inductive FVal where
  | nan (quiet : Bool)
  | inf (neg : Bool)
  | fin (u : Unp)
  deriving DecidableEq, Repr

def fsign (w : Word) : Bool := w.getLsbD 31
def fexp (w : Word) : Nat := w.toNat / 2 ^ 23 % 256
def ffrac (w : Word) : Nat := w.toNat % 2 ^ 23

/-- An operand's value. -/
def unpack (w : Word) : FVal :=
  if fexp w = 255 then (if ffrac w = 0 then .inf (fsign w) else .nan (w.getLsbD 22))
  else if fexp w = 0 then .fin ⟨fsign w, ffrac w, -149⟩
  else .fin ⟨fsign w, ffrac w + 2 ^ 23, (fexp w : Int) - 150⟩

def signBit (neg : Bool) : Word := if neg then 0x80000000 else 0
def fInf (neg : Bool) : Word := signBit neg ||| 0x7F800000
def fZero (neg : Bool) : Word := signBit neg
def fMaxFin (neg : Bool) : Word := signBit neg ||| 0x7F7FFFFF
/-- The default NaN (R120). -/
def dnan : Word := 0x7FC00000

def isNan (w : Word) : Bool := fexp w == 255 && ffrac w != 0
/-- A signalling NaN (R117). -/
def isSnan (w : Word) : Bool := isNan w && !w.getLsbD 22
def quieten (w : Word) : Word := w ||| 0x00400000

/-- Whether a magnitude `mant` with a remainder of `r` out of `2^sh` is rounded away from zero (R68, R118). -/
def roundsUp (rm : Nat) (neg : Bool) (mant r sh : Nat) (sticky : Bool) : Bool :=
  let inexact := r != 0 || sticky
  let twice := 2 * r
  let whole := 2 ^ sh
  match rm with
  | 1 => sh != 0 && decide (whole ≤ twice)
  | 2 => inexact && !neg
  | 3 => inexact && neg
  | 4 => false
  | _ => sh != 0 && (decide (whole < twice) || (twice == whole && (sticky || mant % 2 == 1)))

/-- The magnitude rounded to a multiple of 2^q, and whether that changed it. -/
def roundAt (rm : Nat) (neg : Bool) (m : Nat) (e q : Int) (sticky : Bool) : Nat × Bool :=
  if q ≤ e then (m * 2 ^ (e - q).toNat, sticky)
  else
    let sh := (q - e).toNat
    let mant := m / 2 ^ sh
    let r := m % 2 ^ sh
    (mant + bit (roundsUp rm neg mant r sh sticky), r != 0 || sticky)

/-- The overflow result of R118. -/
def overflowTo (rm : Nat) (neg : Bool) : Word :=
  match rm with
  | 2 => if neg then fMaxFin true else fInf false
  | 3 => if neg then fInf true else fMaxFin false
  | 4 => fMaxFin neg
  | _ => fInf neg

/-- Rounds ±m·2^e (plus something below the last bit where `sticky`) to binary32 (R118, R119). -/
def roundPack (rm : Nat) (neg : Bool) (m : Nat) (e : Int) (sticky : Bool) : Word × FFlags :=
  if m = 0 then (fZero neg, {}) else
  let E : Int := e + Nat.log2 m
  let q : Int := max (E - 23) (-149)
  let (mant, nx) := roundAt rm neg m e q sticky
  let (mu, _) := roundAt rm neg m e (E - 23) sticky
  let tiny := decide (E + (if mu = 2 ^ 24 then 1 else 0) < -126)
  let (mant, q) := if mant = 2 ^ 24 then (2 ^ 23, q + 1) else (mant, q)
  if 2 ^ 23 ≤ mant ∧ q + 23 > 127 then (overflowTo rm neg, { ovf := true, nx := true })
  else
    let w := if mant < 2 ^ 23 then mant else (q + 150).toNat * 2 ^ 23 + (mant - 2 ^ 23)
    (signBit neg ||| BitVec.ofNat 32 w, { uf := tiny && nx, nx := nx })

/-- The NaN a set of operands gives, in the order of R120. -/
def nanOf : List Word → Word
  | [] => dnan
  | w :: r => if isNan w then quieten w else nanOf r

/-- The result where an operand is a NaN (R119, R120); `nv` adds an invalid operation met at the same time (R121). -/
def nanResult (l : List Word) (nv : Bool := false) : Word × FFlags :=
  (nanOf l, { nv := nv || l.any isSnan })

def invalid : Word × FFlags := (dnan, { nv := true })

/-- A signed integer magnitude. -/
def Unp.int (u : Unp) (q : Int) : Int :=
  let v : Int := (u.m * 2 ^ (u.e - q).toNat : Nat)
  if u.neg then -v else v

/-- The exact sum of two finite values, rounded once; exact zeros follow R121. -/
def sumPack (rm : Nat) (x y : Unp) : Word × FFlags :=
  if x.m = 0 ∧ y.m = 0 then (fZero (if x.neg = y.neg then x.neg else rm == 3), {}) else
  let q := min x.e y.e
  let s := x.int q + y.int q
  if s = 0 then (fZero (rm == 3), {}) else roundPack rm (decide (s < 0)) s.natAbs q false

/-- Sum of two operands that are no NaN. -/
def addVals (rm : Nat) : FVal → FVal → Word × FFlags
  | .inf s, .inf t => if s = t then (fInf s, {}) else invalid
  | .inf s, _ => (fInf s, {})
  | _, .inf t => (fInf t, {})
  | .fin x, .fin y => sumPack rm x y
  | _, _ => invalid

def negVal : FVal → FVal
  | .inf s => .inf !s
  | .fin u => .fin { u with neg := !u.neg }
  | v => v

/-- `FADD` (R110). -/
def fAdd (rm : Nat) (a b : Word) : Word × FFlags :=
  if isNan a || isNan b then nanResult [a, b] else addVals rm (unpack a) (unpack b)

/-- `FSUB`: the sign of a NaN is not inverted (R120). -/
def fSub (rm : Nat) (a b : Word) : Word × FFlags :=
  if isNan a || isNan b then nanResult [a, b] else addVals rm (unpack a) (negVal (unpack b))

/-- The exact product of two operands that are no NaN; none for 0 × ∞ (R121). -/
def prodVal : FVal → FVal → Option FVal
  | .inf s, .inf t => some (.inf (s != t))
  | .inf s, .fin y => if y.m = 0 then none else some (.inf (s != y.neg))
  | .fin x, .inf t => if x.m = 0 then none else some (.inf (x.neg != t))
  | .fin x, .fin y => some (.fin ⟨x.neg != y.neg, x.m * y.m, x.e + y.e⟩)
  | v, _ => some v

/-- `FMUL`. -/
def fMul (rm : Nat) (a b : Word) : Word × FFlags :=
  if isNan a || isNan b then nanResult [a, b] else
  match prodVal (unpack a) (unpack b) with
  | none => invalid
  | some (.inf s) => (fInf s, {})
  | some (.fin u) => roundPack rm u.neg u.m u.e false
  | some v => (match v with | .nan _ => dnan | _ => dnan, {})

/-- `FDIV` (R119, R121). -/
def fDiv (rm : Nat) (a b : Word) : Word × FFlags :=
  if isNan a || isNan b then nanResult [a, b] else
  let s := fsign a != fsign b
  match unpack a, unpack b with
  | .inf _, .inf _ => invalid
  | .inf _, _ => (fInf s, {})
  | _, .inf _ => (fZero s, {})
  | .fin x, .fin y =>
    if y.m = 0 then (if x.m = 0 then invalid else (fInf s, { dz := true }))
    else if x.m = 0 then (fZero s, {})
    else roundPack rm s (x.m * 2 ^ 60 / y.m) (x.e - y.e - 60) (x.m * 2 ^ 60 % y.m != 0)
  | _, _ => invalid

/-- The integer square root, from bit `n` down. -/
def isqrt (v : Nat) : Nat → Nat → Nat
  | 0, r => r
  | n + 1, r => let t := r + 2 ^ n; isqrt v n (if t * t ≤ v then t else r)

/-- `FSQRT` (R121). -/
def fSqrt (rm : Nat) (a : Word) : Word × FFlags :=
  if isNan a then nanResult [a] else
  match unpack a with
  | .inf s => if s then invalid else (fInf false, {})
  | .fin x =>
    if x.m = 0 then (fZero x.neg, {})
    else if x.neg then invalid
    else
      let odd := x.e % 2 ≠ 0
      let m := x.m * 2 ^ (if odd then 61 else 60)
      let e := if odd then x.e - 61 else x.e - 60
      let r := isqrt m 44 0
      roundPack rm false r (e / 2) (r * r != m)
  | _ => invalid

/-- (A × B) + C, or minus C, rounded once (R124). -/
def fFma (rm : Nat) (sub : Bool) (a b c : Word) : Word × FFlags :=
  let bad := !isNan a && !isNan b && (prodVal (unpack a) (unpack b)).isNone
  if isNan a || isNan b || isNan c then nanResult [a, b, c] bad else
  match prodVal (unpack a) (unpack b) with
  | none => invalid
  | some p => addVals rm p (if sub then negVal (unpack c) else unpack c)

/-- `FNMADD`: the sign of a non-NaN result is inverted (R124). -/
def fNmadd (rm : Nat) (a b c : Word) : Word × FFlags :=
  let (r, f) := fFma rm false a b c
  (if isNan r then r else r ^^^ 0x80000000, f)

/-- A total order key of non-NaN operands that puts −0 below +0 (R122). -/
def fkey (w : Word) : Int := if fsign w then -((w.toNat % 2 ^ 31 : Nat) : Int) - 1 else (w.toNat : Int)

/-- `FMINN` and `FMAXN` (R122). -/
def fSelect (pickMin : Bool) (a b : Word) : Word × FFlags :=
  if isNan a && isNan b then nanResult [a, b]
  else if isNan a then (b, { nv := isSnan a })
  else if isNan b then (a, { nv := isSnan b })
  else
    let less := decide (fkey a < fkey b)
    (if less == pickMin then a else b, {})

/-- Comparison of operands that are no NaN, −0 equal to +0. -/
def fLess (a b : Word) : Bool :=
  let z (w : Word) : Int := if fsign w then -((w.toNat % 2 ^ 31 : Nat) : Int) else (w.toNat : Int)
  decide (z a < z b)
def fEqual (a b : Word) : Bool := a == b || (a.toNat % 2 ^ 31 == 0 && b.toNat % 2 ^ 31 == 0)

/-- The comparisons (R122). -/
def fCmpEq (a b : Word) : Bool × FFlags :=
  if isNan a || isNan b then (false, { nv := isSnan a || isSnan b }) else (fEqual a b, {})
def fCmpLt (a b : Word) : Bool × FFlags :=
  if isNan a || isNan b then (false, { nv := true }) else (fLess a b, {})
def fCmpLe (a b : Word) : Bool × FFlags :=
  if isNan a || isNan b then (false, { nv := true }) else (fLess a b || fEqual a b, {})

/-- The class bit of `FCLASS` (R122). -/
def fClass (a : Word) : Nat :=
  if isNan a then (if isSnan a then 0 else 1)
  else if fexp a = 255 then (if fsign a then 2 else 9)
  else if fexp a = 0 then
    (if ffrac a = 0 then (if fsign a then 5 else 6) else (if fsign a then 4 else 7))
  else (if fsign a then 3 else 8)

/-- A finite value rounded to an integer, and whether that changed it (R123). -/
def toInteger (rm : Nat) (u : Unp) : Int × Bool :=
  let (m, nx) := roundAt rm u.neg u.m u.e 0 false
  (if u.neg then -(m : Int) else m, nx)

/-- Conversion to a range [lo, hi] with the out-of-range values (R123). -/
def fToInt (rm : Nat) (lo hi : Int) (a : Word) : Int × FFlags :=
  match unpack a with
  | .nan _ => (hi, { nv := true })
  | .inf s => (if s then lo else hi, { nv := true })
  | .fin u =>
    let (v, nx) := toInteger rm u
    if v < lo then (lo, { nv := true }) else if hi < v then (hi, { nv := true }) else (v, { nx := nx })

def fToI (rm : Nat) (a : Word) : Word × FFlags :=
  let (v, f) := fToInt rm (-(2 ^ 31)) (2 ^ 31 - 1) a; (BitVec.ofInt 32 v, f)
def fToU (rm : Nat) (a : Word) : Word × FFlags :=
  let (v, f) := fToInt rm 0 (2 ^ 32 - 1) a; (BitVec.ofInt 32 v, f)

/-- `ITOF` and `UTOF` (R123). -/
def iToF (rm : Nat) (a : Word) : Word × FFlags := roundPack rm (decide (a.toInt < 0)) a.toInt.natAbs 0 false
def uToF (rm : Nat) (a : Word) : Word × FFlags := roundPack rm false a.toNat 0 false

end Sys2Proof.Machine
end

