-- ==== Sys2Proof/Machine/FloatInstr.lean ====
section
/-! DEFINITION. The floating-point instructions (R110, R111, R117 to R124). -/
namespace Sys2Proof.Machine

/-- A floating-point result and its flags (R119). -/
def setFloat (d : Reg) (r : Word × FFlags) : Res (Arch → Arch) := .ok (fun x => raiseFlags r.2 (x.setF d r.1))

/-- A general-register result of a floating-point instruction and its flags. -/
def setFloatG (d : Reg) (r : Word × FFlags) : Res (Arch → Arch) := .ok (fun x => raiseFlags r.2 (x.setG d r.1))

/-- A comparison result (R122). -/
def cmpWord (r : Bool × FFlags) : Word × FFlags := (if r.1 then 1 else 0, r.2)

/-- `FADD` (R110, R118 to R121). -/
def execFadd (l : LaneId) (d a b : Reg) (s : State) : Out :=
  s.act (fun now c => c.regInstr now l (.fadd l d a b) 4 (fun _ => 3)
    (fun v => setFloat d (fAdd (rm v) (v.fr a) (v.fr b))))

/-- `FSUB` (R110, R118 to R121). -/
def execFsub (l : LaneId) (d a b : Reg) (s : State) : Out :=
  s.act (fun now c => c.regInstr now l (.fsub l d a b) 4 (fun _ => 3)
    (fun v => setFloat d (fSub (rm v) (v.fr a) (v.fr b))))

/-- `FMUL` (R110, R118 to R121). -/
def execFmul (l : LaneId) (d a b : Reg) (s : State) : Out :=
  s.act (fun now c => c.regInstr now l (.fmul l d a b) 4 (fun _ => 3)
    (fun v => setFloat d (fMul (rm v) (v.fr a) (v.fr b))))

/-- `FDIV` (R110, R118 to R121). -/
def execFdiv (l : LaneId) (d a b : Reg) (s : State) : Out :=
  s.act (fun now c => c.regInstr now l (.fdiv l d a b) 4 (fun _ => 14)
    (fun v => setFloat d (fDiv (rm v) (v.fr a) (v.fr b))))

/-- `FSQRT` (R121). -/
def execFsqrt (l : LaneId) (d a : Reg) (s : State) : Out :=
  s.act (fun now c => c.regInstr now l (.fsqrt l d a) 4 (fun _ => 14)
    (fun v => setFloat d (fSqrt (rm v) (v.fr a))))

/-- `FMINN` (R122). -/
def execFminn (l : LaneId) (d a b : Reg) (s : State) : Out :=
  s.act (fun now c => c.regInstr now l (.fminn l d a b) 4 (fun _ => 2)
    (fun v => setFloat d (fSelect true (v.fr a) (v.fr b))))

/-- `FMAXN` (R122). -/
def execFmaxn (l : LaneId) (d a b : Reg) (s : State) : Out :=
  s.act (fun now c => c.regInstr now l (.fmaxn l d a b) 4 (fun _ => 2)
    (fun v => setFloat d (fSelect false (v.fr a) (v.fr b))))

/-- `FCOPYSIGN` (R110, R120): a bit operation. -/
def execFcopysign (l : LaneId) (d a b : Reg) (s : State) : Out :=
  s.act (fun now c => c.regInstr now l (.fcopysign l d a b) 4 (fun _ => 2)
    (fun v => setFloat d (v.fr a &&& 0x7FFFFFFF ||| v.fr b &&& 0x80000000, {})))

/-- `FNEGSIGN` (R110). -/
def execFnegsign (l : LaneId) (d a b : Reg) (s : State) : Out :=
  s.act (fun now c => c.regInstr now l (.fnegsign l d a b) 4 (fun _ => 2)
    (fun v => setFloat d (v.fr a &&& 0x7FFFFFFF ||| ~~~(v.fr b) &&& 0x80000000, {})))

/-- `FXORSIGN` (R110). -/
def execFxorsign (l : LaneId) (d a b : Reg) (s : State) : Out :=
  s.act (fun now c => c.regInstr now l (.fxorsign l d a b) 4 (fun _ => 2)
    (fun v => setFloat d (v.fr a ^^^ v.fr b &&& 0x80000000, {})))

/-- `FCMP.EQ` (R122). -/
def execFcmpEq (l : LaneId) (d a b : Reg) (s : State) : Out :=
  s.act (fun now c => c.regInstr now l (.fcmpEq l d a b) 4 (fun _ => 2)
    (fun v => setFloatG d (cmpWord (fCmpEq (v.fr a) (v.fr b)))))

/-- `FCMP.LT` (R122). -/
def execFcmpLt (l : LaneId) (d a b : Reg) (s : State) : Out :=
  s.act (fun now c => c.regInstr now l (.fcmpLt l d a b) 4 (fun _ => 2)
    (fun v => setFloatG d (cmpWord (fCmpLt (v.fr a) (v.fr b)))))

/-- `FCMP.LE` (R122). -/
def execFcmpLe (l : LaneId) (d a b : Reg) (s : State) : Out :=
  s.act (fun now c => c.regInstr now l (.fcmpLe l d a b) 4 (fun _ => 2)
    (fun v => setFloatG d (cmpWord (fCmpLe (v.fr a) (v.fr b)))))

/-- `FCLASS` (R122): exactly one bit, no flag. -/
def execFclass (l : LaneId) (d a : Reg) (s : State) : Out :=
  s.act (fun now c => c.regInstr now l (.fclass l d a) 4 (fun _ => 2)
    (fun v => setFloatG d (BitVec.ofNat 32 (2 ^ fClass (v.fr a)), {})))

/-- `FTOI` (R123). -/
def execFtoi (l : LaneId) (d a : Reg) (s : State) : Out :=
  s.act (fun now c => c.regInstr now l (.ftoi l d a) 4 (fun _ => 3)
    (fun v => setFloatG d (fToI (rm v) (v.fr a))))

/-- `FTOU` (R123). -/
def execFtou (l : LaneId) (d a : Reg) (s : State) : Out :=
  s.act (fun now c => c.regInstr now l (.ftou l d a) 4 (fun _ => 3)
    (fun v => setFloatG d (fToU (rm v) (v.fr a))))

/-- `ITOF` (R123). -/
def execItof (l : LaneId) (d a : Reg) (s : State) : Out :=
  s.act (fun now c => c.regInstr now l (.itof l d a) 4 (fun _ => 3)
    (fun v => setFloat d (iToF (rm v) (v.gr a))))

/-- `UTOF` (R123). -/
def execUtof (l : LaneId) (d a : Reg) (s : State) : Out :=
  s.act (fun now c => c.regInstr now l (.utof l d a) 4 (fun _ => 3)
    (fun v => setFloat d (uToF (rm v) (v.gr a))))

/-- `FMOVG` (R63): the bits, unchanged. -/
def execFmovg (l : LaneId) (d a : Reg) (s : State) : Out :=
  s.act (fun now c => c.regInstr now l (.fmovg l d a) 4 (fun _ => 2)
    (fun v => setFloatG d (v.fr a, {})))

/-- `GMOVF` (R63). -/
def execGmovf (l : LaneId) (d a : Reg) (s : State) : Out :=
  s.act (fun now c => c.regInstr now l (.gmovf l d a) 4 (fun _ => 2)
    (fun v => setFloat d (v.gr a, {})))

/-- `FMADD` (R111, R124). -/
def execFmadd (l : LaneId) (d a b c : Reg) (s : State) : Out :=
  s.act (fun now x => x.regInstr now l (.fmadd l d a b c) 4 (fun _ => 3)
    (fun v => setFloat d (fFma (rm v) false (v.fr a) (v.fr b) (v.fr c))))

/-- `FMSUB` (R111, R124). -/
def execFmsub (l : LaneId) (d a b c : Reg) (s : State) : Out :=
  s.act (fun now x => x.regInstr now l (.fmsub l d a b c) 4 (fun _ => 3)
    (fun v => setFloat d (fFma (rm v) true (v.fr a) (v.fr b) (v.fr c))))

/-- `FNMADD` (R111, R124). -/
def execFnmadd (l : LaneId) (d a b c : Reg) (s : State) : Out :=
  s.act (fun now x => x.regInstr now l (.fnmadd l d a b c) 4 (fun _ => 3)
    (fun v => setFloat d (fNmadd (rm v) (v.fr a) (v.fr b) (v.fr c))))

end Sys2Proof.Machine
end

