-- ==== Sys2Proof/Machine/HostPort.lean ====
section
/-! DEFINITION. The host link: flits, credits, the host's requests, `HEVENT`s, and the loss of the link (R470 to R479). -/
namespace Sys2Proof.Machine
namespace Chip

def modHost (c : Chip) (f : HostLink → HostLink) : Chip := { c with host := f c.host }

/-- The link is up. -/
def hostUp (c : Chip) : Bool := !c.off && c.gb .HST_STAT HST_STAT.UP

/-- `HST_STAT.LASTERR`. -/
def hostErr (c : Chip) (k : Nat) : Chip := c.sf .HST_STAT HST_STAT.LASTERR k

/-! ### Messages to the host (R471, R473, R478) -/

/-- A message leaves in the next flit and is kept for replay. -/
def hostSend (c : Chip) (m : HostMsg) : Chip :=
  c.modHost (fun h => { h with replay := h.replay ++ [(h.txSeq, m)], txSeq := (h.txSeq + 1) % 4096 })

/-- A message that takes a credit is waiting: completions first, then fault notices, then queue completions. -/
def hostNext (c : Chip) : Option (HostMsg × Chip) :=
  match c.host.cpls, c.host.faults, c.chan.hev with
  | m :: r, _, _ => some (m, c.modHost (fun h => { h with cpls := r, owedNonPosted := h.owedNonPosted + 1 }))
  | [], (s, k) :: r, _ => some (.fault s k, c.modHost (fun h => { h with faults := r }))
  | [], [], q :: r => some (.queue q, c.modChan (fun h => { h with hev := r }))
  | [], [], [] => none

/-- Sends what may be sent, at most `fuel` messages: a flit is kept for replay until it is acknowledged, at most 64. -/
def hostDrain (c : Chip) (now : Nat) : Nat → Chip
  | 0 => c
  | fuel + 1 =>
    let h := c.host
    if !c.hostUp || decide (64 ≤ h.replay.length) then c
    else if h.owedPosted ≠ 0 ∨ h.owedNonPosted ≠ 0 then
      ((c.hostSend (.credit h.owedPosted h.owedNonPosted 0)).modHost
        (fun h => { h with owedPosted := 0, owedNonPosted := 0 })).hostDrain now fuel
    else match c.hostNext with
      | none => c.modHost (fun h => { h with stallFrom := none })
      | some (m, d) =>
        if h.credits = 0 then
          (if h.stallFrom.isNone && !c.gb .HST_STAT HST_STAT.STALL then c.modHost (fun h => { h with stallFrom := some now }) else c)
        else ((d.modHost (fun h => { h with credits := h.credits - 1 })).hostSend m).hostDrain now fuel

/-- A completion waits in the link. -/
def hostCpl (c : Chip) (tag status : Nat) (data : List Byte) : Chip :=
  if c.hostUp then c.modHost (fun h => { h with cpls := h.cpls ++ [.cpl tag status data] }) else c

/-! ### What the host reaches (R475 to R477) -/

/-- The length stays within one 256-byte block. -/
def blockOk (a n : Nat) : Bool := decide (1 ≤ n) && decide (n ≤ 256) && decide (a % 256 + n ≤ 256)

/-- The checks of R475 on a memory access: 0, or the completion status it ends with. -/
def hostMemStatus (c : Chip) (a : Nat) (write : Bool) : Nat :=
  match c.hostWindow a with
  | none => 2
  | some k =>
    let r := RegName.HST_WBASE k
    let kind := c.gf r HST_WBASE.KIND
    if write && !c.gb r HST_WBASE.W then 2 else
    match c.region a with
    | .dram _ => if kind = 3 then 2 else 0
    | .bank n =>
      if !c.domainOn (9 + n / 8) then 5
      else if kind = 0 then (if c.hostOwns n then 0 else 3)
      else if kind = 1 then (if c.owns n (some (c.gf r HST_WBASE.PART)) then 0 else 3)
      else if kind = 2 then (if c.hostOwns n then 0 else 3)
      else 2
    | .journal => if write || kind != 2 then 2 else 0
    | _ => 2

/-- A posted write that is not performed (R475, R477). -/
def hostRefuse (c : Chip) (now : Nat) : Chip := (c.hostErr 4).corrected now 17

/-- A host register read: the completion's status and data. -/
def hostRegRead (c : Chip) (now a : Nat) : Chip × Nat × List Byte :=
  if a % 8 ≠ 0 ∨ c.region a ≠ .register ∨ (!bookWindow a && (regOf a).isNone) then (c, 1, [])
  else match c.devGet now c.hostAgent a with
    | (c, .ok v) => (c, 0, bytesLE 8 v.toNat)
    | (c, .refused) => (c, 6, [])
    | (c, .silent) => (c, 5, [])

/-- A host register write: the completion's status. A refused write of a host window is also reported (R476). -/
def hostRegWrite (c : Chip) (now a : Nat) (v : DWord) : Chip × Nat :=
  if c.standby then (c, 6)
  else if a % 8 ≠ 0 ∨ c.region a ≠ .register ∨ (!bookWindow a && (regOf a).isNone) then (c, 1)
  else match c.devPut now c.hostAgent a v none with
    | (c, .ok _) => (c, 0)
    | (c, .refused) =>
      (match regOf a with
        | some (.HST_WBASE _) | some (.HST_WLIMIT _) => c.corrected now 18
        | _ => c, 6)
    | (c, .silent) => (c, 5)

/-- A host memory read: the completion's status and data. -/
def hostMemRead (c : Chip) (now a n : Nat) : Chip × Nat × List Byte :=
  let st := if c.standby then 6 else c.hostMemStatus a false
  if st ≠ 0 then (c, st, []) else
  match c.readBytes now none a n with
  | (c, some l) => (c, 0, l)
  | (c, none) => (c, 4, [])

/-- The write goes to the standby: it falls in a partition window or in the control area of a host queue (R427). -/
def hostMirrors (c : Chip) (a n : Nat) : Bool :=
  (c.hostWindow a).any (fun k => c.gf (.HST_WBASE k) HST_WBASE.KIND == 1) ||
  (List.range 4096).any (fun q => c.queEn q && c.gb (.QUE_CFG q) QUE_CFG.HOST && decide (c.ctla q < a + n) &&
    decide (a < c.ctla q + 128))

/-- A host memory write; none while a commit holds a line of it (R268). -/
def hostMemWrite (c : Chip) (now a : Nat) (l : List Byte) : Option Chip :=
  if c.standby || c.hostMemStatus a true != 0 then some (c.hostRefuse now)
  else if c.rangeHeld a l.length then none
  else
    let c := if c.hostMirrors a l.length then c.leatSend (.extw (.hostMem (BitVec.ofNat 40 a) l)) else c
    some (c.hostPut now a l)

/-- A host doorbell. -/
def hostBell (c : Chip) (now q v : Nat) : Option Chip :=
  if c.standby || !c.gb (.QUE_CFG q) QUE_CFG.HOST || !c.domainOn 19 || c.rangeStatus none (c.ctla q) 8 != 0 then
    some (c.hostRefuse now)
  else if c.rangeHeld (c.ctla q) 8 then none
  else some ((c.leatSend (.extw (.hostDoorbell (BitVec.ofNat 12 q) (BitVec.ofNat 16 v)))).hostDoor now q v)

/-- A host interrupt message. -/
def hostIntr (c : Chip) (t vec pos : Nat) : Chip :=
  if !c.standby && (c.gf (.CLU_EVCFG t) CLU_EVCFG.HOSTEN).testBit vec then c.pendEvent (c.portKey t pos) (0x1040 + vec) else c

/-- A posted message has been performed and returns its credit. -/
def hostPosted (c : Chip) : Chip := c.modHost (fun h => { h with owedPosted := h.owedPosted + 1 })

/-- Performs a request, none while it waits. -/
def hostDo (c : Chip) (now : Nat) : HostReq → Option Chip
  | .regrd tag a =>
    let (c, st, d) := c.hostRegRead now a
    some (c.hostCpl tag st d)
  | .regwr tag a v =>
    let (c, st) := c.hostRegWrite now a v
    some (c.hostCpl tag st [])
  | .memrd tag a n =>
    let (c, st, d) := c.hostMemRead now a n
    some (c.hostCpl tag st d)
  | .memwr a l => (c.hostMemWrite now a l).map hostPosted
  | .doorbell q v => (c.hostBell now q v).map hostPosted
  | .intr t vec pos => some (c.hostIntr t vec pos).hostPosted

/-- Performs the waiting requests in their order (R477), at most `fuel`. -/
def hostRun (c : Chip) (now : Nat) : Nat → Chip
  | 0 => c
  | fuel + 1 =>
    match c.host.reqs with
    | [] => c
    | r :: rest =>
      match (c.modHost (fun h => { h with reqs := rest })).hostDo now r with
      | some d => d.hostRun now fuel
      | none => c

/-- The link does whatever it can now. -/
def hostPump (c : Chip) (now : Nat) : Chip :=
  if c.hostUp then (c.hostRun now c.host.reqs.length).hostDrain now 200 else c

/-- A request has arrived. -/
def hostTake (c : Chip) (now : Nat) (r : HostReq) : Chip :=
  if c.hostUp then (c.modHost (fun h => { h with reqs := h.reqs ++ [r] })).hostPump now else c

/-- A message with a reserved TYPE or a length out of range is dropped (R472). -/
def hostBad (c : Chip) : Chip := if c.hostUp then c.hostErr 5 else c

/-! ### The link (R471, R473, R479) -/

/-- A message that was sent and is not known to have arrived is pending again, where it is an `HEVENT`. -/
def hostAgain (c : Chip) : HostMsg → Chip
  | .queue q => c.modChan (fun h => { h with hev := addNew h.hev q })
  | .fault s k => c.hostFault s k
  | _ => c

/-- The link goes down. -/
def hostDown (c : Chip) (now : Nat) (code : Nat) : Chip :=
  if !c.hostUp then c else
  let c := c.host.replay.foldl (fun c m => c.hostAgain m.2) c
  let c := c.modHost (fun h => { faults := h.faults })
  let c := ((c.sf .HST_STAT HST_STAT.UP 0).sf .HST_STAT HST_STAT.WIDTH 0).inc .HST_STAT HST_STAT.LINKDOWNS
  ((c.hostErr code).bookInc 0x058).contained now 17 none none

/-- The link has trained: the pending `HEVENT`s are sent as credit allows; a degraded width is reported (R470). -/
def hostTrained (c : Chip) (now : Nat) (x16 : Bool) : Chip :=
  if c.off || c.hostUp || !c.domainOn 29 then c else
  let c := c.modHost (fun h => { faults := h.faults })
  let c := (c.sf .HST_STAT HST_STAT.UP 1).sf .HST_STAT HST_STAT.WIDTH (if x16 then 2 else 1)
  (if x16 then c else c.corrected now 17).hostPump now

/-- The flits up to number `a` have arrived at the host. -/
def hostAcked (c : Chip) (a : Nat) : Chip :=
  c.modHost (fun h => { h with replay := h.replay.filter (fun m => serialBelow 12 a m.1) })

/-- A flit: one with a false CRC is dropped and replayed by the host, and after eight replays that failed in a row the link
goes down; one out of order is dropped (R471). -/
def flitIn (c : Chip) (now seq ack : Nat) (crcOk bad : Bool) : Chip :=
  if !c.hostUp then c
  else if !crcOk then
    (if 8 ≤ c.host.fails then c.hostDown now 3 else c.modHost (fun h => { h with fails := h.fails + 1 }))
  else
    let c := (c.modHost (fun h => { h with fails := 0 })).hostAcked ack
    let c := if seq = c.host.rxSeq then
        (if bad then c.hostErr 5 else c).modHost (fun h => { h with rxSeq := (h.rxSeq + 1) % 4096 })
      else c
    c.hostPump now

/-- Credits from the host. -/
def hostCredit (c : Chip) (now n : Nat) : Chip :=
  if !c.hostUp then c
  else (c.modHost (fun h => { h with
    credits := h.credits + n, stallFrom := if n = 0 then h.stallFrom else none })).hostPump now

/-- The host has returned no credit for 1 ms while a message waits. -/
def hostStall (c : Chip) (now : Nat) : Chip :=
  match c.host.stallFrom with
  | some t =>
    if !c.hostUp || decide (now < t + 1000000) then c
    else (((c.modHost (fun h => { h with stallFrom := none })).sf .HST_STAT HST_STAT.STALL 1).hostErr 2).contained now 17 none none
  | none => c

end Chip

/-- `FLIT_RECEIVE` (R471, R472). -/
def execFlitReceive (seq ack : BitVec 12) (crcOk bad : Bool) (s : State) : Out :=
  s.act (fun now c => c.flitIn now seq.toNat ack.toNat crcOk bad)

/-- `HOST_LINK_DOWN` (R471, R479). -/
def execHostLinkDown (replayExhausted : Bool) (s : State) : Out :=
  s.act (fun now c => c.hostDown now (if replayExhausted then 3 else 1))

/-- `HOST_LINK_UP` (R470, R479). -/
def execHostLinkUp (x16 : Bool) (s : State) : Out := s.act (fun now c => c.hostTrained now x16)

/-- `REGRD` (R474, R475). -/
def execRegrd (tag : BitVec 8) (addr : BitVec 40) (s : State) : Out :=
  s.act (fun now c => c.hostTake now (.regrd tag.toNat addr.toNat))

/-- `REGWR` (R475, R476, R433). -/
def execRegwr (tag : BitVec 8) (addr : BitVec 40) (v : BitVec 64) (s : State) : Out :=
  s.act (fun now c => c.hostTake now (.regwr tag.toNat addr.toNat v))

/-- `MEMRD` (R472, R475, R477). -/
def execMemrd (tag : BitVec 8) (addr : BitVec 40) (len : BitVec 16) (s : State) : Out :=
  s.act (fun now c =>
    if Chip.blockOk addr.toNat len.toNat then c.hostTake now (.memrd tag.toNat addr.toNat len.toNat) else c.hostBad)

/-- `MEMWR` (R472, R475 to R477). -/
def execMemwr (addr : BitVec 40) (bytes : List (BitVec 8)) (s : State) : Out :=
  s.act (fun now c => if Chip.blockOk addr.toNat bytes.length then c.hostTake now (.memwr addr.toNat bytes) else c.hostBad)

/-- `DOORBELL` (R477, R287). -/
def execDoorbell (q : BitVec 12) (v : BitVec 16) (s : State) : Out :=
  s.act (fun now c => c.hostTake now (.doorbell q.toNat v.toNat))

/-- `INTR` (R477). -/
def execIntr (t : Fin 32) (vec : BitVec 4) (pos : Fin 3) (s : State) : Out :=
  s.act (fun now c => c.hostTake now (.intr t vec.toNat pos))

/-- `CREDIT` (R473). -/
def execCredit (_posted _nonPosted cplEvent : BitVec 16) (s : State) : Out :=
  s.act (fun now c => c.hostCredit now cplEvent.toNat)

/-- `CREDIT_STALL` (R473). -/
def execCreditStall (s : State) : Out := s.act (fun now c => c.hostStall now)

end Sys2Proof.Machine
end

