-- ==== Sys2Proof/Machine/Integer.lean ====
section
/-! DEFINITION. The integer register and immediate instructions (R93 to R95, R114 to R116). -/
namespace Sys2Proof.Machine

/-- Every source is read before any destination is written (R93). -/
def setDest (d : Reg) (r : Word) : Res (Arch → Arch) := .ok (fun x => x.setG d r)

/-- A pair result; an odd destination raises `ILLEGAL_INSTRUCTION` (R64). -/
def setDestPair (i : Instr) (d : Reg) (r : DWord) : Res (Arch → Arch) :=
  if oddReg d then .exc (illegal (instrBits i)) else .ok (fun x => x.setPair d r)

/-- `ADD` (R93). -/
def execAdd (l : LaneId) (f : Form) (d a b : Reg) (s : State) : Out :=
  s.act (fun now c => c.regInstr now l (.add l f d a b) (formLen f) (fun _ => 2)
    (fun v => setDest d (v.gr a + v.gr b)))

/-- `SUB` (R93). -/
def execSub (l : LaneId) (d a b : Reg) (s : State) : Out :=
  s.act (fun now c => c.regInstr now l (.sub l d a b) 4 (fun _ => 2)
    (fun v => setDest d (v.gr a - v.gr b)))

/-- `ADDC` (R114): the sum and CY take effect together, CY also for `g0`. -/
def execAddc (l : LaneId) (d a b : Reg) (s : State) : Out :=
  s.act (fun now c => c.regInstr now l (.addc l d a b) 4 (fun _ => 2)
    (fun v => .ok (setCarry d (addCarry (v.gr a) (v.gr b) (v.st SR.CY)))))

/-- `SUBC` (R114). -/
def execSubc (l : LaneId) (d a b : Reg) (s : State) : Out :=
  s.act (fun now c => c.regInstr now l (.subc l d a b) 4 (fun _ => 2)
    (fun v => .ok (setCarry d (subCarry (v.gr a) (v.gr b) (v.st SR.CY)))))

/-- `AND` (R93). -/
def execAnd (l : LaneId) (d a b : Reg) (s : State) : Out :=
  s.act (fun now c => c.regInstr now l (.and l d a b) 4 (fun _ => 2)
    (fun v => setDest d (v.gr a &&& v.gr b)))

/-- `OR` (R93). -/
def execOr (l : LaneId) (d a b : Reg) (s : State) : Out :=
  s.act (fun now c => c.regInstr now l (.or l d a b) 4 (fun _ => 2)
    (fun v => setDest d (v.gr a ||| v.gr b)))

/-- `XOR` (R93). -/
def execXor (l : LaneId) (d a b : Reg) (s : State) : Out :=
  s.act (fun now c => c.regInstr now l (.xor l d a b) 4 (fun _ => 2)
    (fun v => setDest d (v.gr a ^^^ v.gr b)))

/-- `SHL` (R93): the count is the low five bits. -/
def execShl (l : LaneId) (d a b : Reg) (s : State) : Out :=
  s.act (fun now c => c.regInstr now l (.shl l d a b) 4 (ctSteps 2 4)
    (fun v => setDest d (v.gr a <<< shiftCount (v.gr b))))

/-- `SHR` (R93): zero fill. -/
def execShr (l : LaneId) (d a b : Reg) (s : State) : Out :=
  s.act (fun now c => c.regInstr now l (.shr l d a b) 4 (ctSteps 2 4)
    (fun v => setDest d (v.gr a >>> shiftCount (v.gr b))))

/-- `SHRA` (R93): sign fill. -/
def execShra (l : LaneId) (d a b : Reg) (s : State) : Out :=
  s.act (fun now c => c.regInstr now l (.shra l d a b) 4 (ctSteps 2 4)
    (fun v => setDest d ((v.gr a).sshiftRight (shiftCount (v.gr b)))))

/-- `SHL` with an immediate count (R94). -/
def execShlImmediate (l : LaneId) (d a : Reg) (n : BitVec 5) (s : State) : Out :=
  s.act (fun now c => c.regInstr now l (.shlImmediate l d a n) 4 (ctSteps 2 4)
    (fun v => setDest d (v.gr a <<< n.toNat)))

/-- `SHR` with an immediate count (R94). -/
def execShrImmediate (l : LaneId) (d a : Reg) (n : BitVec 5) (s : State) : Out :=
  s.act (fun now c => c.regInstr now l (.shrImmediate l d a n) 4 (ctSteps 2 4)
    (fun v => setDest d (v.gr a >>> n.toNat)))

/-- `SHRA` with an immediate count (R94). -/
def execShraImmediate (l : LaneId) (d a : Reg) (n : BitVec 5) (s : State) : Out :=
  s.act (fun now c => c.regInstr now l (.shraImmediate l d a n) 4 (ctSteps 2 4)
    (fun v => setDest d ((v.gr a).sshiftRight n.toNat)))

/-- `SETLT` (R93). -/
def execSetlt (l : LaneId) (d a b : Reg) (s : State) : Out :=
  s.act (fun now c => c.regInstr now l (.setlt l d a b) 4 (ctSteps 2 4)
    (fun v => setDest d (if (v.gr a).toInt < (v.gr b).toInt then 1 else 0)))

/-- `SETLTU` (R93). -/
def execSetltu (l : LaneId) (d a b : Reg) (s : State) : Out :=
  s.act (fun now c => c.regInstr now l (.setltu l d a b) 4 (ctSteps 2 4)
    (fun v => setDest d (if (v.gr a).toNat < (v.gr b).toNat then 1 else 0)))

/-- `MOV` (R93). -/
def execMov (l : LaneId) (f : Form) (d a : Reg) (s : State) : Out :=
  s.act (fun now c => c.regInstr now l (.mov l f d a) (formLen f) (fun _ => 2)
    (fun v => setDest d (v.gr a)))

/-- `CLZ` (R93): 32 for 0. -/
def execClz (l : LaneId) (d a : Reg) (s : State) : Out :=
  s.act (fun now c => c.regInstr now l (.clz l d a) 4 (ctSteps 2 4)
    (fun v => setDest d (BitVec.ofNat 32 (clz (v.gr a)))))

/-- `MUL` (R115). -/
def execMul (l : LaneId) (d a b : Reg) (s : State) : Out :=
  s.act (fun now c => c.regInstr now l (.mul l d a b) 4 (ctSteps 3 6)
    (fun v => setDest d (v.gr a * v.gr b)))

/-- `MULHS` (R115): bits [63:32] of the signed product. -/
def execMulhs (l : LaneId) (d a b : Reg) (s : State) : Out :=
  s.act (fun now c => c.regInstr now l (.mulhs l d a b) 4 (ctSteps 3 6)
    (fun v => setDest d ((mulS (v.gr a) (v.gr b) >>> 32).setWidth 32)))

/-- `MULHU` (R115). -/
def execMulhu (l : LaneId) (d a b : Reg) (s : State) : Out :=
  s.act (fun now c => c.regInstr now l (.mulhu l d a b) 4 (ctSteps 3 6)
    (fun v => setDest d ((mulU (v.gr a) (v.gr b) >>> 32).setWidth 32)))

/-- `MULW` (R64, R115). -/
def execMulw (l : LaneId) (d a b : Reg) (s : State) : Out :=
  s.act (fun now c => c.regInstr now l (.mulw l d a b) 4 (ctSteps 4 8)
    (fun v => setDestPair (.mulw l d a b) d (mulS (v.gr a) (v.gr b))))

/-- `MULWU` (R64, R115). -/
def execMulwu (l : LaneId) (d a b : Reg) (s : State) : Out :=
  s.act (fun now c => c.regInstr now l (.mulwu l d a b) 4 (ctSteps 4 8)
    (fun v => setDestPair (.mulwu l d a b) d (mulU (v.gr a) (v.gr b))))

/-- `DIV` (R116): never traps. -/
def execDiv (l : LaneId) (d a b : Reg) (s : State) : Out :=
  s.act (fun now c => c.regInstr now l (.div l d a b) 4 (fun v => divSteps (divSpecialS (v.gr a) (v.gr b)) (v.gr a).toInt.natAbs v)
    (fun v => setDest d (divS (v.gr a) (v.gr b))))

/-- `DIVU` (R116). -/
def execDivu (l : LaneId) (d a b : Reg) (s : State) : Out :=
  s.act (fun now c => c.regInstr now l (.divu l d a b) 4 (fun v => divSteps (v.gr b == 0) (v.gr a).toNat v)
    (fun v => setDest d (divU (v.gr a) (v.gr b))))

/-- `REM` (R116). -/
def execRem (l : LaneId) (d a b : Reg) (s : State) : Out :=
  s.act (fun now c => c.regInstr now l (.rem l d a b) 4 (fun v => divSteps (divSpecialS (v.gr a) (v.gr b)) (v.gr a).toInt.natAbs v)
    (fun v => setDest d (remS (v.gr a) (v.gr b))))

/-- `REMU` (R116). -/
def execRemu (l : LaneId) (d a b : Reg) (s : State) : Out :=
  s.act (fun now c => c.regInstr now l (.remu l d a b) 4 (fun v => divSteps (v.gr b == 0) (v.gr a).toNat v)
    (fun v => setDest d (remU (v.gr a) (v.gr b))))

/-- `ADDI` (R95). -/
def execAddi (l : LaneId) (f : Form) (d a : Reg) (i : BitVec 16) (s : State) : Out :=
  s.act (fun now c => c.regInstr now l (.addi l f d a i) (formLen f) (fun _ => 2)
    (fun v => setDest d (v.gr a + sx i)))

/-- `ANDI` (R95): the immediate is sign-extended (R92). -/
def execAndi (l : LaneId) (d a : Reg) (i : BitVec 16) (s : State) : Out :=
  s.act (fun now c => c.regInstr now l (.andi l d a i) 4 (fun _ => 2)
    (fun v => setDest d (v.gr a &&& sx i)))

/-- `ORI` (R95): the immediate is zero-extended (R92). -/
def execOri (l : LaneId) (d a : Reg) (i : BitVec 16) (s : State) : Out :=
  s.act (fun now c => c.regInstr now l (.ori l d a i) 4 (fun _ => 2)
    (fun v => setDest d (v.gr a ||| zx i)))

/-- `XORI` (R95). -/
def execXori (l : LaneId) (d a : Reg) (i : BitVec 16) (s : State) : Out :=
  s.act (fun now c => c.regInstr now l (.xori l d a i) 4 (fun _ => 2)
    (fun v => setDest d (v.gr a ^^^ zx i)))

/-- `LHI` (R95): U << 11. -/
def execLhi (l : LaneId) (d : Reg) (u : BitVec 21) (s : State) : Out :=
  s.act (fun now c => c.regInstr now l (.lhi l d u) 4 (fun _ => 2)
    (fun _ => setDest d (zx u <<< 11)))

end Sys2Proof.Machine
end

