-- ==== Sys2Proof/Machine/LoadStore.lean ====
section
/-! DEFINITION. Loads, stores, `CALLM` and `RETM` (R77, R78, R96, R99). -/
namespace Sys2Proof.Machine

/-- Sign or zero extension of a loaded value to a word (R96). -/
def sx8 (v : Nat) : Word := (BitVec.ofNat 8 v).signExtend 32
def sx16 (v : Nat) : Word := (BitVec.ofNat 16 v).signExtend 32

/-- A delayed load (R73): the value lands after the next instruction has read its operands. -/
def Chip.delayedLoad (c : Chip) (now : Nat) (l : LaneId) (i : Instr) (len : Word) (a : Reg) (off : BitVec 13) (size : Nat)
    (r : RegId) (conv : Nat → Word) : Chip :=
  c.instr l i (fun c =>
    let va := (effAddr (c.lane (laneKey l)).view a off).toNat
    c.loadAt now l i va size (fun v c => c.retire (laneKey l) len 2 id (some ⟨r, conv v⟩)))

/-- A store of up to a word (R96). -/
def Chip.wordStore (c : Chip) (now : Nat) (l : LaneId) (i : Instr) (len : Word) (a : Reg) (off : BitVec 13) (size : Nat)
    (val : Arch → Word) : Chip :=
  c.instr l i (fun c =>
    let v := (c.lane (laneKey l)).view
    c.storeInstr now l i len 2 (effAddr v a off).toNat size (val v).toNat)

/-- `LD.B` (R96, R73). -/
def execLdB (l : LaneId) (d a : Reg) (off : BitVec 13) (s : State) : Out :=
  s.act (fun now c => c.delayedLoad now l (.ldB l d a off) 4 a off 1 (.g d) sx8)

/-- `LD.H` (R96, R73). -/
def execLdH (l : LaneId) (d a : Reg) (off : BitVec 13) (s : State) : Out :=
  s.act (fun now c => c.delayedLoad now l (.ldH l d a off) 4 a off 2 (.g d) sx16)

/-- `LD.BU` (R96, R73). -/
def execLdBu (l : LaneId) (d a : Reg) (off : BitVec 13) (s : State) : Out :=
  s.act (fun now c => c.delayedLoad now l (.ldBu l d a off) 4 a off 1 (.g d) (BitVec.ofNat 32))

/-- `LD.HU` (R96, R73). -/
def execLdHu (l : LaneId) (d a : Reg) (off : BitVec 13) (s : State) : Out :=
  s.act (fun now c => c.delayedLoad now l (.ldHu l d a off) 4 a off 2 (.g d) (BitVec.ofNat 32))

/-- `LD.F` (R96, R73). -/
def execLdF (l : LaneId) (d a : Reg) (off : BitVec 13) (s : State) : Out :=
  s.act (fun now c => c.delayedLoad now l (.ldF l d a off) 4 a off 4 (.f d) (BitVec.ofNat 32))

/-- `LD.W` (R96, R73, R112). -/
def execLdW (l : LaneId) (f : Form) (d a : Reg) (off : BitVec 13) (s : State) : Out :=
  s.act (fun now c => c.delayedLoad now l (.ldW l f d a off) (formLen f) a off 4 (.g d) (BitVec.ofNat 32))

/-- `LD.D` (R96): a pair, without a load delay; an odd destination raises `ILLEGAL_INSTRUCTION`. -/
def execLdD (l : LaneId) (d a : Reg) (off : BitVec 13) (s : State) : Out :=
  s.act (fun now c => c.instr l (.ldD l d a off) (fun c =>
    let k := laneKey l
    if oddReg d then c.raise now k (illegal (instrBits (.ldD l d a off))) else
    c.loadAt now l (.ldD l d a off) (effAddr (c.lane k).view a off).toNat 8
      (fun v c => c.retire k 4 3 (fun x => x.setPair d (BitVec.ofNat 64 v)))))

/-- `ST.B` (R96). -/
def execStB (l : LaneId) (b a : Reg) (off : BitVec 13) (s : State) : Out :=
  s.act (fun now c => c.wordStore now l (.stB l b a off) 4 a off 1 (fun v => v.gr b))

/-- `ST.H` (R96). -/
def execStH (l : LaneId) (b a : Reg) (off : BitVec 13) (s : State) : Out :=
  s.act (fun now c => c.wordStore now l (.stH l b a off) 4 a off 2 (fun v => v.gr b))

/-- `ST.F` (R96). -/
def execStF (l : LaneId) (b a : Reg) (off : BitVec 13) (s : State) : Out :=
  s.act (fun now c => c.wordStore now l (.stF l b a off) 4 a off 4 (fun v => v.fr b))

/-- `ST.W` (R96, R112). -/
def execStW (l : LaneId) (f : Form) (b a : Reg) (off : BitVec 13) (s : State) : Out :=
  s.act (fun now c => c.wordStore now l (.stW l f b a off) (formLen f) a off 4 (fun v => v.gr b))

/-- `ST.D` (R96): an odd source raises `ILLEGAL_INSTRUCTION`. -/
def execStD (l : LaneId) (b a : Reg) (off : BitVec 13) (s : State) : Out :=
  s.act (fun now c => c.instr l (.stD l b a off) (fun c =>
    let k := laneKey l
    let v := (c.lane k).view
    if oddReg b then c.raise now k (illegal (instrBits (.stD l b a off))) else
    c.storeInstr now l (.stD l b a off) 4 3 (effAddr v a off).toNat 8 (v.pair b).toNat))

/-! ### `CALLM` and `RETM` -/

/-- The registers a mask names, ascending (R77). -/
def maskRegs (m : BitVec 16) : List Reg :=
  ((List.range 14).filter (fun i => m.getLsbD i)).map (fun i => BitVec.ofNat 5 (16 + i))

/-- The pushes of `CALLM` in order: address and value (R77). -/
def pushes (v : Arch) (m : BitVec 16) : List (Word × Word) :=
  let vals := (v.pc + 4) :: (maskRegs m).reverse.map v.gr
  vals.zipIdx.map (fun (x, n) => (v.gr 30 - BitVec.ofNat 32 (4 * (n + 1)), x))

namespace Chip

/-- The pushes still to make, one store after the other; `done` is how many have been made. -/
def callmPush (c : Chip) (now : Nat) (l : LaneId) (i : Instr) (fin : Chip → Chip) : Nat → List (Word × Word) → Chip
  | _, [] => fin c
  | n, (a, x) :: r =>
    let k := laneKey l
    match c.storeAt now k a.toNat 4 x.toNat with
    | (c, .ok) => callmPush (c.updLane k (fun y => { y with progress := n + 1 })) now l i fin (n + 1) r
    | (c, .exc e) => c.raise now k e
    | (c, .abort w) => c.abortTx k w
    | (c, .wait) => c.waitIn k i

/-- The loads of `RETM` from ascending addresses (R77): the values, or what ended them. -/
def retmLoads (c : Chip) (now k : Nat) : Nat → Word → Chip × LdRes × List Word
  | 0, _ => (c, .val 0, [])
  | n + 1, a =>
    match c.dataPlace now k a.toNat 4 .load with
    | (c, .exc e) => (c, .exc e, [])
    | (c, .txDev) => (c, .abort 0x05, [])
    | (c, .dev _) => (c, .exc ⟨0x11, 1, a.toNat⟩, [])
    | (c, .mem pa) =>
      match c.loadMem k pa 4 with
      | (c, .val v) =>
        match retmLoads c now k n (a + 4) with
        | (c, .val w, vs) => (c, .val w, BitVec.ofNat 32 v :: vs)
        | r => r
      | (c, r) => (c, r, [])

end Chip

/-- The registers after `RETM` (R77). -/
def retmUpd (m : BitVec 16) (vs : List Word) (sp newlk : Word) (x : Arch) : Arch :=
  let x := ((maskRegs m).zip vs).foldl (fun x e => x.setG e.1 e.2) x
  { (x.setG 30 (sp + BitVec.ofNat 32 (4 * vs.length))).setG 31 newlk with pc := newlk }

/-- `CALLM` (R77, R78): an odd target first of all, then the reserved mask bits, then `sp` misaligned, then the pushes. -/
def execCallm (l : LaneId) (t : Reg) (mask : BitVec 16) (s : State) : Out :=
  s.act (fun now c => c.instr l (.callm l t mask) (fun c =>
    let k := laneKey l
    let x := c.lane k
    let v := x.view
    let tgt := v.gr t
    let ps := pushes v mask
    if tgt.toNat % 2 = 1 then c.raise now k ⟨0x05, 3, tgt.toNat⟩
    else if 2 ^ 14 ≤ mask.toNat then c.raise now k (illegal (instrBits (.callm l t mask)))
    else if (v.gr 30).toNat % 4 ≠ 0 then c.raise now k ⟨0x0B, 2, (v.gr 30 - 4).toNat⟩
    else
      let fin (c : Chip) : Chip := c.retire k 4 (3 + ps.length) (fun y =>
        { (y.setG 30 (v.gr 30 - BitVec.ofNat 32 (4 * ps.length))).setG 31 (v.pc + 4) with pc := tgt })
      c.callmPush now l (.callm l t mask) fin x.progress (ps.drop x.progress)))

/-- `RETM` (R77, R78): every load completes before any register changes; an odd `lk` raises `INSTR_MISALIGNED`. -/
def execRetm (l : LaneId) (mask : BitVec 16) (s : State) : Out :=
  s.act (fun now c => c.instr l (.retm l mask) (fun c =>
    let k := laneKey l
    let sp := (c.lane k).view.gr 30
    if 2 ^ 14 ≤ mask.toNat then c.raise now k (illegal (instrBits (.retm l mask)))
    else if sp.toNat % 4 ≠ 0 then c.raise now k ⟨0x08, 1, sp.toNat⟩
    else
      match c.retmLoads now k ((maskRegs mask).length + 1) sp with
      | (c, .val _, vs) =>
        let newlk := vs.getLastD 0
        if newlk.toNat % 2 = 1 then c.raise now k ⟨0x05, 3, newlk.toNat⟩
        else c.retire k 4 (3 + vs.length) (retmUpd mask vs sp newlk)
      | (c, .exc e, _) => c.raise now k e
      | (c, .abort w, _) => c.abortTx k w
      | (c, .wait, _) => (c.waitIn k (.retm l mask)).updLane k (fun y => { y with progress := 1 })))

end Sys2Proof.Machine
end

