-- ==== Sys2Proof/Machine/Mgmt.lean ====
section
/-! DEFINITION. The management port: command frames, their checks, the commands and their responses (R480 to R486). -/
namespace Sys2Proof.Machine

/-! ### Status codes (R483) -/

def msOk : Nat := 0
def msAuth : Nat := 1
def msSequence : Nat := 2
def msFormat : Nat := 3
def msBusy : Nat := 4
def msDenied : Nat := 5
def msAddress : Nat := 6
def msDomainOff : Nat := 7
def msNoKey : Nat := 8
def msFailed : Nat := 9

/-- The octets of a frame before its TAG (R480). -/
def mgtOctets (cmd status len mepoch seq : Nat) (payload : List Byte) : List Byte :=
  [BitVec.ofNat 8 cmd, BitVec.ofNat 8 status] ++ bytesLE 2 len ++ bytesLE 2 mepoch ++ bytesLE 4 seq ++ payload

/-- The TAG over the octets: none of the key, eight zero octets. -/
def mgtTag (key octets : List Byte) : List Byte :=
  if key.isEmpty then List.replicate 8 0 else (cmac (roundKeys key) octets).take 8

/-- An octet of a payload, and a little-endian field of it. -/
def plByte (f : MgtFrame) (i : Nat) : Nat := ((f.payload.drop i).headD 0).toNat
def plNat (f : MgtFrame) (i n : Nat) : Nat := natLE ((f.payload.drop i).take n)

namespace Chip

def modMgt (c : Chip) (f : Mgt → Mgt) : Chip := { c with mgt := f c.mgt }

def mepoch (c : Chip) : Nat := c.gf .MGT_STAT MGT_STAT.MEPOCH
def lastSeq (c : Chip) : Nat := c.gf .MGT_STAT MGT_STAT.LASTSEQ

/-! ### Responses -/

/-- A response is queued; the miller holds two at most. -/
def mgtAnswer (c : Chip) (cmd status seq : Nat) (payload : List Byte) : Chip :=
  let b := mgtOctets (cmd + 0x80) status payload.length c.mepoch seq payload
  c.modMgt (fun m => if 2 ≤ m.responses.length then m
    else { m with responses := m.responses ++ [b ++ mgtTag m.key b] })

/-- `ALERT_N` is low (R480). -/
def alertLow (c : Chip) : Bool := !c.mgt.responses.isEmpty || (c.gb .MGT_CFG MGT_CFG.ALERTFLT && c.errLow)

/-- The byte that a transaction of type 0x5A returns (R480). -/
def mgtState (c : Chip) : Nat := if !c.mgt.responses.isEmpty then 2 else if !c.mgt.running.isEmpty then 1 else 0

/-- The octets that a transaction of type 0xA5 clocks out: the oldest response, none where every byte reads 0xFF. -/
def mgtOldest (c : Chip) : Option (List Byte) := c.mgt.responses.head?

/-! ### Acceptance (R481, R482, R484) -/

/-- The status with which a frame is rejected, 0 where it is accepted. `ok`: its payload has the command's form. -/
def mgtReject (c : Chip) (cmd : Nat) (f : MgtFrame) (ok atOnce : Bool) : Nat :=
  let b := mgtOctets cmd f.flags.toNat f.len.toNat f.mepoch.toNat f.seq.toNat f.payload
  if !c.gb .MGT_STAT MGT_STAT.KEY then msNoKey
  else if f.tag ≠ mgtTag c.mgt.key b then msAuth
  else if f.mepoch.toNat ≠ c.mepoch ∨ f.seq.toNat ≤ c.lastSeq then msSequence
  else if f.flags ≠ 0 ∨ f.len.toNat ≠ f.payload.length ∨ !ok then msFormat
  else if !c.mgt.running.isEmpty && !atOnce then msBusy
  else 0

/-- Rejects a frame: no effect but its counts and its response. -/
def mgtRefuse (c : Chip) (now cmd st : Nat) (f : MgtFrame) : Chip :=
  let c := if st = msAuth then (c.inc .MGT_STAT MGT_STAT.AUTHFAIL).corrected now 17 else c
  c.mgtAnswer cmd st (if st = msBusy then f.seq.toNat else c.lastSeq) []

/-- A command frame: rejected, or `run` acts after LASTSEQ has taken its number. -/
def mgtTake (c : Chip) (now cmd : Nat) (f : MgtFrame) (ok atOnce : Bool) (run : Chip → Chip) : Chip :=
  if c.off then c else
  let st := c.mgtReject cmd f ok atOnce
  if st ≠ 0 then c.mgtRefuse now cmd st f else run (c.sf .MGT_STAT MGT_STAT.LASTSEQ f.seq.toNat)

/-- A command that a standby does not accept (R433). -/
def mgtActive (c : Chip) (cmd : Nat) (f : MgtFrame) (run : Chip → Chip) : Chip :=
  if c.standby then c.mgtAnswer cmd msDenied f.seq.toNat [] else run c

/-! ### The commands (R483) -/

/-- The payload of a `STATUS` response. -/
def mgtStatus (c : Chip) (now : Nat) : List Byte :=
  [RegName.FLT_STATE, .FLT_STATUS, .CFG_STAT, .PAR_STAT, .TIM_NOW].flatMap (fun r => bytesLE 8 (c.regGet now r).toNat)

/-- One register or journal word as the miller reads it: the word, or the status (R483, R485). -/
def mgtWord (c : Chip) (now a : Nat) : Chip × Except Nat DWord :=
  if a % 8 ≠ 0 ∨ 2 ^ 40 ≤ a then (c, .error msAddress) else
  match c.region a with
  | .journal => match c.devGet now .miller a with
    | (c, .ok v) => (c, .ok v)
    | (c, _) => (c, .error msFailed)
  | .register =>
    if !bookWindow a && (regOf a).isNone then (c, .error msAddress)
    else match c.devGet now .miller a with
      | (c, .ok v) => (c, .ok v)
      | (c, .refused) => (c, .error msDenied)
      | (c, .silent) => (c, .error msDomainOff)
  | _ => (c, .error msAddress)

/-- `n` words from an address. -/
def mgtWords (c : Chip) (now : Nat) : Nat → Nat → List Byte → Chip × Except Nat (List Byte)
  | 0, _, acc => (c, .ok acc)
  | n + 1, a, acc =>
    match c.mgtWord now a with
    | (c, .ok v) => mgtWords c now n (a + 8) (acc ++ bytesLE 8 v.toNat)
    | (c, .error e) => (c, .error e)

def mgtRead (c : Chip) (now : Nat) (f : MgtFrame) : Chip :=
  match c.mgtWords now (plNat f 8 2) (plNat f 0 8) [] with
  | (c, .ok d) => c.mgtAnswer 2 msOk f.seq.toNat d
  | (c, .error e) => c.mgtAnswer 2 e f.seq.toNat []

/-- A register write by the miller: its status. -/
def mgtPut (c : Chip) (now a : Nat) (v : DWord) : Chip × Nat :=
  if a % 8 ≠ 0 ∨ 2 ^ 40 ≤ a ∨ c.region a ≠ .register ∨ (!bookWindow a && (regOf a).isNone) then (c, msAddress)
  else match c.devPut now .miller a v none with
    | (c, .ok _) => (c, msOk)
    | (c, .refused) => (c, msDenied)
    | (c, .silent) => (c, msDomainOff)

def mgtWrite (c : Chip) (now : Nat) (f : MgtFrame) : Chip :=
  let (c, st) := c.mgtPut now (plNat f 0 8) (BitVec.ofNat 64 (plNat f 8 8))
  c.mgtAnswer 3 st f.seq.toNat []

/-- The payload of a `FAULTS` response. -/
def mgtFaultWords (c : Chip) : List Byte :=
  (c.rd .FLT_STATUS :: c.rd .FLT_MATTR :: (List.range 20).map (fun s => c.rd (.FLT_ATTR s))).flatMap (fun v => bytesLE 8 v.toNat)

def mgtFaults (c : Chip) (now : Nat) (f : MgtFrame) : Chip :=
  let d := c.mgtFaultWords
  (c.statusWrite now (BitVec.ofNat 64 (plNat f 0 8))).mgtAnswer 4 msOk f.seq.toNat d

def mgtBook (c : Chip) (f : MgtFrame) : Chip :=
  let o := plNat f 0 4
  let n := plNat f 4 2
  if 4096 < o + n then c.mgtAnswer 5 msAddress f.seq.toNat []
  else c.mgtAnswer 5 msOk f.seq.toNat ((c.bookBytes.drop o).take n)

/-- The target of an `ABORT`; none for a kind or a number that names nothing. -/
def abortOf (f : MgtFrame) : Option AbortTarget :=
  let n := plNat f 2 2
  match plByte f 0 with
  | 0 => if n < 4096 then some (.queue (BitVec.ofNat 12 n)) else none
  | 1 => if n < 1024 then some (.path (BitVec.ofNat 10 n)) else none
  | 2 => if n < 64 then some (.part (BitVec.ofNat 6 n)) else none
  | _ => none

/-- The target of an abort exists. -/
def abortable (c : Chip) : AbortTarget → Bool
  | .queue q => c.queEn q.toNat
  | .path n => c.pEn n.toNat
  | .part p => c.gb (.PRT_CFG p.toNat) PRT_CFG.DEFINED

/-- An `ABORT` starts, or joins one that runs (R484), and is answered when the work has stopped; one of a target that is
not enabled has no effect (R312) and is answered at once. -/
def mgtAbort (c : Chip) (now : Nat) (f : MgtFrame) (t : AbortTarget) : Chip :=
  if !c.domainOn 19 then c.mgtAnswer 6 msDomainOff f.seq.toNat []
  else if !c.abortable t then c.mgtAnswer 6 msOk f.seq.toNat []
  else
    let c := (c.leatSend (.extw (.abort t))).abortTarget now t
    c.modMgt (fun m => { m with running := m.running ++ [⟨6, f.seq.toNat, some t⟩] })

/-- The work of an aborted target has stopped. -/
def abortOver (c : Chip) : AbortTarget → Bool
  | .queue q => (c.que q.toNat).abort.isNone
  | .path n => !(c.pth n.toNat).abort
  | .part p => (c.partQueues p.toNat).all (fun q => (c.que q).abort.isNone) && (c.partPaths p.toNat).all (fun n => !(c.pth n).abort)

/-- The management `ABORT`s whose work has stopped are answered. -/
def abortAnswer (c : Chip) : Chip :=
  let ended (r : MgtRun) : Bool := r.tgt.any c.abortOver
  (c.mgt.running.filter ended).foldl (fun c r => c.mgtAnswer r.cmd msOk r.seq [])
    (c.modMgt (fun m => { m with running := m.running.filter (fun r => !ended r) }))

/-- `BRAKE` of a partition or of the device (R412, R415). -/
def mgtBrake (c : Chip) (now : Nat) (f : MgtFrame) : Chip :=
  let p := plByte f 1
  let c := if plByte f 0 = 1 then (c.leatSend (.extw (.brakePart (BitVec.ofNat 6 p)))).brakePart p
    else (c.leatSend (.extw .brakeDevice)).brakeDevice now 6
  (c.safeFlush now).mgtAnswer 7 msOk f.seq.toNat []

/-- `RESET` of a partition: a braked one needs its bit of `FLT_RELPERM` (R415, R484). -/
def mgtPartReset (c : Chip) (now p : Nat) (f : MgtFrame) : Chip :=
  let seq := f.seq.toNat
  if c.standby || (c.pstate p == 3 && !(c.rd .FLT_RELPERM).getLsbD p) then c.mgtAnswer 8 msDenied seq []
  else if (c.pstate p ≠ 2 ∧ c.pstate p ≠ 3) ∨ c.flt.deviceBrake then (c.prtReset now p).mgtAnswer 8 msFailed seq []
  else ((c.leatSend (.extw (.partReset (BitVec.ofNat 6 p)))).mgtAnswer 8 msOk seq []).prtReset now p

/-- `RESET`: the response, the save of the mill book (R497), then the reset. -/
def mgtReset (c : Chip) (now : Nat) (f : MgtFrame) : Chip :=
  if plByte f 0 = 0 then ((c.mgtAnswer 8 msOk f.seq.toNat []).saveBegin).warmReset now
  else (c.saveBegin).mgtPartReset now (plByte f 1) f

/-- The slot byte of `STAGE` names a slot that may be staged. -/
def stageSlotOk (c : Chip) (b : Nat) : Bool := c.boot.copy.isNone || b == bit c.freeSlot

/-- `STAGE` is answered at the end of its operation. -/
def mgtStage (c : Chip) (now : Nat) (f : MgtFrame) : Chip :=
  let seq := f.seq.toNat
  if !c.stageSlotOk (plByte f 1) then c.mgtAnswer 9 msDenied seq []
  else if c.gb .CFG_STGSTAT CFG_STGSTAT.BUSY then c.mgtAnswer 9 msBusy seq []
  else match c.stageGo now (plByte f 1 == 1) (plByte f 0) (plNat f 4 4) (f.payload.drop 8) true with
    | (c, true) => c.modMgt (fun m => { m with running := m.running ++ [⟨9, seq, none⟩] })
    | (c, false) => c.mgtAnswer 9 msFailed seq (bytesLE 8 (c.rd .CFG_STGSTAT).toNat)

/-- A staging operation has ended; a management `STAGE` is answered. -/
def stageOver (c : Chip) (ok : Bool) : Chip :=
  let mgt := c.stage.mgt
  let c := c.stageEnd ok
  if !mgt then c else
  let d := bytesLE 8 (c.rd .CFG_STGSTAT).toNat
  let st := if c.gf .CFG_STGSTAT CFG_STGSTAT.RESULT = 0 then msOk else msFailed
  (c.mgt.running.filter (fun r => r.cmd == 9)).foldl (fun c r => c.mgtAnswer 9 st r.seq d)
    (c.modMgt (fun m => { m with running := m.running.filter (fun r => r.cmd != 9) }))

end Chip

/-- The form of a `READ` payload: a count of 1 to 64. -/
def readForm (f : MgtFrame) : Bool := f.payload.length == 10 && decide (1 ≤ plNat f 8 2) && decide (plNat f 8 2 ≤ 64)

/-- The form of a `BRAKE` payload. -/
def brakeForm (f : MgtFrame) : Bool :=
  f.payload.length == 2 && ((plByte f 0 == 1 && decide (plByte f 1 < 64)) || plByte f 0 == 2)

/-- The form of a `RESET` payload. -/
def resetForm (f : MgtFrame) : Bool :=
  f.payload.length == 2 && (plByte f 0 == 0 || (plByte f 0 == 1 && decide (plByte f 1 < 64)))

/-- The form of a `STAGE` payload: data for WRITE alone. -/
def stageForm (f : MgtFrame) : Bool :=
  decide (8 ≤ f.payload.length) && decide (1 ≤ plByte f 0) && decide (plByte f 0 ≤ 3) && decide (plByte f 1 ≤ 1) &&
  (f.payload.length == 8 || (plByte f 0 == 2 && decide (f.payload.length ≤ 4104)))

/-- `RESPONSE_READ` (R480). -/
def execResponseRead (s : State) : Out :=
  s.act (fun _ c => if c.off then c else c.modMgt (fun m => { m with responses := m.responses.drop 1 }))

/-- `STATUS_POLL` (R480): returns `Chip.mgtState` and changes nothing. -/
def execStatusPoll (s : State) : Out := s.act (fun _ c => c)

/-- `STATUS` (R483). -/
def execStatus (f : MgtFrame) (s : State) : Out :=
  s.act (fun now c => c.mgtTake now 1 f f.payload.isEmpty false (fun c => c.mgtAnswer 1 msOk f.seq.toNat (c.mgtStatus now)))

/-- `READ` (R483, R485). -/
def execRead (f : MgtFrame) (s : State) : Out :=
  s.act (fun now c => c.mgtTake now 2 f (readForm f) false (fun c => c.mgtRead now f))

/-- `WRITE` (R483, R485). -/
def execWrite (f : MgtFrame) (s : State) : Out :=
  s.act (fun now c => c.mgtTake now 3 f (f.payload.length == 16) false
    (fun c => c.mgtActive 3 f (fun c => c.mgtWrite now f)))

/-- `FAULTS` (R483). -/
def execFaults (f : MgtFrame) (s : State) : Out :=
  s.act (fun now c => c.mgtTake now 4 f (f.payload.length == 8) false (fun c => c.mgtFaults now f))

/-- `BOOK` (R483). -/
def execBook (f : MgtFrame) (s : State) : Out :=
  s.act (fun now c => c.mgtTake now 5 f (f.payload.length == 6 && decide (plNat f 4 2 ≤ 4096)) false (fun c => c.mgtBook f))

/-- `ABORT` (R483 to R485). -/
def execAbort (f : MgtFrame) (s : State) : Out :=
  s.act (fun now c => c.mgtTake now 6 f (f.payload.length == 4 && (Chip.abortOf f).isSome) true
    (fun c => c.mgtActive 6 f (fun c => match Chip.abortOf f with | some t => c.mgtAbort now f t | none => c)))

/-- `BRAKE` (R483, R484). -/
def execBrake (f : MgtFrame) (s : State) : Out :=
  s.act (fun now c => c.mgtTake now 7 f (brakeForm f) true (fun c => c.mgtBrake now f))

/-- `RESET` (R484). -/
def execReset (f : MgtFrame) (s : State) : Out :=
  s.act (fun now c => c.mgtTake now 8 f (resetForm f) false (fun c => c.mgtReset now f))

/-- `STAGE` (R483, R462). -/
def execStage (f : MgtFrame) (s : State) : Out :=
  s.act (fun now c => c.mgtTake now 9 f (stageForm f) false (fun c => c.mgtActive 9 f (fun c => c.mgtStage now f)))

/-- `STAGING_OPERATION_END` (R462, R483). -/
def execStagingOperationEnd (ok : Bool) (s : State) : Out := s.act (fun _ c => c.stageOver ok)

/-- `ABORT_WORK_STOPPED` (R311 steps 3 to 5, R483). -/
def execAbortWorkStopped (tgt : AbortTarget) (s : State) : Out :=
  s.act (fun now c =>
    (match tgt with
    | .queue q => c.queueStopped now q.toNat
    | .path n => c.pathStopped now n.toNat
    | .part p => c.partStopped now p.toNat).abortAnswer)

end Sys2Proof.Machine
end

