-- ==== Sys2Proof/Machine/Dispatch.lean ====
section
/-! DEFINITION. One arm per command: the call of its meaning. -/
namespace Sys2Proof.Machine

def exec (i : Instr) (s : State) : Host.Outcome State Fault Refusal :=
  match i with
  | .add l f d a b => Sys2Proof.Machine.execAdd l f d a b s
  | .sub l d a b => Sys2Proof.Machine.execSub l d a b s
  | .addc l d a b => Sys2Proof.Machine.execAddc l d a b s
  | .subc l d a b => Sys2Proof.Machine.execSubc l d a b s
  | .and l d a b => Sys2Proof.Machine.execAnd l d a b s
  | .or l d a b => Sys2Proof.Machine.execOr l d a b s
  | .xor l d a b => Sys2Proof.Machine.execXor l d a b s
  | .shl l d a b => Sys2Proof.Machine.execShl l d a b s
  | .shr l d a b => Sys2Proof.Machine.execShr l d a b s
  | .shra l d a b => Sys2Proof.Machine.execShra l d a b s
  | .shlImmediate l d a n => Sys2Proof.Machine.execShlImmediate l d a n s
  | .shrImmediate l d a n => Sys2Proof.Machine.execShrImmediate l d a n s
  | .shraImmediate l d a n => Sys2Proof.Machine.execShraImmediate l d a n s
  | .setlt l d a b => Sys2Proof.Machine.execSetlt l d a b s
  | .setltu l d a b => Sys2Proof.Machine.execSetltu l d a b s
  | .mov l f d a => Sys2Proof.Machine.execMov l f d a s
  | .clz l d a => Sys2Proof.Machine.execClz l d a s
  | .mul l d a b => Sys2Proof.Machine.execMul l d a b s
  | .mulhs l d a b => Sys2Proof.Machine.execMulhs l d a b s
  | .mulhu l d a b => Sys2Proof.Machine.execMulhu l d a b s
  | .mulw l d a b => Sys2Proof.Machine.execMulw l d a b s
  | .mulwu l d a b => Sys2Proof.Machine.execMulwu l d a b s
  | .div l d a b => Sys2Proof.Machine.execDiv l d a b s
  | .divu l d a b => Sys2Proof.Machine.execDivu l d a b s
  | .rem l d a b => Sys2Proof.Machine.execRem l d a b s
  | .remu l d a b => Sys2Proof.Machine.execRemu l d a b s
  | .addi l f d a im => Sys2Proof.Machine.execAddi l f d a im s
  | .andi l d a im => Sys2Proof.Machine.execAndi l d a im s
  | .ori l d a im => Sys2Proof.Machine.execOri l d a im s
  | .xori l d a im => Sys2Proof.Machine.execXori l d a im s
  | .lhi l d u => Sys2Proof.Machine.execLhi l d u s
  | .ldB l d a off => Sys2Proof.Machine.execLdB l d a off s
  | .ldH l d a off => Sys2Proof.Machine.execLdH l d a off s
  | .ldW l f d a off => Sys2Proof.Machine.execLdW l f d a off s
  | .ldD l d a off => Sys2Proof.Machine.execLdD l d a off s
  | .ldBu l d a off => Sys2Proof.Machine.execLdBu l d a off s
  | .ldHu l d a off => Sys2Proof.Machine.execLdHu l d a off s
  | .ldF l d a off => Sys2Proof.Machine.execLdF l d a off s
  | .stB l b a off => Sys2Proof.Machine.execStB l b a off s
  | .stH l b a off => Sys2Proof.Machine.execStH l b a off s
  | .stW l f b a off => Sys2Proof.Machine.execStW l f b a off s
  | .stD l b a off => Sys2Proof.Machine.execStD l b a off s
  | .stF l b a off => Sys2Proof.Machine.execStF l b a off s
  | .brEq l a b off => Sys2Proof.Machine.execBrEq l a b off s
  | .brNe l a b off => Sys2Proof.Machine.execBrNe l a b off s
  | .brLt l a b off => Sys2Proof.Machine.execBrLt l a b off s
  | .brGe l a b off => Sys2Proof.Machine.execBrGe l a b off s
  | .brLtu l a b off => Sys2Proof.Machine.execBrLtu l a b off s
  | .brGeu l a b off => Sys2Proof.Machine.execBrGeu l a b off s
  | .brZ l f a off => Sys2Proof.Machine.execBrZ l f a off s
  | .brNz l f a off => Sys2Proof.Machine.execBrNz l f a off s
  | .jmp l off => Sys2Proof.Machine.execJmp l off s
  | .call l off => Sys2Proof.Machine.execCall l off s
  | .jmpr l a => Sys2Proof.Machine.execJmpr l a s
  | .callr l a => Sys2Proof.Machine.execCallr l a s
  | .ret l f => Sys2Proof.Machine.execRet l f s
  | .callm l t mask => Sys2Proof.Machine.execCallm l t mask s
  | .retm l mask => Sys2Proof.Machine.execRetm l mask s
  | .trap l f n => Sys2Proof.Machine.execTrap l f n s
  | .xret l => Sys2Proof.Machine.execXret l s
  | .brk l => Sys2Proof.Machine.execBrk l s
  | .waitev l => Sys2Proof.Machine.execWaitev l s
  | .waitturn l d => Sys2Proof.Machine.execWaitturn l d s
  | .sample l d sel => Sys2Proof.Machine.execSample l d sel s
  | .crd l d num => Sys2Proof.Machine.execCrd l d num s
  | .cwr l num a => Sys2Proof.Machine.execCwr l num a s
  | .fenceSl l => Sys2Proof.Machine.execFenceSl l s
  | .fenceD l => Sys2Proof.Machine.execFenceD l s
  | .fenceAll l => Sys2Proof.Machine.execFenceAll l s
  | .fenceI l => Sys2Proof.Machine.execFenceI l s
  | .barwait l g => Sys2Proof.Machine.execBarwait l g s
  | .cacheClean l scope icache a b => Sys2Proof.Machine.execCacheClean l scope icache a b s
  | .cacheInvalidate l scope icache a b => Sys2Proof.Machine.execCacheInvalidate l scope icache a b s
  | .cacheCleanInvalidate l scope icache a b => Sys2Proof.Machine.execCacheCleanInvalidate l scope icache a b s
  | .tlbinvAddress l a => Sys2Proof.Machine.execTlbinvAddress l a s
  | .tlbinvAddressSpace l a => Sys2Proof.Machine.execTlbinvAddressSpace l a s
  | .tlbinvAll l => Sys2Proof.Machine.execTlbinvAll l s
  | .tlbinvWalkCache l => Sys2Proof.Machine.execTlbinvWalkCache l s
  | .tbegin l x => Sys2Proof.Machine.execTbegin l x s
  | .tend l => Sys2Proof.Machine.execTend l s
  | .tabort l c => Sys2Proof.Machine.execTabort l c s
  | .tstat l d => Sys2Proof.Machine.execTstat l d s
  | .fadd l d a b => Sys2Proof.Machine.execFadd l d a b s
  | .fsub l d a b => Sys2Proof.Machine.execFsub l d a b s
  | .fmul l d a b => Sys2Proof.Machine.execFmul l d a b s
  | .fdiv l d a b => Sys2Proof.Machine.execFdiv l d a b s
  | .fsqrt l d a => Sys2Proof.Machine.execFsqrt l d a s
  | .fminn l d a b => Sys2Proof.Machine.execFminn l d a b s
  | .fmaxn l d a b => Sys2Proof.Machine.execFmaxn l d a b s
  | .fcopysign l d a b => Sys2Proof.Machine.execFcopysign l d a b s
  | .fnegsign l d a b => Sys2Proof.Machine.execFnegsign l d a b s
  | .fxorsign l d a b => Sys2Proof.Machine.execFxorsign l d a b s
  | .fcmpEq l d a b => Sys2Proof.Machine.execFcmpEq l d a b s
  | .fcmpLt l d a b => Sys2Proof.Machine.execFcmpLt l d a b s
  | .fcmpLe l d a b => Sys2Proof.Machine.execFcmpLe l d a b s
  | .fclass l d a => Sys2Proof.Machine.execFclass l d a s
  | .ftoi l d a => Sys2Proof.Machine.execFtoi l d a s
  | .ftou l d a => Sys2Proof.Machine.execFtou l d a s
  | .itof l d a => Sys2Proof.Machine.execItof l d a s
  | .utof l d a => Sys2Proof.Machine.execUtof l d a s
  | .fmovg l d a => Sys2Proof.Machine.execFmovg l d a s
  | .gmovf l d a => Sys2Proof.Machine.execGmovf l d a s
  | .fmadd l d a b c => Sys2Proof.Machine.execFmadd l d a b c s
  | .fmsub l d a b c => Sys2Proof.Machine.execFmsub l d a b c s
  | .fnmadd l d a b c => Sys2Proof.Machine.execFnmadd l d a b c s
  | .registerWrite ag addr v => Sys2Proof.Machine.execRegisterWrite ag addr v s
  | .governorTick mons => Sys2Proof.Machine.execGovernorTick mons s
  | .avsbusTransactionEnd ack meas => Sys2Proof.Machine.execAvsbusTransactionEnd ack meas s
  | .avsbusRetry ack meas => Sys2Proof.Machine.execAvsbusRetry ack meas s
  | .floormiss mons => Sys2Proof.Machine.execFloormiss mons s
  | .underv => Sys2Proof.Machine.execUnderv s
  | .recal ag => Sys2Proof.Machine.execRecal ag s
  | .recalibrationEnd mons => Sys2Proof.Machine.execRecalibrationEnd mons s
  | .govFloorWrite ag v => Sys2Proof.Machine.execGovFloorWrite ag v s
  | .refclkLoss => Sys2Proof.Machine.execRefclkLoss s
  | .refclkDrift => Sys2Proof.Machine.execRefclkDrift s
  | .refclkRelock => Sys2Proof.Machine.execRefclkRelock s
  | .controlStoreRepairEnd l ok => Sys2Proof.Machine.execControlStoreRepairEnd l ok s
  | .controlStoreScrub core addr => Sys2Proof.Machine.execControlStoreScrub core addr s
  | .storeRecord l => Sys2Proof.Machine.execStoreRecord l s
  | .digestRecord l => Sys2Proof.Machine.execDigestRecord l s
  | .commitRecord l => Sys2Proof.Machine.execCommitRecord l s
  | .stragglerTimeout l => Sys2Proof.Machine.execStragglerTimeout l s
  | .instructionRetry l err => Sys2Proof.Machine.execInstructionRetry l err s
  | .rebuildReadmission t ok => Sys2Proof.Machine.execRebuildReadmission t ok s
  | .spareSwapEnd t ok => Sys2Proof.Machine.execSpareSwapEnd t ok s
  | .restartDigest t bad => Sys2Proof.Machine.execRestartDigest t bad s
  | .restartWindowEnd t => Sys2Proof.Machine.execRestartWindowEnd t s
  | .triadReset ag t => Sys2Proof.Machine.execTriadReset ag t s
  | .splitCoreReset ag t pos => Sys2Proof.Machine.execSplitCoreReset ag t pos s
  | .triadRebuild ag t pos => Sys2Proof.Machine.execTriadRebuild ag t pos s
  | .slurun ag t => Sys2Proof.Machine.execSlurun ag t s
  | .sluiceTestPeriod t => Sys2Proof.Machine.execSluiceTestPeriod t s
  | .debugHalt t => Sys2Proof.Machine.execDebugHalt t s
  | .debugSingleStep t => Sys2Proof.Machine.execDebugSingleStep t s
  | .debugRegisterWrite t r v => Sys2Proof.Machine.execDebugRegisterWrite t r v s
  | .debugMemoryWrite t addr be v => Sys2Proof.Machine.execDebugMemoryWrite t addr be v s
  | .debugRelease t => Sys2Proof.Machine.execDebugRelease t s
  | .eventPending l src => Sys2Proof.Machine.execEventPending l src s
  | .laneCountReport l => Sys2Proof.Machine.execLaneCountReport l s
  | .deliveryCountReached t => Sys2Proof.Machine.execDeliveryCountReached t s
  | .timerFire t k => Sys2Proof.Machine.execTimerFire t k s
  | .externalInvalidation t src line => Sys2Proof.Machine.execExternalInvalidation t src line s
  | .invalidationRound t => Sys2Proof.Machine.execInvalidationRound t s
  | .binFill l line => Sys2Proof.Machine.execBinFill l line s
  | .l1Fill l icache line => Sys2Proof.Machine.execL1Fill l icache line s
  | .agreedReadRequest l => Sys2Proof.Machine.execAgreedReadRequest l s
  | .agreedReadResult t => Sys2Proof.Machine.execAgreedReadResult t s
  | .sweepLine c => Sys2Proof.Machine.execSweepLine c s
  | .speculativeWalk l fetch va => Sys2Proof.Machine.execSpeculativeWalk l fetch va s
  | .cluL1ctlWrite ag t v => Sys2Proof.Machine.execCluL1ctlWrite ag t v s
  | .bankHandover ag n v => Sys2Proof.Machine.execBankHandover ag n v s
  | .bankHandoverEnd n => Sys2Proof.Machine.execBankHandoverEnd n s
  | .bitSetAliasStore ag addr v => Sys2Proof.Machine.execBitSetAliasStore ag addr v s
  | .bitClearAliasStore ag addr v => Sys2Proof.Machine.execBitClearAliasStore ag addr v s
  | .bankScrub addr => Sys2Proof.Machine.execBankScrub addr s
  | .dramRegionFill port region => Sys2Proof.Machine.execDramRegionFill port region s
  | .patrolScrub port line => Sys2Proof.Machine.execPatrolScrub port line s
  | .deviceWriteTimeout l => Sys2Proof.Machine.execDeviceWriteTimeout l s
  | .deviceWriteResponse l => Sys2Proof.Machine.execDeviceWriteResponse l s
  | .deviceLoadTimeout l => Sys2Proof.Machine.execDeviceLoadTimeout l s
  | .commitRingRoom l => Sys2Proof.Machine.execCommitRingRoom l s
  | .commitHoldEnd l => Sys2Proof.Machine.execCommitHoldEnd l s
  | .doorbellAdvance q => Sys2Proof.Machine.execDoorbellAdvance q s
  | .headraceEntryTake cp => Sys2Proof.Machine.execHeadraceEntryTake cp s
  | .send q => Sys2Proof.Machine.execSend q s
  | .recv q => Sys2Proof.Machine.execRecv q s
  | .wait q => Sys2Proof.Machine.execWait q s
  | .seal q => Sys2Proof.Machine.execSeal q s
  | .openStep q => Sys2Proof.Machine.execOpenStep q s
  | .squeeze q => Sys2Proof.Machine.execSqueeze q s
  | .expand q => Sys2Proof.Machine.execExpand q s
  | .copy q => Sys2Proof.Machine.execCopy q s
  | .jump q => Sys2Proof.Machine.execJump q s
  | .notify q => Sys2Proof.Machine.execNotify q s
  | .mark q => Sys2Proof.Machine.execMark q s
  | .tailracePoll q => Sys2Proof.Machine.execTailracePoll q s
  | .tagGrant q => Sys2Proof.Machine.execTagGrant q s
  | .cipherJobStart => Sys2Proof.Machine.execCipherJobStart s
  | .cipherJobEnd k => Sys2Proof.Machine.execCipherJobEnd k s
  | .compressionJobStart => Sys2Proof.Machine.execCompressionJobStart s
  | .compressionJobEnd k => Sys2Proof.Machine.execCompressionJobEnd k s
  | .recvTimeout q => Sys2Proof.Machine.execRecvTimeout q s
  | .waitExpiry q => Sys2Proof.Machine.execWaitExpiry q s
  | .frameReceived ln f => Sys2Proof.Machine.execFrameReceived ln f s
  | .data n f => Sys2Proof.Machine.execData n f s
  | .ack n f => Sys2Proof.Machine.execAck n f s
  | .safe n f => Sys2Proof.Machine.execSafe n f s
  | .sync n f => Sys2Proof.Machine.execSync n f s
  | .retransmissionTimeout n => Sys2Proof.Machine.execRetransmissionTimeout n s
  | .ackdlyExpiry n => Sys2Proof.Machine.execAckdlyExpiry n s
  | .syncRepeat n => Sys2Proof.Machine.execSyncRepeat n s
  | .epochReservationProgram => Sys2Proof.Machine.execEpochReservationProgram s
  | .epochReservationEnd => Sys2Proof.Machine.execEpochReservationEnd s
  | .egressTransmitEnd ln => Sys2Proof.Machine.execEgressTransmitEnd ln s
  | .queueAbort ag q => Sys2Proof.Machine.execQueueAbort ag q s
  | .pathAbort ag n => Sys2Proof.Machine.execPathAbort ag n s
  | .abortWorkStopped tgt => Sys2Proof.Machine.execAbortWorkStopped tgt s
  | .linkLoss n => Sys2Proof.Machine.execLinkLoss n s
  | .linkUp n => Sys2Proof.Machine.execLinkUp n s
  | .retrain ag n => Sys2Proof.Machine.execRetrain ag n s
  | .loop ag n v => Sys2Proof.Machine.execLoop ag n v s
  | .pause n quanta => Sys2Proof.Machine.execPause n quanta s
  | .ptpSet ag v => Sys2Proof.Machine.execPtpSet ag v s
  | .ptpStep ag v => Sys2Proof.Machine.execPtpStep ag v s
  | .txtsRead ag n => Sys2Proof.Machine.execTxtsRead ag n s
  | .ppsOutRise => Sys2Proof.Machine.execPpsOutRise s
  | .ppsOutFall => Sys2Proof.Machine.execPpsOutFall s
  | .ppsInEdge => Sys2Proof.Machine.execPpsInEdge s
  | .timPpsWrite ag v => Sys2Proof.Machine.execTimPpsWrite ag v s
  | .canRetransmit n lostArb => Sys2Proof.Machine.execCanRetransmit n lostArb s
  | .hdlcTransmitStart n => Sys2Proof.Machine.execHdlcTransmitStart n s
  | .asyncFrameEnd n octets err => Sys2Proof.Machine.execAsyncFrameEnd n octets err s
  | .busoff n => Sys2Proof.Machine.execBusoff n s
  | .fldLoop ag n v => Sys2Proof.Machine.execFldLoop ag n v s
  | .unwrap ag p v => Sys2Proof.Machine.execUnwrap ag p v s
  | .unwrapEnd p => Sys2Proof.Machine.execUnwrapEnd p s
  | .clr ag n => Sys2Proof.Machine.execClr ag n s
  | .slotAssign ag n v => Sys2Proof.Machine.execSlotAssign ag n v s
  | .cipherCoreError k => Sys2Proof.Machine.execCipherCoreError k s
  | .cipherCoreOut ag k v => Sys2Proof.Machine.execCipherCoreOut ag k v s
  | .millstoneCoreError k => Sys2Proof.Machine.execMillstoneCoreError k s
  | .millstoneCoreOut ag k v => Sys2Proof.Machine.execMillstoneCoreOut ag k v s
  | .arbiterDecision a arrived => Sys2Proof.Machine.execArbiterDecision a arrived s
  | .arbPortWrite ag n v => Sys2Proof.Machine.execArbPortWrite ag n v s
  | .longestClear ag sl => Sys2Proof.Machine.execLongestClear ag sl s
  | .start ag p => Sys2Proof.Machine.execStart ag p s
  | .partitionReset ag p => Sys2Proof.Machine.execPartitionReset ag p s
  | .remove ag p => Sys2Proof.Machine.execRemove ag p s
  | .partitionStopped p => Sys2Proof.Machine.execPartitionStopped p s
  | .swap ag p => Sys2Proof.Machine.execSwap ag p s
  | .swapDone p => Sys2Proof.Machine.execSwapDone p s
  | .prtLogcfgWrite ag p v => Sys2Proof.Machine.execPrtLogcfgWrite ag p v s
  | .correctedFault src => Sys2Proof.Machine.execCorrectedFault src s
  | .containedFault src who triad => Sys2Proof.Machine.execContainedFault src who triad s
  | .fatalFault src => Sys2Proof.Machine.execFatalFault src s
  | .grace0Expiry src => Sys2Proof.Machine.execGrace0Expiry src s
  | .graceExpiry src who => Sys2Proof.Machine.execGraceExpiry src who s
  | .fltAttrWrite ag src v => Sys2Proof.Machine.execFltAttrWrite ag src v s
  | .fltMattrWrite ag v => Sys2Proof.Machine.execFltMattrWrite ag v s
  | .fltStatusWrite ag v => Sys2Proof.Machine.execFltStatusWrite ag v s
  | .fltStatusRead ag => Sys2Proof.Machine.execFltStatusRead ag s
  | .deviceBrake ag => Sys2Proof.Machine.execDeviceBrake ag s
  | .partb ag p => Sys2Proof.Machine.execPartb ag p s
  | .triadb ag t => Sys2Proof.Machine.execTriadb ag t s
  | .safeholdExpiry => Sys2Proof.Machine.execSafeholdExpiry s
  | .quietPeriodEnd => Sys2Proof.Machine.execQuietPeriodEnd s
  | .brakeReq => Sys2Proof.Machine.execBrakeReq s
  | .heart h => Sys2Proof.Machine.execHeart h s
  | .input ln path f time => Sys2Proof.Machine.execInput ln path f time s
  | .leatEvent t ev count => Sys2Proof.Machine.execLeatEvent t ev count s
  | .leatRead t rseq v err timebase => Sys2Proof.Machine.execLeatRead t rseq v err timebase s
  | .inval t count lines => Sys2Proof.Machine.execInval t count lines s
  | .chndec dec => Sys2Proof.Machine.execChndec dec s
  | .extw w => Sys2Proof.Machine.execExtw w s
  | .horizon t count sent => Sys2Proof.Machine.execHorizon t count sent s
  | .journal e => Sys2Proof.Machine.execJournal e s
  | .jack cseq => Sys2Proof.Machine.execJack cseq s
  | .odigest n count crc => Sys2Proof.Machine.execOdigest n count crc s
  | .pfault src cls => Sys2Proof.Machine.execPfault src cls s
  | .handover => Sys2Proof.Machine.execHandover s
  | .rejoin r => Sys2Proof.Machine.execRejoin r s
  | .relay r => Sys2Proof.Machine.execRelay r s
  | .globalMsg g => Sys2Proof.Machine.execGlobalMsg g s
  | .heartbeatTimer => Sys2Proof.Machine.execHeartbeatTimer s
  | .watchToggle => Sys2Proof.Machine.execWatchToggle s
  | .watchEdge => Sys2Proof.Machine.execWatchEdge s
  | .horizonTimer t => Sys2Proof.Machine.execHorizonTimer t s
  | .odigestTimer n => Sys2Proof.Machine.execOdigestTimer n s
  | .channelLoss watch => Sys2Proof.Machine.execChannelLoss watch s
  | .catchUpEnd => Sys2Proof.Machine.execCatchUpEnd s
  | .lagExceeded => Sys2Proof.Machine.execLagExceeded s
  | .outputCut => Sys2Proof.Machine.execOutputCut s
  | .roleSwap ag => Sys2Proof.Machine.execRoleSwap ag s
  | .swapintExpiry => Sys2Proof.Machine.execSwapintExpiry s
  | .detach ag => Sys2Proof.Machine.execDetach ag s
  | .admitStandby ag => Sys2Proof.Machine.execAdmitStandby ag s
  | .resetboth ag => Sys2Proof.Machine.execResetboth ag s
  | .resetall ag => Sys2Proof.Machine.execResetall ag s
  | .joinwaitExpiry => Sys2Proof.Machine.execJoinwaitExpiry s
  | .leatLaneLoss k => Sys2Proof.Machine.execLeatLaneLoss k s
  | .ringLinkLoss k => Sys2Proof.Machine.execRingLinkLoss k s
  | .snapshot ag v => Sys2Proof.Machine.execSnapshot ag v s
  | .porstNRelease pins => Sys2Proof.Machine.execPorstNRelease pins s
  | .porstNAssert => Sys2Proof.Machine.execPorstNAssert s
  | .resetN => Sys2Proof.Machine.execResetN s
  | .cfgReset ag => Sys2Proof.Machine.execCfgReset ag s
  | .dramTrainingEnd pass0 pass1 => Sys2Proof.Machine.execDramTrainingEnd pass0 pass1 s
  | .copyVerifyEnd => Sys2Proof.Machine.execCopyVerifyEnd s
  | .configurationLoadEnd => Sys2Proof.Machine.execConfigurationLoadEnd s
  | .startUpTestsEnd res => Sys2Proof.Machine.execStartUpTestsEnd res s
  | .erase ag v => Sys2Proof.Machine.execErase ag v s
  | .stageWrite ag v => Sys2Proof.Machine.execStageWrite ag v s
  | .finish ag v => Sys2Proof.Machine.execFinish ag v s
  | .stagingOperationEnd ok => Sys2Proof.Machine.execStagingOperationEnd ok s
  | .flitReceive seq ack crcOk bad => Sys2Proof.Machine.execFlitReceive seq ack crcOk bad s
  | .hostLinkDown replayExhausted => Sys2Proof.Machine.execHostLinkDown replayExhausted s
  | .hostLinkUp x16 => Sys2Proof.Machine.execHostLinkUp x16 s
  | .regrd tag addr => Sys2Proof.Machine.execRegrd tag addr s
  | .regwr tag addr v => Sys2Proof.Machine.execRegwr tag addr v s
  | .memrd tag addr len => Sys2Proof.Machine.execMemrd tag addr len s
  | .memwr addr bytes => Sys2Proof.Machine.execMemwr addr bytes s
  | .doorbell q v => Sys2Proof.Machine.execDoorbell q v s
  | .intr t vec pos => Sys2Proof.Machine.execIntr t vec pos s
  | .credit posted nonPosted cplEvent => Sys2Proof.Machine.execCredit posted nonPosted cplEvent s
  | .creditStall => Sys2Proof.Machine.execCreditStall s
  | .responseRead => Sys2Proof.Machine.execResponseRead s
  | .statusPoll => Sys2Proof.Machine.execStatusPoll s
  | .status f => Sys2Proof.Machine.execStatus f s
  | .read f => Sys2Proof.Machine.execRead f s
  | .write f => Sys2Proof.Machine.execWrite f s
  | .faults f => Sys2Proof.Machine.execFaults f s
  | .book f => Sys2Proof.Machine.execBook f s
  | .abort f => Sys2Proof.Machine.execAbort f s
  | .brake f => Sys2Proof.Machine.execBrake f s
  | .reset f => Sys2Proof.Machine.execReset f s
  | .stage f => Sys2Proof.Machine.execStage f s
  | .powerDown ag d => Sys2Proof.Machine.execPowerDown ag d s
  | .powerUp ag d => Sys2Proof.Machine.execPowerUp ag d s
  | .powerTransitionEnd d => Sys2Proof.Machine.execPowerTransitionEnd d s
  | .go ag k v => Sys2Proof.Machine.execGo ag k v s
  | .cancel ag k => Sys2Proof.Machine.execCancel ag k s
  | .testStart k => Sys2Proof.Machine.execTestStart k s
  | .testEnd k pass detail => Sys2Proof.Machine.execTestEnd k pass detail s
  | .save ag => Sys2Proof.Machine.execSave ag s
  | .bookSaveInterval => Sys2Proof.Machine.execBookSaveInterval s
  | .bookSaveEnd ok => Sys2Proof.Machine.execBookSaveEnd ok s
  | .powerOnSecond => Sys2Proof.Machine.execPowerOnSecond s
  | .corePgFall => Sys2Proof.Machine.execCorePgFall s
  | .corePgRise => Sys2Proof.Machine.execCorePgRise s
  | .thermalSample temps => Sys2Proof.Machine.execThermalSample temps s
  | .overtemperature => Sys2Proof.Machine.execOvertemperature s
  | .undefinedEncoding l f w => Sys2Proof.Machine.execUndefinedEncoding l f w s
  | .instructionFetchFault l f => Sys2Proof.Machine.execInstructionFetchFault l f s
  | .waitturnSleepEnd l => Sys2Proof.Machine.execWaitturnSleepEnd l s
  | .pauseEnd n => Sys2Proof.Machine.execPauseEnd n s
  | .busOffRecovery n => Sys2Proof.Machine.execBusOffRecovery n s
  | .memoryAccessResponse l => Sys2Proof.Machine.execMemoryAccessResponse l s
  | .transferEngineEnd q => Sys2Proof.Machine.execTransferEngineEnd q s
  | .rejoinCopyEnd => Sys2Proof.Machine.execRejoinCopyEnd s

end Sys2Proof.Machine
end

