-- ==== Sys2Proof/Machine/Tick.lean ====
section
/-! DEFINITION. A cycle of the time base. -/
namespace Sys2Proof.Machine

/-- Work that waits for nothing but its turn and has no command of its own: SAFE frames that waited for a tag (R413), host
requests and messages (R473, R477), decisions and frames that a standby follows (R427), a role swap (R442), a snapshot
(R447). -/
def Chip.idle (c : Chip) (now : Nat) : Chip :=
  if c.off then c
  else (((((c.safeFlush now).hostPump now).decPump now).heldPump now).swapPoll now).snapPoll now

/-- One cycle of the 1 GHz time base: `TIM_NOW` counts one nanosecond (R40), and what can go on does. -/
def State.tick (s : State) : State := { s with now := s.now + 1, chip := s.chip.idle (s.now + 1).toNat }

end Sys2Proof.Machine
end

