-- ==== Sys2Proof/WellFormed.lean ====
section
/-! DEFINITION. Well-formed commands: operands that the command's encoding or its unit admits. A command that is not
well formed spells nothing the specification describes; `exec` is total on it all the same. -/
namespace Sys2Proof

/-- A register that a 4-bit field names (R112). -/
def lowReg (r : Reg) : Bool := decide (r.toNat < 16)

/-- An immediate that sign extension of a 7-bit field gives (R112). -/
def fits7 {n : Nat} (v : BitVec n) : Bool := (v.setWidth 7).signExtend n == v

/-- The operands of `LD_W` and `ST_W` in a 16-bit form (R112): a base g1 to g15 with a 3-bit word offset, or `sp` with a
7-bit one. -/
def halfMem (r a : Reg) (off : BitVec 13) : Bool :=
  lowReg r && off.toNat % 4 == 0 &&
  ((a == 30 && decide (off.toNat < 512)) || (lowReg a && a != 0 && decide (off.toNat < 32)))

/-- The second register of `CACHE` is a register field only in the range scope (R106). -/
def cacheOperand (s : Scope) (b : Reg) : Bool := s == .range || b == 0

/-- The operands of a Prenyx instruction fit its encoding (R86 to R112). -/
def instrFits : Instr → Bool
  | .mov _ .half d a => lowReg d && lowReg a && (d != 0 || a != 0)
  | .add _ .half d a b => lowReg d && d == a && lowReg b
  | .addi _ .half d a i =>
    d == a && ((lowReg d && fits7 i) || (d == 30 && i.toNat % 4 == 0 && (i.setWidth 13).signExtend 16 == i))
  | .ldW _ .half d a off => halfMem d a off
  | .stW _ .half b a off => halfMem b a off
  | .brZ _ .half a off => lowReg a && fits7 off
  | .brNz _ .half a off => lowReg a && fits7 off
  | .cacheClean _ s _ _ b => cacheOperand s b
  | .cacheInvalidate _ s _ _ b => cacheOperand s b
  | .cacheCleanInvalidate _ s _ _ b => cacheOperand s b
  | _ => true

/-- A CAN FD frame carries at most 64 data bytes, a classic frame 8, an identifier without IDE 11 bits (R328). -/
def frameFits : RxFrame → Bool
  | .can ide id fdf _ _ _ d =>
    decide (d.length ≤ 64) && (fdf || decide (d.length ≤ 8)) && (ide || decide (id.toNat < 2 ^ 11))
  | _ => true

/-- The operands of the other commands fit their units. -/
def commandFits : Instr → Bool
  | .frameReceived _ f => frameFits f
  | .input _ _ f _ => frameFits f
  | .governorTick l => l.length == 13
  | .floormiss l => l.length == 13
  | .recalibrationEnd l => l.length == 13
  | _ => true

/-- A well-formed command. -/
abbrev WellFormed (i : Instr) : Prop := (instrFits i && commandFits i) = true

end Sys2Proof
end

