-- ==== Sys2Proof/Safety.lean ====
section
/-! DEFINITION. The terms in which the statements speak: what a safe step is, when an instruction of a lane runs, and what
it means that it retires, raises an exception, waits or aborts its transaction. -/
namespace Sys2Proof.Machine
set_option autoImplicit false

/-- The outcome is a next state. -/
def Completes (o : Out) : Prop := ∃ s, o = .next s

/-- The step neither faults nor is refused. -/
def SafeStep (s : State) : Prop := Completes (step s)

/-- The lane of a lane number. -/
abbrev State.lane (s : State) (l : LaneId) : Lane := s.chip.lane (laneKey l)

/-- Nothing is due at the lane's next instruction boundary: on a SPLIT core no pending abort, write error or event
(R178), in a triad no event held since a round and no logged item to take (R148, R166). -/
def Calm (s : State) (l : LaneId) : Prop :=
  if s.chip.split l.t then
    (s.chip.port (laneKey l)).tx.pendAbort = none ∧ (s.chip.port (laneKey l)).dwe = [] ∧
      (s.chip.port (laneKey l)).pend = []
  else (s.chip.triad l.t).held = .none ∧ (s.lane l).replay = []

/-- The lane runs the instruction now, and nothing is due at its boundary. -/
def Runs (s : State) (l : LaneId) (i : Instr) : Prop := s.chip.mayRun l i = true ∧ Calm s l

/-- The state in which one lane alone has changed. -/
abbrev State.withLane (s : State) (l : LaneId) (x : Lane) : State :=
  { s with chip := s.chip.setLane (laneKey l) x }

/-- What an instruction that works on registers alone leaves as it is in its lane: the store buffer and the numbers of
records and agreed reads, the transaction, the caches, the translation state. -/
structure LaneFrame (x y : Lane) : Prop where
  sb : y.sb = x.sb
  storeSeq : y.storeSeq = x.storeSeq
  readSeq : y.readSeq = x.readSeq
  save : y.save = x.save
  txNo : y.txNo = x.txNo
  txLines : y.txLines = x.txLines
  whash : y.whash = x.whash
  dcache : y.dcache = x.dcache
  icache : y.icache = x.icache
  itlb : y.itlb = x.itlb
  dtlb : y.dtlb = x.dtlb
  walkc : y.walkc = x.walkc
  halted : y.halted = x.halted
  barIn : y.barIn = x.barIn
  barDone : y.barDone = x.barDone

/-- The lane `y` is `x` after one instruction has retired: a pending load has landed (R73), `pc` has moved past the
instruction unless `upd` moves it, `upd` gives its results, `ld` is its own delayed load, its steps and its retirement are
counted (R34, R138). -/
structure RetiredLane (x y : Lane) (len : Word) (steps : Nat) (upd : Arch → Arch) (ld : Option LoadDelay) : Prop where
  arch : y.arch = upd { x.landed with pc := x.landed.pc + len }
  retired : y.retired = x.retired + 1
  steps : y.steps = x.steps + steps
  ldPend : y.ldPend = ld
  feed : y.feed = none
  waiting : y.waiting = none

/-- The outcome is a next state in which the instruction has retired and nothing else has changed: no other lane, no byte
of memory, no device register, no other part of the block. -/
def Retires (s : State) (l : LaneId) (len : Word) (steps : Nat) (upd : Arch → Arch) (o : Out) : Prop :=
  ∃ y, o = .next (s.withLane l y) ∧ RetiredLane (s.lane l) y len steps upd none ∧ LaneFrame (s.lane l) y

/-- The registers `b` after exception entry by R81 in a lane `x` that is in no transaction: `EPC`, `ESTATUS`, `ECAUSE` and
`EVAL`, the load-delay state (R75, R76), the level and EXL, `pc` at the vector; a pending load has landed, and nothing else
has changed. -/
structure Entered (x : Lane) (b : Arch) (e : Exc) (async toM : Bool) : Prop where
  epc : b.epc = x.landed.pc
  estatus : b.estatus = x.landed.status
  code : Fld.get ⟨7, 0⟩ b.ecause = e.code
  kind : Fld.get ⟨9, 8⟩ b.ecause = e.kind
  async : Fld.get ⟨31, 31⟩ b.ecause = bit async
  eval : b.eval = BitVec.ofNat 32 e.eval
  exl : b.st SR.EXL = 1
  pl : b.pl = if toM || x.landed.pl == 2 then 2 else 1
  pc : b.pc = (if toM || x.landed.pl == 2 then x.landed.mvbr else x.landed.vbr) +
    BitVec.ofNat 32 (Chip.vecOffset e.code x.landed.pl)
  lds : b.st SR.LDS = bit (Chip.delaySave x).isSome
  shadow : ∀ d, Chip.delaySave x = some d → b.excShadow = d.value
  g : b.g = x.landed.g
  f : b.f = x.landed.f
  fpsr : b.fpsr = x.landed.fpsr
  vbr : b.vbr = x.landed.vbr
  mvbr : b.mvbr = x.landed.mvbr
  sscratch : b.sscratch = x.landed.sscratch
  mscratch : b.mscratch = x.landed.mscratch
  ptbr : b.ptbr = x.landed.ptbr
  asid : b.asid = x.landed.asid
  bargroup : b.bargroup = x.landed.bargroup
  txstatus : b.txstatus = x.landed.txstatus

/-- The outcome is a next state in which the lane has entered an exception at the current instruction, which has not
retired, and nothing else has changed. `extra` are the steps the instruction itself is counted. -/
def Raises (s : State) (l : LaneId) (e : Exc) (toM : Bool) (extra : Nat) (o : Out) : Prop :=
  ∃ y, o = .next (s.withLane l y) ∧ Entered (s.lane l) y.arch e false toM ∧ y.retired = (s.lane l).retired ∧
    y.waiting = none ∧ y.steps = (s.lane l).steps + extra + 8 ∧ LaneFrame (s.lane l) y

/-- A synchronous exception of the lane is an entry by R81: EXL is clear (R82) and no transaction is open (R262). -/
def MayEnter (s : State) (l : LaneId) : Prop := (s.lane l).arch.st SR.EXL ≠ 1 ∧ (s.lane l).save = none

/-- The outcome is a next state in which the lane waits in `i` and nothing else has changed (R33). -/
def Waits (s : State) (l : LaneId) (i : Instr) (o : Out) : Prop :=
  o = .next (s.withLane l { s.lane l with waiting := some i })

/-! ### Data accesses -/

/-- A data access of the lane goes to the memory-typed address `a`: it is aligned, an entry of the data TLB translates and
permits it (R202, R197), and a window (R206) and the bank's owner (R212) let it pass. -/
def Reaches (s : State) (l : LaneId) (va size : Nat) (kd : Kind) (a : Nat) : Prop :=
  va % size = 0 ∧ ∃ (e : TlbE) (r : Region),
    (s.lane l).dtlb.find? (fun e => e.hits ((s.chip.partOf l.t).getD 0) ((s.lane l).arch.asid.setWidth 8) va) = some e ∧
    permits e.u e.x e.w e.r kd (s.lane l).arch.pl = true ∧
    s.chip.place ((s.chip.partOf l.t).getD 0) (e.page * 4096 + va % 2 ^ pageBits e.lvl) va kd = .ok (a, r) ∧ r.isMem = true

/-- The lane holds no part of an earlier attempt at its present instruction. -/
def Unbegun (x : Lane) : Prop := x.devLoad = none ∧ x.areq = none ∧ x.progress = 0

/-- The store buffer holds every byte of the access in its youngest store to any of them, which reads `v` (R235). -/
def Forwarded (x : Lane) (a size v : Nat) : Prop := x.forward a size = some (.val v)

/-- No buffered store holds a byte of the access, the data cache holds its line without an error, and the bytes there
are `v` (R182, R235). -/
def CacheHit (s : State) (l : LaneId) (a size v : Nat) : Prop :=
  (s.lane l).forward a size = none ∧ s.chip.cacheable l.t a = true ∧ (s.lane l).save = none ∧
  ∃ e, (s.lane l).dcache.find (lineOf a) = some e ∧ e.bad = [] ∧
    v = e.data.toNat / 2 ^ (8 * (a % 64)) % 2 ^ (8 * size)

/-- The outcome is a next state in which a load has retired with the delayed load `ld` and the results `upd`, and nothing
outside its lane has changed; in the lane the data cache may have been touched. -/
def Loads (s : State) (l : LaneId) (len : Word) (steps : Nat) (upd : Arch → Arch) (ld : Option LoadDelay) (o : Out) : Prop :=
  ∃ y, o = .next (s.withLane l y) ∧ RetiredLane (s.lane l) y len steps upd ld ∧
    y.sb = (s.lane l).sb ∧ y.storeSeq = (s.lane l).storeSeq ∧ y.readSeq = (s.lane l).readSeq ∧
    y.save = (s.lane l).save ∧ y.icache = (s.lane l).icache ∧ y.itlb = (s.lane l).itlb ∧
    y.dtlb = (s.lane l).dtlb ∧ y.walkc = (s.lane l).walkc ∧ y.halted = (s.lane l).halted

/-- The record of a store of `size` bytes of `v` at the address `a` (R132). -/
def IsRecord (r : StoreRec) (seq a size v : Nat) (txn : Bool) : Prop :=
  r.seq = seq ∧ r.addr = BitVec.ofNat 40 a ∧
  r.data = BitVec.ofNat 64 (v % 2 ^ (8 * size) * 2 ^ (8 * (a % 8))) ∧
  r.be = BitVec.ofNat 8 ((2 ^ size - 1) * 2 ^ (a % 8)) ∧ r.dev = false ∧ r.txn = txn ∧ r.dbg = false

/-- The outcome is a next state in which a store of `size` bytes of `v` at `a` has retired into the lane's store buffer
(R132, R235): one record more, with the next sequence number. Memory, every other lane and the rest of the block are
unchanged. -/
def Stores (s : State) (l : LaneId) (len : Word) (steps a size v : Nat) (o : Out) : Prop :=
  ∃ y r, o = .next (s.withLane l y) ∧ RetiredLane (s.lane l) y len steps id none ∧
    IsRecord r (s.lane l).storeSeq a size v (s.lane l).save.isSome ∧
    y.sb = (s.lane l).sb ++ [{ item := .store r }] ∧ y.storeSeq = (s.lane l).storeSeq + 1 ∧
    y.readSeq = (s.lane l).readSeq ∧ y.save = (s.lane l).save ∧ y.txNo = (s.lane l).txNo ∧
    y.icache = (s.lane l).icache ∧ y.itlb = (s.lane l).itlb ∧ y.dtlb = (s.lane l).dtlb ∧
    y.walkc = (s.lane l).walkc ∧ y.halted = (s.lane l).halted

/-! ### Commands on the block -/

/-- The command completes: it answers a next state in which the time base and the waiting commands are as they were, and
`P` holds of the rest. -/
def Gives (s : State) (i : Instr) (P : Chip → Prop) : Prop :=
  ∃ c, exec i s = .next { s with chip := c } ∧ P c

/-- The device registers outside `rs` hold what they held. -/
def RegsBut (c d : Chip) (rs : List RegName) : Prop := ∀ r, r.addr ∉ rs.map RegName.addr → d.rd r = c.rd r

/-- Nothing on the die but the device registers `rs` has changed. -/
def OnlyRegs (c d : Chip) (rs : List RegName) : Prop := d = { c with regs := d.regs } ∧ RegsBut c d rs

/-- The fault of a source (class 0 corrected, 1 contained, 2 fatal) stands in `FLT_STATUS`. -/
abbrev Chip.stands (c : Chip) (src cls : Nat) : Prop := c.sticky src cls = true

/-- Memory, the cores and what the requesters have under way are as they were. -/
def SameCore (c d : Chip) : Prop := d.mem = c.mem ∧ d.lanes = c.lanes ∧ d.ports = c.ports ∧ d.commits = c.commits

/-- `d` is the die of `c` after a warm device reset, before anything has been loaded (R464, R465): only flash, the journal
store and what the registers' own rules keep is left. -/
def Chip.WarmFrom (c d : Chip) : Prop :=
  d.off = false ∧ d.boot.warm = true ∧ d.lanes = [] ∧ d.triads = [] ∧ d.ports = [] ∧ d.commits = [] ∧ d.flash = c.flash ∧
    d.gf .FLT_STATE FLT_STATE.STATE = 1 ∧ ∀ a : Nat, d.byte a = if inJournal a = true then c.byte a else 0

/-- A load that begins now waits for the core supply or the reference clock (R43, R511). -/
def Chip.LoadWaits (c : Chip) : Prop := c.off = false ∧ (c.boot.corePg = false ∨ c.boot.refclk = false)

/-- No frame is at an egress, no commit under way, no snapshot being taken. -/
def Chip.NothingUnderWay (c : Chip) : Prop := c.chan.egress = [] ∧ c.commits = [] ∧ c.snap = none

/-- The current step of queue `q` is `p` with operation `op`, about to run on its processor; nothing else of the queue is
under way (R279, R293). -/
def Chip.StepReady (c : Chip) (q : Nat) (p : Prog) (op : Nat) : Prop :=
  c.millOn = true ∧ (c.que q).prog = some p ∧ p.phase = .ready ∧ p.cur.op = op ∧ c.stepBlocked q p = false ∧
  (c.cpuOf q).isSome = true ∧ (c.que q).posts = [] ∧ c.queEn q = true ∧ c.queState q ≠ 5 ∧ (c.que q).abort = none

/-- An engine may write `n` octets from `a` for the owner of queue `q` at once: it owns them, no commit holds them, every word
is clean, and no page is logged (R212, R268, R398). -/
def Chip.MayPut (c : Chip) (q a n : Nat) : Prop :=
  c.rangeHeld a n = false ∧ c.rangeStatus (c.queOwner q) a n = 0 ∧ c.ecc = [] ∧ a + n ≤ journalBase ∧
  ∀ o, c.queOwner q = some o → c.gb (.PRT_LOGCFG o) PRT_LOGCFG.EN = false

/-- The octets from `a` are `l`; every other byte below the journal store is as it was. -/
def Wrote (c d : Chip) (a : Nat) (l : List Byte) : Prop :=
  (∀ i < l.length, d.byte (a + i) = l.getD i 0) ∧
  ∀ b, (b < a ∨ a + l.length ≤ b) → b < journalBase → d.byte b = c.byte b

end Sys2Proof.Machine
end

