-- ==== Sys2Proof/Certificates/Slice0/Obligations.lean ====
section
/-! DEFINITION. The statements for the provers. Each says what commands do to the state, in the terms of Safety.lean; a
clause about a command holds for every state in which the command's own conditions are met. -/
open Sys2Proof Sys2Proof.Machine
set_option autoImplicit false

/-! ### The block -/

/-- A step runs the command at the front of the queue on the state with the queue's rest. -/
def Obligations.StepRunsFront : Prop :=
  ∀ (c : Instr) (r : List Instr) (s : State),
    step { s with pending := c :: r } = exec c { s with pending := r }

/-! ### Prenyx: integer operations and control flow -/

/-- Integer register and immediate operations (R92 to R95): the result goes to `d` (a write of `g0` is discarded), the
instruction retires with its steps (R34, R126), and nothing else changes. A general register reads what was written to it,
`g0` reads 0 whatever was written, no other register changes (R62); a pair takes the low word at the even register and the
high word at the next, and with `g0` writes `g1` alone (R64); a floating-point register holds the bits written (R63). -/
def Obligations.IntegerResults : Prop :=
  (∀ (s : State) (l : LaneId) (d a b : Reg),
     let v := (s.lane l).view
     let x := v.gr a
     let y := v.gr b
     let gives (i : Instr) (len : Word) (steps : Nat) (r : Word) : Prop :=
       Runs s l i → Retires s l len steps (fun z => z.setG d r) (exec i s)
     let n := y.toNat % 32
     (∀ f, gives (.add l f d a b) (formLen f) 2 (x + y)) ∧
     gives (.sub l d a b) 4 2 (x - y) ∧
     gives (.and l d a b) 4 2 (x &&& y) ∧
     gives (.or l d a b) 4 2 (x ||| y) ∧
     gives (.xor l d a b) 4 2 (x ^^^ y) ∧
     gives (.shl l d a b) 4 (ctSteps 2 4 v) (BitVec.ofNat 32 (x.toNat * 2 ^ n)) ∧
     gives (.shr l d a b) 4 (ctSteps 2 4 v) (BitVec.ofNat 32 (x.toNat / 2 ^ n)) ∧
     gives (.shra l d a b) 4 (ctSteps 2 4 v) (BitVec.ofInt 32 (x.toInt / 2 ^ n)) ∧
     gives (.setlt l d a b) 4 (ctSteps 2 4 v) (if x.toInt < y.toInt then 1 else 0) ∧
     gives (.setltu l d a b) 4 (ctSteps 2 4 v) (if x.toNat < y.toNat then 1 else 0) ∧
     (∀ f, gives (.mov l f d a) (formLen f) 2 x) ∧
     (∀ c : Word, (∀ i < c.toNat, x.getMsbD i = false) → (c.toNat < 32 → x.getMsbD c.toNat = true) → c.toNat ≤ 32 →
       gives (.clz l d a) 4 (ctSteps 2 4 v) c) ∧
     (∀ k : BitVec 5,
       gives (.shlImmediate l d a k) 4 (ctSteps 2 4 v) (BitVec.ofNat 32 (x.toNat * 2 ^ k.toNat)) ∧
       gives (.shrImmediate l d a k) 4 (ctSteps 2 4 v) (BitVec.ofNat 32 (x.toNat / 2 ^ k.toNat)) ∧
       gives (.shraImmediate l d a k) 4 (ctSteps 2 4 v) (BitVec.ofInt 32 (x.toInt / 2 ^ k.toNat))) ∧
     (∀ k : BitVec 16,
       (∀ f, gives (.addi l f d a k) (formLen f) 2 (x + k.signExtend 32)) ∧
       gives (.andi l d a k) 4 2 (x &&& k.signExtend 32) ∧
       gives (.ori l d a k) 4 2 (x ||| k.zeroExtend 32) ∧
       gives (.xori l d a k) 4 2 (x ^^^ k.zeroExtend 32)) ∧
     (∀ u : BitVec 21, gives (.lhi l d u) 4 2 (BitVec.ofNat 32 (u.toNat * 2 ^ 11)))) ∧
  (∀ (x : Arch) (d n : Reg) (w : Word) (v : DWord),
     (x.setG d w).gr n = (if n = 0 then 0 else if n = d then w else x.gr n) ∧
     (x.setF d w).fr n = (if n = d then w else x.fr n) ∧
     (d.toNat % 2 = 0 → (x.setPair d v).gr n =
       (if n = 0 then 0 else if n = d then v.setWidth 32 else if n = d + 1 then (v >>> 32).setWidth 32 else x.gr n)))

/-- `ADDC` and `SUBC` (R114): the 33-bit sum or difference, and CY, take effect together, CY also when the destination is
`g0`; no other status bit changes. -/
def Obligations.CarryArithmetic : Prop :=
  ∀ (s : State) (l : LaneId) (d a b : Reg),
    let v := (s.lane l).view
    let x := (v.gr a).toNat
    let y := (v.gr b).toNat
    let cy := SR.CY.get v.status
    let sum := x + y + cy
    let upd (r carry : Nat) (z : Arch) : Arch := (z.setG d (BitVec.ofNat 32 r)).setSt SR.CY carry
    (Runs s l (.addc l d a b) →
      Retires s l 4 2 (upd sum (sum / 2 ^ 32)) (exec (.addc l d a b) s)) ∧
    (Runs s l (.subc l d a b) →
      Retires s l 4 2 (upd (2 ^ 33 + x - y - cy) (if x < y + cy then 1 else 0)) (exec (.subc l d a b) s))

/-- Multiplication and division (R64, R115, R116, R126): the product words, the quotients and remainders with the table
of special cases; the steps are 4 in a special case and 36 in constant-time mode, where the divisor and dividend do not
matter; no flag changes. An odd destination of a pair raises `ILLEGAL_INSTRUCTION`. -/
def Obligations.MultiplyDivide : Prop :=
  ∀ (s : State) (l : LaneId) (d a b : Reg),
    let v := (s.lane l).view
    let x := v.gr a
    let y := v.gr b
    let gives (i : Instr) (steps : Nat) (r : Word) : Prop :=
      Runs s l i → Retires s l 4 steps (fun z => z.setG d r) (exec i s)
    let pair (i : Instr) (r : DWord) : Prop :=
      (d.toNat % 2 = 0 → Runs s l i → Retires s l 4 (ctSteps 4 8 v) (fun z => z.setPair d r) (exec i s)) ∧
      (d.toNat % 2 = 1 → MayEnter s l → Runs s l i → Raises s l ⟨0x01, 3, instrBits i⟩ false 0 (exec i s))
    let sprod : DWord := BitVec.ofInt 64 (x.toInt * y.toInt)
    let uprod : DWord := BitVec.ofNat 64 (x.toNat * y.toNat)
    let special := y = 0 ∨ (x = 0x80000000 ∧ y = 0xFFFFFFFF)
    let ds := if v.st SR.CT = 1 then 36 else 4
    gives (.mul l d a b) (ctSteps 3 6 v) (BitVec.ofNat 32 (x.toNat * y.toNat)) ∧
    gives (.mulhs l d a b) (ctSteps 3 6 v) ((sprod >>> 32).setWidth 32) ∧
    gives (.mulhu l d a b) (ctSteps 3 6 v) ((uprod >>> 32).setWidth 32) ∧
    pair (.mulw l d a b) sprod ∧
    pair (.mulwu l d a b) uprod ∧
    (y = 0 →
      gives (.div l d a b) ds (if x.toInt < 0 then 0x80000000 else 0x7FFFFFFF) ∧
      gives (.divu l d a b) ds 0xFFFFFFFF ∧ gives (.rem l d a b) ds x ∧ gives (.remu l d a b) ds x) ∧
    (x = 0x80000000 → y = 0xFFFFFFFF → gives (.div l d a b) ds 0x7FFFFFFF ∧ gives (.rem l d a b) ds 0) ∧
    (¬ special → ∃ n, 4 ≤ n ∧ n ≤ 36 ∧ (v.st SR.CT = 1 → n = 36) ∧ (v.st SR.CT ≠ 1 → n ≤ 18) ∧
      gives (.div l d a b) n (BitVec.ofInt 32 (x.toInt.tdiv y.toInt)) ∧
      gives (.rem l d a b) n (BitVec.ofInt 32 (x.toInt.tmod y.toInt))) ∧
    (y ≠ 0 → ∃ n, 4 ≤ n ∧ n ≤ 36 ∧ (v.st SR.CT = 1 → n = 36) ∧ (v.st SR.CT ≠ 1 → n ≤ 18) ∧
      gives (.divu l d a b) n (BitVec.ofNat 32 (x.toNat / y.toNat)) ∧
      gives (.remu l d a b) n (BitVec.ofNat 32 (x.toNat % y.toNat)))

/-- Branches, jumps, calls and returns (R97, R98, R126): the target is the instruction's own address plus twice the signed
offset, or the register; `lk` takes the address after the instruction. A register target with bit 0 set raises
`INSTR_MISALIGNED` with the target in `EVAL`, and the jump has no effect. -/
def Obligations.BranchesAndJumps : Prop :=
  ∀ (s : State) (l : LaneId) (a b : Reg) (off : BitVec 13) (far : BitVec 26),
    let pc := (s.lane l).arch.pc
    let v := (s.lane l).view
    let x := v.gr a
    let y := v.gr b
    let goes (i : Instr) (len : Word) (taken : Prop) : Prop :=
      Runs s l i →
        (taken → Retires s l len (ctSteps 2 4 v) (fun z => { z with pc := pc + 2 * off.signExtend 32 }) (exec i s)) ∧
        (¬ taken → Retires s l len (ctSteps 2 4 v) id (exec i s))
    let through (i : Instr) (len : Word) (t : Word) (upd : Arch → Arch) : Prop :=
      Runs s l i →
        (t.toNat % 2 = 0 → Retires s l len 2 upd (exec i s)) ∧
        (t.toNat % 2 = 1 → MayEnter s l → Raises s l ⟨0x05, 3, t.toNat⟩ false 0 (exec i s))
    goes (.brEq l a b off) 4 (x = y) ∧
    goes (.brNe l a b off) 4 (x ≠ y) ∧
    goes (.brLt l a b off) 4 (x.toInt < y.toInt) ∧
    goes (.brGe l a b off) 4 (y.toInt ≤ x.toInt) ∧
    goes (.brLtu l a b off) 4 (x.toNat < y.toNat) ∧
    goes (.brGeu l a b off) 4 (y.toNat ≤ x.toNat) ∧
    (∀ f, goes (.brZ l f a off) (formLen f) (x = 0)) ∧
    (∀ f, goes (.brNz l f a off) (formLen f) (x ≠ 0)) ∧
    (Runs s l (.jmp l far) →
      Retires s l 4 2 (fun z => { z with pc := pc + 2 * far.signExtend 32 }) (exec (.jmp l far) s)) ∧
    (Runs s l (.call l far) →
      Retires s l 4 2 (fun z => { z.setG 31 (pc + 4) with pc := pc + 2 * far.signExtend 32 }) (exec (.call l far) s)) ∧
    through (.jmpr l a) 4 x (fun z => { z with pc := x }) ∧
    through (.callr l a) 4 x (fun z => { z.setG 31 (pc + 4) with pc := x }) ∧
    (∀ f, through (.ret l f) (formLen f) (v.gr 31) (fun z => { z with pc := v.gr 31 }))

/-! ### Prenyx: floating point -/

/-- Every floating-point arithmetic instruction and conversion retires on every operand (R110, R111, R119, R123): the
result of its operation under `FPSR.RM` goes to the destination file its row names, the flags it raises are added to
`FPSR` and none is cleared, and nothing else changes. -/
def Obligations.FloatArithmetic : Prop :=
  ∀ (s : State) (l : LaneId) (d a b c : Reg),
    let v := (s.lane l).view
    let rm := Fld.get ⟨7, 5⟩ v.fpsr
    let x := v.fr a
    let y := v.fr b
    let z := v.fr c
    let toF (i : Instr) (steps : Nat) (r : Word × FFlags) : Prop :=
      Runs s l i → Retires s l 4 steps (fun w => { w.setF d r.1 with fpsr := w.fpsr ||| r.2.bits }) (exec i s)
    let toG (i : Instr) (steps : Nat) (r : Word × FFlags) : Prop :=
      Runs s l i →
        Retires s l 4 steps (fun w => { w.setG d r.1 with fpsr := (w.setG d r.1).fpsr ||| r.2.bits }) (exec i s)
    let truth (r : Bool × FFlags) : Word × FFlags := (if r.1 then 1 else 0, r.2)
    toF (.fadd l d a b) 3 (fAdd rm x y) ∧
    toF (.fsub l d a b) 3 (fSub rm x y) ∧
    toF (.fmul l d a b) 3 (fMul rm x y) ∧
    toF (.fdiv l d a b) 14 (fDiv rm x y) ∧
    toF (.fsqrt l d a) 14 (fSqrt rm x) ∧
    toF (.fminn l d a b) 2 (fSelect true x y) ∧
    toF (.fmaxn l d a b) 2 (fSelect false x y) ∧
    toG (.fcmpEq l d a b) 2 (truth (fCmpEq x y)) ∧
    toG (.fcmpLt l d a b) 2 (truth (fCmpLt x y)) ∧
    toG (.fcmpLe l d a b) 2 (truth (fCmpLe x y)) ∧
    toG (.ftoi l d a) 3 (fToI rm x) ∧
    toG (.ftou l d a) 3 (fToU rm x) ∧
    toF (.itof l d a) 3 (iToF rm (v.gr a)) ∧
    toF (.utof l d a) 3 (uToF rm (v.gr a)) ∧
    toF (.fmadd l d a b c) 3 (fFma rm false x y z) ∧
    toF (.fmsub l d a b c) 3 (fFma rm true x y z) ∧
    toF (.fnmadd l d a b c) 3 (fNmadd rm x y z)

/-- The bit operations and moves between the files copy bits, raise no flag and quiet no NaN (R63, R110, R120); `FCLASS` sets
exactly the one bit of its table (R122). NaN results of the arithmetic (R117, R120, R121): the first NaN among A, B and C,
quieted, with sign and payload kept; NV exactly when an operand is signalling or, in a fused operation, the product is
0 × ∞. -/
def Obligations.FloatBitsAndNans : Prop :=
  (∀ (s : State) (l : LaneId) (d a b : Reg),
     let v := (s.lane l).view
     let x := v.fr a
     let y := v.fr b
     let e := x.toNat / 2 ^ 23 % 256
     let m := x.toNat % 2 ^ 23
     let neg := x.getLsbD 31
     let cls : Nat :=
       if e = 255 ∧ m ≠ 0 then (if m < 2 ^ 22 then 0 else 1)
       else if e = 255 then (if neg then 2 else 9)
       else if e ≠ 0 then (if neg then 3 else 8)
       else if m ≠ 0 then (if neg then 4 else 7)
       else (if neg then 5 else 6)
     let toF (i : Instr) (r : Word) : Prop := Runs s l i → Retires s l 4 2 (fun w => w.setF d r) (exec i s)
     let toG (i : Instr) (r : Word) : Prop := Runs s l i → Retires s l 4 2 (fun w => w.setG d r) (exec i s)
     toF (.fcopysign l d a b) (y.extractLsb' 31 1 ++ x.extractLsb' 0 31) ∧
     toF (.fnegsign l d a b) ((~~~ y.extractLsb' 31 1) ++ x.extractLsb' 0 31) ∧
     toF (.fxorsign l d a b) ((x.extractLsb' 31 1 ^^^ y.extractLsb' 31 1) ++ x.extractLsb' 0 31) ∧
     toG (.fmovg l d a) x ∧
     toF (.gmovf l d a) (v.gr a) ∧
     toG (.fclass l d a) (BitVec.twoPow 32 cls)) ∧
  (∀ (rm : Nat) (a b c : Word),
     let nan (w : Word) : Prop := w.toNat / 2 ^ 23 % 256 = 255 ∧ w.toNat % 2 ^ 23 ≠ 0
     let quiet (w : Word) : Word := w ||| 0x00400000
     let snan (w : Word) : Prop := nan w ∧ w.getLsbD 22 = false
     let two (r : Word × FFlags) : Prop :=
       (nan a → r.1 = quiet a) ∧ (¬ nan a → nan b → r.1 = quiet b) ∧
       (nan a ∨ nan b → (r.2.nv = true ↔ snan a ∨ snan b) ∧
         r.2.dz = false ∧ r.2.ovf = false ∧ r.2.uf = false ∧ r.2.nx = false)
     let three (r : Word × FFlags) : Prop :=
       (nan a → r.1 = quiet a) ∧ (¬ nan a → nan b → r.1 = quiet b) ∧
       (¬ nan a → ¬ nan b → nan c → r.1 = quiet c) ∧ (snan a ∨ snan b ∨ snan c → r.2.nv = true)
     two (fAdd rm a b) ∧ two (fSub rm a b) ∧ two (fMul rm a b) ∧ two (fDiv rm a b) ∧
     (nan a → (fSqrt rm a).1 = quiet a ∧ ((fSqrt rm a).2.nv = true ↔ snan a)) ∧
     three (fFma rm false a b c) ∧ three (fFma rm true a b c) ∧ three (fNmadd rm a b c) ∧
     (nan a → (fToI rm a).1 = 0x7FFFFFFF ∧ (fToU rm a).1 = 0xFFFFFFFF ∧ (fToI rm a).2.nv = true ∧ (fToU rm a).2.nv = true) ∧
     (nan a ∨ nan b → (fCmpEq a b).1 = false ∧ (fCmpLt a b) = (false, { nv := true }) ∧ (fCmpLe a b) = (false, { nv := true }) ∧
       ((fCmpEq a b).2.nv = true ↔ snan a ∨ snan b)))


/-! ### Prenyx: loads and stores -/

/-- Loads (R64, R73, R96): the bytes at g[A] + sx(OFF), from the store buffer or from the data cache, extended as the form
says, are written after the next instruction has read its operands; `LD.D` writes its pair at once. A misaligned address
raises `LOAD_MISALIGNED`, an odd destination of `LD.D` `ILLEGAL_INSTRUCTION`. -/
def Obligations.LoadResults : Prop :=
  ∀ (s : State) (l : LaneId) (d a : Reg) (off : BitVec 13) (pa v : Nat),
    let va := ((s.lane l).view.gr a + off.signExtend 32).toNat
    let reads (size : Nat) : Prop :=
      Unbegun (s.lane l) ∧ Reaches s l va size .load pa ∧
        (Forwarded (s.lane l) pa size v ∨ CacheHit s l pa size v)
    let delayed (i : Instr) (len : Word) (size : Nat) (reg : RegId) (w : Word) : Prop :=
      (Runs s l i → reads size → Loads s l len 2 id (some ⟨reg, w⟩) (exec i s)) ∧
      (Runs s l i → Unbegun (s.lane l) → MayEnter s l → va % size ≠ 0 → Raises s l ⟨0x08, 1, va⟩ false 0 (exec i s))
    delayed (.ldB l d a off) 4 1 (.g d) ((BitVec.ofNat 8 v).signExtend 32) ∧
    delayed (.ldH l d a off) 4 2 (.g d) ((BitVec.ofNat 16 v).signExtend 32) ∧
    delayed (.ldBu l d a off) 4 1 (.g d) (BitVec.ofNat 32 v) ∧
    delayed (.ldHu l d a off) 4 2 (.g d) (BitVec.ofNat 32 v) ∧
    delayed (.ldF l d a off) 4 4 (.f d) (BitVec.ofNat 32 v) ∧
    (∀ f, delayed (.ldW l f d a off) (formLen f) 4 (.g d) (BitVec.ofNat 32 v)) ∧
    (d.toNat % 2 = 0 → Runs s l (.ldD l d a off) → reads 8 →
      Loads s l 4 3 (fun z => z.setPair d (BitVec.ofNat 64 v)) none (exec (.ldD l d a off) s)) ∧
    (d.toNat % 2 = 0 → Runs s l (.ldD l d a off) → Unbegun (s.lane l) → MayEnter s l → va % 8 ≠ 0 →
      Raises s l ⟨0x08, 1, va⟩ false 0 (exec (.ldD l d a off) s)) ∧
    (d.toNat % 2 = 1 → Runs s l (.ldD l d a off) → MayEnter s l →
      Raises s l ⟨0x01, 3, instrBits (.ldD l d a off)⟩ false 0 (exec (.ldD l d a off) s))

/-- Stores (R64, R96, R132, R235): the low bytes of the source retire into the lane's store buffer as one record; memory is
written only when the record has been voted. A full buffer makes the store wait, a misaligned address raises
`STORE_MISALIGNED`, an odd source of `ST.D` `ILLEGAL_INSTRUCTION`. -/
def Obligations.StoreResults : Prop :=
  ∀ (s : State) (l : LaneId) (b a : Reg) (off : BitVec 13) (pa : Nat),
    let v := (s.lane l).view
    let va := (v.gr a + off.signExtend 32).toNat
    let room : Prop := (s.lane l).sb.length < 8 ∧
      ((s.lane l).save ≠ none → lineOf pa ∈ (s.lane l).txLines ∨ (s.lane l).txLines.length < 128)
    let puts (i : Instr) (len : Word) (steps size w : Nat) : Prop :=
      (Runs s l i → Reaches s l va size .store pa → room → Stores s l len steps pa size w (exec i s)) ∧
      (Runs s l i → Reaches s l va size .store pa → (s.lane l).save = none → 8 ≤ (s.lane l).sb.length →
        Waits s l i (exec i s)) ∧
      (Runs s l i → MayEnter s l → va % size ≠ 0 → Raises s l ⟨0x0B, 2, va⟩ false 0 (exec i s))
    puts (.stB l b a off) 4 2 1 (v.gr b).toNat ∧
    puts (.stH l b a off) 4 2 2 (v.gr b).toNat ∧
    puts (.stF l b a off) 4 2 4 (v.fr b).toNat ∧
    (∀ f, puts (.stW l f b a off) (formLen f) 2 4 (v.gr b).toNat) ∧
    (b.toNat % 2 = 0 → puts (.stD l b a off) 4 3 8 ((v.gr b).toNat + 2 ^ 32 * (v.gr (b + 1)).toNat)) ∧
    (b.toNat % 2 = 1 → Runs s l (.stD l b a off) → MayEnter s l →
      Raises s l ⟨0x01, 3, instrBits (.stD l b a off)⟩ false 0 (exec (.stD l b a off) s))

/-- `CALLM` (R77, R78): with room in the store buffer for every push, the return address and then `g29` down to `g16` of the
mask are stored at descending addresses from `sp`; `sp`, `lk` and `pc` change only then. An odd target raises
`INSTR_MISALIGNED` before any other check, a mask with bit 14 or 15 `ILLEGAL_INSTRUCTION`, a misaligned `sp`
`STORE_MISALIGNED` (`EVAL` is the model's choice, assumption log 21), each before any push. `RETM` (R77, R78): with every word
still in the store buffer, the registers of the mask from `g16` up and then `lk` are loaded from ascending addresses, and no
register changes before the last; an odd `lk` raises `INSTR_MISALIGNED` with the loaded value and changes no register. -/
def Obligations.CallmAndRetm : Prop :=
  (∀ (s : State) (l : LaneId) (t : Reg) (mask : BitVec 16) (pa : Nat → Nat),
     let v := (s.lane l).view
     let sp := v.gr 30
     let i : Instr := .callm l t mask
     let saved : List Reg := ((List.range 14).reverse.filter (fun k => mask.getLsbD k)).map (fun k => BitVec.ofNat 5 (16 + k))
     let vals : List Word := ((s.lane l).arch.pc + 4) :: saved.map v.gr
     let at_ (k : Nat) : Nat := (sp - BitVec.ofNat 32 (4 * (k + 1))).toNat
     Runs s l i →
       ((v.gr t).toNat % 2 = 1 → MayEnter s l → Raises s l ⟨0x05, 3, (v.gr t).toNat⟩ false 0 (exec i s)) ∧
       ((v.gr t).toNat % 2 = 0 → 2 ^ 14 ≤ mask.toNat → MayEnter s l →
         Raises s l ⟨0x01, 3, instrBits i⟩ false 0 (exec i s)) ∧
       ((v.gr t).toNat % 2 = 0 → mask.toNat < 2 ^ 14 → sp.toNat % 4 ≠ 0 → MayEnter s l →
         Raises s l ⟨0x0B, 2, (sp - 4).toNat⟩ false 0 (exec i s)) ∧
       ((v.gr t).toNat % 2 = 0 → mask.toNat < 2 ^ 14 → sp.toNat % 4 = 0 → Unbegun (s.lane l) → (s.lane l).save = none →
         (∀ k < vals.length, Reaches s l (at_ k) 4 .store (pa k)) → (s.lane l).sb.length + vals.length ≤ 8 →
         ∃ (y : Lane) (rs : List StoreRec), exec i s = .next (s.withLane l y) ∧
           RetiredLane (s.lane l) y 4 (3 + vals.length)
             (fun z => { (z.setG 30 (sp - BitVec.ofNat 32 (4 * vals.length))).setG 31 ((s.lane l).arch.pc + 4) with
               pc := v.gr t }) none ∧
           y.sb = (s.lane l).sb ++ rs.map (fun r => { item := .store r }) ∧ rs.length = vals.length ∧
           y.storeSeq = (s.lane l).storeSeq + vals.length ∧
           ∀ k r w, rs[k]? = some r → vals[k]? = some w →
             IsRecord r ((s.lane l).storeSeq + k) (pa k) 4 w.toNat false)) ∧
  (∀ (s : State) (l : LaneId) (mask : BitVec 16) (pa vals : Nat → Nat),
     let sp := (s.lane l).view.gr 30
     let i : Instr := .retm l mask
     let regs : List Reg := ((List.range 14).filter (fun k => mask.getLsbD k)).map (fun k => BitVec.ofNat 5 (16 + k))
     let n := regs.length
     let lk := BitVec.ofNat 32 (vals n)
     Runs s l i →
       (2 ^ 14 ≤ mask.toNat → MayEnter s l → Raises s l ⟨0x01, 3, instrBits i⟩ false 0 (exec i s)) ∧
       (mask.toNat < 2 ^ 14 → sp.toNat % 4 ≠ 0 → MayEnter s l → Raises s l ⟨0x08, 1, sp.toNat⟩ false 0 (exec i s)) ∧
       (mask.toNat < 2 ^ 14 → sp.toNat % 4 = 0 →
         (∀ k ≤ n, Reaches s l (sp + BitVec.ofNat 32 (4 * k)).toNat 4 .load (pa k) ∧
           Forwarded (s.lane l) (pa k) 4 (vals k)) →
         (lk.toNat % 2 = 0 →
           Retires s l 4 (4 + n) (fun z =>
             let z := (regs.zipIdx).foldl (fun z e => z.setG e.1 (BitVec.ofNat 32 (vals e.2))) z
             { (z.setG 30 (sp + BitVec.ofNat 32 (4 * (n + 1)))).setG 31 lk with pc := lk }) (exec i s)) ∧
         (lk.toNat % 2 = 1 → MayEnter s l → Raises s l ⟨0x05, 3, lk.toNat⟩ false 0 (exec i s))))


/-! ### Prenyx: exceptions, control registers, waits -/

/-- Instructions whose effect is an exception, and the return from one (R81 to R83, R87, R88, R100, R76). `TRAP` and `BRK`
enter with their own cause; `TRAP` from 0x80 at level S in the manager partition targets M. An undefined encoding raises
`ILLEGAL_INSTRUCTION` with its bits. A fetch at an odd address, without execute permission or outside every window raises
its fault with the fetch address. `XRET` restores `pc` from `EPC` and `STATUS` from `ESTATUS` but for SPLIT and TX, and
feeds the delayed register its old value; at level U, or from S to M, it raises `PRIVILEGE`. An exception while EXL is 1 is a
double exception: the SPLIT core, or all three lanes of the triad, halt with their registers unchanged, and the fault of
their cluster is reported as contained with syndrome 0x0A. -/
def Obligations.TrapsAndReturn : Prop :=
  (∀ (s : State) (l : LaneId),
     let x := s.lane l
     let a := x.arch
     let p := (s.chip.partOf l.t).getD 0
     (∀ f n, Runs s l (.trap l f n) → MayEnter s l →
       Raises s l ⟨0x03, 3, n.toNat⟩
         (a.pl == 1 && (s.chip.partOf l.t).any (fun p => s.chip.isMgrPart p) && decide (0x80 ≤ n.toNat)) 6
         (exec (.trap l f n) s)) ∧
     (Runs s l (.brk l) → MayEnter s l → (s.chip.triad l.t).holdAt = none →
       Raises s l ⟨0x04, 3, a.pc.toNat⟩ false 4 (exec (.brk l) s)) ∧
     (∀ f w, s.chip.laneFree l = true → Calm s l → x.waiting = none → MayEnter s l → decodePrenyx l f w.toNat = none →
       Raises s l ⟨0x01, 3, w.toNat⟩ false 0 (exec (.undefinedEncoding l f w) s)) ∧
     (∀ f, s.chip.laneFree l = true → Calm s l → x.waiting = none → MayEnter s l →
       (a.pc.toNat % 2 = 1 → Raises s l ⟨0x05, 0, a.pc.toNat⟩ false 0 (exec (.instructionFetchFault l f) s)) ∧
       (∀ e, a.pc.toNat % 2 = 0 →
         x.itlb.find? (fun e => e.hits p (a.asid.setWidth 8) a.pc.toNat) = some e →
         (permits e.u e.x e.w e.r .fetch a.pl = false →
           Raises s l ⟨0x06, 0, a.pc.toNat⟩ false 0 (exec (.instructionFetchFault l f) s)) ∧
         (permits e.u e.x e.w e.r .fetch a.pl = true →
           s.chip.window p (e.page * 4096 + a.pc.toNat % 2 ^ pageBits e.lvl) .fetch = none →
           Raises s l ⟨0x0F, 0, a.pc.toNat⟩ false 0 (exec (.instructionFetchFault l f) s)))) ∧
     (Runs s l (.xret l) → MayEnter s l → (a.pl = 0 ∨ (a.pl = 1 ∧ SR.PL.get a.estatus = 2)) →
       Raises s l ⟨0x02, 3, instrBits (.xret l)⟩ false 0 (exec (.xret l) s)) ∧
     (Runs s l (.xret l) → x.save = none → a.pl ≠ 0 → ¬ (a.pl = 1 ∧ SR.PL.get a.estatus = 2) →
       ∃ y, exec (.xret l) s = .next (s.withLane l y) ∧ y.arch.pc = a.epc ∧
         y.arch.st SR.SPLIT = a.st SR.SPLIT ∧ y.arch.st SR.TX = a.st SR.TX ∧ y.arch.pl = SR.PL.get a.estatus ∧
         y.arch.st SR.EXL = SR.EXL.get a.estatus ∧ y.arch.st SR.EIE = SR.EIE.get a.estatus ∧
         y.arch.st SR.CY = SR.CY.get a.estatus ∧ y.arch.st SR.CT = SR.CT.get a.estatus ∧
         y.arch.st SR.LDS = SR.LDS.get a.estatus ∧
         y.arch.g = x.landed.g ∧ y.arch.f = x.landed.f ∧ y.retired = x.retired + 1 ∧ y.steps = x.steps + 6 ∧
         y.waiting = none ∧ LaneFrame x y ∧
         (a.st SR.LDS = 1 → ∃ r, y.feed = some ⟨r, a.excShadow⟩ ∧
           r = if a.st SR.LDF = 1 then .f (BitVec.ofNat 5 (a.st SR.LDREG)) else .g (BitVec.ofNat 5 (a.st SR.LDREG))) ∧
         (a.st SR.LDS = 0 → y.feed = none))) ∧
  (∀ (s : State) (l : LaneId) (f : Form) (n : BitVec 8),
     Runs s l (.trap l f n) → (s.lane l).arch.st SR.EXL = 1 →
       let ks := if s.chip.split l.t then [laneKey l] else [3 * l.t.val, 3 * l.t.val + 1, 3 * l.t.val + 2]
       (∀ k ∈ ks, (s.chip.lane k).halted = false) →
       ∃ t, exec (.trap l f n) s = .next t ∧
         (∀ k ∈ ks, (t.chip.lane k).halted = true ∧ (t.chip.lane k).arch = (s.chip.lane k).arch ∧
           (t.chip.lane k).retired = (s.chip.lane k).retired) ∧
         (∀ k, k ∉ ks → t.chip.lane k = s.chip.lane k) ∧
         t.chip.mem = s.chip.mem ∧ t.now = s.now ∧ t.pending = s.pending ∧
         t.chip.sticky (l.t / 4) 1 = true ∧ t.chip.gf (.CLU_FSYND l.t) CLU_FSYND.CODE = 0x0A ∧
         t.chip.gf (.CLU_FSYND l.t) CLU_FSYND.CLASS = 1)

/-- Control registers (R66 to R71, R103, R104): each is read with the value the core holds and written under its access
rule; a number outside the table raises `ILLEGAL_INSTRUCTION`, a level too low `PRIVILEGE`. `CRD` of `TIMEBASE` and
`TXSTATUS`, and `TSTAT`, are direct reads on a SPLIT core. `SAMPLE` raises `LANE_LOCAL` in a triad and reads the core's own
state on a SPLIT core. -/
def Obligations.ControlRegisters : Prop :=
  ∀ (s : State) (l : LaneId) (d : Reg) (num : BitVec 12),
    let x := s.lane l
    let a := x.arch
    let v := x.view.gr d
    let crd : Instr := .crd l d num
    let cwr : Instr := .cwr l num d
    let unknown (n : Nat) : Prop :=
      n ∉ [0x000, 0x001, 0x002, 0x003, 0x004, 0x005, 0x006, 0x007, 0x008, 0x009, 0x010, 0x011, 0x020, 0x030, 0x040, 0x041,
        0x050, 0x051, 0x052]
    let level (n : Nat) : Nat :=
      if n = 0x007 ∨ n = 0x009 then 2 else if n = 0x000 ∨ 0x020 ≤ n then 0 else 1
    let reads (n : Nat) (w : Arch → Word) : Prop :=
      num.toNat = n → level n ≤ a.pl → Runs s l crd → Retires s l 4 3 (fun z => z.setG d (w z)) (exec crd s)
    let writes (n : Nat) (upd : Arch → Arch) : Prop :=
      num.toNat = n → level n ≤ a.pl → x.save = none → Runs s l cwr → Retires s l 4 3 upd (exec cwr s)
    (unknown num.toNat → MayEnter s l →
      (Runs s l crd → Raises s l ⟨0x01, 3, instrBits crd⟩ false 0 (exec crd s)) ∧
      (Runs s l cwr → Raises s l ⟨0x01, 3, instrBits cwr⟩ false 0 (exec cwr s))) ∧
    (¬ unknown num.toNat → a.pl < level num.toNat → MayEnter s l →
      (Runs s l crd → Raises s l ⟨0x02, 3, instrBits crd⟩ false 0 (exec crd s)) ∧
      (Runs s l cwr → Raises s l ⟨0x02, 3, instrBits cwr⟩ false 0 (exec cwr s))) ∧
    reads 0x000 (·.status) ∧ reads 0x001 (·.estatus) ∧ reads 0x002 (·.epc) ∧ reads 0x003 (·.ecause) ∧
    reads 0x004 (·.eval) ∧ reads 0x005 (·.excShadow) ∧ reads 0x006 (·.vbr) ∧ reads 0x007 (·.mvbr) ∧
    reads 0x008 (·.sscratch) ∧ reads 0x009 (·.mscratch) ∧ reads 0x010 (·.ptbr) ∧ reads 0x011 (·.asid) ∧
    reads 0x020 (·.fpsr) ∧ reads 0x041 (·.bargroup) ∧
    reads 0x050 (fun _ => if s.chip.split l.t then BitVec.ofNat 32 l.i else 0) ∧
    writes 0x002 (fun z => { z with epc := v &&& 0xFFFFFFFE }) ∧
    writes 0x003 (fun z => { z with ecause := v &&& 0xC00003FF }) ∧
    writes 0x004 (fun z => { z with eval := v }) ∧ writes 0x005 (fun z => { z with excShadow := v }) ∧
    writes 0x006 (fun z => { z with vbr := v &&& 0xFFFFFE00 }) ∧ writes 0x007 (fun z => { z with mvbr := v &&& 0xFFFFFE00 }) ∧
    writes 0x008 (fun z => { z with sscratch := v }) ∧ writes 0x009 (fun z => { z with mscratch := v }) ∧
    writes 0x010 (fun z => { z with ptbr := v }) ∧ writes 0x011 (fun z => { z with asid := v &&& 0xFF }) ∧
    writes 0x030 id ∧ writes 0x040 id ∧ writes 0x050 id ∧ writes 0x051 id ∧ writes 0x052 id ∧
    (num.toNat = 0x020 → x.save = none → Runs s l cwr →
      Retires s l 4 3 (fun z => { z with fpsr :=
        (if 5 ≤ Fld.get ⟨7, 5⟩ v then Fld.put ⟨7, 5⟩ (v &&& 0xFF) (Fld.get ⟨7, 5⟩ z.fpsr) else v &&& 0xFF) }) (exec cwr s)) ∧
    (s.chip.split l.t = true →
      (num.toNat = 0x030 → d.toNat % 2 = 0 → Runs s l crd →
        Retires s l 4 3 (fun z => z.setPair d (BitVec.ofNat 64 (s.chip.timeNow s.now.toNat))) (exec crd s)) ∧
      reads 0x040 (·.txstatus) ∧
      (Runs s l (.tstat l d) → Retires s l 4 3 (fun z => z.setG d z.txstatus) (exec (.tstat l d) s)) ∧
      (Runs s l (.sample l d 2) →
        Retires s l 4 4 (fun z => z.setG d (BitVec.ofNat 32 x.retired)) (exec (.sample l d 2) s)) ∧
      (Runs s l (.sample l d 1) →
        Retires s l 4 4 (fun z => z.setG d (BitVec.ofNat 32 (s.chip.coreOf l.t l.i % 13))) (exec (.sample l d 1) s))) ∧
    (num.toNat = 0x030 → d.toNat % 2 = 1 → MayEnter s l → Runs s l crd →
      Raises s l ⟨0x01, 3, instrBits crd⟩ false 0 (exec crd s)) ∧
    (∀ sel, s.chip.split l.t = false → MayEnter s l → Runs s l (.sample l d sel) →
      Raises s l ⟨0x12, 3, instrBits (.sample l d sel)⟩ false 0 (exec (.sample l d sel) s))

/-- A `STATUS` write by `CWR` (R67, R68): level U changes CT and CY alone; PL is never raised, reserved bits, SPLIT and TX
never change. -/
def Obligations.StatusWriteRule : Prop :=
  ∀ (s : State) (l : LaneId) (g : Reg),
    Runs s l (.cwr l 0 g) →
      ∃ y, exec (.cwr l 0 g) s = .next (s.withLane l y) ∧ LaneFrame (s.lane l) y ∧
        let a := (s.lane l).arch
        let w := (s.lane l).view.gr g
        y.arch.st SR.CY = SR.CY.get w ∧ y.arch.st SR.CT = SR.CT.get w ∧
        y.arch.st SR.SPLIT = a.st SR.SPLIT ∧ y.arch.st SR.TX = a.st SR.TX ∧
        Fld.get ⟨31, 18⟩ y.arch.status = Fld.get ⟨31, 18⟩ a.status ∧ Fld.get ⟨6, 4⟩ y.arch.status = Fld.get ⟨6, 4⟩ a.status ∧
        y.arch.pl ≤ a.pl ∧
        (a.pl = 0 → y.arch.st SR.EIE = a.st SR.EIE ∧ y.arch.st SR.EXL = a.st SR.EXL ∧ y.arch.pl = 0) ∧
        (1 ≤ a.pl → y.arch.st SR.EIE = SR.EIE.get w ∧ y.arch.st SR.EXL = SR.EXL.get w ∧
          y.arch.pl = if SR.PL.get w ≤ a.pl ∧ SR.PL.get w ≠ 3 then SR.PL.get w else a.pl)

/-- Agreed reads in a triad (R175, R176): the first execution forms the request with the lane's read sequence number and
waits; once every part of it is there, the result in the sluice's buffer completes the instruction, the next read takes the
next number, and a result no lane still needs is released. Stated for `TSTAT`, `CRD` of `TXSTATUS` and of `TIMEBASE`. -/
def Obligations.AgreedReads : Prop :=
  ∀ (s : State) (l : LaneId) (d : Reg),
    s.chip.split l.t = false →
    let x := s.lane l
    let asks (i : Instr) (kind : ARKind) : Prop :=
      Runs s l i → x.areq = none →
        ∃ y, exec i s = .next (s.withLane l y) ∧ y.areq = some ⟨kind, x.readSeq⟩ ∧ y.presented = false ∧
          y.waiting = some i ∧ y.arch = x.arch ∧ y.retired = x.retired ∧ LaneFrame x y
    let takes (i : Instr) (kind : ARKind) (upd : DWord → Arch → Arch) : Prop :=
      ∀ v, Runs s l i → x.areq = some ⟨kind, x.readSeq⟩ → x.presented = true →
        (s.chip.triad l.t).ares.find? (fun e => x.presented && e.req == ⟨kind, x.readSeq⟩) =
          some { req := ⟨kind, x.readSeq⟩, value := v, err := false } →
        ∃ t, exec i s = .next t ∧ RetiredLane x (t.lane l) 4 3 (upd v) none ∧ (t.lane l).readSeq = x.readSeq + 1 ∧
          (t.lane l).sb = x.sb ∧ (t.lane l).dcache = x.dcache ∧ t.chip.mem = s.chip.mem ∧ t.chip.regs = s.chip.regs ∧
          (∀ k, k ≠ laneKey l → t.chip.lane k = s.chip.lane k)
    asks (.tstat l d) .txstatus ∧ asks (.crd l d 0x040) .txstatus ∧
    (d.toNat % 2 = 0 → asks (.crd l d 0x030) .timebase) ∧
    takes (.tstat l d) .txstatus (fun v z => z.setG d (v.setWidth 32)) ∧
    takes (.crd l d 0x040) .txstatus (fun v z => z.setG d (v.setWidth 32)) ∧
    (d.toNat % 2 = 0 → takes (.crd l d 0x030) .timebase (fun v z => z.setPair d v))

/-! ### Prenyx: waits, fences, barriers, caches, translation, transactions -/

/-- Waiting instructions (R101, R102, R107 levels, R109). `WAITEV` retires at once on a SPLIT core with an event pending,
deliverable or not, and waits with none; `WAITTURN` without a hint writes 0 and retires at once, with one it writes the
hint and sleeps for its estimate; the end of the sleep retires it. Level U may not use `WAITTURN`. -/
def Obligations.EventAndTurnWaits : Prop :=
  ∀ (s : State) (l : LaneId) (d : Reg),
    let x := s.lane l
    let p := s.chip.port (laneKey l)
    let wt : Instr := .waitturn l d
    (s.chip.mayRun l (.waitev l) = true → s.chip.split l.t = true → p.tx.pendAbort = none → p.dwe = [] →
      p.pend ≠ [] → x.arch.st SR.EIE = 0 → x.save = none → x.replay = [] →
      ∃ y, exec (.waitev l) s = .next (s.withLane l y) ∧ RetiredLane x y 4 3 id none ∧ LaneFrame x y) ∧
    (Runs s l (.waitev l) → x.save = none → x.replay = [] → (s.chip.port (s.chip.portKey l.t l.i)).pend = [] →
      Waits s l (.waitev l) (exec (.waitev l) s)) ∧
    (Runs s l wt → MayEnter s l → x.arch.pl = 0 → Raises s l ⟨0x02, 3, instrBits wt⟩ false 0 (exec wt s)) ∧
    (Runs s l wt → x.arch.pl ≠ 0 → x.save = none → x.sleepTill = none → s.chip.split l.t = true →
      (p.hint = none → ∃ t, exec wt s = .next t ∧ RetiredLane x (t.lane l) 4 3 (fun z => z.setG d 0) none ∧
        t.chip.mem = s.chip.mem ∧ t.chip.regs = s.chip.regs) ∧
      (∀ h, p.hint = some h → 0 < h.wait → h.wait ≤ 0xFFFF →
        ∃ t, exec wt s = .next t ∧ (t.lane l).sleepTill = some (s.now.toNat + h.wait) ∧
          (t.lane l).waiting = some wt ∧ (t.chip.port (laneKey l)).hint = none ∧ (t.lane l).arch = x.arch ∧
          t.chip.mem = s.chip.mem)) ∧
    (∀ till v, s.chip.laneFree l = true → Calm s l → s.chip.split l.t = true → x.waiting = some wt →
      x.sleepTill = some till → x.devResult = some (v, false) → till ≤ s.now.toNat →
      Retires s l 4 3 (fun z => z.setG d (v.setWidth 32)) (exec (.waitturnSleepEnd l) s))

/-- Fences (R238, R239, R241): each retires when its condition on the lane's earlier stores and device writes holds, and
waits otherwise; with the store buffer empty and nothing of the requester under way all conditions hold. `FENCE.I` also
empties the lane's instruction cache. `BARWAIT` (R71, R242, R243, R245): of a group the lane is no member of it raises
`BARRIER_GROUP` with the group; a lane whose arrival is recorded waits until its round has ended, then retires; a SPLIT core
that has not arrived waits while the conditions of `FENCE.ALL` do not hold. -/
def Obligations.FencesAndBarriers : Prop :=
  (∀ (s : State) (l : LaneId),
     let x := s.lane l
     let p := s.chip.port (s.chip.portKey l.t l.i)
     let mem := (∀ r ∈ x.stores, r.txn = true) ∧ (∀ r ∈ p.outq, r.txn = true ∨ x.storeSeq ≤ r.seq) ∧
       (∀ w ∈ p.devOut, x.storeSeq ≤ w.seq)
     let dev := (∀ r ∈ x.stores, r.txn = false → r.dev = false) ∧ (∀ r ∈ p.outq, r.dev = true → x.storeSeq ≤ r.seq) ∧
       (∀ w ∈ p.devOut, x.storeSeq ≤ w.seq)
     let fence (i : Instr) (ok : Prop) : Prop :=
       Runs s l i → (ok → Retires s l 4 2 id (exec i s)) ∧ (¬ ok → Waits s l i (exec i s))
     fence (.fenceSl l) mem ∧ fence (.fenceD l) dev ∧ fence (.fenceAll l) (mem ∧ dev) ∧
     (x.stores = [] → p.outq = [] → p.devOut = [] → mem ∧ dev) ∧
     (Runs s l (.fenceI l) → x.save = none → (¬ mem → Waits s l (.fenceI l) (exec (.fenceI l) s)) ∧
       (mem → ∃ y, exec (.fenceI l) s = .next (s.withLane l y) ∧ RetiredLane x y 4 2 id none ∧
         (∀ n, y.icache.find n = none) ∧ y.dcache = x.dcache ∧ y.sb = x.sb ∧ y.itlb = x.itlb))) ∧
  (∀ (s : State) (l : LaneId) (g : BitVec 4),
     let x := s.lane l
     let i : Instr := .barwait l g
     Runs s l i →
       (x.arch.bargroup.getLsbD g.toNat = false → g.toNat ∉ x.barIn → x.areq = none → MayEnter s l →
         Raises s l ⟨0x13, 3, g.toNat⟩ false 0 (exec i s)) ∧
       (g.toNat ∈ x.barIn → g.toNat ∉ x.barDone → Waits s l i (exec i s)) ∧
       (g.toNat ∈ x.barIn → g.toNat ∈ x.barDone →
         ∃ y, exec i s = .next (s.withLane l y) ∧ RetiredLane x y 4 3 id none ∧ g.toNat ∉ y.barIn ∧
           y.barDone = x.barDone.erase g.toNat ∧ y.sb = x.sb ∧ y.dcache = x.dcache) ∧
       (x.arch.bargroup.getLsbD g.toNat = true → g.toNat ∉ x.barIn → x.save = none → x.areq = none →
         s.chip.fencedAll (laneKey l) = false → Waits s l i (exec i s)))

/-- `CACHE` by set and way (R106, R187): clean leaves the cache as it is, invalidate and clean-and-invalidate empty the way,
each at level S or M; clean of the instruction cache, and a set or way beyond the cache, raise `ILLEGAL_INSTRUCTION`; level
U raises `PRIVILEGE`. `TLBINV` (R107, R204) drops the partition's translations its form names, on every core of the
partition. Memory and the registers keep their values. -/
def Obligations.CacheAndTlbMaintenance : Prop :=
  ∀ (s : State) (l : LaneId) (a : Reg),
    let x := s.lane l
    let w := x.view.gr a
    let set := w.toNat / 2 ^ 8 % 128
    let way := w.toNat % 8
    let p := (s.chip.partOf l.t).getD 0
    let ops : List (Bool → Instr) :=
      [fun ic => .cacheClean l .setWay ic a 0, fun ic => .cacheInvalidate l .setWay ic a 0,
       fun ic => .cacheCleanInvalidate l .setWay ic a 0]
    let drops (i : Instr) (gone : TlbE → Prop) (walk : WalkE → Prop) : Prop :=
      (x.arch.pl = 0 → MayEnter s l → Runs s l i → Raises s l ⟨0x02, 3, instrBits i⟩ false 0 (exec i s)) ∧
      (x.arch.pl ≠ 0 → x.save = none → Runs s l i → ∃ t, exec i s = .next t ∧
        (t.lane l).retired = x.retired + 1 ∧ (t.lane l).arch.g = x.landed.g ∧ t.chip.mem = s.chip.mem ∧
        t.chip.regs = s.chip.regs ∧
        ∀ u j, u < 32 → j < 3 → s.chip.ownsTriad p u = true → ∀ e,
          (e ∈ (t.chip.lane (3 * u + j)).dtlb ↔ e ∈ (s.chip.lane (3 * u + j)).dtlb ∧ ¬ (e.part.toNat = p ∧ gone e)) ∧
          (e ∈ (t.chip.lane (3 * u + j)).itlb ↔ e ∈ (s.chip.lane (3 * u + j)).itlb ∧ ¬ (e.part.toNat = p ∧ gone e)) ∧
          ∀ k, k ∈ (t.chip.lane (3 * u + j)).walkc ↔ k ∈ (s.chip.lane (3 * u + j)).walkc ∧ ¬ (k.part.toNat = p ∧ walk k))
    (x.arch.pl ≠ 0 → x.save = none → x.stores = [] → set < 64 → way < 8 → x.dcache.ways = 8 →
      (Runs s l (.cacheClean l .setWay false a 0) →
        Retires s l 4 3 id (exec (.cacheClean l .setWay false a 0) s)) ∧
      (∀ i ∈ [(Instr.cacheInvalidate l .setWay false a 0), .cacheCleanInvalidate l .setWay false a 0], Runs s l i →
        ∃ y, exec i s = .next (s.withLane l y) ∧ RetiredLane x y 4 3 id none ∧ y.icache = x.icache ∧ y.sb = x.sb ∧
          ∀ e, x.dcache.at set way = some e → e.line % 64 = set → x.dcache.way? e.line = some way →
            y.dcache.at set way = none)) ∧
    (∀ i ∈ ops, x.arch.pl = 0 → set < 64 → way < 8 → x.dcache.ways = 8 → MayEnter s l → Runs s l (i false) →
      Raises s l ⟨0x02, 3, instrBits (i false)⟩ false 0 (exec (i false) s)) ∧
    (∀ i ∈ ops, 64 ≤ set → x.dcache.ways = 8 → MayEnter s l → Runs s l (i false) →
      Raises s l ⟨0x01, 3, instrBits (i false)⟩ false 0 (exec (i false) s)) ∧
    (MayEnter s l → Runs s l (.cacheClean l .setWay true a 0) →
      Raises s l ⟨0x01, 3, instrBits (.cacheClean l .setWay true a 0)⟩ false 0 (exec (.cacheClean l .setWay true a 0) s)) ∧
    drops (.tlbinvAddress l a) (fun e => (e.global = true ∨ e.asid = x.view.asid.setWidth 8) ∧
      e.vpage = vpageOf w.toNat e.lvl) (fun _ => False) ∧
    drops (.tlbinvAddressSpace l a) (fun e => e.global = false ∧ e.asid = w.setWidth 8) (fun e => e.asid = w.setWidth 8) ∧
    drops (.tlbinvAll l) (fun _ => True) (fun _ => True) ∧
    drops (.tlbinvWalkCache l) (fun _ => False) (fun _ => True)

/-- Transactions as one lane executes them (R108, R252, R253, R263, R266). `TBEGIN` at depth 0 saves the registers and opens
the transaction with its handler, at depth 1 to 14 only deepens it; `TEND` above depth 1 only closes a level, at depth 0
raises `ILLEGAL_INSTRUCTION`, and at depth 1 makes the commit record and waits for the commit; `TABORT` outside a transaction does
nothing, inside it restores the saved registers but for `TXSTATUS`, with the code and cause, and goes to the handler. The
retired count, the store sequence and the read sequence are not restored. -/
def Obligations.TransactionInstructions : Prop :=
  ∀ (s : State) (l : LaneId) (off : BitVec 15) (code : BitVec 8),
    let x := s.lane l
    let d := x.arch.depth
    (Runs s l (.tbegin l off) → s.chip.split l.t = true → d = 0 → s.chip.gb (.CLU_L1CTL l.t) CLU_L1CTL.DACT = true →
      ∃ t, exec (.tbegin l off) s = .next t ∧ (t.lane l).save = some x.landed ∧
        (t.lane l).arch.pc = x.landed.pc + 4 ∧ (t.lane l).arch.handler = x.landed.pc + 2 * off.signExtend 32 ∧
        (t.lane l).arch.depth = 1 ∧ (t.lane l).arch.st SR.TX = 1 ∧ SR.ACTIVE.get (t.lane l).arch.txstatus = 1 ∧
        SR.ABORTED.get (t.lane l).arch.txstatus = 0 ∧ (t.lane l).arch.g = x.landed.g ∧
        (t.lane l).retired = x.retired + 1 ∧ (t.chip.port (laneKey l)).tx.wset = [] ∧
        (t.chip.port (laneKey l)).tx.rset = [] ∧ t.chip.mem = s.chip.mem) ∧
    (Runs s l (.tbegin l off) → 1 ≤ d → d ≤ 14 →
      Retires s l 4 4 (fun z => { z with txstatus := SR.DEPTH.put z.txstatus (d + 1) }) (exec (.tbegin l off) s)) ∧
    (Runs s l (.tend l) → d = 0 → MayEnter s l →
      Raises s l ⟨0x01, 3, instrBits (.tend l)⟩ false 0 (exec (.tend l) s)) ∧
    (Runs s l (.tend l) → 2 ≤ d →
      Retires s l 4 5 (fun z => { z with txstatus := SR.DEPTH.put z.txstatus (d - 1) }) (exec (.tend l) s)) ∧
    (Runs s l (.tend l) → d = 1 → x.progress = 0 → x.sb.length < 8 →
      ∃ y r, exec (.tend l) s = .next (s.withLane l y) ∧ y.sb = x.sb ++ [{ item := .commit r }] ∧
        r.seq = x.storeSeq ∧ r.lines = x.txLines.length ∧ r.digest = digestCrc x.landed x.retired ∧
        y.storeSeq = x.storeSeq + 1 ∧ y.waiting = some (.tend l) ∧ y.retired = x.retired ∧ y.arch = x.landed) ∧
    (∀ r, s.chip.mayRun l (.tend l) = true → Calm s l → d = 1 → x.waiting = some (.tend l) → x.progress = 1 →
      s.chip.commits.find? (fun m => m.key == s.chip.portKey l.t l.i && m.crec.seq + 1 == x.storeSeq) = some r →
      r.stage = .done →
      ∃ y, exec (.tend l) s = .next (s.withLane l y) ∧ y.save = none ∧ y.retired = x.retired + 1 ∧
        y.arch.pc = x.landed.pc + 4 ∧ y.arch.st SR.TX = 0 ∧ y.arch.depth = 0 ∧ y.arch.g = x.landed.g ∧ y.waiting = none) ∧
    (Runs s l (.tabort l code) → d = 0 → Retires s l 4 4 id (exec (.tabort l code) s)) ∧
    (∀ sv, Runs s l (.tabort l code) → d ≠ 0 → x.save = some sv → x.progress = 0 →
      ∃ t, exec (.tabort l code) s = .next t ∧ (t.lane l).arch.pc = x.arch.handler ∧ (t.lane l).arch.g = sv.g ∧
        (t.lane l).arch.f = sv.f ∧ (t.lane l).arch.st SR.TX = 0 ∧ (t.lane l).arch.depth = 0 ∧
        SR.CODE.get (t.lane l).arch.txstatus = code.toNat ∧ SR.CAUSE.get (t.lane l).arch.txstatus = 0x01 ∧
        SR.ABORTED.get (t.lane l).arch.txstatus = 1 ∧ (t.lane l).retired = x.retired ∧
        (t.lane l).storeSeq = x.storeSeq ∧ (t.lane l).readSeq = x.readSeq ∧ (t.lane l).save = none ∧
        t.chip.mem = s.chip.mem)

/-! ### Sluice -/

/-- Store records are voted two out of three (R133, R134, R151). One record decides nothing; the second equal one does: the
sluice forwards the store (a device-typed one is issued, a transactional one goes to the transaction buffer), logs it, and
waits for the next sequence number. A third record that differs from the decided one is a minority verdict: the lane is
counted, fenced and rebuilt, and the cluster reports a corrected fault. In SPLIT mode a record passes unvoted (R130). -/
def Obligations.StoreRecordVotes : Prop :=
  ∀ (s : State) (l : LaneId) (j : Fin 3) (r : StoreRec),
    let c := s.chip
    let t := l.t.val
    let x := c.triad t
    let p := c.port (3 * t)
    let ready := c.off = false ∧ c.split t = false ∧ c.tstate t = tVoting ∧ c.voting t = [0, 1, 2] ∧
      (s.lane l).nextRec = some (.store r) ∧ x.digs = []
    let second := ready ∧ r.seq = x.fwdSeq ∧ j ≠ l.i ∧ x.recs = [(j.val, .store r)] ∧ x.slogLeft = [] ∧
      p.dropTo ≤ r.seq ∧ c.gb (.CLU_TSTATE t) CLU_TSTATE.LOGFULL = false
    (ready → r.seq = x.fwdSeq → x.recs = [] →
      Gives s (.storeRecord l) (fun d => (d.triad t).recs = [(l.i.val, .store r)] ∧ (d.triad t).fwdSeq = x.fwdSeq ∧
        d.ports = c.ports ∧ d.regs = c.regs ∧ d.mem = c.mem)) ∧
    (second → r.txn = false → p.outq = [] → p.devOut.length < 8 →
      Gives s (.storeRecord l) (fun d => (d.triad t).recs = [] ∧ (d.triad t).fwdSeq = r.seq + 1 ∧
        (d.triad t).slog = x.slog ++ [r] ∧ d.tstate t = tVoting ∧
        (r.dev = false → (d.port (3 * t)).outq = [r] ∧ (d.port (3 * t)).devOut = p.devOut) ∧
        (r.dev = true → (d.port (3 * t)).outq = [] ∧
          (d.port (3 * t)).devOut = p.devOut ++ [⟨r.seq, r.addr, r.data, s.now.toNat⟩]) ∧
        ∀ a, a < journalBase → d.byte a = c.byte a)) ∧
    (second → r.txn = true → p.tx.ended = false → p.tx.first ≤ r.seq →
      Gives s (.storeRecord l) (fun d => (d.triad t).fwdSeq = r.seq + 1 ∧ (d.port (3 * t)).outq = p.outq ∧
        (d.port (3 * t)).tx.wset = mergeStore p.tx.wset r ∧ (d.triad t).slog = x.slog ∧ d.mem = c.mem)) ∧
    (∀ w, ready → r.seq < x.fwdSeq → x.recs = [] → x.fwd.find? (fun v => v.seq == r.seq) = some (.store w) → w ≠ r →
      (x.verdicts.filter (fun e => e.1 == l.i.val)).length < c.gf (.CLU_TCFG t) CLU_TCFG.REBUILDLIM →
      Gives s (.storeRecord l) (fun d => d.tstate t = tRebuild ∧ d.votes t l.i = false ∧ d.stands (t / 4) 0 ∧
        (d.triad t).rebuild = some { lane := l.i.val, swap := false } ∧ d.gf (.CLU_FSYND t) CLU_FSYND.CODE = 4 ∧
        d.gf (.CLU_TCOUNT t) CLU_TCOUNT.MISMATCH =
          min (c.gf (.CLU_TCOUNT t) CLU_TCOUNT.MISMATCH + 1) CLU_TCOUNT.MISMATCH.max ∧ d.mem = c.mem)) ∧
    (c.off = false → c.split t = true → c.tstate t = tSplit → (s.lane l).nextRec = some (.store r) → r.txn = false →
      r.dev = false → (c.port (laneKey l)).dropTo ≤ r.seq → (c.port (laneKey l)).outq = [] →
      Gives s (.storeRecord l) (fun d => (d.port (laneKey l)).outq = [r] ∧ d.triads = c.triads ∧ d.mem = c.mem ∧
        d.regs = c.regs))

/-- Commit records (R265, R266, R525): in TRIAD mode one record decides nothing; in SPLIT mode the record is taken at once, the
transaction is fixed as voted, and its commit waits in step 2 while an earlier memory-typed store of the requester is not
yet visible. Digest records (R136 to R139): one digest decides nothing; the second equal one makes the state staged with it
by the lower lane the checkpoint. While a debugger holds the triad digests wait (R159). -/
def Obligations.CommitAndDigestVotes : Prop :=
  (∀ (s : State) (l : LaneId) (r : CommitRec),
     let c := s.chip
     let t := l.t.val
     let k := laneKey l
     let x := c.triad t
     let p := c.port k
     ((s.lane l).nextRec = some (.commit r) → c.off = false → c.split t = false → c.tstate t = tVoting →
       c.voting t = [0, 1, 2] → x.recs = [] → x.digs = [] → r.seq = x.fwdSeq →
       Gives s (.commitRecord l) (fun d => (d.triad t).recs = [(l.i.val, .commit r)] ∧ (d.triad t).fwdSeq = x.fwdSeq ∧
         d.commits = c.commits ∧ d.ports = c.ports ∧ d.mem = c.mem)) ∧
     ((s.lane l).nextRec = some (.commit r) → c.off = false → c.split t = true → c.tstate t = tSplit →
       p.tx.pendAbort = none → (∃ e ∈ p.outq, e.dev = false ∧ e.seq < r.seq) → (∀ m ∈ c.commits, m.key ≠ k) →
       Gives s (.commitRecord l) (fun d =>
         (∃ m, d.commits = c.commits ++ [m] ∧ m.key = k ∧ m.crec = r ∧ m.wset = p.tx.wset ∧ m.rset = p.tx.rset ∧
           m.stage = .start) ∧
         (d.port k).tx.voted = true ∧ d.mem = c.mem ∧ d.regs = c.regs))) ∧
  (∀ (s : State) (l : LaneId) (j : Fin 3) (d e : DigRec) (rest : List DigRec),
     let c := s.chip
     let t := l.t.val
     let x := c.triad t
     let ready := c.off = false ∧ c.split t = false ∧ c.tstate t = tVoting ∧ c.voting t = [0, 1, 2] ∧
       (s.lane l).digests = d :: rest ∧ x.recs = [] ∧ d.no = x.digNext ∧
       c.gb (.CLU_TSTATE t) CLU_TSTATE.DBGHOLD = false
     (ready → x.digs = [] →
       Gives s (.digestRecord l) (fun h => (h.triad t).digs = [(l.i.val, d)] ∧ (h.triad t).ckpt = x.ckpt ∧
         (h.lane (laneKey l)).digests = rest ∧ h.mem = c.mem ∧ h.regs = c.regs)) ∧
     (ready → j ≠ l.i → x.digs = [(j.val, e)] → e.key = d.key → e.no = d.no → d.kind = .interval →
       d.staged.save = none → e.staged.save = none →
       c.gb (.CLU_TSTATE t) CLU_TSTATE.LOGFULL = false → x.sluReq = false → x.releasing = false →
       Gives s (.digestRecord l) (fun h => (h.triad t).digs = [] ∧ (h.triad t).digNext = x.digNext + 1 ∧
         (h.triad t).ckpt = some (if j.val < l.i.val then e.staged else d.staged) ∧
         (h.triad t).restart = some (if j.val < l.i.val then e.staged else d.staged) ∧
         h.gf (.CLU_CKPT t) CLU_CKPT.COUNT = (if j.val < l.i.val then e.staged else d.staged).retired % 2 ^ 48 ∧ h.mem = c.mem)) ∧
     (c.gb (.CLU_TSTATE t) CLU_TSTATE.DBGHOLD = true → exec (.digestRecord l) s = .next s))


/-- Local errors (R58, R60, R61, R145). A retry is counted and reported as a corrected fault; a line with a parity error is
dropped; a register file that fails again halts a SPLIT core; a control-store word that fails again is repaired from its
DRAM copy while the core is held, and a core whose repair fails is failed. A scrub repairs a bad word in place and does
nothing to a good one. -/
def Obligations.LocalErrors : Prop :=
  ∀ (s : State) (l : LaneId) (line : BitVec 34) (a : BitVec 13) (core : Fin 104),
    let c := s.chip
    let t := l.t.val
    let k := laneKey l
    let me := c.coreOf t l.i
    let retried (d : Chip) : Prop := d.stands (t / 4) 0 ∧ d.gf (.CLU_FSYND t) CLU_FSYND.CODE = 1 ∧ d.mem = c.mem ∧
      d.gf (.CLU_TCOUNT t) CLU_TCOUNT.RETRIES =
        min (c.gf (.CLU_TCOUNT t) CLU_TCOUNT.RETRIES + 1) CLU_TCOUNT.RETRIES.max
    (c.laneFree l = true → me < 104 →
      Gives s (.instructionRetry l (.l1 false line)) (fun d => retried d ∧
        d.lane k = { c.lane k with dcache := (c.lane k).dcache.drop line.toNat }) ∧
      Gives s (.instructionRetry l (.l1 true line)) (fun d => retried d ∧
        d.lane k = { c.lane k with icache := (c.lane k).icache.drop line.toNat }) ∧
      Gives s (.instructionRetry l (.registerFile false)) (fun d => retried d ∧ d.lanes = c.lanes) ∧
      Gives s (.instructionRetry l (.controlStore a false)) (fun d => retried d ∧ d.lanes = c.lanes ∧
        d.gf (.CLU_CSSTAT me) CLU_CSSTAT.LASTADDR = a.toNat) ∧
      (c.split t = true → Gives s (.instructionRetry l (.registerFile true)) (fun d => (d.lane k).halted = true ∧
        d.stands (t / 4) 1 ∧ d.gf (.CLU_FSYND t) CLU_FSYND.CODE = 0x0F ∧ d.mem = c.mem)) ∧
      (c.gb (.DRM_CFG 0) DRM_CFG.PRESENT = true → Gives s (.instructionRetry l (.controlStore a true)) (fun d =>
        (d.lane k).repairing = some a.toNat ∧ (d.lane k).arch = (c.lane k).arch ∧
        d.gf (.CLU_CSSTAT me) CLU_CSSTAT.LASTADDR = a.toNat ∧ d.mem = c.mem))) ∧
    (c.laneFree l = false → ∀ e, exec (.instructionRetry l e) s = .next s) ∧
    (∀ w, (c.lane k).repairing = some w → me < 104 →
      Gives s (.controlStoreRepairEnd l true) (fun d => (d.lane k).repairing = none ∧ w ∉ (d.cstore me).badWords ∧
        w ∉ (d.cstore me).wrongWords ∧ d.stands (t / 4) 0 ∧ d.gf (.CLU_FSYND t) CLU_FSYND.CODE = 2 ∧
        (d.lane k).arch = (c.lane k).arch ∧ d.mem = c.mem) ∧
      (c.split t = true → Gives s (.controlStoreRepairEnd l false) (fun d => (d.cstore me).failed = true ∧
        (d.lane k).halted = true ∧ d.gb (.CLU_CSSTAT me) CLU_CSSTAT.FAILED = true ∧ d.stands (t / 4) 1 ∧
        d.mem = c.mem))) ∧
    ((c.lane k).repairing = none → ∀ ok, exec (.controlStoreRepairEnd l ok) s = .next s) ∧
    (c.domainOn (1 + core.val / 13) = true → a.toNat ∈ (c.cstore core).badWords →
      c.gb (.DRM_CFG 0) DRM_CFG.PRESENT = true →
      Gives s (.controlStoreScrub core a) (fun d => a.toNat ∉ (d.cstore core).badWords ∧ d.stands (core.val / 13) 0 ∧
        d.gf (.CLU_CSSTAT core) CLU_CSSTAT.LASTADDR = a.toNat ∧ d.lanes = c.lanes ∧ d.mem = c.mem)) ∧
    (a.toNat ∉ (c.cstore core).badWords → exec (.controlStoreScrub core a) s = .next s)

/-- Lane failures, rebuilds and restarts (R141, R143, R147, R149, R150, R152). A lane that owes a record for 50 µs fails:
the spare of its cluster takes its place if it is free, else the triad runs on with two lanes. The end of a rebuild gives the
lane the checkpoint and its vote. A restart whose digests agree makes the triad vote again; one with no two agreeing
brakes the triad and the device. -/
def Obligations.FailureAndRecovery : Prop :=
  ∀ (s : State) (l : LaneId) (t : Fin 32) (r : Rebuild),
    let c := s.chip
    let x := c.triad t
    let u := l.t.val
    let late := c.off = false ∧ c.tstate u = tVoting ∧ c.split u = false ∧ c.voting u = [0, 1, 2] ∧
      c.gb (.CLU_TSTATE u) CLU_TSTATE.DBGHOLD = false ∧ c.owes u l.i = true ∧
      (c.triad u).lastRec.get 0 l.i + 50000 ≤ s.now.toNat ∧ (c.triad u).lastFail = none ∧
      (c.triad u).recs = [] ∧ (c.triad u).digs = [] ∧ (c.triad u).rebuild = none
    (late → c.coreOf u l.i % 13 ≠ 12 → c.spareFree (u / 4) = true →
      Gives s (.stragglerTimeout l) (fun d => d.tstate u = tRebuild ∧ d.votes u l.i = false ∧
        (d.triad u).rebuild = some { lane := l.i.val, swap := true, compared := false } ∧
        d.gf (.CLU_SPARE (u / 4)) CLU_SPARE.STATE = 1 ∧ d.coreOf u l.i = 13 * (u / 4) + 12 ∧
        d.stands (u / 4) 0 ∧ d.gf (.CLU_FSYND u) CLU_FSYND.CODE = 5 ∧ d.mem = c.mem)) ∧
    (late → c.spareFree (u / 4) = false →
      Gives s (.stragglerTimeout l) (fun d => d.tstate u = tDegraded ∧ d.votes u l.i = false ∧
        (d.triad u).alive = without (c.triad u).alive l.i.val ∧ d.stands (u / 4) 1 ∧
        d.gf (.CLU_FSYND u) CLU_FSYND.CODE = 6 ∧ d.mem = c.mem)) ∧
    (s.now.toNat < (c.triad u).lastRec.get 0 l.i + 50000 → exec (.stragglerTimeout l) s = .next s) ∧
    (x.rebuild = some r → c.tstate t = tRebuild → r.ready = true → r.compared = true → r.lane < 3 →
      c.voting t = without [0, 1, 2] r.lane → x.elog = [] → x.haltReq = false →
      Gives s (.rebuildReadmission t true) (fun d => d.tstate t = tVoting ∧ d.voting t = [0, 1, 2] ∧
        (d.triad t).rebuild = none ∧ (d.lane (3 * t + r.lane)).arch = (x.ckpt.getD {}).arch ∧
        (d.lane (3 * t + r.lane)).retired = (x.ckpt.getD {}).retired ∧
        d.gf (.CLU_TCOUNT t) CLU_TCOUNT.REBUILDS =
          min (c.gf (.CLU_TCOUNT t) CLU_TCOUNT.REBUILDS + 1) CLU_TCOUNT.REBUILDS.max ∧ d.mem = c.mem)) ∧
    (x.rebuild = none → ∀ ok, exec (.rebuildReadmission t ok) s = .next s ∧ exec (.spareSwapEnd t ok) s = .next s) ∧
    (x.rebuild = some r → c.tstate t = tRebuild → r.swap = true → r.compared = false → r.ready = false →
      Gives s (.spareSwapEnd t true) (fun d => (d.triad t).rebuild = some { r with compared := true } ∧
        d.regs = c.regs ∧ d.lanes = c.lanes ∧ d.mem = c.mem) ∧
      (c.coreOf t r.lane % 13 = 12 → x.haltReq = false → Gives s (.spareSwapEnd t false) (fun d =>
        d.tstate t = tDegraded ∧ d.gf (.CLU_SPARE (t / 4)) CLU_SPARE.STATE = 2 ∧ (d.triad t).rebuild = none ∧
        d.stands (t / 4) 1 ∧ d.mem = c.mem))) ∧
    (x.restarting = true → x.alive = [0, 1, 2] → x.haltReq = false → (∀ i < 3, (c.lane (3 * t + i)).replay = []) →
      Gives s (.restartDigest t 0) (fun d => d.tstate t = tVoting ∧ d.voting t = [0, 1, 2] ∧
        (d.triad t).restarting = false ∧ d.lanes = c.lanes ∧
        d.gf (.CLU_TCOUNT t) CLU_TCOUNT.RESTARTS =
          min (c.gf (.CLU_TCOUNT t) CLU_TCOUNT.RESTARTS + 1) CLU_TCOUNT.RESTARTS.max ∧ d.mem = c.mem)) ∧
    (x.restarting = true → c.tstate t = tRestart → c.off = false → c.flt.deviceBrake = false →
      Gives s (.restartDigest t 7) (fun d => d.tstate t = tBraked ∧ d.flt.deviceBrake = true ∧ d.stands (t / 4) 2 ∧
        d.gf .FLT_STATE FLT_STATE.STATE = 5 ∧ d.gf .FLT_STATE FLT_STATE.CAUSE = 1 ∧ d.mem = c.mem)) ∧
    (let w := c.gf (.CLU_TCFG t) CLU_TCFG.RSTWIN
     let used := c.gb (.CLU_TSTATE t) CLU_TSTATE.RSTUSED
     (used = true → x.rstUsedAt + 1000000 * w ≤ s.now.toNat →
       Gives s (.restartWindowEnd t) (fun d => d.gb (.CLU_TSTATE t) CLU_TSTATE.RSTUSED = false ∧
         d.tstate t = c.tstate t ∧ OnlyRegs c d [.CLU_TSTATE t])) ∧
     (used = false ∨ s.now.toNat < x.rstUsedAt + 1000000 * w → exec (.restartWindowEnd t) s = .next s))

/-- The commands of `CLU_TCTL` (R131, R153, R156, R163): an agent that may not write it, or a cluster without power, changes
nothing. A reset of a running triad restarts it from its restart point; of a SPLIT triad starts its cores at the entry
point, one of them alone where the command names it; an idle triad and one under a brake refuse it with a corrected fault.
A rebuild takes the lane out of a VOTING triad. `SLURUN` and the period ask for a sluice test. -/
def Obligations.TriadCommands : Prop :=
  ∀ (s : State) (ag : Agent) (t : Fin 32) (pos : BitVec 2),
    let c := s.chip
    let x := c.triad t
    let refused (i : Instr) : Prop := Gives s i (fun d => d.stands (t / 4) 0 ∧
      d.gf (.CLU_FSYND t) CLU_FSYND.CODE = 0x0D ∧ d.lanes = c.lanes ∧ d.triads = c.triads ∧ d.mem = c.mem)
    (c.tctlOk ag t = false → ∀ i ∈ [Instr.triadReset ag t, .splitCoreReset ag t pos, .triadRebuild ag t pos, .slurun ag t],
      exec i s = .next s) ∧
    (c.tctlOk ag t = true →
      (c.covered t = true → refused (.triadReset ag t) ∧ refused (.splitCoreReset ag t pos)) ∧
      (c.covered t = false → c.split t = false → c.tstate t = tIdle → refused (.triadReset ag t)) ∧
      (c.covered t = false → c.split t = false → c.tstate t ≠ tIdle → c.tstate t ≠ tUnavailable →
        Gives s (.triadReset ag t) (fun d => d.tstate t = tRestart ∧ d.voting t = [] ∧ (d.triad t).restarting = true ∧
          (∀ i < 3, (d.lane (3 * t + i)).arch = (x.restart.getD {}).arch ∧
            (d.lane (3 * t + i)).retired = (x.restart.getD {}).retired ∧ (d.lane (3 * t + i)).sb = []) ∧
          d.mem = c.mem)) ∧
      (c.covered t = false → c.split t = true → c.splitRuns t = true →
        Gives s (.triadReset ag t) (fun d => d.tstate t = tSplit ∧
          (∀ i < 3, (d.lane (3 * t + i)).arch = c.entryArchOf t ∧ (d.lane (3 * t + i)).sb = []) ∧ d.mem = c.mem)) ∧
      (c.covered t = false → c.split t = true → c.splitRuns t = true → pos.toNat < 3 →
        Gives s (.splitCoreReset ag t pos) (fun d => (d.lane (3 * t + pos.toNat)).arch = c.entryArchOf t ∧
          (d.lane (3 * t + pos.toNat)).retired = (c.lane (3 * t + pos.toNat)).retired ∧
          (∀ k, k ≠ 3 * t.val + pos.toNat → d.lane k = c.lane k) ∧ d.regs = c.regs ∧ d.mem = c.mem)) ∧
      (c.covered t = false → (c.split t = false ∨ pos = 3) → refused (.splitCoreReset ag t pos)) ∧
      (c.tstate t = tVoting → pos ≠ 3 →
        Gives s (.triadRebuild ag t pos) (fun d => d.tstate t = tRebuild ∧ d.votes t pos.toNat = false ∧
          (d.triad t).rebuild = some { lane := pos.toNat, swap := false, asked := true } ∧
          (∀ k, k ≠ 3 * t.val + pos.toNat → d.lane k = c.lane k) ∧ d.mem = c.mem)) ∧
      (c.tstate t ≠ tVoting ∨ pos = 3 → refused (.triadRebuild ag t pos)) ∧
      Gives s (.slurun ag t) (fun d => (d.triad t).sluReq = true ∧ d.regs = c.regs ∧ SameCore c d)) ∧
    (let p := c.gf (.CLU_TCFG t) CLU_TCFG.SLUPER
     (c.off = false → p ≠ 0 → x.sluAt + 10000000 * p ≤ s.now.toNat →
       Gives s (.sluiceTestPeriod t) (fun d => (d.triad t).sluReq = true ∧ (d.triad t).sluAt = s.now.toNat ∧
         d.regs = c.regs ∧ SameCore c d)) ∧
     (p = 0 → exec (.sluiceTestPeriod t) s = .next s))

/-- Debug (R157 to R160). A halt asks for one agreed count, or waits for the end of a rebuild or restart; a stopped triad
steps one instruction further, takes register writes in all three lanes at once and a memory write as one unvoted store;
a release asks for the digest that ends it. Where no debugger may reach the triad nothing changes. -/
def Obligations.DebugCommands : Prop :=
  ∀ (s : State) (t : Fin 32) (n : Reg) (v : BitVec 32) (addr : BitVec 40) (be : BitVec 8) (w : BitVec 64),
    let c := s.chip
    let x := c.triad t
    let write (r : DebugReg) (f : Arch → Arch) : Prop := Gives s (.debugRegisterWrite t r v) (fun d =>
      (∀ i < 3, d.lane (3 * t + i) = { c.lane (3 * t + i) with arch := f (c.lane (3 * t + i)).arch }) ∧
      (∀ k : Nat, k / 3 ≠ t.val → d.lane k = c.lane k) ∧ d.mem = c.mem ∧ d.regs = c.regs)
    (c.debugOk t = false → ∀ i ∈ [Instr.debugHalt t, .debugSingleStep t, .debugRegisterWrite t (.g n) v,
        .debugMemoryWrite t addr be w, .debugRelease t], exec i s = .next s) ∧
    (c.debugOk t = true → (c.tstate t = tVoting ∨ c.tstate t = tDegraded) →
      Gives s (.debugHalt t) (fun d => .halt ∈ (d.triad t).wants ∧ d.regs = c.regs ∧ SameCore c d)) ∧
    (c.debugOk t = true → (c.tstate t = tRebuild ∨ c.tstate t = tRestart) →
      Gives s (.debugHalt t) (fun d => (d.triad t).haltReq = true ∧ (d.triad t).wants = x.wants ∧ d.regs = c.regs ∧
        SameCore c d)) ∧
    (c.stopped t = true →
      (∀ h, x.holdAt = some h → Gives s (.debugSingleStep t) (fun d => (d.triad t).holdAt = some (h + 1) ∧
        d.regs = c.regs ∧ SameCore c d)) ∧
      write (.g n) (fun a => a.setG n v) ∧ write (.f n) (fun a => a.setF n v) ∧
      write .pc (fun a => { a with pc := v &&& 0xFFFFFFFE }) ∧
      ((c.region addr.toNat).isMem = true → Gives s (.debugMemoryWrite t addr be w) (fun d =>
        (∃ r, (d.port (3 * t)).outq = (c.port (3 * t)).outq ++ [r] ∧ r.addr = addr ∧ r.data = w ∧ r.be = be ∧
          r.dbg = true ∧ r.dev = false ∧ r.txn = false) ∧ d.lanes = c.lanes ∧ d.regs = c.regs ∧ d.mem = c.mem)) ∧
      (c.region addr.toNat = .unmapped → exec (.debugMemoryWrite t addr be w) s = .next s)) ∧
    (c.debugOk t = true → c.gb (.CLU_TSTATE t) CLU_TSTATE.DBGHOLD = true →
      Gives s (.debugRelease t) (fun d => d.gb (.CLU_TSTATE t) CLU_TSTATE.DBGHOLD = false ∧
        (d.triad t).holdAt = none ∧ (d.triad t).releasing = true ∧ .digest ∈ (d.triad t).wants ∧
        OnlyRegs c { d with triads := c.triads } [.CLU_TSTATE t]))

/-! ### Events, rounds, fills, sweeps -/

/-- Event delivery (R164 to R172, R179). An armed source makes its event pending and opens a round; a timer that has reached
DUE also clears it. The lanes report their counts; the last report fixes the highest one with the event selected; at that
count every voting lane enters the exception of the event, which is no longer pending. Nothing else moves. -/
def Obligations.EventDelivery : Prop :=
  ∀ (s : State) (l : LaneId) (t : Fin 32) (k : Fin 4) (src : EventSrc) (r : Round) (e n m1 m2 : Nat) (j1 j2 : Fin 3),
    let c := s.chip
    let u := l.t.val
    let key := c.portKey u l.i
    let due := c.gf (.CLU_EVTIMER t k) CLU_EVTIMER.DUE
    let x := c.lane (laneKey l)
    (c.off = false → c.eventArmed s.now.toNat key src = true → c.following = false →
      Gives s (.eventPending l src) (fun d => eventNo src ∈ (d.port key).pend ∧ d.lanes = c.lanes ∧ d.mem = c.mem)) ∧
    (c.eventArmed s.now.toNat key src = false → exec (.eventPending l src) s = .next s) ∧
    (c.off = false → c.following = false → due ≠ 0 → due ≤ c.timeNow s.now.toNat →
      Gives s (.timerFire t k) (fun d => (∀ q ∈ c.keysOf t, 0x1000 + k.val ∈ (d.port q).pend) ∧
        d.gf (.CLU_EVTIMER t k) CLU_EVTIMER.DUE = 0 ∧ OnlyRegs c { d with ports := c.ports, triads := c.triads } [.CLU_EVTIMER t k])) ∧
    (due = 0 ∨ c.timeNow s.now.toNat < due → exec (.timerFire t k) s = .next s) ∧
    (c.off = false → c.split u = false → c.tstate u = tVoting → c.voting u = [0, 1, 2] →
      (c.triad u).round = some r → r.c = none → x.waiting = none → Chip.opportunity x = true →
      (r.reports = [] → Gives s (.laneCountReport l) (fun d =>
        (d.triad u).round = some { r with reports := [(l.i.val, x.retired)] } ∧ d.regs = c.regs ∧ SameCore c d)) ∧
      (j1 ≠ j2 → j1 ≠ l.i → j2 ≠ l.i → r.reports = [(j1.val, m1), (j2.val, m2)] → c.following = false →
        (∀ i < 3, (c.lane (3 * u + i)).waiting = none) → c.gb (.CLU_TSTATE u) CLU_TSTATE.LOGFULL = false →
        (c.port (3 * u)).dwe = [] → (c.triad u).held = .none → (c.port (3 * u)).pend = [e] →
        Gives s (.laneCountReport l) (fun d => ∃ q, (d.triad u).round = some q ∧ q.sel = .event e ∧
          q.c = some (max (max m1 m2) x.retired) ∧ q.decisions = (c.triad u).wants ∧ q.invs = (c.triad u).invq ∧
          (d.triad u).invq = [] ∧ d.regs = c.regs ∧ SameCore c d))) ∧
    ((c.triad u).round = none → exec (.laneCountReport l) s = .next s) ∧
    (c.off = false → c.split t = false → c.tstate t = tVoting → c.voting t = [0, 1, 2] → c.snap = none →
      (c.triad t).round = some r → r.c = some n → r.sel = .event e → e < 2 ^ 13 → r.decisions = [] → r.invs = [] →
      r.invAll = false →
      (c.port (3 * t)).pend = [e] → (c.port (3 * t)).dwe = [] → (c.triad t).wants = [] → (c.triad t).invq = [] →
      (c.triad t).invAll = false →
      (∀ i < 3, (c.lane (3 * t + i)).retired = n ∧ (c.lane (3 * t + i)).waiting = none ∧
        (c.lane (3 * t + i)).save = none ∧ Chip.opportunity (c.lane (3 * t + i)) = true ∧
        (c.lane (3 * t + i)).arch = (c.lane (3 * t)).arch) →
      Chip.deliverable (c.lane (3 * t)).arch = true →
      Gives s (.deliveryCountReached t) (fun d => (d.port (3 * t)).pend = [] ∧
        (∀ i < 3, Entered (c.lane (3 * t + i)) (d.lane (3 * t + i)).arch ⟨0x20, 3, e⟩ true false) ∧
        d.gf (.CLU_EVSTAT t) CLU_EVSTAT.LASTEV = e ∧ ∀ a, a < journalBase → d.byte a = c.byte a)) ∧
    ((c.triad t).round = none → c.snap = none → exec (.deliveryCountReached t) s = .next s)

/-- Invalidations (R172, R178, R183). A store of another agent to a line that a lane of a triad holds enters the triad's
queue; in SPLIT mode each core drops the line; a line that nobody holds changes nothing. A waiting queue opens a round. -/
def Obligations.Invalidations : Prop :=
  ∀ (s : State) (t : Fin 32) (line : BitVec 34),
    let c := s.chip
    let x := c.triad t
    let i := Instr.externalInvalidation t none line
    (c.off = false → c.split t = false → line.toNat ∉ (c.port (3 * t)).tx.rset → x.invq.length < 64 →
      (∃ j, j < 3 ∧ ((c.lane (3 * t + j)).dcache.find line.toNat).isSome) →
      Gives s i (fun d => (d.triad t).invq = x.invq ++ [line.toNat] ∧ d.regs = c.regs ∧ SameCore c d)) ∧
    (c.split t = false → line.toNat ∉ (c.port (3 * t)).tx.rset → x.bin = [] →
      (∀ j < 3, (c.lane (3 * t + j)).dcache.find line.toNat = none ∧ (c.lane (3 * t + j)).fills = []) →
      exec i s = .next s) ∧
    (c.off = false → c.split t = true → (∀ j < 3, line.toNat ∉ (c.port (3 * t + j)).tx.rset) →
      Gives s i (fun d => (∀ j < 3, (d.lane (3 * t + j)).dcache = (c.lane (3 * t + j)).dcache.drop line.toNat ∧
        (d.lane (3 * t + j)).arch = (c.lane (3 * t + j)).arch) ∧ d.triads = c.triads ∧ d.regs = c.regs ∧ d.mem = c.mem)) ∧
    (c.off = false → c.split t = false → c.live t = true → c.following = false → x.round = none → x.invq ≠ [] →
      Gives s (.invalidationRound t) (fun d => (d.triad t).round = some {} ∧ d.regs = c.regs ∧ SameCore c d)) ∧
    (x.invq = [] → x.invAll = false → exec (.invalidationRound t) s = .next s)

/-- Fills (R171, R173, R174, R178). The first lane that misses reads the line, which becomes a snapshot of the bin; a lane
that misses on it at the same count gets the same data without another read. A SPLIT core reads for itself. -/
def Obligations.Fills : Prop :=
  ∀ (s : State) (l : LaneId) (line : BitVec 34) (b : Fill) (j : Fin 3),
    let c := s.chip
    let t := l.t.val
    let k := laneKey l
    let n := line.toNat
    let asks := c.laneFree l = true ∧ c.dataMiss k n = true ∧ (s.lane l).save = none
    let filled (d : Chip) : Prop := (d.lane k).arch = (c.lane k).arch ∧ d.mem = c.mem ∧ ∃ f,
      (d.lane k).fills = (c.lane k).fills ++ [f] ∧ f.line = n ∧ f.count = (c.lane k).retired ∧ f.bad = [] ∧
      ∀ i < 64, f.data.toNat / 2 ^ (8 * i) % 256 = (c.byte (64 * n + i)).toNat
    (asks → c.split t = false → (c.triad t).bin = [] → c.ecc = [] → Gives s (.binFill l line) filled) ∧
    (asks → c.split t = false → (c.triad t).bin = [⟨b, [j.val]⟩] → j ≠ l.i → c.votes t l.i = true → b.line = n →
      b.count = (c.lane k).retired →
      Gives s (.binFill l line) (fun d => (d.lane k).fills = (c.lane k).fills ++ [b] ∧
        (d.lane k).arch = (c.lane k).arch ∧ d.regs = c.regs ∧ d.mem = c.mem)) ∧
    (asks → c.split t = true → c.ecc = [] → Gives s (.l1Fill l false line) filled) ∧
    (c.laneFree l = false → ∀ ic, exec (.binFill l line) s = .next s ∧ exec (.l1Fill l ic line) s = .next s)

/-- Agreed reads (R176, R177, R434). One request waits; the second equal one makes the read, whose result enters the result
buffer: `TIMEBASE` as the device time, never below the value returned last. -/
def Obligations.AgreedReadVotes : Prop :=
  ∀ (s : State) (l : LaneId) (j : Fin 3) (r : AReq) (since : Nat),
    let c := s.chip
    let t := l.t.val
    let x := c.triad t
    let ready := c.off = false ∧ c.tstate t = tVoting ∧ c.voting t = [0, 1, 2]
    let asks := ready ∧ (s.lane l).areq = some r ∧ (s.lane l).presented = false ∧ x.ares = [] ∧ x.aready = []
    (asks → x.areqs = [] → Gives s (.agreedReadRequest l) (fun d => (d.triad t).areqs = [(l.i.val, r)] ∧
      (d.lane (laneKey l)).presented = true ∧ (d.triad t).aready = [] ∧ d.regs = c.regs ∧ d.mem = c.mem)) ∧
    (asks → j ≠ l.i → x.areqs = [(j.val, r)] → x.rlogLeft = [] →
      Gives s (.agreedReadRequest l) (fun d => (d.triad t).areqs = [] ∧ (d.triad t).aready = [(r, s.now.toNat)] ∧
        (d.lane (laneKey l)).presented = true ∧ d.regs = c.regs ∧ d.mem = c.mem)) ∧
    ((s.lane l).areq = none → exec (.agreedReadRequest l) s = .next s) ∧
    (ready → c.gb (.CLU_TSTATE t) CLU_TSTATE.LOGFULL = false → c.following = false → x.leatReads = [] →
      r.kind = .timebase → x.aready = [(r, since)] →
      Gives s (.agreedReadResult l.t) (fun d => (d.triad t).aready = [] ∧
        (∃ e, (d.triad t).ares = x.ares ++ [e] ∧ e.req = r ∧ e.err = false ∧ e.taken = [] ∧
          e.value = BitVec.ofNat 64 (max (c.timeNow s.now.toNat) c.pair.timebase.toNat)) ∧
        d.lanes = c.lanes ∧ ∀ a, a < journalBase → d.byte a = c.byte a)) ∧
    (x.aready = [] → exec (.agreedReadResult l.t) s = .next s)

/-- The sweep, speculative walks and the cache switch (R189, R190, R193, R203). A visit of an invalidating sweep drops the
line from a SPLIT core's cache and counts it; a walk that finds a leaf leaves a TLB entry for the address and no other
trace; a permitted write of `CLU_L1CTL` sets the two enables, and switches an enabled data cache of a SPLIT triad on. -/
def Obligations.SweepWalkSwitch : Prop :=
  ∀ (s : State) (l : LaneId) (cl : Fin 8) (sk left a : Nat) (va : BitVec 32) (ag : Agent) (t : Fin 32) (v : BitVec 64),
    let c := s.chip
    let x := c.sweep sk
    let u := x.key / 3
    let settled (u : Nat) : Prop := c.gb (.CLU_L1CTL u) CLU_L1CTL.DEN = c.gb (.CLU_L1CTL u) CLU_L1CTL.DACT ∧
      c.gb (.CLU_L1CTL u) CLU_L1CTL.IEN = c.gb (.CLU_L1CTL u) CLU_L1CTL.IACT
    (c.off = false → c.domainOn (1 + cl) = true → c.sweepSlot cl = some sk → sk / 12 = cl.val →
      u = 4 * cl.val + sk % 12 / 3 → x.left = left + 2 → x.page = some a → x.op = 2 → x.icache = false →
      c.split u = true → (c.region (a + x.va % 4096)).isMem = true → settled u →
      Gives s (.sweepLine cl) (fun d => (d.sweep sk).left = left + 1 ∧
        (d.lane x.key).dcache = (c.lane x.key).dcache.drop (lineOf (a + x.va % 4096)) ∧
        (d.lane x.key).arch = (c.lane x.key).arch ∧ (∀ k, k ≠ x.key → d.lane k = c.lane k) ∧ d.mem = c.mem)) ∧
    (c.sweepSlot cl = none → exec (.sweepLine cl) s = .next s) ∧
    (∀ fetch, c.laneFree l = false → exec (.speculativeWalk l fetch va) s = .next s) ∧
    (c.laneFree l = true →
      (∃ c1 w, c.walk s.now.toNat ((c.partOf l.t).getD 0) (laneKey l) va.toNat .load (s.lane l).arch.pl = (c1, .ok w)) →
      Gives s (.speculativeWalk l false va) (fun d => (d.lane (laneKey l)).arch = (s.lane l).arch ∧
        ∃ e ∈ (d.lane (laneKey l)).dtlb, e.hits ((c.partOf l.t).getD 0) ((s.lane l).arch.asid.setWidth 8) va.toNat = true)) ∧
    (c.off = false → c.mayWrite ag (.CLU_L1CTL t) = true → c.domainOn (1 + t / 4) = true →
      Gives s (.cluL1ctlWrite ag t v) (fun d => d.gf (.CLU_L1CTL t) CLU_L1CTL.DEN = bit (v.getLsbD 0) ∧
        d.gf (.CLU_L1CTL t) CLU_L1CTL.IEN = bit (v.getLsbD 1) ∧
        (c.split t = true → v.getLsbD 0 = true → d.gb (.CLU_L1CTL t) CLU_L1CTL.DACT = true) ∧ d.mem = c.mem)) ∧
    (c.mayWrite ag (.CLU_L1CTL t) = false → exec (.cluL1ctlWrite ag t v) s = .next s)

/-! ### Stores, device accesses, commits past the sluice, register writes -/

/-- A store reaches its target (R228, R232, R268): the bytes that it enables take their new values at one place in the global
order, every other byte of memory is unchanged, and the store leaves its requester's port; while a commit holds its line it
waits. Commits that wait (R265, R268, R272, R274): with room in the ring a primary's commit gets its entry and its partner is
asked to mirror it; one held back by an earlier commit is published once that has ended: its bytes in memory, the entry
`PUBLISHED`, the lane released. Where no commit waits there, nothing changes. -/
def Obligations.StoresAndCommitsReachMemory : Prop :=
  (∀ (s : State) (l : LaneId) (r : StoreRec) (rest : List StoreRec),
     let c := s.chip
     let key := c.portKey l.t l.i
     let p := c.port key
     let a := r.addr.toNat
     let i := Instr.memoryAccessResponse l
     c.off = false → (s.lane l).devLoad = none → p.outq = r :: rest → r.dev = false → r.dbg = false →
       (c.lineHeld (lineOf a) (some key) = true → exec i s = .next s) ∧
       (c.lineHeld (lineOf a) (some key) = false → (∀ q ∈ rest, q.dev = false) → c.ecc = [] → c.commits = [] →
         c.snap = none →
         Gives s i (fun d => (d.port key).outq = rest ∧ (d.port key).devOut = p.devOut ∧
           (∀ j < 8, d.byte (a / 8 * 8 + j) =
             if r.be.getLsbD j then BitVec.ofNat 8 (r.data.toNat / 2 ^ (8 * j)) else c.byte (a / 8 * 8 + j)) ∧
           (∀ b, b / 8 ≠ a / 8 → d.byte b = c.byte b) ∧ d.ecc = []))) ∧
  (∀ (s : State) (l : LaneId) (m : Commit) (w : WLine) (cs : Nat),
     let c := s.chip
     let key := c.portKey l.t l.i
     (c.off = false → c.commits = [m] → m.key = key → m.stage = .ring → m.cseq = some cs → m.wset = [w] →
       c.ringFits (entryBytes 1) = true → c.paired = true →
       Gives s (.commitRingRoom l) (fun d => d.commits = [{ m with off := some c.ringHead, stage := .ack }] ∧
         d.leat = c.leat ++ [.journal cs] ∧ (∀ a, a < journalBase → d.byte a = c.byte a) ∧ d.lanes = c.lanes)) ∧
     (c.off = false → c.commits = [m] → m.key = key → m.stage = .hold → m.off = none → m.wset = [w] → c.ecc = [] →
       64 * w.line + 64 ≤ journalBase → m.triad = key / 3 → m.pos = key % 3 →
       c.gb .SYS_SNAP SYS_SNAP.BUSY = false →
       Gives s (.commitHoldEnd l) (fun d => (∃ q, d.commits = [q] ∧ q.key = key ∧ q.stage = .done) ∧
         (∀ j < 64, d.byte (64 * w.line + j) =
           if w.mask.getLsbD j then BitVec.ofNat 8 (w.data.toNat / 2 ^ (8 * j)) else c.byte (64 * w.line + j)) ∧
         (∀ b, b / 64 ≠ w.line → b < journalBase → d.byte b = c.byte b))) ∧
     ((∀ q ∈ c.commits, q.stage ≠ .ring) → exec (.commitRingRoom l) s = .next s) ∧
     ((∀ q ∈ c.commits, q.stage ≠ .hold) → exec (.commitHoldEnd l) s = .next s))

/-- Device-typed accesses (R236, R237, R246 to R248, R523). The answer of the target performs the oldest write; a write that
an agent may not make, or that is not answered in time, leaves the register as it is, is reported by its source and becomes
a `DEVICE_WRITE_ERROR` of the requester; a load not answered in time ends with the error result. -/
def Obligations.DeviceAccesses : Prop :=
  ∀ (s : State) (l : LaneId) (w : DevOut) (rest : List DevOut) (a : PAddr) (since n : Nat),
    let c := s.chip
    let key := c.portKey l.t l.i
    let p := c.port key
    let failed (d : Chip) : Prop := (d.port key).dwe = p.dwe ++ [BitVec.ofNat 32 (w.addr.toNat / 256)] ∧
      (d.port key).devOut = rest ∧ d.stands (Chip.targetSource w.addr.toNat) 0 ∧ d.mem = c.mem
    let calm := c.off = false ∧ p.devOut = w :: rest ∧ p.outq = [] ∧ c.commits = [] ∧ c.snap = none
    (calm → w.addr.toNat = RegName.FLT_ERRMASK.addr → c.domainOn 0 = true → c.isMgrPart (c.keyPart key) = true →
      Gives s (.deviceWriteResponse l) (fun d => d.rd .FLT_ERRMASK = w.data ∧ (d.port key).devOut = rest ∧
        (d.port key).dwe = p.dwe ∧ d.mem = c.mem)) ∧
    (calm → w.addr.toNat = RegName.FLT_ERRMASK.addr → c.domainOn 0 = true → c.isMgrPart (c.keyPart key) = false →
      Gives s (.deviceWriteResponse l) (fun d => failed d ∧ d.rd .FLT_ERRMASK = c.rd .FLT_ERRMASK)) ∧
    (calm → w.issued + c.devLimit ≤ s.now.toNat → Gives s (.deviceWriteTimeout l) (fun d => failed d ∧
      (d.port key).late = p.late ++ [w])) ∧
    (p.devOut = [] → exec (.deviceWriteTimeout l) s = .next s) ∧
    (p.devOut = [] → p.late = [] → exec (.deviceWriteResponse l) s = .next s) ∧
    (c.split l.t = true → (s.lane l).devLoad = some (a, since) → (s.lane l).devResult = none →
      (since + c.devLimit ≤ s.now.toNat → Gives s (.deviceLoadTimeout l) (fun d =>
        (d.lane (laneKey l)).devResult = some (0, true) ∧ d.stands (Chip.targetSource a.toNat) 0 ∧
        (d.lane (laneKey l)).arch = (s.lane l).arch ∧ d.mem = c.mem)) ∧
      (s.now.toNat < since + c.devLimit → exec (.deviceLoadTimeout l) s = .next s)) ∧
    (c.split l.t = false → c.off = false → c.following = false → c.live l.t = true →
      c.gb (.CLU_TSTATE l.t) CLU_TSTATE.LOGFULL = false → (c.triad l.t).aready = [(⟨.load a, n⟩, since)] →
      since + c.devLimit ≤ s.now.toNat →
      Gives s (.deviceLoadTimeout l) (fun d => (d.triad l.t).aready = [] ∧ d.stands (Chip.targetSource a.toNat) 0 ∧
        ∃ e, (d.triad l.t).ares = (c.triad l.t).ares ++ [e] ∧ e.req = ⟨.load a, n⟩ ∧ e.value = 0 ∧ e.err = true))

/-- Register writes (R6 to R8, R25, R392). A permitted write gives an RW field its value; the write of another value for a
locked field leaves it, and source 18 reports it with the register's address; a write by an agent that may not make it, to a
domain without power, or outside the register windows changes nothing. -/
def Obligations.RegisterWrites : Prop :=
  ∀ (s : State) (t : Fin 32) (k : Fin 4) (ag : Agent) (v : BitVec 64) (addr : BitVec 40),
    let c := s.chip
    let write (r : RegName) : Instr := .registerWrite ag (BitVec.ofNat 40 r.addr) v
    let plain (r : RegName) : Prop := Gives s (write r) (fun d => d.rd r = v ∧ OnlyRegs c d [r])
    (c.off = false → c.domainOn 0 = true → (ag = .manager ∨ ag = .miller) →
      plain .FLT_ERRMASK ∧ plain .FLT_RELPERM ∧
      (SYS_DEVTIMEOUT.LIMIT.get v ≠ c.gf .SYS_DEVTIMEOUT SYS_DEVTIMEOUT.LIMIT →
        Gives s (write .SYS_DEVTIMEOUT) (fun d => d.rd .SYS_DEVTIMEOUT = c.rd .SYS_DEVTIMEOUT ∧ d.stands 18 0 ∧
          d.gf .CFG_SYND CFG_SYND.CODE = 1 ∧ d.gf .CFG_SYND CFG_SYND.ADDR = RegName.SYS_DEVTIMEOUT.addr ∧
          d.mem = c.mem ∧ d.lanes = c.lanes))) ∧
    (c.off = false → c.domainOn (1 + t.val / 4) = true → c.mayWrite ag (.CLU_EVTIMER t k) = true →
      plain (.CLU_EVTIMER t k)) ∧
    (c.mayWrite ag .FLT_ERRMASK = false → exec (write .FLT_ERRMASK) s = .next s) ∧
    (c.mayWrite ag (.CLU_EVTIMER t k) = false → exec (write (.CLU_EVTIMER t k)) s = .next s) ∧
    (c.domainOn (1 + t.val / 4) = false → exec (write (.CLU_EVTIMER t k)) s = .next s) ∧
    (c.region addr.toNat ≠ .register → exec (.registerWrite ag addr v) s = .next s)

/-! ### Banks and DRAM -/

/-- The 72-bit code (R223 to R226): a stored word reads back; any one flipped bit of the codeword, in the data or in the
check bits, is corrected; any two are uncorrectable; so is a word read at an address that differs in one bit or in two. Any
word read is uncorrectable unless its syndrome is 0 or that of a single flipped bit. -/
def Obligations.EccCorrectsAndDetects : Prop :=
  ∀ (d : DWord) (a : Nat), a < 2 ^ 40 →
    let k := eccCheck d a
    let flip (j : Nat) : DWord × BitVec 8 :=
      if j < 64 then (BitVec.ofNat 64 (2 ^ j), 0) else (0, BitVec.ofNat 8 (2 ^ (j - 64)))
    let kind (w : DWord) (x : BitVec 8) (b : Nat) : EccKind := (eccDecode w x b).2.1
    eccDecode d k a = (d, .clean, 0) ∧
    (∀ j < 72, (eccDecode (d ^^^ (flip j).1) (k ^^^ (flip j).2) a).1 = d ∧
      kind (d ^^^ (flip j).1) (k ^^^ (flip j).2) a = .corrected) ∧
    (∀ i j, i < j → j < 72 → kind (d ^^^ (flip i).1 ^^^ (flip j).1) (k ^^^ (flip i).2 ^^^ (flip j).2) a = .uncorrectable) ∧
    (∀ b, 3 ≤ b → b < 40 → kind d k (a ^^^ 2 ^ b) = .uncorrectable) ∧
    (∀ b e, 3 ≤ b → b < e → e < 40 → kind d k (a ^^^ 2 ^ b ^^^ 2 ^ e) = .uncorrectable) ∧
    (∀ (w : DWord) (x : BitVec 8), kind w x a = .uncorrectable ↔
      x ^^^ eccCheck w a ≠ 0 ∧ ∀ j < 72, x ^^^ eccCheck w a ≠ eccCheck (flip j).1 0 ^^^ (flip j).2)

/-- Bank ownership (R212 to R216). A permitted write of `BNK_OWNER` makes the bank busy and keeps its owner until the end of
the handover, which installs the new one and clears the bank where CLR was set; a bad one is reported by source 8 and
changes no owner. A store through a bit alias sets or clears exactly the bits of its word that are 1 in the value. -/
def Obligations.BankOwnership : Prop :=
  ∀ (s : State) (ag : Agent) (n : Fin 64) (v : BitVec 64) (addr : BitVec 40) (ty p : Nat) (clr : Bool),
    let c := s.chip
    let r := RegName.BNK_OWNER n
    let i := Instr.bankHandover ag n v
    let w := storageAddr addr.toNat / 8 * 8
    let word (d : Chip) (a : Nat) : DWord := BitVec.ofNat 64 (d.rawNat 8 a)
    let alias_ (set : Bool) (f : DWord → DWord) (i : Instr) : Prop :=
      (c.region addr.toNat = (if set then .bitSet n else .bitClear n) → c.off = false → c.agentOwns ag n = true →
        c.domainOn (9 + n.val / 8) = true → c.ecc = [] → Gives s i (fun d => word d w = f (word c w) ∧
          (∀ b, b / 8 ≠ w / 8 → d.byte b = c.byte b) ∧ d.ecc = [])) ∧
      (c.agentOwns ag n = false → c.region addr.toNat = (if set then .bitSet n else .bitClear n) → exec i s = .next s) ∧
      ((∀ m, c.region addr.toNat ≠ (if set then .bitSet m else .bitClear m)) → exec i s = .next s)
    (c.off = false → c.mayWrite ag r = true → c.handoverBad n v = false →
      Gives s i (fun d => d.gb r BNK_OWNER.BUSY = true ∧ d.gf r BNK_OWNER.TYPE = c.gf r BNK_OWNER.TYPE ∧
        d.gf r BNK_OWNER.PART = c.gf r BNK_OWNER.PART ∧ RegsBut c d [r] ∧ d.mem = c.mem ∧ d.lanes = c.lanes)) ∧
    (c.off = false → c.mayWrite ag r = true → c.handoverBad n v = true →
      Gives s i (fun d => d.stands 8 0 ∧ d.rd r = c.rd r ∧ d.handovers = c.handovers ∧ SameCore c d)) ∧
    (c.mayWrite ag r = false → exec i s = .next s) ∧
    (c.bankGated n = false → c.handovers.find? (fun e => e.1 == n.val) = some (n.val, ty, p, clr) → ty < 8 → p < 64 →
      Gives s (.bankHandoverEnd n) (fun d => d.gf r BNK_OWNER.TYPE = ty ∧ d.gf r BNK_OWNER.PART = p ∧
        d.gb r BNK_OWNER.BUSY = false ∧ (∀ b, d.byte b = if clr = true ∧ Chip.inBank n b = true then 0 else c.byte b) ∧
        RegsBut c d [r] ∧ d.lanes = c.lanes)) ∧
    (c.bankGated n = true → exec (.bankHandoverEnd n) s = .next s) ∧
    alias_ true (fun x => x ||| v) (.bitSetAliasStore ag addr v) ∧
    alias_ false (fun x => x &&& ~~~v) (.bitClearAliasStore ag addr v)

/-- Scrubs and the DRAM fill (R218, R221, R222, R227). A scrub of a clean bank line changes nothing; one that meets a
single flipped bit mends it, keeps every byte and reports a corrected fault of source 8. The background fill marks its
region; the patrol of the last line of a port counts a pass. -/
def Obligations.ScrubsAndFills : Prop :=
  ∀ (s : State) (addr : BitVec 40) (n j : Nat) (port : Fin 2) (region : BitVec 15) (line : BitVec 29),
    let c := s.chip
    let a := addr.toNat
    (c.region a = .bank n → c.off = false → c.domainOn (9 + n / 8) = true →
      (c.ecc = [] → exec (.bankScrub addr) s = .next s) ∧
      (j < 72 → a % 64 = 0 → c.ecc = [(a / 8, BitVec.ofNat 72 (2 ^ j))] →
        Gives s (.bankScrub addr) (fun d => d.ecc = [] ∧ (∀ b, d.byte b = c.byte b) ∧ d.stands 8 0 ∧
          d.gf (.BNK_ECC n) BNK_ECC.CE = min (c.gf (.BNK_ECC n) BNK_ECC.CE + 1) BNK_ECC.CE.max))) ∧
    (c.off = false → c.gb (.DRM_CFG port) DRM_CFG.TRAINED = true → c.region (dramBase port + 0x100000 * region.toNat) = .dram port →
      Gives s (.dramRegionFill port region) (fun d => region.toNat ∈ d.filled.get [] port ∧ SameCore c d ∧
        RegsBut c d [.DRM_INIT port])) ∧
    (c.gb (.DRM_CFG port) DRM_CFG.TRAINED = false → exec (.dramRegionFill port region) s = .next s ∧
      exec (.patrolScrub port line) s = .next s) ∧
    (c.off = false → c.gb (.DRM_CFG port) DRM_CFG.TRAINED = true → (port.val = 0 ∨ c.domainOn 28 = true) → c.ecc = [] →
      64 * (line.toNat + 1) = c.dramSize port →
      Gives s (.patrolScrub port line) (fun d => SameCore c d ∧ RegsBut c d [.DRM_SCRUB port] ∧
        d.gf (.DRM_SCRUB port) DRM_SCRUB.PASSES =
          min (c.gf (.DRM_SCRUB port) DRM_SCRUB.PASSES + 1) DRM_SCRUB.PASSES.max))

/-! ### Arbiters, governor, mill book -/

/-- Shaft arbiters (R378 to R387). A lone request is granted; of two in different classes the more urgent one is granted,
the other stays, marked as having lost, and a core's port gets its hint. A write of `ARB_PORT` with weight 0 keeps the
weight and is reported by source 10; a clear of `LONGEST` makes it 0. -/
def Obligations.Arbitration : Prop :=
  ∀ (s : State) (a : Fin 11) (p q : BitVec 7) (ag : Agent) (v : BitVec 64) (k : Fin 344),
    let c := s.chip
    let r := RegName.ARB_PORT p.toNat
    let fresh := c.off = false ∧ (c.arb a).reqs = [] ∧ (c.arb a).credit = [] ∧ (c.arb a).win1 = [] ∧ (c.arb a).win2 = [] ∧
      c.gf r ARB_PORT.WEIGHT ≠ 0
    (fresh → Gives s (.arbiterDecision a [p]) (fun d => (d.arb a).reqs = [] ∧ (d.arb a).last = some s.now.toNat ∧
      d.mem = c.mem ∧ d.lanes = c.lanes)) ∧
    (fresh → (c.reqRank p.toNat).1 < (c.reqRank q.toNat).1 → c.gf (.ARB_PORT q.toNat) ARB_PORT.WEIGHT ≠ 0 →
      Gives s (.arbiterDecision a [q, p]) (fun d => (d.arb a).reqs.map (fun e => (e.port, e.lost)) = [(q.toNat, true)] ∧
        (2 ≤ q.toNat → q.toNat < 98 → ∃ h, (d.port (q.toNat - 2)).hint = some h ∧ h.ahead = 0) ∧
        d.mem = c.mem ∧ d.lanes = c.lanes)) ∧
    (c.off = true → ∀ l, exec (.arbiterDecision a l) s = .next s) ∧
    (c.off = false → c.mayWrite ag r = true →
      Gives s (.arbPortWrite ag p v) (fun d => d.gf r ARB_PORT.PRIO = ARB_PORT.PRIO.get v ∧
        d.gf r ARB_PORT.CLASS = c.gf r ARB_PORT.CLASS ∧
        (ARB_PORT.WEIGHT.get v ≠ 0 → d.gf r ARB_PORT.WEIGHT = ARB_PORT.WEIGHT.get v) ∧
        (ARB_PORT.WEIGHT.get v = 0 → d.gf r ARB_PORT.WEIGHT = c.gf r ARB_PORT.WEIGHT ∧ d.stands 10 0) ∧ SameCore c d)) ∧
    (c.off = false → c.mayWrite ag (.ARB_LONG k) = true →
      Gives s (.longestClear ag k) (fun d => d.gf (.ARB_LONG k) ARB_LONG.LONGEST = 0 ∧ OnlyRegs c d [.ARB_LONG k])) ∧
    (c.mayWrite ag r = false → exec (.arbPortWrite ag p v) s = .next s) ∧
    (c.mayWrite ag (.ARB_LONG k) = false → exec (.longestClear ag k) s = .next s)

/-- The governor and the reference clock (R42, R45 to R52). A reading below FLOOR plus MARGIN raises the commanded voltage by
5 mV up to 900 mV, unless it is held; one above with no stretch behind it leaves it. A third transaction in a row without
acknowledgement is AVSERR and contained, and is retried every millisecond; a missed floor is contained; a low supply and a
lost reference are fatal; a drift is contained. FLOOR is written within its range only. -/
def Obligations.GovernorRules : Prop :=
  ∀ (s : State) (mons : List (BitVec 12)) (m idx t : Nat) (meas : BitVec 10) (ag : Agent) (v : BitVec 64),
    let c := s.chip
    let now := s.now.toNat
    let fl := c.govFloor
    let cmd := c.govCmd
    let n := GOV_FLOOR.FLOOR.get v
    c.off = false →
      (c.speedIndex mons = some (m, idx) → c.govHeld = false →
        (idx < fl + c.govMargin → cmd < 900 → Gives s (.governorTick mons) (fun d => d.govCmd = cmd + 5 ∧
          d.gf .GOV_INDEX GOV_INDEX.INDEX = idx ∧ d.gf .GOV_INDEX GOV_INDEX.MON = m ∧
          d.gb .GOV_STATUS GOV_STATUS.ATMAX = decide (cmd + 5 = 900) ∧ SameCore c d)) ∧
        (fl + c.govMargin ≤ idx → c.gov.aboveSince = none → Gives s (.governorTick mons) (fun d => d.govCmd = cmd ∧
          d.gf .GOV_INDEX GOV_INDEX.INDEX = idx ∧ SameCore c d))) ∧
      (c.govHeld = true → Gives s (.governorTick mons) (fun d => d.govCmd = cmd ∧ SameCore c d)) ∧
      (c.gov.retryAt = none →
        Gives s (.avsbusTransactionEnd true meas) (fun d => d.gov.nacks = 0 ∧ d.gf .GOV_VOLT GOV_VOLT.MEAS = meas.toNat ∧
          SameCore c d) ∧
        (c.gov.nacks = 2 → Gives s (.avsbusTransactionEnd false meas) (fun d => d.gov.retryAt = some (now + 1000000) ∧
          d.gb .GOV_STATUS GOV_STATUS.AVSERR = true ∧ d.stands 19 1 ∧ d.mem = c.mem))) ∧
      (c.gov.retryAt = some t → t ≤ now →
        Gives s (.avsbusRetry true meas) (fun d => d.gov.retryAt = none ∧ d.gf .GOV_VOLT GOV_VOLT.MEAS = meas.toNat ∧
          SameCore c d) ∧
        Gives s (.avsbusRetry false meas) (fun d => d.gov.retryAt = some (now + 1000000) ∧ d.regs = c.regs ∧ SameCore c d)) ∧
      (c.gov.retryAt = some t → now < t → ∀ b, exec (.avsbusRetry b meas) s = .next s) ∧
      (c.speedIndex mons = some (m, idx) → idx < fl → cmd = 900 → c.gov.belowSince = some t → t + 20000 ≤ now →
        c.gb .GOV_STATUS GOV_STATUS.FLOORMISS = false →
        Gives s (.floormiss mons) (fun d => d.gb .GOV_STATUS GOV_STATUS.FLOORMISS = true ∧ d.stands 19 1 ∧ d.mem = c.mem)) ∧
      (c.gov.belowSince = none → exec (.floormiss mons) s = .next s) ∧
      (c.flt.deviceBrake = false →
        Gives s .underv (fun d => d.gb .GOV_STATUS GOV_STATUS.UNDERV = true ∧ d.stands 19 2 ∧ d.flt.deviceBrake = true ∧
          d.mem = c.mem) ∧
        Gives s .refclkLoss (fun d => d.gb .TIM_STATUS TIM_STATUS.LOSS = true ∧ d.gb .TIM_STATUS TIM_STATUS.LOCK = false ∧
          d.stands 19 2 ∧ d.flt.deviceBrake = true ∧ d.mem = c.mem)) ∧
      Gives s .refclkDrift (fun d => d.gb .TIM_STATUS TIM_STATUS.DRIFT = true ∧ d.stands 19 1 ∧ d.mem = c.mem) ∧
      (c.mayWrite ag .GOV_CTRL = true → c.gb .GOV_STATUS GOV_STATUS.RECALBUSY = false →
        Gives s (.recal ag) (fun d => d.gb .GOV_STATUS GOV_STATUS.RECALBUSY = true ∧ d.gb .GOV_CTRL GOV_CTRL.RECAL = true ∧
          OnlyRegs c d [.GOV_STATUS, .GOV_CTRL])) ∧
      (c.gb .GOV_STATUS GOV_STATUS.RECALBUSY = true → Gives s (.recalibrationEnd mons) (fun d =>
        d.gb .GOV_STATUS GOV_STATUS.RECALBUSY = false ∧ d.gb .GOV_CTRL GOV_CTRL.RECAL = false ∧ SameCore c d)) ∧
      (c.mayWrite ag .GOV_FLOOR = true →
        (c.gf .GOV_FLOOR GOV_FLOOR.BASE ≤ n → n ≤ 2400 → Gives s (.govFloorWrite ag v) (fun d =>
          d.govFloor = n ∧ SameCore c d)) ∧
        (n < c.gf .GOV_FLOOR GOV_FLOOR.BASE ∨ 2400 < n → Gives s (.govFloorWrite ag v) (fun d =>
          d.govFloor = fl ∧ d.stands 19 0 ∧ SameCore c d))) ∧
      (c.mayWrite ag .GOV_CTRL = false → exec (.recal ag) s = .next s) ∧
      (c.mayWrite ag .GOV_FLOOR = false → exec (.govFloorWrite ag v) s = .next s)

/-- The mill book (R495, R497). A save begins when it is asked for or due, one at a time; its end counts the sequence up and
names the slot, a first failure is retried at the next position, a second one is contained; each second counts. -/
def Obligations.MillBook : Prop :=
  ∀ (s : State) (ag : Agent) (p slot : Nat) (again : Bool),
    let c := s.chip
    let idle (d : Chip) : Prop := d.misc.save = none ∧ d.gb .BOK_STAT BOK_STAT.BUSY = false
    let begun (d : Chip) : Prop := d.misc.save.isSome = true ∧ d.gb .BOK_STAT BOK_STAT.BUSY = true ∧
      OnlyRegs c { d with misc := c.misc } [.BOK_STAT]
    (c.mayWrite ag .BOK_CTL = true → c.off = false → c.misc.save = none → Gives s (.save ag) begun) ∧
    (c.mayWrite ag .BOK_CTL = false ∨ c.misc.save.isSome = true → exec (.save ag) s = .next s) ∧
    (c.saveDue s.now.toNat = true → c.off = false → c.misc.save = none →
      Gives s .bookSaveInterval (fun d => begun d ∧ d.misc.saveAt = s.now.toNat)) ∧
    (c.saveDue s.now.toNat = false → exec .bookSaveInterval s = .next s) ∧
    (c.misc.save = some (p, slot, again) → slot < 16 → p < 2 →
      Gives s (.bookSaveEnd true) (fun d => idle d ∧ d.gf .BOK_STAT BOK_STAT.SLOT = slot ∧ d.gf .BOK_STAT BOK_STAT.PORT = p ∧
        d.gf .BOK_STAT BOK_STAT.SAVESEQ = (c.gf .BOK_STAT BOK_STAT.SAVESEQ + 1) % 2 ^ 32 ∧
        d.book.get 0 0x18 = s.now.toNat ∧ SameCore c d) ∧
      (again = false → Gives s (.bookSaveEnd false) (fun d => d.misc.save = some ((c.nextSave p slot).1, (c.nextSave p slot).2, true) ∧
        SameCore c d)) ∧
      (again = true → Gives s (.bookSaveEnd false) (fun d => idle d ∧ d.stands 18 1 ∧ d.mem = c.mem))) ∧
    (c.misc.save = none → ∀ ok, exec (.bookSaveEnd ok) s = .next s) ∧
    Gives s .powerOnSecond (fun d => d.book.get 0 0x40 = min (c.book.get 0 0x40 + 1) 0xFFFFFFFFFFFFFFFF ∧
      d.regs = c.regs ∧ SameCore c d)

/-! ### The millrace -/

/-- Steps of a channel program on their processor (R279, R293 to R298). `SEND` on a non-WCP path takes a tag and hands its
frame to the lane; `RECV` takes a tag and waits; `WAIT` parks until its time, or ends at once; `COPY` starts the transfer
engine; `JUMP` goes on at its target or ends the program; `MARK` writes its 32 octets. A step with LAST that succeeds ends
the program and frees the processor. A command for another step than the current one changes nothing. -/
def Obligations.ProgramSteps : Prop :=
  ∀ (s : State) (qq : BitVec 12) (p : Prog) (st : Staged) (g : EFrame) (b : List Byte) (j : PStep),
    let c := s.chip
    let q := qq.toNat
    let now := s.now.toNat
    let n := c.stepPath q p.cur
    let ln := c.pLane n
    let ready (op : Nat) : Prop := c.StepReady q p op
    let ended (d : Chip) : Prop := (d.que q).prog = none ∧ d.cpuOf q = none ∧ d.queState q = 1 ∧
      (d.que q).hrhead = (c.que q).hrhead ∧ (d.que q).trtail = (c.que q).trtail
    let tagged (d : Chip) : Prop := d.gf .CHN_TAGS CHN_TAGS.FREE = c.gf .CHN_TAGS CHN_TAGS.FREE - 1 ∧
      d.gf (.CHN_PATHSTAT n) CHN_PATHSTAT.UNACK = c.gf (.CHN_PATHSTAT n) CHN_PATHSTAT.UNACK + 1
    (ready 1 → p.cur.last = true → p.cur.ssel = 4 → p.cur.dsel = 0 → p.stage = some st → st.bytes.length ≤ 16384 →
      c.pathStatus q n = 0 → c.pWcp n = false → c.gf (.CHN_PATHCFG n) CHN_PATHCFG.QUOTA ≠ 0 → c.tagFree n = true →
      c.laneFrame n st.bytes = some b → c.muted = false → c.flt.deviceBrake = false → c.flt.partBrakes = [] → ln < 24 →
      c.linkUp ln = true → (c.eg ln).cur = some g →
      Gives s (.send qq) (fun d => ended d ∧ tagged d ∧ d.mem = c.mem ∧ (d.eg ln).cur = some g ∧
        ∃ f, (d.eg ln).queue = (c.eg ln).queue ++ [f] ∧ f.path = n ∧ f.bytes = b ∧ f.tag = true ∧ f.kind = .first ∧
          f.reps = p.cur.opt % 16)) ∧
    (ready 2 → p.cur.ssel = 0 → (p.buffer p.cur.dsel).isSome = true → c.pathStatus q n = 0 →
      c.gf (.CHN_PATHCFG n) CHN_PATHCFG.QUOTA ≠ 0 → c.tagFree n = true →
      Gives s (.recv qq) (fun d => (d.que q).prog = some { p with stage := none, phase := .recv now } ∧ d.cpuOf q = none ∧
        d.queState q = 3 ∧ tagged d ∧ SameCore c d)) ∧
    (ready 3 → p.cur.ssel = 0 → p.cur.dsel = 0 → p.cur.opt % 4 = 0 → c.following = false →
      (now < p.aux → Gives s (.wait qq) (fun d =>
        (d.que q).prog = some { p with stage := none, phase := .wait 0 now p.aux } ∧ d.cpuOf q = none ∧ SameCore c d)) ∧
      (p.aux ≤ now → p.cur.last = true → Gives s (.wait qq) (fun d => ended d ∧ SameCore c d))) ∧
    (ready 8 → p.cur.ssel = 4 → p.stage = some st → st.bytes.length ≤ 0x1000000 → (p.buffer p.cur.dsel).isSome = true →
      Gives s (.copy qq) (fun d => (d.que q).prog = some { p with phase := .moving } ∧ d.cpuOf q = c.cpuOf q ∧
        SameCore c d)) ∧
    (ready 9 → p.cur.ssel = 0 → p.cur.dsel = 0 →
      (p.cur.opt % 4 = 2 → p.prevOk = true → p.cur.last = true → Gives s (.jump qq) (fun d => ended d ∧ SameCore c d)) ∧
      (p.cur.opt % 4 = 0 → p.count < 256 → j.known = true →
        c.fetchStep now q (p.aux % 2 ^ 40 / 32 * 32) = (c, .ok j) →
        Gives s (.jump qq) (fun d => ∃ r, (d.que q).prog = some r ∧ r.pc = p.aux % 2 ^ 40 / 32 * 32 ∧ r.cur = j ∧
          r.phase = .ready ∧ r.count = p.count + 1 ∧ r.stage = none ∧ d.cpuOf q = c.cpuOf q ∧ SameCore c d))) ∧
    (ready 11 → p.cur.ssel = 0 → p.cur.dsel = 1 → p.cur.last = true → c.pathStatus q n = 0 → 32 ≤ p.cur.len →
      c.MayPut q p.cur.addr 32 →
      Gives s (.mark qq) (fun d => ended d ∧ Wrote c d p.cur.addr (c.markBytes now n p.aux))) ∧
    ((c.que q).prog = none → ∀ i ∈ [Instr.send qq, .recv qq, .wait qq, .copy qq, .jump qq, .notify qq, .mark qq],
      exec i s = .next s)

/-- Queues and their rings (R279, R281, R287 to R290, R294, R296). A doorbell within the ring is taken, one beyond it stops
the queue with STATE 5; a free processor takes the oldest entry of the queue that comes first; a completion is written at the
tail of the tailrace, counted, and its `NOTIFY` ends; the transfer engine writes what a `COPY` moves; a `RECV` whose time
has passed ends with `TIMEOUT` and gives its tag back, a `WAIT` whose time has come ends. -/
def Obligations.QueueFlow : Prop :=
  ∀ (s : State) (qq : BitVec 12) (cp : Fin 16) (p : Prog) (st : Staged) (m : Comp) (a len h r till x0 : Nat) (j : PStep),
    let c := s.chip
    let q := qq.toNat
    let now := s.now.toNat
    let n := c.stepPath q p.cur
    let x := c.que q
    let on := c.millOn = true ∧ c.queEn q = true ∧ c.queState q ≠ 5 ∧ c.gb .SYS_SNAP SYS_SNAP.BUSY = false
    let free := c.stepBlocked q p = false ∧ x.posts = [] ∧ x.abort = none
    let at_ := c.trBase q + 32 * (x.trtail % c.trSize q)
    let room (m : Comp) : Prop := on ∧ m.gen = c.queGen q ∧
      c.rangeStatus (c.queOwner q) (c.ctla q) 128 = 0 ∧
      (∀ k : Chan, ({ c with chan := k } : Chip).lineA now q 8 = ({ c with chan := k }, .ok h)) ∧
      (x.trtail + 65536 - h) % 65536 < c.trSize q ∧ c.MayPut q at_ 32 ∧
      (at_ + 32 ≤ c.ctla q ∨ c.ctla q + 128 ≤ at_)
    let posted (m : Comp) (d : Chip) : Prop := (d.que q).posts = [] ∧ (d.que q).trtail = (x.trtail + 1) % 65536 ∧
      (d.que q).hrhead = x.hrhead ∧ (∀ i < 32, d.byte (at_ + i) = (c.compBytes q m).getD i 0) ∧
      (∀ b, (b < at_ ∨ at_ + 32 ≤ b) → (b < c.ctla q + 64 ∨ c.ctla q + 88 ≤ b) → d.byte b = c.byte b)
    (on → x.prog = none → c.lineA now q 0 = (c, .ok h) → (h + 65536 - x.hrhead) % 65536 ≤ c.hrSize q → h ≠ x.door →
      Gives s (.doorbellAdvance qq) (fun d => (d.que q).door = h ∧ (d.que q).hrhead = x.hrhead ∧ d.regs = c.regs ∧
        SameCore c d)) ∧
    (on → x.prog = none → c.lineA now q 0 = (c, .ok h) → c.hrSize q < (h + 65536 - x.hrhead) % 65536 →
      Gives s (.doorbellAdvance qq) (fun d => d.queState q = 5)) ∧
    (c.queEn q = false → exec (.doorbellAdvance qq) s = .next s) ∧
    (c.millOn = true → c.chan.cpus.keys.contains cp.val = false → c.nextQueue = some r →
      Gives s (.headraceEntryTake cp) (fun d => (d.que r).hrhead = ((c.que r).hrhead + 1) % 65536)) ∧
    (c.chan.cpus.keys.contains cp.val = true ∨ c.nextQueue = none → exec (.headraceEntryTake cp) s = .next s) ∧
    (room m → x.prog = none → x.posts = [m] → Gives s (.tailracePoll qq) (fun d => posted m d)) ∧
    (c.millOn = true → c.queEn q = false → x.posts = [] → x.prog = none → exec (.tailracePoll qq) s = .next s) ∧
    (let y : Comp := ⟨p.gen, p.id, p.last.getD { step := p.stepNo, path := n }, p.cur.opt.testBit 0⟩
     room y → free → x.prog = some p → p.phase = .ready → p.cur.op = 10 → p.cur.ssel = 0 → p.cur.dsel = 0 →
       p.cur.last = true → (c.cpuOf q).isSome = true →
       Gives s (.notify qq) (fun d => posted y d ∧ (d.que q).prog = none ∧ d.cpuOf q = none)) ∧
    (on → free → x.prog = some p → p.phase = .moving → p.cur.last = true → p.cur.ssel = 4 → p.stage = some st →
      p.buffer p.cur.dsel = some (a, len) → st.bytes.length ≤ len → c.MayPut q a st.bytes.length →
      Gives s (.transferEngineEnd qq) (fun d => (d.que q).prog = none ∧ d.cpuOf q = none ∧ Wrote c d a st.bytes)) ∧
    (on → free → x.prog = some p → p.phase = .recv x0 → p.aux ≠ 0 → c.following = false →
      (now < x0 + p.aux → exec (.recvTimeout qq) s = .next s) ∧
      (x0 + p.aux ≤ now → c.paired = false → c.fetchStep now q ((p.pc + 32) % 2 ^ 40) = (c, .ok j) → j.op = 9 →
        j.opt % 4 = 2 → p.count < 256 → 2 ≤ c.gf (.CHN_PATHSTAT n) CHN_PATHSTAT.UNACK →
        Gives s (.recvTimeout qq) (fun d => (∃ y, (d.que q).prog = some y ∧ y.pc = (p.pc + 32) % 2 ^ 40 ∧ y.cur = j ∧
            y.prevOk = false ∧ (y.last.map (·.status)) = some stTimeout) ∧
          d.gf (.CHN_PATHSTAT n) CHN_PATHSTAT.UNACK = c.gf (.CHN_PATHSTAT n) CHN_PATHSTAT.UNACK - 1 ∧ SameCore c d))) ∧
    (on → free → x.prog = some p → p.phase = .wait 0 x0 till → c.following = false → p.cur.last = true →
      (till ≤ now → Gives s (.waitExpiry qq) (fun d => (d.que q).prog = none ∧ d.cpuOf q = none ∧ SameCore c d)) ∧
      (now < till → exec (.waitExpiry qq) s = .next s))

/-- Cipher and compression jobs (R346 to R356, R364 to R371). The steps put a job in their engine's list; a start gives the
job that comes first a free core with its key and source; its end writes the result, frees the core and ends the step. A
core error counts, frees the core and returns the job to the list; a second one within the hour fails the core. -/
def Obligations.EngineJobs : Prop :=
  ∀ (s : State) (qq : BitVec 12) (p : Prog) (st : Staged) (j : Job) (x : Share) (i a n : Nat) (kc : Fin 16) (km : Fin 8)
    (ag : Agent) (bs : List (List Byte)),
    let c := s.chip
    let q := qq.toNat
    let o := p.copt
    let now := s.now.toNat
    let staged := p.cur.ssel = 4 ∧ p.stage = some st ∧ p.cur.dsel = 4 ∧ st.bytes.length ≤ 0x1000000
    let queued (old new : List Job) : Prop := ∃ y, new = old ++ [y] ∧ y.q = some q ∧ y.part = c.quePart q ∧
      y.cls = c.queClass q ∧ y.len = st.bytes.length ∧ y.begun = false ∧ y.core = none
    let cipherStep (op : Nat) (sealing : Bool) (cmd : Instr) : Prop :=
      c.StepReady q p op → staged → p.coptOk sealing = true → o.lenOk sealing st.bytes.length = true → o.mode ≠ 0 →
        o.ksrc = true → c.gb (.CPH_SLOT o.slot) CPH_SLOT.LOADING = false →
        Gives s cmd (fun d => (d.que q).prog = some { p with phase := .job } ∧ queued c.chan.cjobs d.chan.cjobs ∧ SameCore c d)
    let millStep (op : Nat) (squeeze : Bool) (cmd : Instr) : Prop :=
      c.StepReady q p op → staged → Chip.millOptOk p squeeze = true → st.bytes ≠ [] →
        (squeeze = true → p.cur.opt / 64 % 4 ≠ 0) →
        Gives s cmd (fun d => (d.que q).prog = some { p with phase := .job } ∧ queued c.chan.mjobs d.chan.mjobs ∧ SameCore c d)
    let ending (d : Chip) : Prop := (d.que q).prog = none ∧ d.cpuOf q = none
    let running := (c.que q).prog = some p ∧ (c.que q).posts = [] ∧ (c.que q).abort = none ∧ p.phase = .job ∧
      p.cur.last = true ∧ p.rx = none ∧ p.wcp = none ∧ p.buffer p.cur.dsel = some (a, n) ∧ p.cur.dsel ≠ 4 ∧ p.cur.dsel ≠ 0 ∧
      c.MayPut q a n ∧ j.q = some q ∧ j.bad = 0
    let low (d : Chip) : Prop := ∀ b, b < journalBase → d.byte b = c.byte b
    cipherStep 4 true (.seal qq) ∧ cipherStep 5 false (.openStep qq) ∧ millStep 6 true (.squeeze qq) ∧
    millStep 7 false (.expand qq) ∧
    (c.poolOn .cipher = true → c.pick .cipher c.cipherEligible = some (j, x) → (c.freeCores .cipher).head? = some i →
      c.chan.cjobs = [j] → j.begun = false → j.q = some q → (c.que q).prog = some p → p.cur.ssel = 4 → p.stage = some st →
      o.mode ≠ 0 → c.slotStatus q p (p.cur.op == 4) = 0 → o.ivOk st.bytes = true →
      Gives s .cipherJobStart (fun d => d.chan.cjobs = [{ j with
          lost := false, core := some i, begun := true, key := c.chan.keys.get [] (c.jobSlot q p), data := st.bytes }] ∧
        d.coreState .cipher i = 1 ∧ d.lanes = c.lanes ∧ low d)) ∧
    (c.pick .cipher c.cipherEligible = none → exec .cipherJobStart s = .next s) ∧
    (c.poolOn .mill = true → c.pick .mill (fun _ => true) = some (j, x) → (c.freeCores .mill).head? = some i →
      c.chan.mjobs = [j] → j.begun = false → j.q = some q → (c.que q).prog = some p → p.cur.ssel = 4 → p.stage = some st →
      p.rx = none →
      Gives s .compressionJobStart (fun d => d.chan.mjobs = [{ j with lost := false, core := some i, begun := true, data := st.bytes }] ∧ d.coreState .mill i = 1 ∧ d.lanes = c.lanes ∧ low d)) ∧
    (c.pick .mill (fun _ => true) = none → exec .compressionJobStart s = .next s) ∧
    (running → c.poolOn .cipher = true → c.jobOn .cipher kc = some j → j.core = some kc.val → p.cur.op = 4 → o.mode ≠ 0 →
      (sealOut o j.key j.data).length = n →
      Gives s (.cipherJobEnd kc) (fun d => ending d ∧ Wrote c d a (sealOut o j.key j.data) ∧ j ∉ d.chan.cjobs ∧
        (c.coreState .cipher kc = 1 → c.gb (.CPH_CORE kc) CPH_CORE.OUT = false → d.coreState .cipher kc = 0))) ∧
    (c.jobOn .cipher kc = none → exec (.cipherJobEnd kc) s = .next s) ∧
    (running → c.poolOn .mill = true → c.jobOn .mill km = some j → j.core = some km.val → p.cur.op = 7 →
      expandAll (j.data.length / 16 + 1) j.data = (bs, true) → bs.flatten.length = n →
      Gives s (.compressionJobEnd km) (fun d => ending d ∧ Wrote c d a bs.flatten ∧ j ∉ d.chan.mjobs ∧
        (c.coreState .mill km = 1 → c.gb (.MIL_CORE km) CPH_CORE.OUT = false → d.coreState .mill km = 0))) ∧
    (c.jobOn .mill km = none → exec (.compressionJobEnd km) s = .next s) ∧
    (∀ pool u cmd src id, ((pool, u, cmd, src, id) = (Pool.cipher, kc.val, Instr.cipherCoreError kc, 14, kc.val) ∨
        (pool, u, cmd, src, id) = (Pool.mill, km.val, Instr.millstoneCoreError km, 15, 16 + km.val)) →
      c.poolOn pool = true → c.coreState pool u ≠ 3 →
      ((∀ e ∈ c.chan.errs, e.1 ≠ id) → Gives s cmd (fun d => d.coreState pool u ≠ 1 ∧ d.stands src 0 ∧ d.jobOn pool u = none ∧
        d.coreState pool u ≠ 3 ∧ SameCore c d)) ∧
      ((∃ e ∈ c.chan.errs, e.1 = id ∧ now ≤ e.2 + 3600000000000) → Gives s cmd (fun d => d.coreState pool u = 3 ∧
        d.stands src 1 ∧ d.mem = c.mem))) ∧
    (∀ pool u cmd, ((pool, u, cmd) = (Pool.cipher, kc.val, Instr.cipherCoreOut ag kc) ∨
        (pool, u, cmd) = (Pool.mill, km.val, Instr.millstoneCoreOut ag km)) →
      (c.poolOn pool = true → c.mayWrite ag (Chip.coreReg pool u) = true →
        (c.coreState pool u = 0 → Gives s (cmd true) (fun d => d.coreState pool u = 2 ∧ OnlyRegs c d [Chip.coreReg pool u])) ∧
        (c.coreState pool u = 2 → Gives s (cmd false) (fun d => d.coreState pool u = 0 ∧ OnlyRegs c d [Chip.coreReg pool u]))) ∧
      (c.mayWrite ag (Chip.coreReg pool u) = false → ∀ v, exec (cmd v) s = .next s))

/-- Key slots and unwraps (R339 to R346, R391). An unwrap that fails its first check ends with its result and leaves every
slot; one that passes zeroises the target and makes it loading; its end loads the key or leaves the slot empty. `CLR`
zeroises, after an unwrap under way. The manager's assignment zeroises too; of a slot assigned to another it is refused. -/
def Obligations.KeySlots : Prop :=
  ∀ (s : State) (ag : Agent) (pp : BitVec 6) (nn : BitVec 12) (v : BitVec 64) (j : Job) (u : Unwrap) (k use e : Nat)
    (key : List Byte),
    let c := s.chip
    let p := pp.toNat
    let n := nn.toNat
    let slot := RegName.CPH_SLOT n
    let stat := RegName.CPH_UNWRAP_STAT p
    let mgr : Bool := ag == .manager || ag == .miller
    let root := v.getLsbD 62
    let kek := CPH_UNWRAP_CMD.KEK.get v
    let tgt := CPH_UNWRAP_CMD.TARGET.get v
    let empty (d : Chip) (m : Nat) : Prop := d.gb (.CPH_SLOT m) CPH_SLOT.VALID = false ∧ d.gf (.CPH_SLOT m) CPH_SLOT.USE = 0 ∧
      d.chan.keys.get [] m = []
    let go := c.poolOn .cipher = true ∧ c.mayWrite ag (.CPH_UNWRAP_CMD p) = true ∧ v.getLsbD 63 = true
    let a := 8 * c.gf (.CPH_UNWRAP_ADDR p) CPH_UNWRAP_ADDR.ADDR
    let h := c.rawNat 8 a
    let ends := c.chan.cjobs = [j] ∧ j.q = none ∧ j.part = p ∧ j.core = some k ∧ k < 16 ∧ j.bad = 0 ∧ u.bad = 0 ∧ u.slot = n ∧
      c.chan.unwraps.find? (fun e => e.1 == p) = some (p, u) ∧ c.chan.clrs = [] ∧ c.chan.unwrapQ = []
    (go → c.gb stat CPH_UNWRAP_STAT.BUSY = true → Gives s (.unwrap ag pp v) (fun d => d.stands 14 0 ∧ d.chan = c.chan ∧
      d.rd stat = c.rd stat ∧ SameCore c d)) ∧
    (go → c.gb stat CPH_UNWRAP_STAT.BUSY = false → c.gb (.CPH_SLOT tgt) CPH_SLOT.LOADING = false →
      c.unwrapCheck p mgr root kek tgt = e → e ≠ 0 →
      Gives s (.unwrap ag pp v) (fun d => d.gf stat CPH_UNWRAP_STAT.RESULT = e ∧ d.gb stat CPH_UNWRAP_STAT.BUSY = false ∧
        d.chan = c.chan ∧ d.stands 14 0 ∧ (∀ m : BitVec 12, d.rd (.CPH_SLOT m.toNat) = c.rd (.CPH_SLOT m.toNat)) ∧ SameCore c d)) ∧
    (go → c.gb stat CPH_UNWRAP_STAT.BUSY = false → c.gb (.CPH_SLOT tgt) CPH_SLOT.LOADING = false →
      c.unwrapCheck p mgr root kek tgt = 0 → c.ecc = [] →
      c.rangeStatus (if mgr then (if c.gb .PRT_MGR PRT_MGR.SITE then none else some 0) else some p) a 8 = 0 →
      h / 2 ^ 48 = 0x4B42 → h / 2 ^ 40 % 256 = 1 → h / 2 ^ 32 % 256 = 32 →
      Gives s (.unwrap ag pp v) (fun d => d.gb stat CPH_UNWRAP_STAT.BUSY = true ∧ empty d tgt ∧
        d.gb (.CPH_SLOT tgt) CPH_SLOT.LOADING = true ∧ d.mem = c.mem ∧
        ∃ y, d.chan.cjobs = c.chan.cjobs ++ [y] ∧ y.q = none ∧ y.part = p ∧ y.len = 32)) ∧
    (c.mayWrite ag (.CPH_UNWRAP_CMD p) = false → exec (.unwrap ag pp v) s = .next s) ∧
    (ends → Chip.unwrapKey j.key j.data u.root (c.gf slot CPH_SLOT.OWNER) = .ok (use, key) → use < 16 →
      Gives s (.unwrapEnd pp) (fun d => d.gb slot CPH_SLOT.VALID = true ∧ d.gf slot CPH_SLOT.USE = use ∧
        d.chan.keys.get [] n = key ∧ d.gb slot CPH_SLOT.LOADING = false ∧ d.gf stat CPH_UNWRAP_STAT.RESULT = 0 ∧
        d.gb stat CPH_UNWRAP_STAT.BUSY = false ∧ d.gf slot CPH_SLOT.OWNER = c.gf slot CPH_SLOT.OWNER ∧ SameCore c d)) ∧
    (ends → Chip.unwrapKey j.key j.data u.root (c.gf slot CPH_SLOT.OWNER) = .error e → e = 4 ∨ e = 5 →
      Gives s (.unwrapEnd pp) (fun d => empty d n ∧ d.gb slot CPH_SLOT.LOADING = false ∧
        d.gf stat CPH_UNWRAP_STAT.RESULT = e ∧ d.stands 14 0 ∧ SameCore c d)) ∧
    (c.chan.cjobs = [] → exec (.unwrapEnd pp) s = .next s) ∧
    (c.poolOn .cipher = true → c.mayWrite ag slot = true →
      (c.gb slot CPH_SLOT.LOADING = false → Gives s (.clr ag nn) (fun d => empty d n ∧
        d.gf slot CPH_SLOT.OWNER = c.gf slot CPH_SLOT.OWNER ∧ RegsBut c d [slot] ∧ SameCore c d)) ∧
      (c.gb slot CPH_SLOT.LOADING = true → Gives s (.clr ag nn) (fun d => n ∈ d.chan.clrs ∧ d.regs = c.regs ∧ SameCore c d))) ∧
    (c.mayWrite ag slot = false → ag ≠ .miller → exec (.clr ag nn) s = .next s ∧ exec (.slotAssign ag nn v) s = .next s) ∧
    (let own := CPH_SLOT.OWNER.get v
     let clash := c.gb slot CPH_SLOT.ASSIGNED = true ∧ v.getLsbD 49 = true ∧ c.gf slot CPH_SLOT.OWNER ≠ own
     c.poolOn .cipher = true → (ag = .manager ∨ ag = .miller) →
       (¬ clash → Gives s (.slotAssign ag nn v) (fun d => empty d n ∧ d.gf slot CPH_SLOT.OWNER = own ∧
         d.gb slot CPH_SLOT.ASSIGNED = v.getLsbD 49 ∧ RegsBut c d [slot] ∧ SameCore c d)) ∧
       (clash → Gives s (.slotAssign ag nn v) (fun d => d.rd slot = c.rd slot ∧ d.chan = c.chan ∧ d.stands 18 0 ∧
         d.gf .CFG_SYND CFG_SYND.CODE = 6 ∧ SameCore c d)))

/-- Tags, egress and aborts (R298, R299, R306, R311). A waiting `RECV` that comes first gets its tag and waits for a frame; the
end of a transmission puts the frame on the wire and returns its tag; an abort raises a queue's generation and stops it, or
marks a path; the epoch reservation is raised by 64 and holds when its program has ended. -/
def Obligations.TagsEgressAborts : Prop :=
  ∀ (s : State) (qq : BitVec 12) (nn : BitVec 10) (lane : BitVec 8) (p : Prog) (f : EFrame) (ag : Agent) (h : Nat),
    let c := s.chip
    let q := qq.toNat
    let n := c.stepPath q p.cur
    let ln := lane.toNat
    let unack (d : Chip) (m : Nat) : Nat := d.gf (.CHN_PATHSTAT m) CHN_PATHSTAT.UNACK
    (c.millOn = true → c.following = false → c.grantNext = some q → (c.que q).prog = some p → p.cur.op = 2 →
      p.cur.ssel = 0 → (p.buffer p.cur.dsel).isSome = true → c.pathStatus q n = 0 → c.tagFree n = true →
      c.gf (.CHN_PATHCFG n) CHN_PATHCFG.QUOTA ≠ 0 → (c.que q).posts = [] →
      Gives s (.tagGrant qq) (fun d => (d.que q).prog = some { p with stage := none, phase := .recv s.now.toNat } ∧
        q ∉ d.chan.tagQ ∧ unack d n = unack c n + 1 ∧ SameCore c d)) ∧
    (c.grantNext ≠ some q → exec (.tagGrant qq) s = .next s) ∧
    (c.off = false → ln < 24 → c.laneCut ln = false → c.linkUp ln = true → (c.eg ln).cur = some f → (c.eg ln).queue = [] →
      ptpEvent f.bytes = none → f.reps = 0 → f.tag = true → 2 ≤ unack c f.path →
      Gives s (.egressTransmitEnd lane) (fun d => (d.eg ln).cur = none ∧ (d.eg ln).queue = [] ∧ (d.eg ln).wire = f.bytes ∧
        unack d f.path = unack c f.path - 1 ∧ SameCore c d)) ∧
    (c.off = true → exec (.egressTransmitEnd lane) s = .next s) ∧
    (c.millOn = true → c.mayWrite ag (.QUE_CMD q) = true → c.queEn q = true → (c.que q).abort = none →
      Gives s (.queueAbort ag qq) (fun d => (d.que q).abort.isSome = true ∧ d.queGen q = (c.queGen q + 1) % 65536 ∧
        d.queState q = 4 ∧ (d.que q).prog = (c.que q).prog)) ∧
    (c.mayWrite ag (.QUE_CMD q) = false ∨ (c.que q).abort.isSome = true → exec (.queueAbort ag qq) s = .next s) ∧
    (c.millOn = true → c.mayWrite ag (.CHN_PATHCTL nn.toNat) = true → c.pEn nn.toNat = true →
      Gives s (.pathAbort ag nn) (fun d => (d.pth nn.toNat).abort = true ∧ d.regs = c.regs ∧ SameCore c d)) ∧
    (c.mayWrite ag (.CHN_PATHCTL nn.toNat) = false → exec (.pathAbort ag nn) s = .next s) ∧
    (let ehigh (d : Chip) : Nat := d.gf .CHN_WCPCFG CHN_WCPCFG.EHIGH
     (c.off = false → c.chan.resv = none → c.resvLow = true → Gives s .epochReservationProgram (fun d =>
       d.chan.resv = some ((ehigh c + 64) % 65536) ∧ d.regs = c.regs ∧ SameCore c d)) ∧
     (c.resvLow = false → exec .epochReservationProgram s = .next s) ∧
     (c.chan.resv = some h → h < 65536 → c.chan.paths = [] → Gives s .epochReservationEnd (fun d => ehigh d = h ∧
       d.chan.resv = none ∧ SameCore c d)) ∧
     (c.chan.resv = none → exec .epochReservationEnd s = .next s))

/-- The Worlon channel protocol (R302 to R305). A frame that fails the header check is counted and dropped; in sequence with
a `RECV` waiting its payload is written, RXNEXT rises and an acknowledgement is owed; without one NOBUF counts; below RXNEXT
DUPS counts; an acknowledgement releases the frames below it. A `SYNC` of a new peer sets RXNEXT and the peer's epoch. The
eighth expiry in a row without progress takes the path down. -/
def Obligations.ChannelProtocol : Prop :=
  ∀ (s : State) (nn : BitVec 10) (f : List (BitVec 8)) (pl key : List Byte) (q a len t : Nat) (p : Prog) (g : WFrame) (e0 : EFrame),
    let c := s.chip
    let n := nn.toNat
    let now := s.now.toNat
    let h := whdr f
    let rx := c.rxnext n
    let x := c.pth n
    let on := c.off = false ∧ c.domainOn 19 = true ∧ c.pEn n = true ∧ c.pWcp n = true ∧ c.following = false
    let valid := on ∧ c.hdrOk n f = true ∧ c.pathKey n = some key ∧ wcpOpen (c.pSec n) key (!c.pathDir n) f = some pl ∧
      c.peerValid n = false ∧ x.rxq = []
    let ln := c.pLane n
    let busy := ln < 24 ∧ c.linkUp ln = true ∧ (c.eg ln).cur = some e0 ∧ (c.eg ln).queue = [] ∧ c.muted = false ∧
      c.flt.deviceBrake = false ∧ c.flt.partBrakes = [] ∧ x.rise = none ∧ x.ctl < 2 ^ 32 - 1 ∧ c.pathKey n = some key
    let sends (d : Chip) : Prop := (d.pth n).ctl = x.ctl + 1 ∧ ∃ e, (d.eg ln).queue = [e] ∧ e.path = n ∧ e.kind = .control
    let cnt (d : Chip) (w : Fld) : Nat := d.gf (.CHN_PATHCNT n) w
    let carried (cmd : Instr) (typ : Nat) : Prop :=
      h.typ = typ → valid → x.frames = [] → c.awaits n = false → h.flags.testBit 0 = false →
        (h.seq = rx → c.recvFor n = none → Gives s cmd (fun d => d.rxnext n = rx ∧
          cnt d CHN_PATHCNT.NOBUF = min (cnt c CHN_PATHCNT.NOBUF + 1) CHN_PATHCNT.NOBUF.max ∧ SameCore c d)) ∧
        (serialBelow 32 h.seq rx = true → Gives s cmd (fun d => d.rxnext n = rx ∧ (d.pth n).ackFrom = some (x.ackFrom.getD now) ∧
          cnt d CHN_PATHCNT.DUPS = min (cnt c CHN_PATHCNT.DUPS + 1) CHN_PATHCNT.DUPS.max ∧ SameCore c d)) ∧
        (h.seq = rx → c.recvFor n = some q → (c.que q).prog = some p → c.stepPath q p.cur = n → c.pCmp n = false →
          p.cur.last = true → (c.que q).posts = [] → p.buffer p.cur.dsel = some (a, len) → pl.length ≤ len →
          c.MayPut q a pl.length → 2 ≤ c.gf (.CHN_PATHSTAT n) CHN_PATHSTAT.UNACK →
          Gives s cmd (fun d => Wrote c d a pl ∧ d.rxnext n = (rx + 1) % 2 ^ 32 ∧ (d.que q).prog = none ∧
            (d.pth n).ackFrom = some (x.ackFrom.getD now) ∧
            d.gf (.CHN_PATHSTAT n) CHN_PATHSTAT.UNACK = c.gf (.CHN_PATHSTAT n) CHN_PATHSTAT.UNACK - 1))
    carried (.data nn f) 1 ∧ carried (.safe nn f) 3 ∧
    (h.typ = 2 → valid → x.frames = [g] → serialBelow 32 g.seq h.ack = true → (serialBelow 32 h.ack (c.txseq n) = true ∨
        h.ack = c.txseq n) → 2 ≤ c.gf (.CHN_PATHSTAT n) CHN_PATHSTAT.UNACK →
      Gives s (.ack nn f) (fun d => (d.pth n).frames = [] ∧ (d.pth n).timer = none ∧
        d.gf (.CHN_PATHSTAT n) CHN_PATHSTAT.UNACK = c.gf (.CHN_PATHSTAT n) CHN_PATHSTAT.UNACK - 1 ∧ SameCore c d)) ∧
    (h.typ = 4 → valid → busy → x.frames = [] → h.flags.testBit 2 = false →
      Gives s (.sync nn f) (fun d => d.rxnext n = be pl 0 4 ∧ d.peerValid n = true ∧ d.peerEpoch n = h.epoch ∧ sends d)) ∧
    (∀ i ∈ [(Instr.data nn f, 1), (.ack nn f, 2), (.safe nn f, 3), (.sync nn f, 4)],
      (on → h.typ = i.2 → c.hdrOk n f = false → Gives s i.1 (fun d =>
        d.gf .CHN_STAT CHN_STAT.NOMATCH = min (c.gf .CHN_STAT CHN_STAT.NOMATCH + 1) CHN_STAT.NOMATCH.max ∧ SameCore c d)) ∧
      (h.typ ≠ i.2 ∨ c.pEn n = false → exec i.1 s = .next s)) ∧
    (x.timer = some t → t + c.retxNs n ≤ now → c.muted = false → x.rise = none → x.frames = [] →
      Gives s (.retransmissionTimeout nn) (fun d => (d.pth n).expiries = x.expiries + 1 ∧
        (x.expiries = 7 → d.gb (.CHN_PATHSTAT n) CHN_PATHSTAT.DOWN = true ∧ d.stands 11 1) ∧ d.mem = c.mem)) ∧
    (x.timer = none → exec (.retransmissionTimeout nn) s = .next s) ∧
    (x.ackFrom = some t → t + 1000 * c.gf .CHN_WCPCFG CHN_WCPCFG.ACKDLY ≤ now → busy →
      Gives s (.ackdlyExpiry nn) (fun d => (d.pth n).ackFrom = none ∧ d.rxnext n = rx ∧ sends d ∧ SameCore c d)) ∧
    (x.ackFrom = none → exec (.ackdlyExpiry nn) s = .next s) ∧
    (x.syncAt = some t → t + c.retxNs n ≤ now → busy → c.awaits n = true →
      Gives s (.syncRepeat nn) (fun d => (d.pth n).syncAt = some now ∧ d.awaits n = true ∧ sends d ∧ SameCore c d)) ∧
    (x.syncAt = none → exec (.syncRepeat nn) s = .next s)

/-! ### Lanes and clocks -/

/-- SerDes lanes (R284, R317, R322, R323, R326). A frame with a wrong FCS is counted and reported; an accepted one of a WCP
path waits for its handling, one of no path is counted, a standby keeps it. A lost link retrains with a fault of source 12,
contained on a critical lane; the link comes up; `LOOP` is refused while a path names the lane; a `PAUSE` stops and its end
resumes transmission; a read of `LAN_TXTS` takes the oldest timestamp. -/
def Obligations.LanesAndLinks : Prop :=
  ∀ (s : State) (ln : BitVec 8) (b m : List Byte) (n : Fin 24) (k : Nat) (ag : Agent) (v : BitVec 2) (q : BitVec 16),
    let c := s.chip
    let now := s.now.toNat
    let f := RxFrame.eth b
    let st := RegName.LAN_STAT n
    let x := c.eg n
    let quiet := c.off = false ∧ x.queue = []
    let link (d : Chip) : Bool := d.gb st LAN_STAT.LINK
    let mine := c.domainOn (20 + n / 4) = true ∧ c.mayWrite ag (.LAN_CTL n) = true ∧ n.val < 20
    (c.off = false → c.rxOpen ln.toNat = true → withFcs (b.take (b.length - 4)) ≠ b →
      Gives s (.frameReceived ln f) (fun d => d.stands 12 0 ∧ d.gf (.LAN_CNT ln.toNat) LAN_CNT.FCSERR =
        min (c.gf (.LAN_CNT ln.toNat) LAN_CNT.FCSERR + 1) LAN_CNT.FCSERR.max ∧ SameCore c d)) ∧
    (c.off = false → ln.toNat < 0x40 → c.laneAccept now ln.toNat f = (c, true) →
      (c.following = true → Gives s (.frameReceived ln f) (fun d =>
        d.pair.shadow.getLast? = some (ln.toNat, f, now) ∧ d.regs = c.regs ∧ SameCore c d)) ∧
      (c.following = false → c.muted = false → c.domainOn 19 = true →
        (c.findPath ln.toNat f = none → Gives s (.frameReceived ln f) (fun d => OnlyRegs c d [.CHN_STAT] ∧
          d.gf .CHN_STAT CHN_STAT.NOMATCH = min (c.gf .CHN_STAT CHN_STAT.NOMATCH + 1) CHN_STAT.NOMATCH.max)) ∧
        (c.findPath ln.toNat f = some (k, m) → c.pWcp k = true → c.exportOf k = none → ptpEvent b = none →
          Gives s (.frameReceived ln f) (fun d => (d.pth k).rxq = (c.pth k).rxq ++ [(m, now)] ∧ d.regs = c.regs ∧
            SameCore c d)))) ∧
    (c.off = true → ∀ g, exec (.frameReceived ln g) s = .next s) ∧
    (quiet → n.val < 20 → link c = true →
      (c.gb (.LAN_CFG n) LAN_CFG.CRIT = false → Gives s (.linkLoss n) (fun d => link d = false ∧
        d.gb st LAN_STAT.TRAINING = true ∧ d.stands 12 0 ∧ SameCore c d)) ∧
      (c.gb (.LAN_CFG n) LAN_CFG.CRIT = true → Gives s (.linkLoss n) (fun d => link d = false ∧
        d.gb st LAN_STAT.TRAINING = true ∧ d.stands 12 1 ∧ d.mem = c.mem))) ∧
    (20 ≤ n.val ∨ link c = false → exec (.linkLoss n) s = .next s) ∧
    (quiet → n.val < 20 → c.gb (.LAN_CFG n) LAN_CFG.EN = true → c.domainOn (20 + n / 4) = true →
      c.gf (.LAN_QCFG (n / 4)) LAN_QCFG.RATE ≠ 0 → c.testsOn 4 n = [] →
      Gives s (.linkUp n) (fun d => link d = true ∧ d.gb st LAN_STAT.TRAINING = false ∧ RegsBut c d [st] ∧ SameCore c d)) ∧
    (n.val < 20 → c.gb (.LAN_CFG n) LAN_CFG.EN = false → exec (.linkUp n) s = .next s) ∧
    (quiet → mine → c.gb (.LAN_CFG n) LAN_CFG.EN = true → c.gb st LAN_STAT.TRAINING = false →
      Gives s (.retrain ag n) (fun d => link d = false ∧ d.gb st LAN_STAT.TRAINING = true ∧ RegsBut c d [st] ∧ SameCore c d)) ∧
    (c.off = false → mine → Gives s (.loop ag n v) (fun d => SameCore c d ∧
      (v ≠ 0 → c.pathNames n = true → d.stands 12 0 ∧ d.rd (.LAN_CTL n) = c.rd (.LAN_CTL n)) ∧
      (v = 0 ∨ c.pathNames n = false → d.gf (.LAN_CTL n) LAN_CTL.LOOP = v.toNat ∧ OnlyRegs c d [.LAN_CTL n]))) ∧
    (c.mayWrite ag (.LAN_CTL n) = false → exec (.retrain ag n) s = .next s ∧ exec (.loop ag n v) s = .next s) ∧
    (quiet → c.rxOpen n = true → c.gb (.LAN_CFG n) LAN_CFG.PAUSEEN = true →
      Gives s (.pause n q) (fun d => (d.eg n).pausedTill = now + q.toNat * 512 / c.laneRate n ∧
        d.gb st LAN_STAT.PAUSED = (q != 0) ∧ RegsBut c d [st] ∧ SameCore c d)) ∧
    (c.gb (.LAN_CFG n) LAN_CFG.PAUSEEN = false → exec (.pause n q) s = .next s) ∧
    (quiet → x.pausedTill ≤ now → Gives s (.pauseEnd n) (fun d => d.gb st LAN_STAT.PAUSED = false ∧ RegsBut c d [st] ∧
      SameCore c d)) ∧
    (now < x.pausedTill → exec (.pauseEnd n) s = .next s) ∧
    (c.off = false → c.domainOn (20 + n / 4) = true → c.mayRead ag (.LAN_TXTS n) = true →
      Gives s (.txtsRead ag n) (fun d => (d.eg n).txts = x.txts.drop 1 ∧ d.regs = c.regs ∧ SameCore c d)) ∧
    (c.mayRead ag (.LAN_TXTS n) = false → exec (.txtsRead ag n) s = .next s)

/-- The PTP clock and its pulses (R324, R327, R339), and the field lanes (R323, R328 to R332, R338). A write sets the clock and
a step adds to it; `PPS_OUT` rises at a whole second and falls after WIDTH; an edge of `PPS_IN` captures both clocks and pends
the event of every triad with PPSEN; WIDTH 0 is refused. A CAN frame contends again, counts an error, or is dropped after
RETRY; an idle line starts its frame; an asynchronous frame reaches its `RECV`; bus-off is contained and ends; a loop is
refused while a path names the lane. -/
def Obligations.ClocksAndFieldLanes : Prop :=
  ∀ (s : State) (ag : Agent) (v : BitVec 64) (k : Fin 64) (lost w : Bool) (f : EFrame) (o m : List Byte) (errs : BitVec 12)
    (c' : Chip) (n q a len hi : Nat) (p : Prog),
    let c := s.chip
    let now := s.now.toNat
    let ptp := c.chan.ptp
    let sec := c.ptpNow now / 1000000000
    let ln := 0x40 + k.val
    let st := RegName.FLD_STAT k
    let cnt (d : Chip) (x : Fld) : Nat := d.gf (.FLD_CNT k) x
    let up (d : Chip) (x : Fld) : Prop := cnt d x = min (cnt c x + 1) x.max
    let can (d : Chip) : Nat := d.gf st FLD_STAT.CANST
    let lone := c.off = false ∧ (c.eg ln).cur = some f ∧ (c.eg ln).queue = [] ∧ c.laneCut ln = false ∧
      c.fldMode k = 0 ∧ can c < 2 ∧ c.frameReady f = true ∧ c.frameAllowed f = true
    let again (d : Chip) (t : Nat) : Prop := (d.eg ln).queue = [] ∧ ∃ g, (d.eg ln).cur = some g ∧ g.tries = t ∧
      g.path = f.path ∧ g.bytes = f.bytes
    let rep := Instr.canRetransmit k lost
    let fr := RxFrame.async o errs
    (c.off = false → c.mayWrite ag .TIM_PTP = true → Gives s (.ptpSet ag v) (fun d => d.ptpNow now = v.toNat ∧
      d.regs = c.regs ∧ SameCore c d)) ∧
    (c.off = false → c.mayWrite ag .TIM_PTPSTEP = true → Gives s (.ptpStep ag v) (fun d =>
      d.ptpNow now = (c.ptpNow now + v.toNat) % 2 ^ 64 ∧ d.regs = c.regs ∧ SameCore c d)) ∧
    (c.mayWrite ag .TIM_PTP = false → exec (.ptpSet ag v) s = .next s) ∧
    (c.mayWrite ag .TIM_PTPSTEP = false → exec (.ptpStep ag v) s = .next s) ∧
    (c.off = false → ptp.next < sec → Gives s .ppsOutRise (fun d => d.regs = c.regs ∧ SameCore c d ∧
      (c.gb .TIM_PPS TIM_PPS.OUTEN = true → c.muted = false → c.pair.cut = false → d.ppsOut = true ∧
        d.chan.ptp.high = some (now + 1000 * c.gf .TIM_PPS TIM_PPS.WIDTH)))) ∧
    (sec ≤ ptp.next → exec .ppsOutRise s = .next s) ∧
    (ptp.high = some hi →
      (hi ≤ now → Gives s .ppsOutFall (fun d => d.ppsOut = false ∧ d.regs = c.regs ∧ SameCore c d)) ∧
      (now < hi → exec .ppsOutFall s = .next s)) ∧
    (c.off = false → Gives s .ppsInEdge (fun d => d.rd .TIM_PPSIN = BitVec.ofNat 64 (c.ptpNow now) ∧ d.rd .TIM_PPSNOW = s.now ∧
      RegsBut c d [.TIM_PPSIN, .TIM_PPSNOW] ∧ d.mem = c.mem ∧ d.lanes = c.lanes ∧
      ∀ t : Nat, t < 32 → c.gb (.CLU_EVCFG t) CLU_EVCFG.PPSEN = true → 0x1031 ∈ (d.port (3 * t)).pend)) ∧
    (c.off = true → exec .ppsInEdge s = .next s) ∧
    (c.off = false → c.mayWrite ag .TIM_PPS = true → Gives s (.timPpsWrite ag v) (fun d => SameCore c d ∧
      d.gf .TIM_PPS TIM_PPS.OUTEN = TIM_PPS.OUTEN.get v ∧
      (TIM_PPS.WIDTH.get v ≠ 0 → d.gf .TIM_PPS TIM_PPS.WIDTH = TIM_PPS.WIDTH.get v ∧ RegsBut c d [.TIM_PPS]) ∧
      (TIM_PPS.WIDTH.get v = 0 → d.gf .TIM_PPS TIM_PPS.WIDTH = c.gf .TIM_PPS TIM_PPS.WIDTH ∧ d.stands 19 0))) ∧
    (c.mayWrite ag .TIM_PPS = false → exec (.timPpsWrite ag v) s = .next s) ∧
    (lone →
      (lost = true → Gives s rep (fun d => again d f.tries ∧ d.rd (.FLD_CNT k) = c.rd (.FLD_CNT k) ∧ SameCore c d)) ∧
      (lost = false → f.tries < c.gf (.FLD_CFG k) FLD_CFG.RETRY → Gives s rep (fun d => again d (f.tries + 1) ∧
        up d FLD_CNT.ERRFR ∧ d.gf st FLD_STAT.TEC = min (c.gf st FLD_STAT.TEC + 8) 255 ∧ SameCore c d)) ∧
      (lost = false → c.gf (.FLD_CFG k) FLD_CFG.RETRY ≤ f.tries → f.tag = false → Gives s rep (fun d =>
        (d.eg ln).cur = none ∧ up d FLD_CNT.ERRFR ∧ up d FLD_CNT.DROPS ∧ SameCore c d))) ∧
    ((c.eg ln).cur = none → exec rep s = .next s) ∧
    (c.off = false → c.fldMode k ≠ 0 → c.laneCut ln = false → can c ≠ 2 → (c.eg ln).cur = none → (c.eg ln).queue = [f] →
      c.frameReady f = true → c.frameAllowed f = true → Gives s (.hdlcTransmitStart k) (fun d => (d.eg ln).de = true ∧
        (d.eg ln).queue = [] ∧ (∃ g, (d.eg ln).cur = some g ∧ g.bytes = f.bytes) ∧ SameCore c d)) ∧
    (c.fldMode k = 0 → exec (.hdlcTransmitStart k) s = .next s) ∧
    (c.off = false → c.fldMode k = 2 → c.fldAccept ln fr = (c', true) → c.following = false → c.muted = false →
      c.domainOn 19 = true → c'.findPath ln fr = some (n, m) → c'.pWcp n = false → c'.exportOf n = none →
      c'.recvFor n = some q → (c'.que q).prog = some p → c'.stepPath q p.cur = n → c'.pCmp n = false → p.cur.last = true →
      (c'.que q).posts = [] → p.buffer p.cur.dsel = some (a, len) → m.length ≤ len → c'.MayPut q a m.length →
      2 ≤ c'.gf (.CHN_PATHSTAT n) CHN_PATHSTAT.UNACK →
      Gives s (.asyncFrameEnd k o errs) (fun d => Wrote c d a m ∧ (d.que q).prog = none ∧
        cnt d FLD_CNT.RXERR = min (cnt c FLD_CNT.RXERR + errs.toNat) FLD_CNT.RXERR.max)) ∧
    (c.off = true ∨ c.fldMode k ≠ 2 → exec (.asyncFrameEnd k o errs) s = .next s) ∧
    (c.off = false → c.gb (.FLD_CFG k) FLD_CFG.EN = true → c.fldMode k = 0 → can c ≠ 2 → Gives s (.busoff k) (fun d =>
      can d = 2 ∧ (d.eg ln).cur = none ∧ up d FLD_CNT.BUSOFF ∧ d.stands 13 1 ∧ d.mem = c.mem)) ∧
    (c.gb (.FLD_CFG k) FLD_CFG.EN = false → exec (.busoff k) s = .next s) ∧
    (c.off = false → can c = 2 → (c.eg ln).queue = [] → Gives s (.busOffRecovery k) (fun d => can d = 0 ∧
      d.gf st FLD_STAT.TEC = 0 ∧ d.gf st FLD_STAT.REC = 0 ∧ RegsBut c d [st] ∧ SameCore c d)) ∧
    (can c ≠ 2 → exec (.busOffRecovery k) s = .next s) ∧
    (c.off = false → c.domainOn 26 = true → c.mayWrite ag (.FLD_CTL k) = true → Gives s (.fldLoop ag k w) (fun d => SameCore c d ∧
      (w = true → c.pathNames ln = true → d.stands 12 0 ∧ d.rd (.FLD_CTL k) = c.rd (.FLD_CTL k)) ∧
      (w = false ∨ c.pathNames ln = false → d.gf (.FLD_CTL k) FLD_CTL.LOOP = bit w ∧ OnlyRegs c d [.FLD_CTL k]))) ∧
    (c.mayWrite ag (.FLD_CTL k) = false → exec (.fldLoop ag k w) s = .next s)

/-! ### Partitions -/

/-- Partition commands (R393 to R396, R490) and the written-page log (R399, R400). `START` of a stopped partition makes it
running and its triad's lanes begin at the entry point; `RESET` and `REMOVE` set the partition's brake and begin its abort,
which a command that is not allowed does not: it is reported by source 18 with code 0x07. When the work of
a removed partition has stopped, it is stopped and its rights have ended. `SWAP` makes the log busy, its end turns ACTIVE; EN with bad buffers is
refused. -/
def Obligations.PartitionCommands : Prop :=
  ∀ (s : State) (ag : Agent) (pp : BitVec 6) (t : Nat) (v : BitVec 64),
    let c := s.chip
    let p := pp.toNat
    let ctl := RegName.PRT_CTL p
    let may := c.off = false ∧ c.mayWrite ag ctl = true
    let refused (d : Chip) : Prop := d.gf .CFG_SYND CFG_SYND.CODE = 7 ∧ d.gf .CFG_SYND CFG_SYND.ADDR = ctl.addr ∧ d.stands 18 0 ∧
      d.pstate p = c.pstate p ∧ SameCore c d
    let halted (d : Chip) : Prop := d.parts = c.parts.set p (d.part p) ∧
      (c.gb (.PRT_CFG p) PRT_CFG.DEFINED = true → d.flt.partBrakes.contains p = true)
    let runs := c.pstate p = 2 ∨ c.pstate p = 3
    let free := c.partQueues p = [] ∧ c.partPaths p = [] ∧ c.flt.safeDue = [] ∧ c.chan.safeWait = []
    (may → c.pstate p = 1 → c.clusterDown p = false → c.flt.deviceBrake = false → c.triadsOf p = [t] →
      c.tstate t ≠ 6 → c.gb (.CLU_SLUTEST t) CLU_SLUTEST.DONE = false →
      (∀ i : Nat, i < 3 → (c.cstore (c.coreOf t i)).failed = false) →
      Gives s (.start ag pp) (fun d => d.pstate p = 2 ∧ d.tstate t = (if c.split t then 7 else 1) ∧
        (∀ i : Nat, i < 3 → (d.lane (3 * t + i)).arch = c.entryArchOf t ∧ (d.lane (3 * t + i)).halted = false) ∧
        d.mem = c.mem)) ∧
    (may → c.pstate p ≠ 1 ∨ c.clusterDown p = true ∨ c.flt.deviceBrake = true → Gives s (.start ag pp) refused) ∧
    (may → c.isMgrPart p = false → c.flt.deviceBrake = false → runs → free →
      Gives s (.partitionReset ag pp) (fun d => halted d ∧ d.pstate p = 4 ∧ (d.part p).again = true ∧ d.mem = c.mem) ∧
      Gives s (.remove ag pp) (fun d => halted d ∧ d.pstate p = 5 ∧ (d.part p).again = false ∧ d.mem = c.mem)) ∧
    (may → c.isMgrPart p = false → c.flt.deviceBrake = false → c.pstate p = 4 → Gives s (.remove ag pp) (fun d =>
      d.pstate p = 5 ∧ (d.part p).again = false ∧ RegsBut c d [.PRT_STATE p] ∧ SameCore c d)) ∧
    (may → c.isMgrPart p = true ∨ c.flt.deviceBrake = true ∨ ¬ runs → Gives s (.partitionReset ag pp) refused ∧
      (c.pstate p ≠ 4 ∨ c.isMgrPart p = true ∨ c.flt.deviceBrake = true → Gives s (.remove ag pp) refused)) ∧
    (c.mayWrite ag ctl = false → exec (.start ag pp) s = .next s ∧ exec (.partitionReset ag pp) s = .next s ∧
      exec (.remove ag pp) s = .next s) ∧
    (c.off = false → c.pstate p = 4 ∨ c.pstate p = 5 → c.prtPending p = false → (c.part p).again = false →
      c.partQueues p = [] → c.partPaths p = [] → c.gb (.CPH_UNWRAP_STAT p) CPH_UNWRAP_STAT.BUSY = false →
      Gives s (.partitionStopped pp) (fun d => d.pstate p = 1 ∧ d.flt.partBrakes.contains p = false ∧
        d.gb (.PRT_LOGCFG p) PRT_LOGCFG.EN = false ∧ d.gf (.PRT_CFG p) PRT_CFG.BARGRANT = 0)) ∧
    (c.off = true ∨ (c.pstate p ≠ 4 ∧ c.pstate p ≠ 5) ∨ c.prtPending p = true → exec (.partitionStopped pp) s = .next s) ∧
    (let r := RegName.PRT_LOGCTL p
     let acting (d : Chip) : Nat := d.gf r PRT_LOGCTL.ACTIVE
     (c.off = false → c.mayWrite ag r = true → Gives s (.swap ag pp) (fun d => d.gb r PRT_LOGCTL.BUSY = true ∧
       acting d = acting c ∧ OnlyRegs c d [r])) ∧
     (c.mayWrite ag r = false → exec (.swap ag pp) s = .next s) ∧
     (c.gb r PRT_LOGCTL.BUSY = true → Gives s (.swapDone pp) (fun d => d.gb r PRT_LOGCTL.BUSY = false ∧
       acting d = 1 - acting c ∧ OnlyRegs c d [r])) ∧
     (c.gb r PRT_LOGCTL.BUSY = false → exec (.swapDone pp) s = .next s)) ∧
    (let r := RegName.PRT_LOGCFG p
     let ok := c.logOk (PRT_LOGCFG.LOG2.get v) (c.gf (.PRT_LOGBUF0 p) PRT_LOGBUF0.ADDR) (c.gf (.PRT_LOGBUF1 p) PRT_LOGBUF1.ADDR)
     let i := Instr.prtLogcfgWrite ag pp v
     (c.off = false → c.mayWrite ag r = true →
       (PRT_LOGCFG.EN.get v = 0 ∨ ok = true → Gives s i (fun d => d.gf r PRT_LOGCFG.EN = PRT_LOGCFG.EN.get v ∧
         d.gf r PRT_LOGCFG.LOG2 = PRT_LOGCFG.LOG2.get v ∧ d.gf r PRT_LOGCFG.FIRST = PRT_LOGCFG.FIRST.get v ∧ OnlyRegs c d [r])) ∧
       (PRT_LOGCFG.EN.get v = 1 → ok = false → Gives s i (fun d => d.rd r = c.rd r ∧ d.stands 18 0 ∧ SameCore c d))) ∧
     (c.mayWrite ag r = false → exec i s = .next s))

/-! ### Faults and brakes -/

/-- Fault reports and their grace timers (R402, R407 to R410, R414, R416, R417). A corrected fault sets its bit and starts its
timer; a contained one is attributed, told to the host, timed, and takes RUN to FAULT; a timer that ends with its bit or
attribution set makes a contained fault, or brakes what ESC says, and ends the attribution. SAFEHOLD idles the lanes. The end
of the quiet period returns to RUN, or past the limit sets the device brake with CAUSE 3. -/
def Obligations.FaultReports : Prop :=
  ∀ (s : State) (src : Fin 20) (who : Attr) (triad : Option (Fin 32)) (pp : BitVec 6) (e : Nat × Nat),
    let c := s.chip
    let now := s.now.toNat
    let k := c.attrKey (attrParty who)
    let pol (f : Fld) : Nat := c.gf (.FLT_POLICY src) f
    let st (d : Chip) : Nat := d.gf .FLT_STATE FLT_STATE.STATE
    let still := c.chan.safeWait = [] ∧ (∀ p : Nat, c.safePaths p = []) ∧ c.off = false
    let p := pp.toNat
    let ends (w : Nat) (d : Chip) : Prop := d.attributed src w = false ∧ d.graceOver now src w = false ∧
      d.flt.quietFrom = now ∧ d.mem = c.mem
    let recent := c.flt.returns.filter (fun t => decide (now ≤ t + 1000000000 * c.gf .FLT_RECOV FLT_RECOV.WINDOW))
    (c.off = false → Gives s (.correctedFault src) (fun d => d.stands src 0 ∧ RegsBut c d [.FLT_STATUS] ∧ SameCore c d ∧
      (c.sticky src 0 = false → pol FLT_POLICY.GRACE0 ≠ 0 → c.standby = false →
        d.flt.grace0 = c.flt.grace0 ++ [(src.val, now + 1000 * pol FLT_POLICY.GRACE0)]))) ∧
    (c.off = false → Gives s (.containedFault src who triad) (fun d => d.stands src 1 ∧ d.attributed src k = true ∧
      (src.val, 1) ∈ d.host.faults ∧ d.mem = c.mem ∧ d.lanes = c.lanes ∧
      (∀ t : Fin 32, triad = some t → t.val / 4 = src.val → (d.rd .FLT_TATTR).getLsbD t = true) ∧
      (st c = 3 → st d = 4 ∧ d.flt.quietFrom = now ∧ (c.attributed src k = false → c.standby = false →
        (src.val, k, now + 1000 * pol FLT_POLICY.GRACE1) ∈ d.flt.grace1)))) ∧
    (c.off = true → exec (.correctedFault src) s = .next s ∧ exec (.containedFault src who triad) s = .next s) ∧
    (c.flt.grace0 = [e] →
      (e.1 = src.val → e.2 ≤ now → Gives s (.grace0Expiry src) (fun d => d.flt.grace0 = [] ∧ d.mem = c.mem ∧
        (c.sticky src 0 = true → d.stands src 1 ∧ d.attributed src 64 = true) ∧ (c.sticky src 0 = false → d.regs = c.regs))) ∧
      (e.1 ≠ src.val ∨ now < e.2 → exec (.grace0Expiry src) s = .next s)) ∧
    (still → c.graceOver now src 64 = true → c.flt.deviceBrake = false → src.val ≠ 17 →
      Gives s (.graceExpiry src .manager) (fun d => ends 64 d ∧ d.flt.deviceBrake = true ∧ st d = 5 ∧
        d.gf .FLT_STATE FLT_STATE.CAUSE = 4)) ∧
    (still → c.graceOver now src p = true → Gives s (.graceExpiry src (.part pp)) (fun d => ends p d ∧
      (pol FLT_POLICY.ESC = 0 → c.gb (.PRT_CFG p) PRT_CFG.DEFINED = true → p ∈ d.flt.partBrakes) ∧
      (pol FLT_POLICY.ESC = 1 → ∀ t ∈ c.triadsOf p, (c.rd .FLT_TATTR).getLsbD t = true → c.tstate t ∉ [0, 6] → d.tstate t = 5) ∧
      (1 < pol FLT_POLICY.ESC → d.flt.deviceBrake = true))) ∧
    (c.graceOver now src p = false → exec (.graceExpiry src (.part pp)) s = .next s) ∧
    (c.off = false → c.flt.deviceBrake = true → c.flt.idle = false → (∀ ln : Nat, ln < 20 → (c.eg ln).queue = []) →
      c.flt.brakedAt + 1000000 * c.gf .FLT_BRAKE FLT_BRAKE.SAFEHOLD ≤ now →
      Gives s .safeholdExpiry (fun d => d.flt.idle = true ∧ d.regs = c.regs ∧ SameCore c d)) ∧
    (c.flt.deviceBrake = false ∨ now < c.flt.brakedAt + 1000000 * c.gf .FLT_BRAKE FLT_BRAKE.SAFEHOLD →
      exec .safeholdExpiry s = .next s) ∧
    (st c = 4 → c.flt.grace0 = [] → c.flt.grace1 = [] → c.flt.quietFrom + 1000000 * c.gf .FLT_RECOV FLT_RECOV.QUIET ≤ now →
      (c.off = false → recent.length < c.gf .FLT_RECOV FLT_RECOV.LIMIT → Gives s .quietPeriodEnd (fun d => st d = 3 ∧
        d.gb .FLT_STATUS FLT_STATUS.RECOVERED = true ∧ d.flt.returns = now :: recent ∧
        d.gf .FLT_RECOVERIES FLT_RECOVERIES.COUNT = min (c.gf .FLT_RECOVERIES FLT_RECOVERIES.COUNT + 1) 65535 ∧
        RegsBut c d [.FLT_STATE, .FLT_STATUS, .FLT_RECOVERIES] ∧ SameCore c d)) ∧
      (still → c.gf .FLT_RECOV FLT_RECOV.LIMIT ≤ recent.length → c.flt.deviceBrake = false →
        Gives s .quietPeriodEnd (fun d => st d = 5 ∧ d.gf .FLT_STATE FLT_STATE.CAUSE = 3 ∧ d.flt.deviceBrake = true ∧
          d.mem = c.mem))) ∧
    (st c ≠ 4 ∨ c.flt.grace1 ≠ [] → exec .quietPeriodEnd s = .next s)

/-- Brakes and the clearing of faults (R405, R406, R409, R411, R412, R415, R420). A fatal fault, `FLT_BRAKE.DEVICE` and
`BRAKE_REQ_N` set the device brake with CAUSE 1, 5 and 2: the state is SAFE, every triad that runs and every field lane is
safe. PARTB and TRIADB brake a partition or a triad. A 1 written to an attribution ends it, and the contained bit clears with
the last one; one written to `FLT_STATUS` clears its bit; the manager's read clears RECOVERED. -/
def Obligations.BrakesAndClears : Prop :=
  ∀ (s : State) (src : Fin 20) (ag : Agent) (pp : BitVec 6) (t : Fin 32) (v : BitVec 64),
    let c := s.chip
    let now := s.now.toNat
    let still := c.chan.safeWait = [] ∧ (∀ p : Nat, c.safePaths p = []) ∧ c.off = false
    let runs (c : Chip) (t : Nat) : Prop := c.tstate t ∉ [0, 5, 6]
    let braked (cause : Nat) (d : Chip) : Prop := d.flt.deviceBrake = true ∧ d.gf .FLT_STATE FLT_STATE.STATE = 5 ∧
      d.gf .FLT_STATE FLT_STATE.CAUSE = cause ∧ d.gb .FLT_STATUS FLT_STATUS.SAFE = true ∧ d.mem = c.mem ∧
      (∀ n : Nat, n < 64 → d.gb (.FLD_STAT n) FLD_STAT.SAFE = true) ∧ ∀ t : Nat, t < 32 → runs c t → d.tstate t = 5
    let p := pp.toNat
    let early := ∀ s k : Nat, c.graceOver now s k = false
    let mask := Chip.attrMask ag v
    let b := RegName.FLT_BRAKE
    (still → c.flt.deviceBrake = false →
      Gives s (.fatalFault src) (fun d => braked 1 d ∧ d.stands src 2 ∧ (src.val, 2) ∈ d.host.faults) ∧
      (c.mayWrite ag b = true → Gives s (.deviceBrake ag) (braked 5)) ∧
      Gives s .brakeReq (fun d => braked 2 d ∧ d.gb .FLT_STATUS FLT_STATUS.EXTBRAKE = true)) ∧
    (c.off = true → exec (.fatalFault src) s = .next s ∧ exec .brakeReq s = .next s) ∧
    (still → c.mayWrite ag b = true → c.gb (.PRT_CFG p) PRT_CFG.DEFINED = true → p ∉ c.flt.partBrakes →
      Gives s (.partb ag pp) (fun d => p ∈ d.flt.partBrakes ∧ d.gf b FLT_BRAKE.PART = p ∧
        (c.pstate p = 2 → d.pstate p = 3) ∧ (∀ u ∈ c.triadsOf p, runs c u → d.tstate u = 5) ∧ d.mem = c.mem)) ∧
    (c.off = false → c.mayWrite ag b = true →
      (runs c t → Gives s (.triadb ag t) (fun d => d.tstate t = 5 ∧ (d.triad t).braked = true ∧ d.gf b FLT_BRAKE.TRIAD = t.val ∧
        d.mem = c.mem ∧ ∀ u : Nat, u ≠ t.val → u < 32 → d.tstate u = c.tstate u)) ∧
      (¬ runs c t → Gives s (.triadb ag t) (fun d => d.gf b FLT_BRAKE.TRIAD = t.val ∧ OnlyRegs c d [b]))) ∧
    (c.mayWrite ag b = false → exec (.deviceBrake ag) s = .next s ∧ exec (.partb ag pp) s = .next s ∧
      exec (.triadb ag t) s = .next s) ∧
    (c.off = false → c.mayWrite ag (.FLT_ATTR src) = true → early → Gives s (.fltAttrWrite ag src v) (fun d =>
      (∀ q : Nat, q < 64 → d.attributed src q = (c.attributed src q && !mask.getLsbD q)) ∧
      ((∃ q : Nat, q < 64 ∧ mask.getLsbD q = true ∧ c.attributed src q = true) →
        (d.stands src 1 ↔ c.stands src 1 ∧ ∃ q : Nat, q < 65 ∧ d.attributed src q = true)) ∧ SameCore c d)) ∧
    (c.off = false → c.mayWrite ag .FLT_MATTR = true → early → Gives s (.fltMattrWrite ag v) (fun d =>
      (∀ u : Nat, u < 20 → d.attributed u 64 = (c.attributed u 64 && !v.getLsbD u)) ∧ SameCore c d)) ∧
    (c.off = false → c.mayWrite ag .FLT_STATUS = true → early → Gives s (.fltStatusWrite ag v) (fun d =>
      d.rd .FLT_STATUS = c.rd .FLT_STATUS &&& ~~~(v &&& 0x3FFFFFFFFFFFFFFF) ∧
      (v.getLsbD (3 * src.val + 1) = true → ∀ q : Nat, q < 65 → d.attributed src q = false) ∧ SameCore c d)) ∧
    (c.mayWrite ag (.FLT_ATTR src) = false → exec (.fltAttrWrite ag src v) s = .next s) ∧
    (c.mayWrite ag .FLT_MATTR = false → exec (.fltMattrWrite ag v) s = .next s) ∧
    (c.mayWrite ag .FLT_STATUS = false → exec (.fltStatusWrite ag v) s = .next s) ∧
    (ag = .manager → Gives s (.fltStatusRead ag) (fun d => d.gb .FLT_STATUS FLT_STATUS.RECOVERED = false ∧
      OnlyRegs c d [.FLT_STATUS] ∧ ∀ f ∈ [FLT_STATUS.SAFE, FLT_STATUS.FALLBACK, FLT_STATUS.EXTBRAKE, FLT_STATUS.SRC],
        d.gf .FLT_STATUS f = c.gf .FLT_STATUS f)) ∧
    (ag ≠ .manager → exec (.fltStatusRead ag) s = .next s)

/-! ### The pair -/

/-- Roles of a pair (R425, R428, R435 to R438, R442 to R444, R450). The watch toggles; a lost watch is contained, a lost leat
loses the partner, both together on a standby make it primary with a takeover counted; an edge after a lost leat detaches a
standby, and so does a lag above LAGMAX; a primary without heartbeats cuts its output; a swap is asked for and held; the catch-up
ends; the commands of `PAR_CTL` detach, admit or reset. -/
def Obligations.PairRoles : Prop :=
  ∀ (s : State) (ag : Agent) (k j : Fin 4) (t : Nat),
    let c := s.chip
    let now := s.now.toNat
    let st (d : Chip) : Nat := d.pairState
    let up := c.off = false ∧ c.inPair = true
    let may := up ∧ c.mayWrite ag .PAR_CTL = true
    let par (d : Chip) : Prop := RegsBut c d [.PAR_STAT]
    let quiet := c.NothingUnderWay ∧ c.pair.copying = false
    let swapping (d : Chip) : Prop := st d = 7 ∧ d.pair.prim = true ∧ d.pair.swap = 1 ∧ d.leat = c.leat ++ [.handover] ∧ par d ∧
      SameCore c d
    let lost (d : Chip) : Prop := st d = 3 ∧ d.leat = [] ∧ d.pair.acked = c.pair.acked + c.leat.length ∧ d.mem = c.mem
    let hb := 1000 * c.gf .PAR_CFG PAR_CFG.HBLOSS
    let lane (k : Fin 4) : Fld := ⟨16 + k.val, 16 + k.val⟩
    (c.beats = true → c.inPair = true → Gives s .watchToggle (fun d => d.pair.watchOut = !c.pair.watchOut ∧ d.regs = c.regs ∧
      SameCore c d)) ∧
    (c.beats = false ∨ c.inPair = false → exec .watchToggle s = .next s) ∧
    (up → c.boot.step ≠ 9 → st c = 4 → Gives s .watchEdge (fun d => d.pair.watchAt = now ∧ d.watchOk = true ∧ par d ∧
      SameCore c d ∧ st d = (if c.leatOk = true then 4 else 5))) ∧
    (c.off = true ∨ c.inPair = false → exec .watchEdge s = .next s) ∧
    (up → c.pair.watchAt + hb ≤ now → c.watchOk = true →
      (st c = 2 → c.pair.copying = false → Gives s (.channelLoss true) (fun d => d.watchOk = false ∧ d.stands 16 1 ∧ st d = 2 ∧
        d.mem = c.mem)) ∧
      (st c = 4 → c.leatOk = false → c.wcpPaths = [] → c.NothingUnderWay → c.pair.copying = false →
        Gives s (.channelLoss true) (fun d => st d = 3 ∧ d.pair.prim = true ∧ d.pair.catchUp = true ∧ d.stands 16 1 ∧
          d.takeovers = min (c.takeovers + 1) 65535 ∧ d.mem = c.mem))) ∧
    (up → c.pair.leatAt + hb ≤ now → c.leatOk = true → st c = 2 → quiet →
      Gives s (.channelLoss false) (fun d => d.leatOk = false ∧ d.stands 16 1 ∧ lost d)) ∧
    (c.off = true ∨ now < c.pair.watchAt + hb → exec (.channelLoss true) s = .next s) ∧
    (c.pair.catchUp = true → c.horizonsMet = true → c.triadsLive = [] → c.NothingUnderWay → c.pair.shadow = [] →
      Gives s .catchUpEnd (fun d => d.pair.catchUp = false ∧ d.pair.decs = [] ∧ d.stands 16 0 ∧ d.mem = c.mem)) ∧
    (c.pair.catchUp = false ∨ c.horizonsMet = false → exec .catchUpEnd s = .next s) ∧
    (c.off = false → c.standby = true → 1000 * c.gf .PAR_CFG PAR_CFG.LAGMAX < c.lag now →
      Gives s .lagExceeded (fun d => st d = 5 ∧ d.stands 16 1 ∧ d.gf .PAR_STAT PAR_STAT.LAG = min (c.lag now / 1000) 255 ∧
        d.mem = c.mem)) ∧
    (c.standby = false ∨ c.lag now ≤ 1000 * c.gf .PAR_CFG PAR_CFG.LAGMAX → exec .lagExceeded s = .next s) ∧
    (up → c.primary = true → c.pair.cut = false → c.pair.sentAt + 100000 ≤ now →
      (∀ n : Nat, ∀ f ∈ (c.eg n).queue ++ (c.eg n).cur.toList, f.tag = false) →
      Gives s .outputCut (fun d => d.pair.cut = true ∧ d.regs = c.regs ∧ SameCore c d ∧
        ∀ n : Nat, n < 20 ∨ 0x40 ≤ n → (d.eg n).cur = none ∧ (d.eg n).queue = [])) ∧
    (c.primary = false ∨ now < c.pair.sentAt + 100000 → exec .outputCut s = .next s) ∧
    (may → st c = 2 → Gives s (.roleSwap ag) swapping) ∧
    (c.off = false → st c = 2 → c.gf .PAR_CFG PAR_CFG.SWAPINT ≠ 0 →
      c.pair.swapAt + 60000000000 * c.gf .PAR_CFG PAR_CFG.SWAPINT ≤ now → Gives s .swapintExpiry swapping) ∧
    (c.gf .PAR_CFG PAR_CFG.SWAPINT = 0 ∨ st c ≠ 2 → exec .swapintExpiry s = .next s) ∧
    (may → st c = 2 → quiet → Gives s (.detach ag) lost) ∧
    (may → c.primary = true → c.paired = false → exec (.detach ag) s = .next s) ∧
    (may → st c = 2 → Gives s (.admitStandby ag) (fun d => d.pair.admitted = true ∧ d.regs = c.regs ∧ SameCore c d)) ∧
    (may → st c = 3 → c.pair.partner.any (fun h => h.joining) = true → c.leatOk = true → c.watchOk = true →
      c.pair.copying = false → Gives s (.admitStandby ag) (fun d => d.pair.copying = true ∧ d.pair.admitted = false ∧
        d.regs = c.regs ∧ SameCore c d)) ∧
    (may → c.primary = true → c.LoadWaits → Gives s (.resetboth ag) (fun d => c.WarmFrom d ∧ d.boot.step = 1)) ∧
    (c.mayWrite ag .PAR_CTL = false ∨ c.primary = false →
      ∀ i ∈ [Instr.roleSwap ag, .detach ag, .admitStandby ag, .resetboth ag], exec i s = .next s) ∧
    (c.off = false → c.boot.joinFrom = some t → c.boot.step = 9 → c.gf .FLT_STATE FLT_STATE.STATE = 2 →
      t + 1000000 * c.gf .PAR_CFG PAR_CFG.JOINWAIT ≤ now → c.leatOk = true ∨ c.watchOk = true →
      Gives s .joinwaitExpiry (fun d => d.boot.joinFrom = none ∧ d.boot.step = 9 ∧ d.stands 16 1 ∧ d.mem = c.mem)) ∧
    (c.boot.joinFrom = none → exec .joinwaitExpiry s = .next s) ∧
    (c.off = false → c.gf .PAR_CFG PAR_CFG.TOPO ≠ 0 → c.gb .PAR_STAT (lane k) = true → j ≠ k → c.gb .PAR_STAT (lane j) = true →
      Gives s (.leatLaneLoss k) (fun d => d.gb .PAR_STAT (lane k) = false ∧ d.gb .PAR_STAT (lane j) = true ∧ d.stands 16 0 ∧
        SameCore c d)) ∧
    (c.gb .PAR_STAT (lane k) = false → exec (.leatLaneLoss k) s = .next s) ∧
    (c.off = false → st c = 4 → Gives s .handover (fun d => st d = 7 ∧ d.pair.prim = false ∧ par d ∧ SameCore c d ∧
      (c.lag now < 10000 → d.pair.swap = 2 ∧ d.leat = c.leat ++ [.handover]) ∧
      (10000 ≤ c.lag now → d.pair.swap = 1 ∧ d.leat = c.leat))) ∧
    (c.off = false → st c = 7 → c.pair.prim = true →
      (c.pair.swap = 1 → Gives s .handover (fun d => d.pair.swap = 2 ∧ d.pair.holdOut = true ∧ d.regs = c.regs ∧ SameCore c d)) ∧
      (c.pair.swap = 3 → c.chan.egress = [] → Gives s .handover (fun d => st d = 4 ∧ d.pair.prim = false ∧
        d.pair.holdOut = false ∧ d.stands 16 0 ∧ SameCore c d))) ∧
    (c.off = true ∨ (st c ≠ 4 ∧ st c ≠ 7) → exec .handover s = .next s)

/-- The leat (R426 to R435, R438, R444, R445). A device that follows takes forwarded frames, events, results, invalidations,
decisions, writes, horizons and journal entries as they come; any other only notes that the leat lives. An acknowledgement
releases what waits for it; a digest that differs detaches the standby; the standby's fault is contained here; a joining
device takes the copy; heartbeats, horizons and digests are sent. -/
def Obligations.LeatMessages : Prop :=
  ∀ (s : State) (h : HeartMsg) (ln : BitVec 8) (nn : BitVec 10) (f : RxFrame) (b : List Byte) (time count v : BitVec 64)
    (t : Fin 32) (ev : BitVec 40) (rseq : BitVec 32) (err tb : Bool) (lines : List (BitVec 34)) (dec : ChnDec) (a : PAddr)
    (e : List (BitVec 64)) (src : Fin 20) (k : Fin 2) (r : RejoinMsg) (m : Commit) (w : WLine) (x : DWord) (kk : Fin 4),
    let c := s.chip
    let now := s.now.toNat
    let n := nn.toNat
    let st (d : Chip) : Nat := d.pairState
    let seen := c.modPair (fun p => { p with leatAt := now })
    let ignored (i : Instr) : Prop := exec i s = .next { s with chip := seen }
    let foll := c.off = false ∧ c.following = true
    let tri := foll ∧ c.split t = false ∧ c.live t = true ∧ ∀ i ∈ c.voting t, (c.lane (3 * t.val + i)).retired ≠ count.toNat
    let told (l : List (Nat × Nat)) (d : Chip) : Prop := (∀ b < journalBase, d.byte b = c.byte b) ∧
      ∀ i ∈ c.voting t, (d.lane (3 * t.val + i)).replay = (c.lane (3 * t.val + i)).replay ++ l
    let same (d : Chip) : Prop := d.regs = c.regs ∧ SameCore c d
    let pair := c.off = false ∧ c.inPair = true ∧ c.boot.step ≠ 9 ∧ h.ring = none ∧ h.joining = false
    let still := c.chan.safeWait = [] ∧ (∀ p : Nat, c.safePaths p = []) ∧ c.flt.deviceBrake = false
    let put (d : Chip) : Prop := Wrote c d a.toNat b
    let mayPut := c.ecc = [] ∧ a.toNat + b.length ≤ journalBase
    (pair → st c = 2 → h.primary = false → c.chan.egress = [] → Gives s (.heart h) (fun d => d.pair.leatAt = now ∧
      d.pair.partner = some h ∧ d.leatOk = true ∧ d.leat = [] ∧ d.pair.acked = c.pair.acked + c.leat.length ∧ SameCore c d)) ∧
    (pair → st c = 2 → h.primary = true → c.takeovers < h.takeovers.toNat → still → Gives s (.heart h) (fun d =>
      d.gb .PAR_STAT PAR_STAT.DBLPRIM = true ∧ d.stands 16 2 ∧ d.flt.deviceBrake = true ∧ d.mem = c.mem)) ∧
    (pair → st c = 4 → h.primary = true → Gives s (.heart h) (fun d => d.leat = [] ∧ d.takeovers = h.takeovers.toNat ∧
      RegsBut c d [.PAR_STAT] ∧ SameCore c d)) ∧
    (h.ring = some k → c.off = false → c.cascade = true → Gives s (.heart h) (fun d => d.cas.heard.get 0 k = now ∧
      k.val ∉ d.cas.lost ∧ d.mem = c.mem)) ∧
    (c.off = true ∨ (h.ring = none ∧ c.inPair = false) → exec (.heart h) s = .next s) ∧
    (foll → c.pWcp n = true → c.frameMatch n f = some b → c.exportOf n = none → (∀ o, f = .eth o → ptpEvent o = none) →
      Gives s (.input ln nn f time) (fun d => (d.pth n).rxq = (c.pth n).rxq ++ [(b, time.toNat)] ∧
        (ln.toNat, f, time.toNat) ∈ d.pair.inputs ∧ same d)) ∧
    (tri → ev.toNat < 2 ^ 33 → Gives s (.leatEvent t ev count) (told [(ev.toNat, count.toNat)])) ∧
    (tri → lines ≠ [] → Gives s (.inval t count lines) (told (lines.map (fun l => (2 ^ 38 + l.toNat, count.toNat))))) ∧
    (foll → Gives s (.leatRead t rseq v err tb) (fun d => (d.triad t).leatReads = (c.triad t).leatReads ++ [(rseq.toNat, v, err)] ∧
      SameCore c d ∧ (tb = true → d.rd .PAR_TOFF = v - s.now ∧ d.pair.timebase = v ∧ RegsBut c d [.PAR_TOFF]) ∧
      (tb = false → d.regs = c.regs))) ∧
    (foll → c.pair.decs = [] → c.chan.ques = [] → Gives s (.chndec dec) (fun d => d.pair.decs = [dec] ∧ same d)) ∧
    (foll → mayPut → c.hostWindow a.toNat = none → Gives s (.extw (.hostMem a b)) put) ∧
    (foll → c.flt.deviceBrake = false → Gives s (.extw .brakeDevice) (fun d => d.flt.deviceBrake = true ∧
      d.gf .FLT_STATE FLT_STATE.STATE = 5 ∧ d.gf .FLT_STATE FLT_STATE.CAUSE = 6 ∧ d.mem = c.mem)) ∧
    (foll → c.pair.waitStart = false → st c ≠ 7 → Gives s (.horizon t count v) (fun d =>
      (d.triad t).horizon = max (c.triad t).horizon count.toNat ∧ RegsBut c d [.PAR_STAT] ∧ SameCore c d ∧
      (d.triad t).marks.getLast? = some (count.toNat, (v.toNat + 2 ^ 64 - (c.rd .PAR_TOFF).toNat) % 2 ^ 64))) ∧
    (foll → (seen.copyIn e).2 = true → c.commits = [] → Gives s (.journal e) (fun d => d.pair.cseq = (e.getD 1 0).toNat ∧
      d.leat = c.leat ++ [.jack (e.getD 1 0).toNat] ∧ d.lanes = c.lanes ∧ ∀ b < journalBase, d.byte b = c.byte b)) ∧
    (foll → (seen.copyIn e).2 = false → ignored (.journal e)) ∧
    (c.off = false → c.paired = true → c.chan.egress = [] → c.leat = [.journal v.toNat] →
      (c.commits = [] → Gives s (.jack v) (fun d => d.leat = [] ∧ d.pair.acked = c.pair.acked + 1 ∧ same d)) ∧
      (c.commits = [m] → m.stage = .ack → m.cseq = some v.toNat → m.wset = [w] → 64 * w.line + 64 ≤ journalBase → c.ecc = [] →
        m.triad < 32 → m.pos < 3 → m.key = 3 * m.triad + m.pos → c.gb .SYS_SNAP SYS_SNAP.BUSY = false →
        Gives s (.jack v) (fun d => (∃ q, d.commits = [q] ∧ q.key = m.key ∧ q.stage = .done) ∧
          ∀ j < 64, d.byte (64 * w.line + j) =
            if w.mask.getLsbD j then BitVec.ofNat 8 (w.data.toNat / 2 ^ (8 * j)) else c.byte (64 * w.line + j)))) ∧
    (c.off = false → st c = 4 → (c.pth n).outWant = [] →
      ((c.pth n).outCount < count.toNat → Gives s (.odigest nn count x) (fun d =>
        (d.pth n).outWant = [(count.toNat, x)] ∧ same d)) ∧
      (count.toNat ≤ (c.pth n).outCount → (c.pth n).outHist = [(count.toNat, v)] →
        (v = x → Gives s (.odigest nn count x) (fun d => (d.pth n).outHist = [] ∧ (d.pth n).outWant = [] ∧ same d)) ∧
        (v ≠ x → Gives s (.odigest nn count x) (fun d => st d = 5 ∧ d.gb .PAR_STAT PAR_STAT.DESYNC = true ∧ d.stands 16 1 ∧
          d.mem = c.mem)))) ∧
    (c.off = false → c.paired = true → Gives s (.pfault src 1) (fun d => d.stands 16 1 ∧
      (d.gf .PAR_STAT PAR_STAT.PFLT).testBit src = true ∧ d.mem = c.mem)) ∧
    (c.off = false → c.paired = false → ignored (.jack v) ∧ ∀ z, ignored (.pfault src z)) ∧
    (c.off = false → c.inPair = true → st c = 5 ∨ st c = 6 →
      (mayPut → Gives s (.rejoin (.mem a b)) (fun d => put d ∧ st d = 6)) ∧
      Gives s (.rejoin (.timer t kk v)) (fun d => d.rd (.CLU_EVTIMER t kk) = v ∧ st d = 6 ∧ SameCore c d) ∧
      (c.chan.ques = [] → Gives s (.rejoin .finished) (fun d => st d = 4 ∧ d.pair.prim = false ∧ SameCore c d))) ∧
    (c.off = false → st c ≠ 5 → st c ≠ 6 → ignored (.rejoin r)) ∧
    (c.off = false → c.following = false → ∀ i ∈ [Instr.input ln nn f time, .leatEvent t ev count, .inval t count lines,
      .leatRead t rseq v err tb, .chndec dec, .extw (.hostMem a b), .extw .brakeDevice, .horizon t count v, .journal e,
      .odigest nn count x], ignored i) ∧
    (c.off = true → ∀ i ∈ [Instr.input ln nn f time, .leatEvent t ev count, .leatRead t rseq v err tb, .journal e, .jack v,
      .pfault src 1, .rejoin r], exec i s = .next s) ∧
    (c.beats = true → c.inPair = true → st c ≠ 7 → c.chan.egress = [] → Gives s .heartbeatTimer (fun d =>
      d.leat = c.leat ++ [.heart (c.heartOf none)] ∧ d.pair.sentAt = now ∧ d.pair.cut = false ∧ RegsBut c d [.PAR_STAT] ∧
      SameCore c d)) ∧
    (c.beats = false → exec .heartbeatTimer s = .next s) ∧
    (c.off = false → st c = 2 →
      (c.live t = true → c.split t = false → Gives s (.horizonTimer t) (fun d =>
        d.leat = c.leat ++ [.horizon t (c.minRetired t) (c.timeNow now)] ∧ same d)) ∧
      Gives s (.odigestTimer nn) (fun d => same d ∧ d.leat = c.leat ++
        [.odigest n (c.pth n).outCount ((c.pth n).outCrc ^^^ BitVec.ofNat 64 crc64Init)])) ∧
    (c.paired = false → exec (.horizonTimer t) s = .next s ∧ exec (.odigestTimer nn) s = .next s)

/-! ### Cascade, snapshots, power, tests -/

/-- The cascade ring (R445 to R449) and snapshots (R444, R447). Frames and releases go round or are taken; a link with no
heartbeat for 10 µs is lost and contained; the master resets every device. A snapshot with no triad running is written at
once, any other waits for a digest of every triad; one that cannot be taken is reported by source 18 with code 0x07. -/
def Obligations.CascadeAndSnapshots : Prop :=
  ∀ (s : State) (ag : Agent) (k : Fin 2) (nn : BitVec 10) (e : BitVec 6) (dv : BitVec 2) (time v : BitVec 64) (b f : List Byte)
    (m ar : BitVec 8) (e0 : EFrame) (adr : PAddr),
    let c := s.chip
    let now := s.now.toNat
    let n := nn.toNat
    let ring := c.off = false ∧ c.cascade = true
    let same (d : Chip) : Prop := d.regs = c.regs ∧ SameCore c d
    let stat (d : Chip) (w : Fld) : Nat := d.gf .CAS_STAT w
    let x := RegName.CAS_EXPORT e.toNat
    let p := c.gf x CAS_EXPORT.PATH
    let ln := c.pLane p
    let busy (d : Chip) : Bool := d.gb .SYS_SNAP SYS_SNAP.BUSY
    let a := 64 * SYS_SNAP.ADDR.get v
    let bare := c.commits = [] ∧ c.chan.ques = [] ∧ c.ecc = []
    let held (a : Nat) (rj : Bool) (d : Chip) : Prop := busy d = true ∧ SameCore c d ∧ ∃ r, d.snap = some r ∧ r.addr = a ∧
      r.rejoin = rj ∧ r.left = c.triadsLive
    let taken (a : Nat) (d : Chip) : Prop := busy d = false ∧ d.snap = none ∧ Wrote c d a ((c.snapWords []).flatMap (bytesLE 8))
    (ring →
      (c.pEn n = true → c.pWcp n = true → 0x80 ≤ c.pLane n → c.domainOn 19 = true →
        Gives s (.relay (.toImporter nn time b)) (fun d => (d.pth n).rxq = (c.pth n).rxq ++ [(b, time.toNat)] ∧ same d)) ∧
      Gives s (.relay (.transit dv b)) (fun d => d.leat = c.leat ++ [.relay (.transit dv b)] ∧ same d) ∧
      (c.gb x CAS_EXPORT.EN = true → c.laneFrame p b = some f → ln < 20 → c.linkUp ln = true → c.muted = false →
        c.flt.deviceBrake = false → c.flt.partBrakes = [] → (c.eg ln).cur = some e0 → (c.eg ln).queue = [] →
        Gives s (.relay (.toExporter e b)) (fun d => (∃ g, (d.eg ln).queue = [g] ∧ g.bytes = f ∧ g.path = p ∧
          g.kind = .control) ∧ same d)) ∧
      (c.gb x CAS_EXPORT.EN = false → exec (.relay (.toExporter e b)) s = .next s) ∧
      (c.casMaster = true →
        Gives s (.globalMsg (.barrierArrive dv m ar)) (fun d => (d.cas.bars.get (0, 0) dv.toNat).1 = m.toNat ∧ d.mem = c.mem) ∧
        exec (.globalMsg .barrierRelease) s = .next s ∧ exec (.globalMsg (.snapshot adr)) s = .next s ∧
        exec (.globalMsg .reset) s = .next s) ∧
      (c.casMaster = false →
        Gives s (.globalMsg .barrierRelease) (fun d => (d.bar 15).arrived = [] ∧ d.mem = c.mem ∧
          d.gf (.SYS_BARSTAT 15) SYS_BARSTAT.ROUNDS =
            min (c.gf (.SYS_BARSTAT 15) SYS_BARSTAT.ROUNDS + 1) SYS_BARSTAT.ROUNDS.max) ∧
        exec (.globalMsg (.barrierArrive dv m ar)) s = .next s ∧
        (c.LoadWaits → Gives s (.globalMsg .reset) (fun d => c.WarmFrom d ∧ d.boot.step = 1)) ∧
        (busy c = false → c.snapOk adr.toNat = true → c.triadsLive ≠ [] →
          Gives s (.globalMsg (.snapshot adr)) (held adr.toNat false))) ∧
      (k.val ∉ c.cas.lost → c.cas.heard.get 0 k + 10000 ≤ now → Gives s (.ringLinkLoss k) (fun d => k.val ∈ d.cas.lost ∧
        stat d CAS_STAT.BROKEN = 1 ∧ stat d CAS_STAT.LINKLOSS = min (stat c CAS_STAT.LINKLOSS + 1) CAS_STAT.LINKLOSS.max ∧
        d.stands 16 1 ∧ d.mem = c.mem))) ∧
    (c.off = true ∨ c.cascade = false → (∀ r, exec (.relay r) s = .next s) ∧ (∀ g, exec (.globalMsg g) s = .next s) ∧
      exec (.ringLinkLoss k) s = .next s) ∧
    (k.val ∈ c.cas.lost ∨ now < c.cas.heard.get 0 k + 10000 → exec (.ringLinkLoss k) s = .next s) ∧
    (c.mayWrite ag .CAS_CTL = true → c.casMaster = true → c.LoadWaits → Gives s (.resetall ag) (fun d => c.WarmFrom d ∧
      d.boot.step = 1 ∧ d.leat = [.globalOp .reset])) ∧
    (c.mayWrite ag .CAS_CTL = false ∨ c.casMaster = false → exec (.resetall ag) s = .next s) ∧
    (c.off = false → c.mayWrite ag .SYS_SNAP = true → SYS_SNAP.GO.get v = 1 → SYS_SNAP.CASC.get v = 0 →
      (busy c = false → c.snapOk a = true → bare → c.triadsLive = [] → Gives s (.snapshot ag v) (taken a)) ∧
      (busy c = false → c.snapOk a = true → c.triadsLive ≠ [] → Gives s (.snapshot ag v) (held a false)) ∧
      (busy c = true ∨ c.snapOk a = false → Gives s (.snapshot ag v) (fun d => d.gf .CFG_SYND CFG_SYND.CODE = 7 ∧
        d.stands 18 0 ∧ d.snap = c.snap ∧ SameCore c d))) ∧
    (c.mayWrite ag .SYS_SNAP = false → exec (.snapshot ag v) s = .next s) ∧
    (c.off = false → c.pairState = 3 → c.pair.copying = true → busy c = false → c.triadsLive ≠ [] →
      Gives s .rejoinCopyEnd (held 0 true)) ∧
    (c.pair.copying = false ∨ busy c = true → exec .rejoinCopyEnd s = .next s)

/-- Power domains (R487 to R489), live tests (R491 to R494, R499) and the temperature (R520). A domain goes down only where
nothing needs it, and comes up with its banks zeroed; a request during a transition waits. A test is queued, started when its
target is free, ended with its result, or cancelled before it starts. 125 °C is fatal; 1 ms at 118 °C is contained. -/
def Obligations.PowerTestsHeat : Prop :=
  ∀ (s : State) (ag : Agent) (dd : Fin 30) (k : Fin 16) (v : BitVec 64) (detail : BitVec 32) (temps : List (BitVec 8)) (tj : Int)
    (sn t : Nat) (on : Bool),
    let c := s.chip
    let now := s.now.toNat
    let may (r : RegName) : Prop := c.off = false ∧ c.mayWrite ag r = true
    let req (d : Chip) : Nat := d.gf .SYS_PWRCTL ⟨dd.val, dd.val⟩
    let pwr := if on then Instr.powerUp ag dd else Instr.powerDown ag dd
    let r := RegName.SYS_TEST k
    let kind := c.tKind k
    let n := c.tTarget k
    let st (d : Chip) : Nat := d.tState k
    let go := SYS_TEST.GO.get v = 1 ∧ SYS_TEST.CANCEL.get v = 0 ∧ st c ≠ 1 ∧ st c ≠ 2
    let asked := Chip.testDomain (SYS_TEST.KIND.get v) (SYS_TEST.TARGET.get v)
    let lone := ∀ j : Nat, j ≠ k.val → c.sameTarget k j = false
    let ended (res : Nat) (d : Chip) : Prop := st d = res ∧ d.gf r SYS_TEST.DETAIL = detail.toNat
    (may .SYS_PWRCTL → dd.val ≠ 0 →
      (c.domainBusy dd = false → c.domainOn dd = !on → (on = false → c.mayPowerDown dd = true) →
        Gives s pwr (fun d => req d = bit on ∧ d.domainBusy dd = true ∧ d.domainOn dd = !on ∧
          OnlyRegs c d [.SYS_PWRCTL, .SYS_PWRSTAT])) ∧
      (on = false → c.domainBusy dd = false → c.domainOn dd = true → c.mayPowerDown dd = false →
        Gives s pwr (fun d => req d = 1 ∧ d.domainBusy dd = false ∧ d.domainOn dd = true ∧ d.stands 19 0 ∧ SameCore c d)) ∧
      (c.domainBusy dd = true → Gives s pwr (fun d => req d = bit on ∧ (dd.val, on) ∈ d.misc.pwrWait ∧
        RegsBut c d [.SYS_PWRCTL] ∧ SameCore c d))) ∧
    (c.mayWrite ag .SYS_PWRCTL = false ∨ dd.val = 0 → exec pwr s = .next s) ∧
    (c.off = false → c.domainBusy dd = true → (∀ e ∈ c.misc.pwrWait, e.1 ≠ dd.val) →
      (c.domainOn dd = true → Gives s (.powerTransitionEnd dd) (fun d => d.domainOn dd = false ∧ d.domainBusy dd = false ∧
        SameCore c d)) ∧
      (c.domainOn dd = false → 9 ≤ dd.val → dd.val ≤ 16 → Gives s (.powerTransitionEnd dd) (fun d => d.domainOn dd = true ∧
        d.domainBusy dd = false ∧ ∀ b : Nat, d.byte b =
          if (∃ j : Nat, j < 8 ∧ Chip.inBank (8 * (dd.val - 9) + j) b = true) then 0 else c.byte b))) ∧
    (c.domainBusy dd = false → exec (.powerTransitionEnd dd) s = .next s) ∧
    (may r → go → Gives s (.go ag k v) (fun d => d.tKind k = SYS_TEST.KIND.get v ∧ d.tTarget k = SYS_TEST.TARGET.get v ∧
      SameCore c d ∧
      (∀ x, asked = some x → ¬ (SYS_TEST.KIND.get v = 1 ∧ SYS_TEST.LANE.get v = 3) →
        (c.domainOn x = true → c.domainBusy x = false → st d = 1 ∧ k.val ∈ d.misc.tests) ∧
        (c.domainOn x = false → st d = 6 ∧ d.stands 19 0)) ∧
      (asked = none → st d = 6))) ∧
    (may r → st c = 1 → Gives s (.cancel ag k) (fun d => st d = 5 ∧ k.val ∉ d.misc.tests ∧ RegsBut c d [r] ∧ SameCore c d)) ∧
    (c.mayWrite ag r = false → exec (.go ag k v) s = .next s ∧ exec (.cancel ag k) s = .next s) ∧
    (st c ≠ 1 → exec (.cancel ag k) s = .next s ∧ exec (.testStart k) s = .next s) ∧
    (c.off = false → st c = 1 → lone → c.testFree k = true →
      (kind = 3 → n < 64 → Gives s (.testStart k) (fun d => st d = 2 ∧ d.gb (.BNK_OWNER n) BNK_OWNER.BUSY = true ∧
        k.val ∉ d.misc.tests ∧ RegsBut c d [r, .BNK_OWNER n] ∧ SameCore c d)) ∧
      (kind = 2 → n < 8 → Gives s (.testStart k) (fun d => st d = 2 ∧ d.gf (.CLU_SPARE n) CLU_SPARE.STATE = 3 ∧
        RegsBut c d [r, .CLU_SPARE n] ∧ SameCore c d)) ∧
      (kind = 4 → n < 20 → Gives s (.testStart k) (fun d => st d = 2 ∧ d.gb (.LAN_STAT n) LAN_STAT.LINK = false ∧
        d.gb (.LAN_STAT n) LAN_STAT.TRAINING = true ∧ RegsBut c d [r, .LAN_STAT n] ∧ SameCore c d))) ∧
    (c.testFree k = false → exec (.testStart k) s = .next s) ∧
    (c.off = false → st c = 2 →
      (kind = 3 → n < 64 →
        Gives s (.testEnd k true detail) (fun d => ended 3 d ∧ d.gb (.BNK_OWNER n) BNK_OWNER.BUSY = false ∧
          ∀ b : Nat, d.byte b = if Chip.inBank n b = true then 0 else c.byte b) ∧
        Gives s (.testEnd k false detail) (fun d => ended 4 d ∧ d.stands 8 1 ∧ d.mem = c.mem ∧
          d.rd (.BNK_OWNER n) = c.rd (.BNK_OWNER n))) ∧
      (kind = 2 → n < 8 →
        Gives s (.testEnd k true detail) (fun d => ended 3 d ∧ d.gf (.CLU_SPARE n) CLU_SPARE.STATE = 0 ∧ SameCore c d) ∧
        Gives s (.testEnd k false detail) (fun d => ended 4 d ∧ d.gf (.CLU_SPARE n) CLU_SPARE.STATE = 2 ∧ d.stands n 1 ∧
          d.mem = c.mem))) ∧
    (st c ≠ 2 → exec (.testEnd k true detail) s = .next s) ∧
    (c.off = false → Chip.hottest temps = some (tj, sn) →
      (tj < 125 → Gives s (.thermalSample temps) (fun d => d.gf .GOV_TEMP GOV_TEMP.TJ = (BitVec.ofInt 8 tj).toNat ∧
        d.gf .GOV_TEMP GOV_TEMP.SENSOR = sn % 16 ∧ (110 ≤ tj → d.misc.therm = true) ∧ (tj ≤ 105 → d.misc.therm = false) ∧
        (105 < tj → tj < 110 → d.misc.therm = c.misc.therm) ∧ d.misc.hotFrom.isSome = decide (118 ≤ tj) ∧
        RegsBut c d [.GOV_TEMP] ∧ SameCore c d)) ∧
      (125 ≤ tj → c.flt.deviceBrake = false → Gives s (.thermalSample temps) (fun d => d.flt.deviceBrake = true ∧
        d.stands 19 2 ∧ d.mem = c.mem))) ∧
    (c.off = true → exec (.thermalSample temps) s = .next s) ∧
    (c.off = false → c.misc.hotFrom = some t → t + 1000000 ≤ now → Gives s .overtemperature (fun d => d.stands 19 1 ∧
      d.misc.hotFrom = none ∧ d.mem = c.mem)) ∧
    (c.misc.hotFrom = none → exec .overtemperature s = .next s)

/-! ### Resets, boot, staging -/

/-- Resets and boot (R42, R43, R220, R416, R452, R457 to R461, R464, R465, R506, R511). Cold reset keeps flash alone; its
release starts a load, which waits for the core supply and the clock; a warm reset keeps the journal store too. Training,
verification, the load and the start-up tests each lead to the next step, or to a fatal fault, or past a copy that fails. -/
def Obligations.ResetsAndBoot : Prop :=
  ∀ (s : State) (pins : BootPins) (ag : Agent) (b : Bool) (h : ImgHdr) (r : Rec) (p0 p1 : Bool) (res : StartUpResult),
    let c := s.chip
    let now := s.now.toNat
    let cold (i : Instr) (P : Chip → Prop) : Prop := ∃ d, exec i s = .next { s with now := 0, chip := d } ∧ P d
    let st (d : Chip) : Nat := d.gf .FLT_STATE FLT_STATE.STATE
    let fatal (k : Nat) (d : Chip) : Prop := d.flt.deviceBrake = true ∧ d.stands k 2 ∧ st d = 5
    let on := c.off = false ∧ c.flt.deviceBrake = false
    let begun (d : Chip) : Prop := d.boot.step = 0 ∧ d.boot.since = now ∧ SameCore c d
    let go := c.boot.step = 1 ∧ c.boot.warm = true
    let hdr := c.boot.copy = some b ∧ c.copyHdr b = .ok h
    let verdict := c.copyVerdict b h c.boot.key
    let good := res.failedCores = [] ∧ res.snoopOk = true ∧ res.loaderOk = true ∧ res.switchOk = true ∧
      res.collectorOk = true ∧ res.sluice = []
    let tested := c.off = false ∧ st c = 2 ∧ c.boot.step = 8 ∧ good
    (c.off = true → pins.testMode = true → cold (.porstNRelease pins) (fun d => d.off = true ∧ d.flash = c.flash)) ∧
    (c.off = true → pins.testMode = false → pins.corePg = false ∨ pins.refclk = false →
      cold (.porstNRelease pins) (fun d => d.off = false ∧ d.boot.step = 1 ∧ d.boot.warm = false ∧ st d = 1 ∧
        d.bootSel = pins.bootSel.toNat ∧ d.casId = pins.casId.toNat ∧ d.boot.pairRole = pins.pairRole ∧ d.mem = [] ∧
        d.lanes = [] ∧ d.flash = c.flash)) ∧
    (c.off = false → exec (.porstNRelease pins) s = .next s) ∧
    cold .porstNAssert (fun d => d.off = true ∧ d.mem = [] ∧ d.regs = [] ∧ d.lanes = [] ∧ d.flash = c.flash) ∧
    (c.LoadWaits → Gives s .resetN (fun d => c.WarmFrom d ∧ d.boot.step = 1) ∧
      (c.mayWrite ag .CFG_CTL = true → Gives s (.cfgReset ag) (fun d => c.WarmFrom d ∧ d.boot.step = 1))) ∧
    (c.off = true → exec .resetN s = .next s ∧ exec (.cfgReset ag) s = .next s) ∧
    (c.mayWrite ag .CFG_CTL = false → exec (.cfgReset ag) s = .next s) ∧
    (c.off = false → c.boot.step ≠ 1 ∨ c.boot.corePg = false → Gives s .refclkRelock (fun d => d.boot.refclk = true ∧
      d.gb .TIM_STATUS TIM_STATUS.LOCK = true ∧ RegsBut c d [.TIM_STATUS] ∧ SameCore c d)) ∧
    (c.off = false → c.boot.step ≠ 1 ∨ c.boot.refclk = false → Gives s .corePgRise (fun d => d.boot.corePg = true ∧
      d.regs = c.regs ∧ SameCore c d)) ∧
    (on → go → c.boot.corePg = true → (c.bootSel = 7 → Gives s .refclkRelock begun) ∧
      (2 < c.bootSel → c.bootSel < 7 → Gives s .refclkRelock (fatal 18))) ∧
    (on → go → c.boot.refclk = true → (c.bootSel = 7 → Gives s .corePgRise begun) ∧
      (2 < c.bootSel → c.bootSel < 7 → Gives s .corePgRise (fatal 18))) ∧
    (on → Gives s .corePgFall (fun d => d.boot.corePg = false ∧ fatal 19 d ∧ d.mem = c.mem)) ∧
    (c.off = true → exec .refclkRelock s = .next s ∧ exec .corePgRise s = .next s ∧ exec .corePgFall s = .next s) ∧
    (c.loading 4 = true → hdr → c.dramRecs b h = [r] → r.idx = 0x100 →
      (p0 = true → Gives s (.dramTrainingEnd p0 p1) (fun d => d.boot.step = 5 ∧ d.boot.trained = some b ∧
        d.gf (.DRM_CFG 0) DRM_CFG.TRAINED = DRM_CFG.PRESENT.get (r.w 0) ∧
        ∀ a : Nat, d.byte a = if a < 0x800000000 then 0 else c.byte a)) ∧
      (p0 = false → DRM_CFG.PRESENT.get (r.w 0) = 1 → c.flt.deviceBrake = false →
        Gives s (.dramTrainingEnd p0 p1) (fun d => d.boot.step = 0 ∧ fatal 9 d))) ∧
    (c.loading 5 = true → hdr →
      (verdict = 0 → c.boot.first = some b → Gives s .copyVerifyEnd (fun d => d.boot.step = 6 ∧
        d.gf .CFG_STAT CFG_STAT.COPY = bit b ∧ d.gf .CFG_STAT CFG_STAT.SEQ = h.seq % 2 ^ 32 ∧
        RegsBut c d [.CFG_STAT] ∧ SameCore c d)) ∧
      (verdict = 0 → c.boot.first ≠ some b → Gives s .copyVerifyEnd (fun d => d.boot.step = 6 ∧
        d.gb .FLT_STATUS FLT_STATUS.FALLBACK = true ∧ d.gf .CFG_SYND CFG_SYND.CODE = 4 ∧ d.stands 18 0 ∧ SameCore c d)) ∧
      (verdict ≠ 0 → c.boot.order = [] → c.flt.deviceBrake = false → Gives s .copyVerifyEnd (fun d => d.boot.copy = none ∧
        d.gf .CFG_SYND CFG_SYND.CODE = 5 ∧ fatal 18 d))) ∧
    (c.loading 6 = true → c.secondPass = 0 → Gives s .configurationLoadEnd (fun d => d.boot.step = 8 ∧ st d = 2)) ∧
    (c.loading 6 = true → c.secondPass ≠ 0 → c.boot.order = [] → c.flt.deviceBrake = false →
      Gives s .configurationLoadEnd (fun d => d.boot.copy = none ∧ fatal 18 d)) ∧
    (c.loading 4 = false → exec (.dramTrainingEnd p0 p1) s = .next s) ∧
    (c.loading 5 = false → exec .copyVerifyEnd s = .next s) ∧
    (c.loading 6 = false → exec .configurationLoadEnd s = .next s) ∧
    (tested → res.brakeReqLow = false →
      (c.gf .PAR_CFG PAR_CFG.TOPO = 1 → Gives s (.startUpTestsEnd res) (fun d => d.boot.step = 9 ∧
        d.boot.joinFrom = some now ∧ st d = 2 ∧ SameCore c d)) ∧
      (c.gf .PAR_CFG PAR_CFG.TOPO ≠ 1 → c.flt.early = false →
        (∀ p : Nat, p < 64 → c.gb (.PRT_CFG p) PRT_CFG.AUTOSTART = false) →
        Gives s (.startUpTestsEnd res) (fun d => d.boot.step = 0 ∧ st d = 3 ∧ SameCore c d))) ∧
    (tested → res.brakeReqLow = true → c.flt.deviceBrake = false → Gives s (.startUpTestsEnd res) (fun d =>
      d.flt.deviceBrake = true ∧ st d = 5 ∧ d.gf .FLT_STATE FLT_STATE.CAUSE = 2 ∧
      d.gb .FLT_STATUS FLT_STATUS.EXTBRAKE = true)) ∧
    (c.off = true ∨ st c ≠ 2 ∨ c.boot.step ≠ 8 → exec (.startUpTestsEnd res) s = .next s)

/-- Staging (R462, R469, R483). ERASE, WRITE and FINISH of the unused slot make the engine busy; a command while it is busy,
or out of order, is reported by source 18 with code 0x08; the end gives the result, and answers a command of the management
port. -/
def Obligations.Staging : Prop :=
  ∀ (s : State) (ag : Agent) (v : BitVec 64) (ok : Bool) (q : Nat),
    let c := s.chip
    let g := RegName.CFG_STGSTAT
    let busy (d : Chip) : Bool := d.gb g CFG_STGSTAT.BUSY
    let res (d : Chip) : Nat := d.gf g CFG_STGSTAT.RESULT
    let may (op : Nat) : Prop := c.mayWrite ag .CFG_STGCMD = true ∧ CFG_STGCMD.GO.get v = 1 ∧ CFG_STGCMD.OP.get v = op
    let x := c.stage
    let runs (op : Nat) (d : Chip) : Prop := busy d = true ∧ res d = 1 ∧ d.stage.op = op ∧ d.stage.slot = c.freeSlot ∧
      d.stage.mgt = false ∧ SameCore c d
    let order (d : Chip) : Prop := d.gf .CFG_SYND CFG_SYND.CODE = 8 ∧ d.stands 18 0 ∧ d.stage = x ∧ SameCore c d
    let n := CFG_STGCMD.LEN.get v
    let off := CFG_STGCMD.OFFSET.get v
    let a := 256 * c.gf .CFG_STGADDR CFG_STGADDR.ADDR
    let at_ := copyAt c.bootSel x.slot
    let done (k : Nat) (d : Chip) : Prop := busy d = false ∧ res d = k ∧ d.stage.op = 0 ∧ SameCore c d
    let put := Instr.stageWrite ag v
    (may 1 → busy c = false → Gives s (.erase ag v) (runs 1)) ∧
    (may 2 → busy c = false → x.erased = true → x.slot = c.freeSlot → c.mgrReadable a n = true → c.ecc = [] → n % 256 = 0 →
      (off % 256 = 0 → off + n ≤ 2 ^ 26 → Gives s put (fun d => runs 2 d ∧ d.stage.off = off ∧
        d.stage.data = (List.range n).map (fun i => c.byte (a + i)))) ∧
      (off % 256 ≠ 0 ∨ 2 ^ 26 < off + n → Gives s put (fun d => res d = 3 ∧ busy d = false ∧ d.stage = x ∧ SameCore c d))) ∧
    (may 2 → busy c = false → x.erased = true → c.mgrReadable a n = false →
      Gives s put (fun d => res d = 2 ∧ d.stage = x ∧ SameCore c d)) ∧
    (may 3 → busy c = false → x.erased = true → x.slot = c.freeSlot → Gives s (.finish ag v) (runs 3)) ∧
    (busy c = false → x.erased = false →
      (may 2 → Gives s put (fun d => order d ∧ res d = 7)) ∧ (may 3 → Gives s (.finish ag v) (fun d => order d ∧ res d = 7))) ∧
    (busy c = true → (may 1 → Gives s (.erase ag v) order) ∧ (may 2 → Gives s put order) ∧
      (may 3 → Gives s (.finish ag v) order)) ∧
    (c.mayWrite ag .CFG_STGCMD = false → exec (.erase ag v) s = .next s ∧ exec put s = .next s ∧
      exec (.finish ag v) s = .next s) ∧
    (x.mgt = false →
      (x.op = 1 → Gives s (.stagingOperationEnd true) (fun d => done 0 d ∧ d.stage.erased = true ∧
        (∀ i : Nat, i < 0x4000000 → d.flash.get 0xFF (Chip.flashKey at_.1 (at_.2 + i)) = 0xFF) ∧
        d.gf g CFG_STGSTAT.DONE = 0x3FFFFFF)) ∧
      (x.op = 2 → Gives s (.stagingOperationEnd true) (fun d => done 0 d ∧ d.stage.erased = true ∧
        d.gf g CFG_STGSTAT.DONE = min x.data.length 0x3FFFFFF)) ∧
      (x.op ≠ 0 → Gives s (.stagingOperationEnd false) (fun d => done 4 d ∧ d.flash = c.flash)) ∧
      (x.op = 0 → exec (.stagingOperationEnd ok) s = .next s)) ∧
    (x.mgt = true → x.op = 1 → c.mgt.running = [{ cmd := 9, seq := q }] → c.mgt.responses = [] →
      Gives s (.stagingOperationEnd true) (fun d => done 0 d ∧ d.mgt.running = [] ∧ d.mgt.responses.length = 1))

/-! ### The host link and the management port -/

/-- The host link (R471 to R479). On a link with nothing under way a register or memory read is answered by one completion,
a posted write returns its credit; R392 and R475 give the statuses of what is refused; a write of lines that a commit holds
waits. A link that goes down discards requests and completions and keeps pending events; a host that returns no credit for
1 ms is a stall. -/
def Obligations.HostPort : Prop :=
  ∀ (s : State) (tag : BitVec 8) (addr : BitVec 40) (len : BitVec 16) (v : BitVec 64) (bytes : List (BitVec 8)) (q : BitVec 12)
    (b x y z : BitVec 16) (t : Fin 32) (vec : BitVec 4) (pos : Fin 3) (seq ack : BitVec 12) (ok bad x16 : Bool) (r : RegName)
    (k t0 : Nat) (m : HostMsg),
    let c := s.chip
    let now := s.now.toNat
    let a := addr.toNat
    let n := len.toNat
    let quiet := c.hostUp = true ∧ c.host.reqs = [] ∧ c.host.faults = [] ∧ c.chan.hev = [] ∧ c.host.owedPosted = 0 ∧
      c.host.owedNonPosted = 0
    let ready := quiet ∧ c.host.cpls = [] ∧ c.host.replay = [] ∧ 1 ≤ c.host.credits
    let sent (l : List HostMsg) (d : Chip) : Prop := d.host.replay.map Prod.snd = l ∧ d.host.reqs = []
    let answered (st : Nat) (l : List Byte) (d : Chip) : Prop := sent [.cpl tag.toNat st l, .credit 0 1 0] d ∧
      d.host.credits + 1 = c.host.credits ∧ d.mem = c.mem
    let link (d : Chip) : Prop := d = { c with host := d.host }
    let stat (d : Chip) (f : Fld) : Nat := d.gf .HST_STAT f
    let gives (i : Instr) (P : Chip → Prop) : Prop := Gives s i P
    let rd := Instr.regrd tag addr
    let wr := Instr.regwr tag addr v
    let named := a % 8 = 0 ∧ c.region a = .register ∧ bookWindow a = false ∧ regOf a = some r
    let noted := r ≠ .FLT_STATUS ∧ ∀ j : Nat, r ≠ .LAN_TXTS j
    let errmask := BitVec.ofNat 40 RegName.FLT_ERRMASK.addr
    let refused (d : Chip) : Prop := stat d HST_STAT.LASTERR = 4 ∧ d.stands 17 0 ∧ d.mem = c.mem ∧ sent [.credit 1 0 0] d
    let down (code : Nat) (d : Chip) : Prop := stat d HST_STAT.UP = 0 ∧ stat d HST_STAT.WIDTH = 0 ∧
      stat d HST_STAT.LASTERR = code ∧ stat d HST_STAT.LINKDOWNS = min (stat c HST_STAT.LINKDOWNS + 1) HST_STAT.LINKDOWNS.max ∧
      d.stands 17 1 ∧ d.host.reqs = [] ∧ d.host.cpls = [] ∧ d.mem = c.mem ∧ (∀ j ∈ c.chan.hev, j ∈ d.chan.hev) ∧
      (∀ e ∈ c.host.replay, ∀ j, e.2 = .queue j → j ∈ d.chan.hev)
    (ready →
      (named → noted → c.answers a = true → c.devReadable c.hostAgent a = true →
        gives rd (answered 0 (bytesLE 8 (c.regGet now r).toNat))) ∧
      (named → c.answers a = true → c.devReadable c.hostAgent a = false → gives rd (answered 6 [])) ∧
      (named → c.answers a = false → gives rd (answered 5 [])) ∧
      (a % 8 ≠ 0 ∨ c.region a ≠ .register → gives rd (answered 1 []) ∧ (c.standby = false → gives wr (answered 1 []))) ∧
      (c.standby = true → gives wr (answered 6 [])) ∧
      (c.standby = false → c.gb .PRT_MGR PRT_MGR.SITE = true → c.domainOn 0 = true →
        gives (.regwr tag errmask v) (fun d => answered 0 [] d ∧ d.rd .FLT_ERRMASK = v)) ∧
      (c.standby = false → named → c.answers a = true → c.mayWrite c.hostAgent r = false →
        gives wr (fun d => answered 6 [] d ∧ d.rd r = c.rd r)) ∧
      (c.standby = false → named → c.answers a = true → r = .HST_WBASE k → c.mayWrite c.hostAgent r = false →
        gives wr (fun d => d.stands 18 0)) ∧
      (c.standby = false → Chip.blockOk a n = true →
        (c.hostMemStatus a false = 0 → c.ecc = [] →
          gives (.memrd tag addr len) (answered 0 ((List.range n).map (fun i => c.byte (a + i))))) ∧
        (c.hostMemStatus a false ≠ 0 → gives (.memrd tag addr len) (answered (c.hostMemStatus a false) [])) ∧
        (c.hostWindow a = none → gives (.memrd tag addr len) (answered 2 []))) ∧
      (c.standby = false → Chip.blockOk a bytes.length = true →
        (c.hostMemStatus a true = 0 → c.rangeHeld a bytes.length = false → c.ecc = [] → a + bytes.length ≤ journalBase →
          (∀ p, c.gb (.PRT_LOGCFG p) PRT_LOGCFG.EN = false) →
          gives (.memwr addr bytes) (fun d => Wrote c d a bytes ∧ sent [.credit 1 0 0] d)) ∧
        (c.hostMemStatus a true = 0 → c.rangeHeld a bytes.length = true →
          gives (.memwr addr bytes) (fun d => d.host.reqs = [.memwr a bytes] ∧ link d)) ∧
        (c.hostMemStatus a true ≠ 0 → gives (.memwr addr bytes) refused)) ∧
      (c.standby = false → c.gb (.QUE_CFG q.toNat) QUE_CFG.HOST = false → gives (.doorbell q b) refused) ∧
      (c.standby = false → c.gb (.QUE_CFG q.toNat) QUE_CFG.HOST = true → c.domainOn 19 = true →
        c.rangeStatus none (c.ctla q.toNat) 8 = 0 → c.rangeHeld (c.ctla q.toNat) 8 = false → c.ecc = [] →
        c.ctla q.toNat + 8 ≤ journalBase →
        gives (.doorbell q b) (fun d => ∃ e, Wrote c e (c.ctla q.toNat) (bytesLE 8 b.toNat) ∧
          d.chan.ques = (e.readDoorbell now q.toNat).chan.ques ∧ d.mem = (e.readDoorbell now q.toNat).mem)) ∧
      (c.standby = false → (c.gf (.CLU_EVCFG t) CLU_EVCFG.HOSTEN).testBit vec.toNat = true →
        gives (.intr t vec pos) (fun d => 0x1040 + vec.toNat ∈ (d.port (c.portKey t pos)).pend ∧ d.mem = c.mem)) ∧
      ((c.gf (.CLU_EVCFG t) CLU_EVCFG.HOSTEN).testBit vec.toNat = false →
        gives (.intr t vec pos) (fun d => sent [.credit 1 0 0] d ∧ link d))) ∧
    (c.hostUp = true → Chip.blockOk a n = false → gives (.memrd tag addr len) (fun d => stat d HST_STAT.LASTERR = 5 ∧
      OnlyRegs c d [.HST_STAT])) ∧
    (quiet →
      (c.host.cpls = [] → gives (.credit x y z) (fun d => d.host.credits = c.host.credits + z.toNat ∧ link d)) ∧
      (c.host.cpls = [m] → c.host.replay = [] → c.host.credits = 0 → 1 ≤ z.toNat →
        gives (.credit x y z) (fun d => sent [m, .credit 0 1 0] d ∧ d.host.credits + 1 = z.toNat ∧ d.host.cpls = [])) ∧
      (c.host.cpls = [] → seq.toNat = c.host.rxSeq →
        gives (.flitReceive seq ack true bad) (fun d => d.host.rxSeq = (c.host.rxSeq + 1) % 4096 ∧ d.host.fails = 0 ∧
          d.host.replay = c.host.replay.filter (fun e => serialBelow 12 ack.toNat e.1) ∧ RegsBut c d [.HST_STAT] ∧
          stat d HST_STAT.LASTERR = (if bad then 5 else stat c HST_STAT.LASTERR) ∧ SameCore c d)) ∧
      (c.host.cpls = [] → seq.toNat ≠ c.host.rxSeq →
        gives (.flitReceive seq ack true bad) (fun d => d.host.rxSeq = c.host.rxSeq ∧ link d))) ∧
    (c.hostUp = true →
      (c.host.fails < 8 → gives (.flitReceive seq ack false bad) (fun d => d.host.fails = c.host.fails + 1 ∧ link d)) ∧
      (8 ≤ c.host.fails → gives (.flitReceive seq ack false bad) (down 3)) ∧
      gives (.hostLinkDown ok) (down (if ok then 3 else 1)) ∧ exec (.hostLinkUp x16) s = .next s ∧
      (c.host.stallFrom = some t0 → t0 + 1000000 ≤ now → gives .creditStall (fun d => stat d HST_STAT.STALL = 1 ∧
        stat d HST_STAT.LASTERR = 2 ∧ d.stands 17 1 ∧ d.mem = c.mem))) ∧
    (c.off = false → c.hostUp = false → c.domainOn 29 = true → gives (.hostLinkUp x16) (fun d =>
      stat d HST_STAT.UP = 1 ∧ stat d HST_STAT.WIDTH = (if x16 then 2 else 1) ∧ d.host.credits = 0 ∧ d.host.reqs = [] ∧
      d.host.faults = c.host.faults ∧ d.chan = c.chan ∧ (x16 = false → d.stands 17 0) ∧ SameCore c d)) ∧
    (c.host.stallFrom = none → exec .creditStall s = .next s) ∧
    (c.hostUp = false → ∀ i ∈ [rd, wr, .memrd tag addr len, .memwr addr bytes, .doorbell q b, .intr t vec pos, .credit x y z,
      .flitReceive seq ack ok bad, .hostLinkDown ok], exec i s = .next s)

/-- The management port (R480 to R485). A command whose tag, epoch, number and form pass is answered once its number stands
in LASTSEQ; any other is answered with its status and has no effect. The commands read, write, clear, abort, brake, reset and
stage as their table states; an abort is answered when its work has stopped. -/
def Obligations.ManagementPort : Prop :=
  ∀ (s : State) (f : MgtFrame) (r : RegName) (nn : BitVec 10) (qn : BitVec 12) (tgt : AbortTarget) (x : QAbort) (sq : Nat),
    let c := s.chip
    let now := s.now.toNat
    let n := nn.toNat
    let q := qn.toNat
    let octets (cmd : Nat) : List Byte := mgtOctets cmd f.flags.toNat f.len.toNat f.mepoch.toNat f.seq.toNat f.payload
    let frame (cmd st seq : Nat) (l : List Byte) : List Byte :=
      mgtOctets (cmd + 0x80) st l.length c.mepoch seq l ++ mgtTag c.mgt.key (mgtOctets (cmd + 0x80) st l.length c.mepoch seq l)
    let key := c.off = false ∧ c.gb .MGT_STAT MGT_STAT.KEY = true ∧ c.mgt.responses = []
    let fresh := f.mepoch.toNat = c.mepoch ∧ c.lastSeq < f.seq.toNat
    let form := f.flags = 0 ∧ f.len.toNat = f.payload.length
    let good (cmd : Nat) : Prop := key ∧ f.tag = mgtTag c.mgt.key (octets cmd) ∧ fresh ∧ form
    let idle := c.mgt.running = []
    let reply (cmd st : Nat) (l : List Byte) (d : Chip) : Prop := d.mgt.responses = [frame cmd st f.seq.toNat l] ∧
      d.lastSeq = f.seq.toNat ∧ d.mgt.running = c.mgt.running
    let only (cmd st : Nat) (l : List Byte) (d : Chip) : Prop := reply cmd st l d ∧ RegsBut c d [.MGT_STAT] ∧ SameCore c d
    let turned (cmd st seq : Nat) (d : Chip) : Prop := d.mgt.responses = [frame cmd st seq []] ∧ d.lastSeq = c.lastSeq ∧
      d.mgt.running = c.mgt.running ∧ SameCore c d
    let runs (e : MgtRun) (d : Chip) : Prop := d.mgt.running = c.mgt.running ++ [e] ∧ d.mgt.responses = [] ∧
      d.lastSeq = f.seq.toNat ∧ d.mem = c.mem
    let a := plNat f 0 8
    let named := a % 8 = 0 ∧ a < 2 ^ 40 ∧ c.region a = .register ∧ bookWindow a = false ∧ regOf a = some r
    let v := BitVec.ofNat 64 (plNat f 8 8)
    let mask := BitVec.ofNat 64 a
    let cmds : List (Nat × Instr) := [(1, .status f), (2, .read f), (3, .write f), (4, .faults f), (5, .book f), (6, .abort f),
      (7, .brake f), (8, .reset f), (9, .stage f)]
    let p := plByte f 1
    let two := f.payload.length = 2
    (∀ e ∈ cmds,
      (c.off = true → exec e.2 s = .next s) ∧
      (c.off = false → c.gb .MGT_STAT MGT_STAT.KEY = false → c.mgt.responses = [] → Gives s e.2 (turned e.1 8 c.lastSeq)) ∧
      (key → f.tag ≠ mgtTag c.mgt.key (octets e.1) → Gives s e.2 (fun d => turned e.1 1 c.lastSeq d ∧ d.stands 17 0 ∧
        d.gf .MGT_STAT MGT_STAT.AUTHFAIL = min (c.gf .MGT_STAT MGT_STAT.AUTHFAIL + 1) MGT_STAT.AUTHFAIL.max)) ∧
      (key → f.tag = mgtTag c.mgt.key (octets e.1) → ¬ fresh → Gives s e.2 (fun d => turned e.1 2 c.lastSeq d ∧ d.regs = c.regs)) ∧
      (key → f.tag = mgtTag c.mgt.key (octets e.1) → fresh → ¬ form → Gives s e.2 (fun d => turned e.1 3 c.lastSeq d ∧
        d.regs = c.regs))) ∧
    (good 1 → idle → f.payload = [] → Gives s (.status f) (only 1 0
      ([RegName.FLT_STATE, .FLT_STATUS, .CFG_STAT, .PAR_STAT, .TIM_NOW].flatMap (fun r => bytesLE 8 (c.regGet now r).toNat)))) ∧
    (good 1 → ¬ idle → f.payload = [] → Gives s (.status f) (fun d => turned 1 4 f.seq.toNat d ∧ d.regs = c.regs)) ∧
    (good 2 → idle → f.payload.length = 10 → plNat f 8 2 = 1 →
      (named → r ≠ .MGT_STAT → r ≠ .FLT_STATUS → (∀ j : Nat, r ≠ .LAN_TXTS j) →
        (c.answers a = true → c.devReadable .miller a = true →
          Gives s (.read f) (only 2 0 (bytesLE 8 (c.regGet now r).toNat))) ∧
        (c.answers a = false → Gives s (.read f) (only 2 7 []))) ∧
      (a % 8 ≠ 0 ∨ 2 ^ 40 ≤ a → Gives s (.read f) (only 2 6 []))) ∧
    (good 3 → idle → f.payload.length = 16 →
      (c.standby = true → Gives s (.write f) (only 3 5 [])) ∧
      (c.standby = false →
        (a = RegName.FLT_ERRMASK.addr → c.domainOn 0 = true → Gives s (.write f) (fun d => reply 3 0 [] d ∧
          d.rd .FLT_ERRMASK = v ∧ RegsBut c d [.MGT_STAT, .FLT_ERRMASK] ∧ SameCore c d)) ∧
        (named → c.answers a = true → c.mayWrite .miller r = false → Gives s (.write f) (only 3 5 [])) ∧
        (named → c.answers a = false → Gives s (.write f) (only 3 7 [])) ∧
        (a % 8 ≠ 0 ∨ 2 ^ 40 ≤ a → Gives s (.write f) (only 3 6 [])))) ∧
    (good 4 → idle → f.payload.length = 8 → (∀ k < 20, mask.getLsbD (3 * k + 1) = false) →
      Gives s (.faults f) (fun d => reply 4 0 c.mgtFaultWords d ∧
        d.rd .FLT_STATUS = c.rd .FLT_STATUS &&& ~~~(mask &&& 0x3FFFFFFFFFFFFFFF) ∧ RegsBut c d [.MGT_STAT, .FLT_STATUS] ∧
        SameCore c d)) ∧
    (good 5 → idle → f.payload.length = 6 → plNat f 4 2 ≤ 4096 →
      (plNat f 0 4 + plNat f 4 2 ≤ 4096 → Gives s (.book f) (fun d => SameCore c d ∧
        reply 5 0 ((c.bookBytes.drop (plNat f 0 4)).take (plNat f 4 2)) d)) ∧
      (4096 < plNat f 0 4 + plNat f 4 2 → Gives s (.book f) (only 5 6 []))) ∧
    (good 6 → f.payload.length = 4 → Chip.abortOf f = some tgt →
      (c.standby = true → Gives s (.abort f) (only 6 5 [])) ∧
      (c.standby = false → c.domainOn 19 = false → Gives s (.abort f) (only 6 7 [])) ∧
      (c.standby = false → c.domainOn 19 = true → c.abortable tgt = false → Gives s (.abort f) (only 6 0 [])) ∧
      (c.standby = false → c.domainOn 19 = true → tgt = .path nn → c.pEn n = true → Gives s (.abort f) (fun d =>
        runs ⟨6, f.seq.toNat, some tgt⟩ d ∧ (d.pth n).abort = true))) ∧
    (good 7 → two → c.chan.safeWait = [] → (∀ j : Nat, c.safePaths j = []) →
      (plByte f 0 = 2 → Gives s (.brake f) (fun d => reply 7 0 [] d ∧ d.flt.deviceBrake = true ∧ d.mem = c.mem)) ∧
      (plByte f 0 = 1 → p < 64 → c.gb (.PRT_CFG p) PRT_CFG.DEFINED = true → Gives s (.brake f) (fun d => reply 7 0 [] d ∧
        p ∈ d.flt.partBrakes ∧ d.mem = c.mem))) ∧
    (good 8 → idle → two →
      (plByte f 0 = 0 → c.LoadWaits → Gives s (.reset f) (fun d => c.WarmFrom d ∧ reply 8 0 [] d)) ∧
      (plByte f 0 = 1 → p < 64 →
        (c.standby = true ∨ (c.pstate p = 3 ∧ (c.rd .FLT_RELPERM).getLsbD p = false) →
          Gives s (.reset f) (fun d => reply 8 5 [] d ∧ d.pstate p = c.pstate p ∧ SameCore c d)) ∧
        (c.standby = false → c.pstate p ≠ 2 → c.pstate p ≠ 3 → Gives s (.reset f) (fun d => reply 8 9 [] d ∧
          d.pstate p = c.pstate p ∧ SameCore c d)) ∧
        (c.standby = false → c.pstate p = 2 → c.flt.deviceBrake = false → c.partQueues p = [] → c.partPaths p = [] →
          c.flt.safeDue = [] → c.chan.safeWait = [] → Gives s (.reset f) (fun d => reply 8 0 [] d ∧ d.pstate p = 4 ∧
            d.mem = c.mem)))) ∧
    (good 9 → idle → stageForm f = true →
      (c.standby = true ∨ c.stageSlotOk p = false → Gives s (.stage f) (only 9 5 [])) ∧
      (c.standby = false → c.stageSlotOk p = true →
        (c.gb .CFG_STGSTAT CFG_STGSTAT.BUSY = true → Gives s (.stage f) (only 9 4 [])) ∧
        (c.gb .CFG_STGSTAT CFG_STGSTAT.BUSY = false → plByte f 0 = 1 → Gives s (.stage f) (fun d =>
          runs ⟨9, f.seq.toNat, none⟩ d ∧ d.gb .CFG_STGSTAT CFG_STGSTAT.BUSY = true ∧ d.stage.op = 1 ∧
          d.stage.slot = decide (p = 1))))) ∧
    (c.off = false → Gives s .responseRead (fun d => d = { c with mgt := { c.mgt with responses := c.mgt.responses.drop 1 } })) ∧
    (c.off = true → exec .responseRead s = .next s) ∧
    exec .statusPoll s = .next s ∧
    (c.millOn = true → c.following = false → c.chan.egress = [] → c.mgt.responses = [] →
      ((c.que q).abort = some x → (c.que q).prog = none → c.chan.paths = [] → c.rangeStatus (c.queOwner q) (c.ctla q) 128 ≠ 0 →
        c.mgt.running = [⟨6, sq, some (.queue qn)⟩] → Gives s (.abortWorkStopped (.queue qn)) (fun d =>
          (d.que q).abort = none ∧ (d.que q).hrhead = x.door ∧ d.queState q = 1 ∧ d.mgt.running = [] ∧
          d.mgt.responses = [frame 6 0 sq []] ∧ d.mem = c.mem)) ∧
      ((c.pth n).abort = true → c.chan.ques = [] → c.pWcp n = false → c.queEn (c.gf (.CHN_PATHCFG n) CHN_PATHCFG.QUEUE) = false →
        c.mgt.running = [⟨6, sq, some (.path nn)⟩] → Gives s (.abortWorkStopped (.path nn)) (fun d =>
          (d.pth n).abort = false ∧ (d.pth n).frames = [] ∧ (d.pth n).rxq = [] ∧ d.mgt.running = [] ∧
          d.mgt.responses = [frame 6 0 sq []] ∧ d.mem = c.mem))) ∧
    ((c.que q).abort = none → c.mgt.running = [] → exec (.abortWorkStopped (.queue qn)) s = .next s) ∧
    ((c.pth n).abort = false → c.mgt.running = [] → exec (.abortWorkStopped (.path nn)) s = .next s)

/-! ### The block as a whole -/

/-- The block at reset (R10, R38, R452): held in cold reset, time 0, every device register at the reset value that its table
states, memory and flash with nothing listed, no lane, queue or transfer, no fault, no command waiting. The values of what no
table lists (an unlisted byte of memory, a lane's registers before its partition starts) are the model's choice (log 7, 8). -/
def Obligations.ResetState : Prop :=
  let s := State.reset
  let c := s.chip
  s.pending = [] ∧ s.now = 0 ∧ c.off = true ∧ (∀ r : RegName, c.rd r = r.reset) ∧ (∀ a : Nat, c.byte a = 0) ∧
    (∀ p o : Nat, c.flashRd p o 1 = [0xFF]) ∧ c.commits = [] ∧ c.chan.ques = [] ∧ c.chan.paths = [] ∧ c.chan.egress = [] ∧
    c.host.reqs = [] ∧ c.mgt.responses = [] ∧ c.flt.deviceBrake = false ∧ c.flt.partBrakes = [] ∧
    (∀ k : Nat, (c.lane k).arch.gr 0 = 0 ∧ (c.lane k).retired = 0 ∧ (c.lane k).sb = []) ∧ Memory.wf c.mem = true

/-- The queue and the time, over every step of every state. A step neither faults nor is refused; the waiting commands are
served first in, first out, each once, and none is changed, so that a queue of well-formed commands stays one; a command takes
no time, save that `PORST_N` sets the time base to 0 (R42), and with none waiting one nanosecond passes (R40; that the block
then does what it can go on with is the model's choice, log 2). -/
def Obligations.QueueAndTime : Prop :=
  ∀ (s : State), (∀ i ∈ s.pending, WellFormed i) →
    ∃ t, step s = .next t ∧ SafeStep s ∧ t.pending = s.pending.drop 1 ∧ (∀ i ∈ t.pending, WellFormed i) ∧
      (s.pending = [] → t.now = s.now + 1) ∧
      (∀ i, s.pending.head? = some i → t.now = s.now ∨ (t.now = 0 ∧ (i = .porstNAssert ∨ ∃ p, i = .porstNRelease p)))

/-- The encodings of Prenyx (R86 to R112) agree both ways: the word of a well-formed instruction decodes to it, in a form
that its lowest bit tells (R86), and a 32-bit word that decodes is the word of the instruction it decodes to. No bit of an
encoding is dropped, and no reserved one is overlooked (R87). -/
def Obligations.EncodingRoundTrip : Prop :=
  (∀ (i : Instr) (w : Nat), WellFormed i → encode i = some w →
    ∃ l f, decodePrenyx l f w = some i ∧ (w % 2 = 1 ↔ f = .full) ∧ w < 2 ^ (8 * (formLen f).toNat)) ∧
  (∀ (l : LaneId) (w : Nat) (i : Instr), decodePrenyx l .full w = some i → encode i = some w ∧ WellFormed i) ∧
  (∀ (l : LaneId) (w : Nat) (i : Instr), decodePrenyx l .half w = some i → WellFormed i ∧ ∃ v, encode i = some v ∧ v % 2 = 0 ∧
    decodePrenyx l .half v = some i)
end

