-- ==== Sys2Proof/Laws/Field.lean ====
section
/-! SUPPORT. Bit fields: what a field reads after it, or another field of the word, is written. -/
namespace Sys2Proof.Machine.Fld

theorem get_lt {n : Nat} (f : Fld) (w : BitVec n) : f.get w < 2 ^ (f.hi + 1 - f.lo) :=
  Nat.mod_lt _ (Nat.two_pow_pos _)

/-- A field bit by bit. -/
theorem testBit_get {n : Nat} (f : Fld) (w : BitVec n) (i : Nat) :
    (f.get w).testBit i = (decide (i < f.hi + 1 - f.lo) && w.toNat.testBit (i + f.lo)) := by
  simp [get, Nat.testBit_mod_two_pow, Nat.testBit_div_two_pow]

/-- A word with a field replaced, bit by bit. -/
theorem testBit_put {n : Nat} (f : Fld) (w : BitVec n) (v i : Nat) (h : f.lo ≤ f.hi) (hn : f.hi < n) :
    (f.put w v).toNat.testBit i =
      if f.lo ≤ i ∧ i ≤ f.hi then v.testBit (i - f.lo) else w.toNat.testBit i := by
  have hk : f.lo + (f.hi + 1 - f.lo) = f.hi + 1 := by omega
  have h1 : w.toNat % 2 ^ f.lo + v % 2 ^ (f.hi + 1 - f.lo) * 2 ^ f.lo < 2 ^ (f.hi + 1) := by
    have a := Nat.mod_lt w.toNat (Nat.two_pow_pos f.lo)
    have b := Nat.mod_lt v (Nat.two_pow_pos (f.hi + 1 - f.lo))
    calc _ < 2 ^ f.lo + v % 2 ^ (f.hi + 1 - f.lo) * 2 ^ f.lo := by omega
      _ = (v % 2 ^ (f.hi + 1 - f.lo) + 1) * 2 ^ f.lo := by ring
      _ ≤ 2 ^ (f.hi + 1 - f.lo) * 2 ^ f.lo := Nat.mul_le_mul_right _ b
      _ = 2 ^ (f.hi + 1) := by rw [← pow_add, Nat.add_comm, hk]
  have e : w.toNat % 2 ^ f.lo + v % 2 ^ (f.hi + 1 - f.lo) * 2 ^ f.lo + w.toNat / 2 ^ (f.hi + 1) * 2 ^ (f.hi + 1) =
      2 ^ (f.hi + 1) * (w.toNat / 2 ^ (f.hi + 1)) +
        (2 ^ f.lo * (v % 2 ^ (f.hi + 1 - f.lo)) + w.toNat % 2 ^ f.lo) := by ring
  have h1' : 2 ^ f.lo * (v % 2 ^ (f.hi + 1 - f.lo)) + w.toNat % 2 ^ f.lo < 2 ^ (f.hi + 1) := by
    rw [Nat.add_comm, Nat.mul_comm]; exact h1
  have hi : i < n ∨ n ≤ i := by omega
  have hw : w.toNat.testBit i = true → i < n := fun hb => by
    by_contra hc
    rw [Nat.testBit_lt_two_pow (lt_of_lt_of_le w.isLt (Nat.pow_le_pow_right (by omega) (by omega)))] at hb
    exact absurd hb (by simp)
  rw [put, BitVec.toNat_ofNat, Nat.testBit_mod_two_pow, e, Nat.testBit_two_pow_mul_add _ h1',
    Nat.testBit_two_pow_mul_add _ (Nat.mod_lt _ (Nat.two_pow_pos _)), Nat.testBit_mod_two_pow, Nat.testBit_mod_two_pow,
    Nat.testBit_div_two_pow]
  by_cases hin : i < n
  · by_cases a : i < f.lo
    · simp [hin, a, show i < f.hi + 1 by omega, show ¬ f.lo ≤ i by omega]
    · by_cases b : i < f.hi + 1
      · simp [hin, a, b, show f.lo ≤ i by omega, show i ≤ f.hi by omega, show i - f.lo < f.hi + 1 - f.lo by omega]
      · simp [hin, b, show ¬ i ≤ f.hi by omega, show i - (f.hi + 1) + (f.hi + 1) = i by omega]
  · have : w.toNat.testBit i = false := by
      cases hb : w.toNat.testBit i
      · rfl
      · exact absurd (hw hb) hin
    simp [hin, this, show ¬ i ≤ f.hi by omega]

/-- A field reads what was written to it, cut to its width. -/
theorem get_put_same {n : Nat} (f : Fld) (w : BitVec n) (v : Nat) (h : f.lo ≤ f.hi) (hn : f.hi < n) :
    f.get (f.put w v) = v % 2 ^ (f.hi + 1 - f.lo) := by
  apply Nat.eq_of_testBit_eq
  intro i
  rw [testBit_get, testBit_put f w v _ h hn, Nat.testBit_mod_two_pow]
  by_cases a : i < f.hi + 1 - f.lo
  · simp [a, show i + f.lo ≤ f.hi by omega]
  · simp [a]

/-- A field that shares no bit with the one written keeps its value. -/
theorem get_put_other {n : Nat} (f g : Fld) (w : BitVec n) (v : Nat) (h : f.lo ≤ f.hi) (hn : f.hi < n)
    (hd : g.hi < f.lo ∨ f.hi < g.lo) : g.get (f.put w v) = g.get w := by
  apply Nat.eq_of_testBit_eq
  intro i
  rw [testBit_get, testBit_get, testBit_put f w v _ h hn]
  by_cases a : i < g.hi + 1 - g.lo
  · rw [if_neg (by omega)]
  · simp [a]

end Sys2Proof.Machine.Fld
end

