-- ==== Sys2Proof/Laws/Tab.lean ====
section
/-! SUPPORT. Sparse tables: reads after writes, and the canonical form. -/
namespace Sys2Proof.Machine.Tab
variable {α : Type} (d : α)

@[simp] theorem get_nil (k : Nat) : get d [] k = d := rfl

@[simp] theorem get_set_same (t : Tab α) (k : Nat) (v : α) : get d (t.set k v) k = v := by
  induction t with
  | nil => simp [set, get]
  | cons e r ih =>
    obtain ⟨k', w⟩ := e
    by_cases h : k < k'
    · simp [set, get, h]
    · by_cases h' : k = k' <;> simp [set, get, h, h', ih]

theorem get_set_other (t : Tab α) {j k : Nat} (v : α) (h : j ≠ k) : get d (t.set k v) j = get d t j := by
  induction t with
  | nil => simp [set, get, h]
  | cons e r ih =>
    obtain ⟨k', w⟩ := e
    simp only [set]
    split
    · simp [get, h]
    · split
      · rename_i hk; subst hk; simp [get, h]
      · simp [get, ih]

theorem get_set (t : Tab α) (j k : Nat) (v : α) : get d (t.set k v) j = if j = k then v else get d t j := by
  by_cases h : j = k
  · subst h; simp
  · simp [h, get_set_other d t v h]

/-- The second of two writes at one key is the one that stays. -/
@[simp] theorem set_set (t : Tab α) (k : Nat) (v w : α) : (t.set k v).set k w = t.set k w := by
  induction t with
  | nil => simp [set]
  | cons e r ih =>
    obtain ⟨k', x⟩ := e
    by_cases h : k < k'
    · simp [set, h]
    · by_cases h' : k = k' <;> simp [set, h, h', ih]

theorem get_erase_same (t : Tab α) (k : Nat) : get d (t.erase k) k = d := by
  induction t with
  | nil => rfl
  | cons e r ih =>
    obtain ⟨k', x⟩ := e
    by_cases h : k' = k
    · simpa [erase, h] using ih
    · simp only [erase, List.filter_cons, bne_iff_ne, ne_eq, h, not_false_eq_true, ↓reduceIte, get] at ih ⊢
      rw [if_neg (Ne.symm h)]; exact ih

theorem get_erase_other (t : Tab α) {j k : Nat} (h : j ≠ k) : get d (t.erase k) j = get d t j := by
  induction t with
  | nil => rfl
  | cons e r ih =>
    obtain ⟨k', x⟩ := e
    by_cases hk : k' = k
    · subst hk; simp only [erase, List.filter_cons, bne_self_eq_false, Bool.false_eq_true, ↓reduceIte, get] at ih ⊢
      rw [if_neg h]; exact ih
    · simp only [erase, List.filter_cons, bne_iff_ne, ne_eq, hk, not_false_eq_true, ↓reduceIte, get] at ih ⊢
      rw [ih]

section put
variable [DecidableEq α]

/-- A read after a write to the same key gives the value written. -/
@[simp] theorem get_put_same (t : Tab α) (k : Nat) (v : α) : get d (t.put d k v) k = v := by
  by_cases h : v = d
  · simp [put, h, get_erase_same]
  · simp [put, h]

/-- A write leaves every other key alone, whatever an unlisted key reads as. -/
theorem get_put_other (d' : α) (t : Tab α) {j k : Nat} (v : α) (h : j ≠ k) : get d (t.put d' k v) j = get d t j := by
  by_cases hv : v = d'
  · simp [put, hv, get_erase_other d t h]
  · simp [put, hv, get_set_other d t v h]

theorem get_put (t : Tab α) (j k : Nat) (v : α) : get d (t.put d k v) j = if j = k then v else get d t j := by
  by_cases h : j = k
  · subst h; simp
  · simp [h, get_put_other d d t v h]

end put

/-! ### The canonical form -/

/-- `sorted` says that the keys are pairwise rising. -/
theorem sorted_iff (t : Tab α) : t.sorted = true ↔ t.Pairwise (fun a b => a.1 < b.1) := by
  induction t with
  | nil => simp [sorted]
  | cons e r ih =>
    cases r with
    | nil => simp [sorted]
    | cons f r =>
      simp only [sorted, Bool.and_eq_true, decide_eq_true_eq, ih, List.pairwise_cons, List.mem_cons, forall_eq_or_imp]
      constructor
      · rintro ⟨h, h1, h2⟩
        exact ⟨⟨h, fun a ha => h.trans (h1 a ha)⟩, h1, h2⟩
      · rintro ⟨⟨h, -⟩, h1, h2⟩
        exact ⟨h, h1, h2⟩

theorem mem_set {t : Tab α} {k : Nat} {v : α} {e : Nat × α} (h : e ∈ t.set k v) : e = (k, v) ∨ e ∈ t := by
  induction t with
  | nil => simpa [set] using h
  | cons f r ih =>
    obtain ⟨k', x⟩ := f
    simp only [set] at h
    split at h
    · simpa using h
    · split at h
      · rcases List.mem_cons.1 h with h | h
        · exact .inl h
        · exact .inr (List.mem_cons_of_mem _ h)
      · rcases List.mem_cons.1 h with h | h
        · exact .inr (by simp [h])
        · rcases ih h with h | h
          · exact .inl h
          · exact .inr (List.mem_cons_of_mem _ h)

theorem sorted_set {t : Tab α} (k : Nat) (v : α) (h : t.sorted = true) : (t.set k v).sorted = true := by
  rw [sorted_iff] at *
  induction t with
  | nil => simp [set]
  | cons f r ih =>
    obtain ⟨k', x⟩ := f
    rw [List.pairwise_cons] at h
    simp only [set]
    split
    · rename_i hk
      refine List.pairwise_cons.2 ⟨fun a ha => ?_, List.pairwise_cons.2 h⟩
      rcases List.mem_cons.1 ha with rfl | ha
      · exact hk
      · exact hk.trans (h.1 a ha)
    · split
      · rename_i hk; subst hk; exact List.pairwise_cons.2 h
      · refine List.pairwise_cons.2 ⟨fun a ha => ?_, ih h.2⟩
        rcases mem_set ha with rfl | ha
        · show k' < k
          omega
        · exact h.1 a ha

theorem sorted_erase {t : Tab α} (k : Nat) (h : t.sorted = true) : (t.erase k).sorted = true := by
  rw [sorted_iff] at *
  exact h.filter _

/-- A write keeps the canonical form: rising keys and no entry equal to the default. -/
theorem wf_put [DecidableEq α] {t : Tab α} (k : Nat) (v : α) (h : t.wf d = true) : (t.put d k v).wf d = true := by
  simp only [wf, Bool.and_eq_true, List.all_eq_true, bne_iff_ne] at *
  unfold put
  split
  · exact ⟨sorted_erase k h.1, fun e he => h.2 e (List.mem_filter.1 he).1⟩
  · rename_i hv
    refine ⟨sorted_set k v h.1, fun e he => ?_⟩
    rcases mem_set he with rfl | he
    · exact hv
    · exact h.2 e he

theorem get_of_lt {t : Tab α} {k : Nat} (h : ∀ e ∈ t, k < e.1) : get d t k = d := by
  induction t with
  | nil => rfl
  | cons e r ih =>
    have := h e (by simp)
    rw [get, if_neg (by omega), ih (fun a ha => h a (List.mem_cons_of_mem _ ha))]

/-- In canonical form a table is its reads: equal reads make equal tables. -/
theorem ext_of_wf [DecidableEq α] {t u : Tab α} (ht : t.wf d = true) (hu : u.wf d = true) (h : ∀ k, get d t k = get d u k) :
    t = u := by
  simp only [wf, Bool.and_eq_true, List.all_eq_true, bne_iff_ne, sorted_iff] at ht hu
  induction t generalizing u with
  | nil =>
    cases u with
    | nil => rfl
    | cons e r =>
      have := h e.1
      simp [get] at this
      exact absurd this.symm (hu.2 e (by simp))
  | cons e r ih =>
    cases u with
    | nil =>
      have := h e.1
      simp [get] at this
      exact absurd this (ht.2 e (by simp))
    | cons f q =>
      have h1 := List.pairwise_cons.1 ht.1
      have h2 := List.pairwise_cons.1 hu.1
      have key : e.1 = f.1 := by
        by_contra hne
        rcases Nat.lt_or_gt_of_ne hne with hlt | hlt
        · have := h e.1
          rw [get, if_pos rfl, get_of_lt d (t := f :: q)] at this
          · exact ht.2 e (by simp) this
          · intro a ha
            rcases List.mem_cons.1 ha with rfl | ha
            · exact hlt
            · exact hlt.trans (h2.1 a ha)
        · have := h f.1
          rw [get_of_lt d (t := e :: r), get, if_pos rfl] at this
          · exact hu.2 f (by simp) this.symm
          · intro a ha
            rcases List.mem_cons.1 ha with rfl | ha
            · exact hlt
            · exact hlt.trans (h1.1 a ha)
      have val : e.2 = f.2 := by
        have := h e.1
        rw [get, if_pos rfl, get, if_pos key] at this
        exact this
      have tl : r = q := by
        refine ih (fun k => ?_) ⟨h1.2, fun a ha => ht.2 a (List.mem_cons_of_mem _ ha)⟩
          ⟨h2.2, fun a ha => hu.2 a (List.mem_cons_of_mem _ ha)⟩
        by_cases hk : k = e.1
        · rw [hk, get_of_lt d h1.1, key, get_of_lt d h2.1]
        · have := h k
          rw [get, if_neg hk, get, if_neg (by rw [← key]; exact hk)] at this
          exact this
      rw [Prod.ext key val, tl]

end Sys2Proof.Machine.Tab
end

