-- ==== Sys2Proof/Laws/State.lean ====
section
/-! SUPPORT. One lemma per field of the chip and per named update: what the update leaves alone. Below, what the accessors
read after it. -/
namespace Sys2Proof.Machine.Chip
variable (c : Chip)


/-! ### `wr` -/

@[simp] theorem wr_off (r : RegName) (v : DWord) : (c.wr r v).off = c.off := by rfl
@[simp] theorem wr_mem (r : RegName) (v : DWord) : (c.wr r v).mem = c.mem := by rfl
@[simp] theorem wr_ecc (r : RegName) (v : DWord) : (c.wr r v).ecc = c.ecc := by rfl
@[simp] theorem wr_filled (r : RegName) (v : DWord) : (c.wr r v).filled = c.filled := by rfl
@[simp] theorem wr_lanes (r : RegName) (v : DWord) : (c.wr r v).lanes = c.lanes := by rfl
@[simp] theorem wr_triads (r : RegName) (v : DWord) : (c.wr r v).triads = c.triads := by rfl
@[simp] theorem wr_ports (r : RegName) (v : DWord) : (c.wr r v).ports = c.ports := by rfl
@[simp] theorem wr_bars (r : RegName) (v : DWord) : (c.wr r v).bars = c.bars := by rfl
@[simp] theorem wr_sweeps (r : RegName) (v : DWord) : (c.wr r v).sweeps = c.sweeps := by rfl
@[simp] theorem wr_sweepAt (r : RegName) (v : DWord) : (c.wr r v).sweepAt = c.sweepAt := by rfl
@[simp] theorem wr_stores (r : RegName) (v : DWord) : (c.wr r v).stores = c.stores := by rfl
@[simp] theorem wr_commits (r : RegName) (v : DWord) : (c.wr r v).commits = c.commits := by rfl
@[simp] theorem wr_flt (r : RegName) (v : DWord) : (c.wr r v).flt = c.flt := by rfl
@[simp] theorem wr_gov (r : RegName) (v : DWord) : (c.wr r v).gov = c.gov := by rfl
@[simp] theorem wr_chan (r : RegName) (v : DWord) : (c.wr r v).chan = c.chan := by rfl
@[simp] theorem wr_pair (r : RegName) (v : DWord) : (c.wr r v).pair = c.pair := by rfl
@[simp] theorem wr_parts (r : RegName) (v : DWord) : (c.wr r v).parts = c.parts := by rfl
@[simp] theorem wr_handovers (r : RegName) (v : DWord) : (c.wr r v).handovers = c.handovers := by rfl
@[simp] theorem wr_arbs (r : RegName) (v : DWord) : (c.wr r v).arbs = c.arbs := by rfl
@[simp] theorem wr_leat (r : RegName) (v : DWord) : (c.wr r v).leat = c.leat := by rfl
@[simp] theorem wr_lanOwner (r : RegName) (v : DWord) : (c.wr r v).lanOwner = c.lanOwner := by rfl
@[simp] theorem wr_cas (r : RegName) (v : DWord) : (c.wr r v).cas = c.cas := by rfl
@[simp] theorem wr_snap (r : RegName) (v : DWord) : (c.wr r v).snap = c.snap := by rfl
@[simp] theorem wr_host (r : RegName) (v : DWord) : (c.wr r v).host = c.host := by rfl
@[simp] theorem wr_mgt (r : RegName) (v : DWord) : (c.wr r v).mgt = c.mgt := by rfl
@[simp] theorem wr_misc (r : RegName) (v : DWord) : (c.wr r v).misc = c.misc := by rfl
@[simp] theorem wr_boot (r : RegName) (v : DWord) : (c.wr r v).boot = c.boot := by rfl
@[simp] theorem wr_stage (r : RegName) (v : DWord) : (c.wr r v).stage = c.stage := by rfl
@[simp] theorem wr_flash (r : RegName) (v : DWord) : (c.wr r v).flash = c.flash := by rfl
@[simp] theorem wr_book (r : RegName) (v : DWord) : (c.wr r v).book = c.book := by rfl
@[simp] theorem wr_free (r : RegName) (v : DWord) : (c.wr r v).free = c.free := by rfl
@[simp] theorem lane_wr (r : RegName) (v : DWord) (k : Nat) : (c.wr r v).lane k = c.lane k := by rfl
@[simp] theorem triad_wr (r : RegName) (v : DWord) (k : Nat) : (c.wr r v).triad k = c.triad k := by rfl
@[simp] theorem port_wr (r : RegName) (v : DWord) (k : Nat) : (c.wr r v).port k = c.port k := by rfl
@[simp] theorem part_wr (r : RegName) (v : DWord) (k : Nat) : (c.wr r v).part k = c.part k := by rfl
@[simp] theorem cstore_wr (r : RegName) (v : DWord) (k : Nat) : (c.wr r v).cstore k = c.cstore k := by rfl
@[simp] theorem bar_wr (r : RegName) (v : DWord) (k : Nat) : (c.wr r v).bar k = c.bar k := by rfl
@[simp] theorem sweep_wr (r : RegName) (v : DWord) (k : Nat) : (c.wr r v).sweep k = c.sweep k := by rfl
@[simp] theorem byte_wr (r : RegName) (v : DWord) (a : Nat) : (c.wr r v).byte a = c.byte a := by rfl
@[simp] theorem flips_wr (r : RegName) (v : DWord) (a : Nat) : (c.wr r v).flips a = c.flips a := by rfl
@[simp] theorem que_wr (r : RegName) (v : DWord) (q : Nat) : (c.wr r v).que q = c.que q := by rfl
@[simp] theorem pth_wr (r : RegName) (v : DWord) (q : Nat) : (c.wr r v).pth q = c.pth q := by rfl
@[simp] theorem eg_wr (r : RegName) (v : DWord) (q : Nat) : (c.wr r v).eg q = c.eg q := by rfl

/-! ### `sf` -/

@[simp] theorem sf_off (r : RegName) (f : Fld) (v : Nat) : (c.sf r f v).off = c.off := by rfl
@[simp] theorem sf_mem (r : RegName) (f : Fld) (v : Nat) : (c.sf r f v).mem = c.mem := by rfl
@[simp] theorem sf_ecc (r : RegName) (f : Fld) (v : Nat) : (c.sf r f v).ecc = c.ecc := by rfl
@[simp] theorem sf_filled (r : RegName) (f : Fld) (v : Nat) : (c.sf r f v).filled = c.filled := by rfl
@[simp] theorem sf_lanes (r : RegName) (f : Fld) (v : Nat) : (c.sf r f v).lanes = c.lanes := by rfl
@[simp] theorem sf_triads (r : RegName) (f : Fld) (v : Nat) : (c.sf r f v).triads = c.triads := by rfl
@[simp] theorem sf_ports (r : RegName) (f : Fld) (v : Nat) : (c.sf r f v).ports = c.ports := by rfl
@[simp] theorem sf_bars (r : RegName) (f : Fld) (v : Nat) : (c.sf r f v).bars = c.bars := by rfl
@[simp] theorem sf_sweeps (r : RegName) (f : Fld) (v : Nat) : (c.sf r f v).sweeps = c.sweeps := by rfl
@[simp] theorem sf_sweepAt (r : RegName) (f : Fld) (v : Nat) : (c.sf r f v).sweepAt = c.sweepAt := by rfl
@[simp] theorem sf_stores (r : RegName) (f : Fld) (v : Nat) : (c.sf r f v).stores = c.stores := by rfl
@[simp] theorem sf_commits (r : RegName) (f : Fld) (v : Nat) : (c.sf r f v).commits = c.commits := by rfl
@[simp] theorem sf_flt (r : RegName) (f : Fld) (v : Nat) : (c.sf r f v).flt = c.flt := by rfl
@[simp] theorem sf_gov (r : RegName) (f : Fld) (v : Nat) : (c.sf r f v).gov = c.gov := by rfl
@[simp] theorem sf_chan (r : RegName) (f : Fld) (v : Nat) : (c.sf r f v).chan = c.chan := by rfl
@[simp] theorem sf_pair (r : RegName) (f : Fld) (v : Nat) : (c.sf r f v).pair = c.pair := by rfl
@[simp] theorem sf_parts (r : RegName) (f : Fld) (v : Nat) : (c.sf r f v).parts = c.parts := by rfl
@[simp] theorem sf_handovers (r : RegName) (f : Fld) (v : Nat) : (c.sf r f v).handovers = c.handovers := by rfl
@[simp] theorem sf_arbs (r : RegName) (f : Fld) (v : Nat) : (c.sf r f v).arbs = c.arbs := by rfl
@[simp] theorem sf_leat (r : RegName) (f : Fld) (v : Nat) : (c.sf r f v).leat = c.leat := by rfl
@[simp] theorem sf_lanOwner (r : RegName) (f : Fld) (v : Nat) : (c.sf r f v).lanOwner = c.lanOwner := by rfl
@[simp] theorem sf_cas (r : RegName) (f : Fld) (v : Nat) : (c.sf r f v).cas = c.cas := by rfl
@[simp] theorem sf_snap (r : RegName) (f : Fld) (v : Nat) : (c.sf r f v).snap = c.snap := by rfl
@[simp] theorem sf_host (r : RegName) (f : Fld) (v : Nat) : (c.sf r f v).host = c.host := by rfl
@[simp] theorem sf_mgt (r : RegName) (f : Fld) (v : Nat) : (c.sf r f v).mgt = c.mgt := by rfl
@[simp] theorem sf_misc (r : RegName) (f : Fld) (v : Nat) : (c.sf r f v).misc = c.misc := by rfl
@[simp] theorem sf_boot (r : RegName) (f : Fld) (v : Nat) : (c.sf r f v).boot = c.boot := by rfl
@[simp] theorem sf_stage (r : RegName) (f : Fld) (v : Nat) : (c.sf r f v).stage = c.stage := by rfl
@[simp] theorem sf_flash (r : RegName) (f : Fld) (v : Nat) : (c.sf r f v).flash = c.flash := by rfl
@[simp] theorem sf_book (r : RegName) (f : Fld) (v : Nat) : (c.sf r f v).book = c.book := by rfl
@[simp] theorem sf_free (r : RegName) (f : Fld) (v : Nat) : (c.sf r f v).free = c.free := by rfl
@[simp] theorem lane_sf (r : RegName) (f : Fld) (v : Nat) (k : Nat) : (c.sf r f v).lane k = c.lane k := by rfl
@[simp] theorem triad_sf (r : RegName) (f : Fld) (v : Nat) (k : Nat) : (c.sf r f v).triad k = c.triad k := by rfl
@[simp] theorem port_sf (r : RegName) (f : Fld) (v : Nat) (k : Nat) : (c.sf r f v).port k = c.port k := by rfl
@[simp] theorem part_sf (r : RegName) (f : Fld) (v : Nat) (k : Nat) : (c.sf r f v).part k = c.part k := by rfl
@[simp] theorem cstore_sf (r : RegName) (f : Fld) (v : Nat) (k : Nat) : (c.sf r f v).cstore k = c.cstore k := by rfl
@[simp] theorem bar_sf (r : RegName) (f : Fld) (v : Nat) (k : Nat) : (c.sf r f v).bar k = c.bar k := by rfl
@[simp] theorem sweep_sf (r : RegName) (f : Fld) (v : Nat) (k : Nat) : (c.sf r f v).sweep k = c.sweep k := by rfl
@[simp] theorem byte_sf (r : RegName) (f : Fld) (v : Nat) (a : Nat) : (c.sf r f v).byte a = c.byte a := by rfl
@[simp] theorem flips_sf (r : RegName) (f : Fld) (v : Nat) (a : Nat) : (c.sf r f v).flips a = c.flips a := by rfl
@[simp] theorem que_sf (r : RegName) (f : Fld) (v : Nat) (q : Nat) : (c.sf r f v).que q = c.que q := by rfl
@[simp] theorem pth_sf (r : RegName) (f : Fld) (v : Nat) (q : Nat) : (c.sf r f v).pth q = c.pth q := by rfl
@[simp] theorem eg_sf (r : RegName) (f : Fld) (v : Nat) (q : Nat) : (c.sf r f v).eg q = c.eg q := by rfl

/-! ### `setLane` -/

@[simp] theorem setLane_off (k : Nat) (x : Lane) : (c.setLane k x).off = c.off := by rfl
@[simp] theorem setLane_regs (k : Nat) (x : Lane) : (c.setLane k x).regs = c.regs := by rfl
@[simp] theorem setLane_mem (k : Nat) (x : Lane) : (c.setLane k x).mem = c.mem := by rfl
@[simp] theorem setLane_ecc (k : Nat) (x : Lane) : (c.setLane k x).ecc = c.ecc := by rfl
@[simp] theorem setLane_filled (k : Nat) (x : Lane) : (c.setLane k x).filled = c.filled := by rfl
@[simp] theorem setLane_triads (k : Nat) (x : Lane) : (c.setLane k x).triads = c.triads := by rfl
@[simp] theorem setLane_ports (k : Nat) (x : Lane) : (c.setLane k x).ports = c.ports := by rfl
@[simp] theorem setLane_bars (k : Nat) (x : Lane) : (c.setLane k x).bars = c.bars := by rfl
@[simp] theorem setLane_sweeps (k : Nat) (x : Lane) : (c.setLane k x).sweeps = c.sweeps := by rfl
@[simp] theorem setLane_sweepAt (k : Nat) (x : Lane) : (c.setLane k x).sweepAt = c.sweepAt := by rfl
@[simp] theorem setLane_stores (k : Nat) (x : Lane) : (c.setLane k x).stores = c.stores := by rfl
@[simp] theorem setLane_commits (k : Nat) (x : Lane) : (c.setLane k x).commits = c.commits := by rfl
@[simp] theorem setLane_flt (k : Nat) (x : Lane) : (c.setLane k x).flt = c.flt := by rfl
@[simp] theorem setLane_gov (k : Nat) (x : Lane) : (c.setLane k x).gov = c.gov := by rfl
@[simp] theorem setLane_chan (k : Nat) (x : Lane) : (c.setLane k x).chan = c.chan := by rfl
@[simp] theorem setLane_pair (k : Nat) (x : Lane) : (c.setLane k x).pair = c.pair := by rfl
@[simp] theorem setLane_parts (k : Nat) (x : Lane) : (c.setLane k x).parts = c.parts := by rfl
@[simp] theorem setLane_handovers (k : Nat) (x : Lane) : (c.setLane k x).handovers = c.handovers := by rfl
@[simp] theorem setLane_arbs (k : Nat) (x : Lane) : (c.setLane k x).arbs = c.arbs := by rfl
@[simp] theorem setLane_leat (k : Nat) (x : Lane) : (c.setLane k x).leat = c.leat := by rfl
@[simp] theorem setLane_lanOwner (k : Nat) (x : Lane) : (c.setLane k x).lanOwner = c.lanOwner := by rfl
@[simp] theorem setLane_cas (k : Nat) (x : Lane) : (c.setLane k x).cas = c.cas := by rfl
@[simp] theorem setLane_snap (k : Nat) (x : Lane) : (c.setLane k x).snap = c.snap := by rfl
@[simp] theorem setLane_host (k : Nat) (x : Lane) : (c.setLane k x).host = c.host := by rfl
@[simp] theorem setLane_mgt (k : Nat) (x : Lane) : (c.setLane k x).mgt = c.mgt := by rfl
@[simp] theorem setLane_misc (k : Nat) (x : Lane) : (c.setLane k x).misc = c.misc := by rfl
@[simp] theorem setLane_boot (k : Nat) (x : Lane) : (c.setLane k x).boot = c.boot := by rfl
@[simp] theorem setLane_stage (k : Nat) (x : Lane) : (c.setLane k x).stage = c.stage := by rfl
@[simp] theorem setLane_flash (k : Nat) (x : Lane) : (c.setLane k x).flash = c.flash := by rfl
@[simp] theorem setLane_book (k : Nat) (x : Lane) : (c.setLane k x).book = c.book := by rfl
@[simp] theorem setLane_free (k : Nat) (x : Lane) : (c.setLane k x).free = c.free := by rfl
@[simp] theorem rd_setLane (k : Nat) (x : Lane) (r : RegName) : (c.setLane k x).rd r = c.rd r := by rfl
@[simp] theorem gf_setLane (k : Nat) (x : Lane) (r : RegName) (f : Fld) : (c.setLane k x).gf r f = c.gf r f := by rfl
@[simp] theorem gb_setLane (k : Nat) (x : Lane) (r : RegName) (f : Fld) : (c.setLane k x).gb r f = c.gb r f := by rfl
@[simp] theorem triad_setLane (k : Nat) (x : Lane) (k' : Nat) : (c.setLane k x).triad k' = c.triad k' := by rfl
@[simp] theorem port_setLane (k : Nat) (x : Lane) (k' : Nat) : (c.setLane k x).port k' = c.port k' := by rfl
@[simp] theorem part_setLane (k : Nat) (x : Lane) (k' : Nat) : (c.setLane k x).part k' = c.part k' := by rfl
@[simp] theorem cstore_setLane (k : Nat) (x : Lane) (k' : Nat) : (c.setLane k x).cstore k' = c.cstore k' := by rfl
@[simp] theorem bar_setLane (k : Nat) (x : Lane) (k' : Nat) : (c.setLane k x).bar k' = c.bar k' := by rfl
@[simp] theorem sweep_setLane (k : Nat) (x : Lane) (k' : Nat) : (c.setLane k x).sweep k' = c.sweep k' := by rfl
@[simp] theorem byte_setLane (k : Nat) (x : Lane) (a : Nat) : (c.setLane k x).byte a = c.byte a := by rfl
@[simp] theorem flips_setLane (k : Nat) (x : Lane) (a : Nat) : (c.setLane k x).flips a = c.flips a := by rfl
@[simp] theorem que_setLane (k : Nat) (x : Lane) (q : Nat) : (c.setLane k x).que q = c.que q := by rfl
@[simp] theorem pth_setLane (k : Nat) (x : Lane) (q : Nat) : (c.setLane k x).pth q = c.pth q := by rfl
@[simp] theorem eg_setLane (k : Nat) (x : Lane) (q : Nat) : (c.setLane k x).eg q = c.eg q := by rfl

/-! ### `setTriad` -/

@[simp] theorem setTriad_off (k : Nat) (x : Triad) : (c.setTriad k x).off = c.off := by rfl
@[simp] theorem setTriad_regs (k : Nat) (x : Triad) : (c.setTriad k x).regs = c.regs := by rfl
@[simp] theorem setTriad_mem (k : Nat) (x : Triad) : (c.setTriad k x).mem = c.mem := by rfl
@[simp] theorem setTriad_ecc (k : Nat) (x : Triad) : (c.setTriad k x).ecc = c.ecc := by rfl
@[simp] theorem setTriad_filled (k : Nat) (x : Triad) : (c.setTriad k x).filled = c.filled := by rfl
@[simp] theorem setTriad_lanes (k : Nat) (x : Triad) : (c.setTriad k x).lanes = c.lanes := by rfl
@[simp] theorem setTriad_ports (k : Nat) (x : Triad) : (c.setTriad k x).ports = c.ports := by rfl
@[simp] theorem setTriad_bars (k : Nat) (x : Triad) : (c.setTriad k x).bars = c.bars := by rfl
@[simp] theorem setTriad_sweeps (k : Nat) (x : Triad) : (c.setTriad k x).sweeps = c.sweeps := by rfl
@[simp] theorem setTriad_sweepAt (k : Nat) (x : Triad) : (c.setTriad k x).sweepAt = c.sweepAt := by rfl
@[simp] theorem setTriad_stores (k : Nat) (x : Triad) : (c.setTriad k x).stores = c.stores := by rfl
@[simp] theorem setTriad_commits (k : Nat) (x : Triad) : (c.setTriad k x).commits = c.commits := by rfl
@[simp] theorem setTriad_flt (k : Nat) (x : Triad) : (c.setTriad k x).flt = c.flt := by rfl
@[simp] theorem setTriad_gov (k : Nat) (x : Triad) : (c.setTriad k x).gov = c.gov := by rfl
@[simp] theorem setTriad_chan (k : Nat) (x : Triad) : (c.setTriad k x).chan = c.chan := by rfl
@[simp] theorem setTriad_pair (k : Nat) (x : Triad) : (c.setTriad k x).pair = c.pair := by rfl
@[simp] theorem setTriad_parts (k : Nat) (x : Triad) : (c.setTriad k x).parts = c.parts := by rfl
@[simp] theorem setTriad_handovers (k : Nat) (x : Triad) : (c.setTriad k x).handovers = c.handovers := by rfl
@[simp] theorem setTriad_arbs (k : Nat) (x : Triad) : (c.setTriad k x).arbs = c.arbs := by rfl
@[simp] theorem setTriad_leat (k : Nat) (x : Triad) : (c.setTriad k x).leat = c.leat := by rfl
@[simp] theorem setTriad_lanOwner (k : Nat) (x : Triad) : (c.setTriad k x).lanOwner = c.lanOwner := by rfl
@[simp] theorem setTriad_cas (k : Nat) (x : Triad) : (c.setTriad k x).cas = c.cas := by rfl
@[simp] theorem setTriad_snap (k : Nat) (x : Triad) : (c.setTriad k x).snap = c.snap := by rfl
@[simp] theorem setTriad_host (k : Nat) (x : Triad) : (c.setTriad k x).host = c.host := by rfl
@[simp] theorem setTriad_mgt (k : Nat) (x : Triad) : (c.setTriad k x).mgt = c.mgt := by rfl
@[simp] theorem setTriad_misc (k : Nat) (x : Triad) : (c.setTriad k x).misc = c.misc := by rfl
@[simp] theorem setTriad_boot (k : Nat) (x : Triad) : (c.setTriad k x).boot = c.boot := by rfl
@[simp] theorem setTriad_stage (k : Nat) (x : Triad) : (c.setTriad k x).stage = c.stage := by rfl
@[simp] theorem setTriad_flash (k : Nat) (x : Triad) : (c.setTriad k x).flash = c.flash := by rfl
@[simp] theorem setTriad_book (k : Nat) (x : Triad) : (c.setTriad k x).book = c.book := by rfl
@[simp] theorem setTriad_free (k : Nat) (x : Triad) : (c.setTriad k x).free = c.free := by rfl
@[simp] theorem rd_setTriad (k : Nat) (x : Triad) (r : RegName) : (c.setTriad k x).rd r = c.rd r := by rfl
@[simp] theorem gf_setTriad (k : Nat) (x : Triad) (r : RegName) (f : Fld) : (c.setTriad k x).gf r f = c.gf r f := by rfl
@[simp] theorem gb_setTriad (k : Nat) (x : Triad) (r : RegName) (f : Fld) : (c.setTriad k x).gb r f = c.gb r f := by rfl
@[simp] theorem lane_setTriad (k : Nat) (x : Triad) (k' : Nat) : (c.setTriad k x).lane k' = c.lane k' := by rfl
@[simp] theorem port_setTriad (k : Nat) (x : Triad) (k' : Nat) : (c.setTriad k x).port k' = c.port k' := by rfl
@[simp] theorem part_setTriad (k : Nat) (x : Triad) (k' : Nat) : (c.setTriad k x).part k' = c.part k' := by rfl
@[simp] theorem cstore_setTriad (k : Nat) (x : Triad) (k' : Nat) : (c.setTriad k x).cstore k' = c.cstore k' := by rfl
@[simp] theorem bar_setTriad (k : Nat) (x : Triad) (k' : Nat) : (c.setTriad k x).bar k' = c.bar k' := by rfl
@[simp] theorem sweep_setTriad (k : Nat) (x : Triad) (k' : Nat) : (c.setTriad k x).sweep k' = c.sweep k' := by rfl
@[simp] theorem byte_setTriad (k : Nat) (x : Triad) (a : Nat) : (c.setTriad k x).byte a = c.byte a := by rfl
@[simp] theorem flips_setTriad (k : Nat) (x : Triad) (a : Nat) : (c.setTriad k x).flips a = c.flips a := by rfl
@[simp] theorem que_setTriad (k : Nat) (x : Triad) (q : Nat) : (c.setTriad k x).que q = c.que q := by rfl
@[simp] theorem pth_setTriad (k : Nat) (x : Triad) (q : Nat) : (c.setTriad k x).pth q = c.pth q := by rfl
@[simp] theorem eg_setTriad (k : Nat) (x : Triad) (q : Nat) : (c.setTriad k x).eg q = c.eg q := by rfl

/-! ### `setPort` -/

@[simp] theorem setPort_off (k : Nat) (x : Port) : (c.setPort k x).off = c.off := by rfl
@[simp] theorem setPort_regs (k : Nat) (x : Port) : (c.setPort k x).regs = c.regs := by rfl
@[simp] theorem setPort_mem (k : Nat) (x : Port) : (c.setPort k x).mem = c.mem := by rfl
@[simp] theorem setPort_ecc (k : Nat) (x : Port) : (c.setPort k x).ecc = c.ecc := by rfl
@[simp] theorem setPort_filled (k : Nat) (x : Port) : (c.setPort k x).filled = c.filled := by rfl
@[simp] theorem setPort_lanes (k : Nat) (x : Port) : (c.setPort k x).lanes = c.lanes := by rfl
@[simp] theorem setPort_triads (k : Nat) (x : Port) : (c.setPort k x).triads = c.triads := by rfl
@[simp] theorem setPort_bars (k : Nat) (x : Port) : (c.setPort k x).bars = c.bars := by rfl
@[simp] theorem setPort_sweeps (k : Nat) (x : Port) : (c.setPort k x).sweeps = c.sweeps := by rfl
@[simp] theorem setPort_sweepAt (k : Nat) (x : Port) : (c.setPort k x).sweepAt = c.sweepAt := by rfl
@[simp] theorem setPort_stores (k : Nat) (x : Port) : (c.setPort k x).stores = c.stores := by rfl
@[simp] theorem setPort_commits (k : Nat) (x : Port) : (c.setPort k x).commits = c.commits := by rfl
@[simp] theorem setPort_flt (k : Nat) (x : Port) : (c.setPort k x).flt = c.flt := by rfl
@[simp] theorem setPort_gov (k : Nat) (x : Port) : (c.setPort k x).gov = c.gov := by rfl
@[simp] theorem setPort_chan (k : Nat) (x : Port) : (c.setPort k x).chan = c.chan := by rfl
@[simp] theorem setPort_pair (k : Nat) (x : Port) : (c.setPort k x).pair = c.pair := by rfl
@[simp] theorem setPort_parts (k : Nat) (x : Port) : (c.setPort k x).parts = c.parts := by rfl
@[simp] theorem setPort_handovers (k : Nat) (x : Port) : (c.setPort k x).handovers = c.handovers := by rfl
@[simp] theorem setPort_arbs (k : Nat) (x : Port) : (c.setPort k x).arbs = c.arbs := by rfl
@[simp] theorem setPort_leat (k : Nat) (x : Port) : (c.setPort k x).leat = c.leat := by rfl
@[simp] theorem setPort_lanOwner (k : Nat) (x : Port) : (c.setPort k x).lanOwner = c.lanOwner := by rfl
@[simp] theorem setPort_cas (k : Nat) (x : Port) : (c.setPort k x).cas = c.cas := by rfl
@[simp] theorem setPort_snap (k : Nat) (x : Port) : (c.setPort k x).snap = c.snap := by rfl
@[simp] theorem setPort_host (k : Nat) (x : Port) : (c.setPort k x).host = c.host := by rfl
@[simp] theorem setPort_mgt (k : Nat) (x : Port) : (c.setPort k x).mgt = c.mgt := by rfl
@[simp] theorem setPort_misc (k : Nat) (x : Port) : (c.setPort k x).misc = c.misc := by rfl
@[simp] theorem setPort_boot (k : Nat) (x : Port) : (c.setPort k x).boot = c.boot := by rfl
@[simp] theorem setPort_stage (k : Nat) (x : Port) : (c.setPort k x).stage = c.stage := by rfl
@[simp] theorem setPort_flash (k : Nat) (x : Port) : (c.setPort k x).flash = c.flash := by rfl
@[simp] theorem setPort_book (k : Nat) (x : Port) : (c.setPort k x).book = c.book := by rfl
@[simp] theorem setPort_free (k : Nat) (x : Port) : (c.setPort k x).free = c.free := by rfl
@[simp] theorem rd_setPort (k : Nat) (x : Port) (r : RegName) : (c.setPort k x).rd r = c.rd r := by rfl
@[simp] theorem gf_setPort (k : Nat) (x : Port) (r : RegName) (f : Fld) : (c.setPort k x).gf r f = c.gf r f := by rfl
@[simp] theorem gb_setPort (k : Nat) (x : Port) (r : RegName) (f : Fld) : (c.setPort k x).gb r f = c.gb r f := by rfl
@[simp] theorem lane_setPort (k : Nat) (x : Port) (k' : Nat) : (c.setPort k x).lane k' = c.lane k' := by rfl
@[simp] theorem triad_setPort (k : Nat) (x : Port) (k' : Nat) : (c.setPort k x).triad k' = c.triad k' := by rfl
@[simp] theorem part_setPort (k : Nat) (x : Port) (k' : Nat) : (c.setPort k x).part k' = c.part k' := by rfl
@[simp] theorem cstore_setPort (k : Nat) (x : Port) (k' : Nat) : (c.setPort k x).cstore k' = c.cstore k' := by rfl
@[simp] theorem bar_setPort (k : Nat) (x : Port) (k' : Nat) : (c.setPort k x).bar k' = c.bar k' := by rfl
@[simp] theorem sweep_setPort (k : Nat) (x : Port) (k' : Nat) : (c.setPort k x).sweep k' = c.sweep k' := by rfl
@[simp] theorem byte_setPort (k : Nat) (x : Port) (a : Nat) : (c.setPort k x).byte a = c.byte a := by rfl
@[simp] theorem flips_setPort (k : Nat) (x : Port) (a : Nat) : (c.setPort k x).flips a = c.flips a := by rfl
@[simp] theorem que_setPort (k : Nat) (x : Port) (q : Nat) : (c.setPort k x).que q = c.que q := by rfl
@[simp] theorem pth_setPort (k : Nat) (x : Port) (q : Nat) : (c.setPort k x).pth q = c.pth q := by rfl
@[simp] theorem eg_setPort (k : Nat) (x : Port) (q : Nat) : (c.setPort k x).eg q = c.eg q := by rfl

/-! ### `setPart` -/

@[simp] theorem setPart_off (k : Nat) (x : Part) : (c.setPart k x).off = c.off := by rfl
@[simp] theorem setPart_regs (k : Nat) (x : Part) : (c.setPart k x).regs = c.regs := by rfl
@[simp] theorem setPart_mem (k : Nat) (x : Part) : (c.setPart k x).mem = c.mem := by rfl
@[simp] theorem setPart_ecc (k : Nat) (x : Part) : (c.setPart k x).ecc = c.ecc := by rfl
@[simp] theorem setPart_filled (k : Nat) (x : Part) : (c.setPart k x).filled = c.filled := by rfl
@[simp] theorem setPart_lanes (k : Nat) (x : Part) : (c.setPart k x).lanes = c.lanes := by rfl
@[simp] theorem setPart_triads (k : Nat) (x : Part) : (c.setPart k x).triads = c.triads := by rfl
@[simp] theorem setPart_ports (k : Nat) (x : Part) : (c.setPart k x).ports = c.ports := by rfl
@[simp] theorem setPart_bars (k : Nat) (x : Part) : (c.setPart k x).bars = c.bars := by rfl
@[simp] theorem setPart_sweeps (k : Nat) (x : Part) : (c.setPart k x).sweeps = c.sweeps := by rfl
@[simp] theorem setPart_sweepAt (k : Nat) (x : Part) : (c.setPart k x).sweepAt = c.sweepAt := by rfl
@[simp] theorem setPart_stores (k : Nat) (x : Part) : (c.setPart k x).stores = c.stores := by rfl
@[simp] theorem setPart_commits (k : Nat) (x : Part) : (c.setPart k x).commits = c.commits := by rfl
@[simp] theorem setPart_flt (k : Nat) (x : Part) : (c.setPart k x).flt = c.flt := by rfl
@[simp] theorem setPart_gov (k : Nat) (x : Part) : (c.setPart k x).gov = c.gov := by rfl
@[simp] theorem setPart_chan (k : Nat) (x : Part) : (c.setPart k x).chan = c.chan := by rfl
@[simp] theorem setPart_pair (k : Nat) (x : Part) : (c.setPart k x).pair = c.pair := by rfl
@[simp] theorem setPart_handovers (k : Nat) (x : Part) : (c.setPart k x).handovers = c.handovers := by rfl
@[simp] theorem setPart_arbs (k : Nat) (x : Part) : (c.setPart k x).arbs = c.arbs := by rfl
@[simp] theorem setPart_leat (k : Nat) (x : Part) : (c.setPart k x).leat = c.leat := by rfl
@[simp] theorem setPart_lanOwner (k : Nat) (x : Part) : (c.setPart k x).lanOwner = c.lanOwner := by rfl
@[simp] theorem setPart_cas (k : Nat) (x : Part) : (c.setPart k x).cas = c.cas := by rfl
@[simp] theorem setPart_snap (k : Nat) (x : Part) : (c.setPart k x).snap = c.snap := by rfl
@[simp] theorem setPart_host (k : Nat) (x : Part) : (c.setPart k x).host = c.host := by rfl
@[simp] theorem setPart_mgt (k : Nat) (x : Part) : (c.setPart k x).mgt = c.mgt := by rfl
@[simp] theorem setPart_misc (k : Nat) (x : Part) : (c.setPart k x).misc = c.misc := by rfl
@[simp] theorem setPart_boot (k : Nat) (x : Part) : (c.setPart k x).boot = c.boot := by rfl
@[simp] theorem setPart_stage (k : Nat) (x : Part) : (c.setPart k x).stage = c.stage := by rfl
@[simp] theorem setPart_flash (k : Nat) (x : Part) : (c.setPart k x).flash = c.flash := by rfl
@[simp] theorem setPart_book (k : Nat) (x : Part) : (c.setPart k x).book = c.book := by rfl
@[simp] theorem setPart_free (k : Nat) (x : Part) : (c.setPart k x).free = c.free := by rfl
@[simp] theorem rd_setPart (k : Nat) (x : Part) (r : RegName) : (c.setPart k x).rd r = c.rd r := by rfl
@[simp] theorem gf_setPart (k : Nat) (x : Part) (r : RegName) (f : Fld) : (c.setPart k x).gf r f = c.gf r f := by rfl
@[simp] theorem gb_setPart (k : Nat) (x : Part) (r : RegName) (f : Fld) : (c.setPart k x).gb r f = c.gb r f := by rfl
@[simp] theorem lane_setPart (k : Nat) (x : Part) (k' : Nat) : (c.setPart k x).lane k' = c.lane k' := by rfl
@[simp] theorem triad_setPart (k : Nat) (x : Part) (k' : Nat) : (c.setPart k x).triad k' = c.triad k' := by rfl
@[simp] theorem port_setPart (k : Nat) (x : Part) (k' : Nat) : (c.setPart k x).port k' = c.port k' := by rfl
@[simp] theorem cstore_setPart (k : Nat) (x : Part) (k' : Nat) : (c.setPart k x).cstore k' = c.cstore k' := by rfl
@[simp] theorem bar_setPart (k : Nat) (x : Part) (k' : Nat) : (c.setPart k x).bar k' = c.bar k' := by rfl
@[simp] theorem sweep_setPart (k : Nat) (x : Part) (k' : Nat) : (c.setPart k x).sweep k' = c.sweep k' := by rfl
@[simp] theorem byte_setPart (k : Nat) (x : Part) (a : Nat) : (c.setPart k x).byte a = c.byte a := by rfl
@[simp] theorem flips_setPart (k : Nat) (x : Part) (a : Nat) : (c.setPart k x).flips a = c.flips a := by rfl
@[simp] theorem que_setPart (k : Nat) (x : Part) (q : Nat) : (c.setPart k x).que q = c.que q := by rfl
@[simp] theorem pth_setPart (k : Nat) (x : Part) (q : Nat) : (c.setPart k x).pth q = c.pth q := by rfl
@[simp] theorem eg_setPart (k : Nat) (x : Part) (q : Nat) : (c.setPart k x).eg q = c.eg q := by rfl

/-! ### `setStore` -/

@[simp] theorem setStore_off (k : Nat) (x : CStore) : (c.setStore k x).off = c.off := by rfl
@[simp] theorem setStore_regs (k : Nat) (x : CStore) : (c.setStore k x).regs = c.regs := by rfl
@[simp] theorem setStore_mem (k : Nat) (x : CStore) : (c.setStore k x).mem = c.mem := by rfl
@[simp] theorem setStore_ecc (k : Nat) (x : CStore) : (c.setStore k x).ecc = c.ecc := by rfl
@[simp] theorem setStore_filled (k : Nat) (x : CStore) : (c.setStore k x).filled = c.filled := by rfl
@[simp] theorem setStore_lanes (k : Nat) (x : CStore) : (c.setStore k x).lanes = c.lanes := by rfl
@[simp] theorem setStore_triads (k : Nat) (x : CStore) : (c.setStore k x).triads = c.triads := by rfl
@[simp] theorem setStore_ports (k : Nat) (x : CStore) : (c.setStore k x).ports = c.ports := by rfl
@[simp] theorem setStore_bars (k : Nat) (x : CStore) : (c.setStore k x).bars = c.bars := by rfl
@[simp] theorem setStore_sweeps (k : Nat) (x : CStore) : (c.setStore k x).sweeps = c.sweeps := by rfl
@[simp] theorem setStore_sweepAt (k : Nat) (x : CStore) : (c.setStore k x).sweepAt = c.sweepAt := by rfl
@[simp] theorem setStore_commits (k : Nat) (x : CStore) : (c.setStore k x).commits = c.commits := by rfl
@[simp] theorem setStore_flt (k : Nat) (x : CStore) : (c.setStore k x).flt = c.flt := by rfl
@[simp] theorem setStore_gov (k : Nat) (x : CStore) : (c.setStore k x).gov = c.gov := by rfl
@[simp] theorem setStore_chan (k : Nat) (x : CStore) : (c.setStore k x).chan = c.chan := by rfl
@[simp] theorem setStore_pair (k : Nat) (x : CStore) : (c.setStore k x).pair = c.pair := by rfl
@[simp] theorem setStore_parts (k : Nat) (x : CStore) : (c.setStore k x).parts = c.parts := by rfl
@[simp] theorem setStore_handovers (k : Nat) (x : CStore) : (c.setStore k x).handovers = c.handovers := by rfl
@[simp] theorem setStore_arbs (k : Nat) (x : CStore) : (c.setStore k x).arbs = c.arbs := by rfl
@[simp] theorem setStore_leat (k : Nat) (x : CStore) : (c.setStore k x).leat = c.leat := by rfl
@[simp] theorem setStore_lanOwner (k : Nat) (x : CStore) : (c.setStore k x).lanOwner = c.lanOwner := by rfl
@[simp] theorem setStore_cas (k : Nat) (x : CStore) : (c.setStore k x).cas = c.cas := by rfl
@[simp] theorem setStore_snap (k : Nat) (x : CStore) : (c.setStore k x).snap = c.snap := by rfl
@[simp] theorem setStore_host (k : Nat) (x : CStore) : (c.setStore k x).host = c.host := by rfl
@[simp] theorem setStore_mgt (k : Nat) (x : CStore) : (c.setStore k x).mgt = c.mgt := by rfl
@[simp] theorem setStore_misc (k : Nat) (x : CStore) : (c.setStore k x).misc = c.misc := by rfl
@[simp] theorem setStore_boot (k : Nat) (x : CStore) : (c.setStore k x).boot = c.boot := by rfl
@[simp] theorem setStore_stage (k : Nat) (x : CStore) : (c.setStore k x).stage = c.stage := by rfl
@[simp] theorem setStore_flash (k : Nat) (x : CStore) : (c.setStore k x).flash = c.flash := by rfl
@[simp] theorem setStore_book (k : Nat) (x : CStore) : (c.setStore k x).book = c.book := by rfl
@[simp] theorem setStore_free (k : Nat) (x : CStore) : (c.setStore k x).free = c.free := by rfl
@[simp] theorem rd_setStore (k : Nat) (x : CStore) (r : RegName) : (c.setStore k x).rd r = c.rd r := by rfl
@[simp] theorem gf_setStore (k : Nat) (x : CStore) (r : RegName) (f : Fld) : (c.setStore k x).gf r f = c.gf r f := by rfl
@[simp] theorem gb_setStore (k : Nat) (x : CStore) (r : RegName) (f : Fld) : (c.setStore k x).gb r f = c.gb r f := by rfl
@[simp] theorem lane_setStore (k : Nat) (x : CStore) (k' : Nat) : (c.setStore k x).lane k' = c.lane k' := by rfl
@[simp] theorem triad_setStore (k : Nat) (x : CStore) (k' : Nat) : (c.setStore k x).triad k' = c.triad k' := by rfl
@[simp] theorem port_setStore (k : Nat) (x : CStore) (k' : Nat) : (c.setStore k x).port k' = c.port k' := by rfl
@[simp] theorem part_setStore (k : Nat) (x : CStore) (k' : Nat) : (c.setStore k x).part k' = c.part k' := by rfl
@[simp] theorem bar_setStore (k : Nat) (x : CStore) (k' : Nat) : (c.setStore k x).bar k' = c.bar k' := by rfl
@[simp] theorem sweep_setStore (k : Nat) (x : CStore) (k' : Nat) : (c.setStore k x).sweep k' = c.sweep k' := by rfl
@[simp] theorem byte_setStore (k : Nat) (x : CStore) (a : Nat) : (c.setStore k x).byte a = c.byte a := by rfl
@[simp] theorem flips_setStore (k : Nat) (x : CStore) (a : Nat) : (c.setStore k x).flips a = c.flips a := by rfl
@[simp] theorem que_setStore (k : Nat) (x : CStore) (q : Nat) : (c.setStore k x).que q = c.que q := by rfl
@[simp] theorem pth_setStore (k : Nat) (x : CStore) (q : Nat) : (c.setStore k x).pth q = c.pth q := by rfl
@[simp] theorem eg_setStore (k : Nat) (x : CStore) (q : Nat) : (c.setStore k x).eg q = c.eg q := by rfl

/-! ### `setBar` -/

@[simp] theorem setBar_off (k : Nat) (x : Bar) : (c.setBar k x).off = c.off := by rfl
@[simp] theorem setBar_regs (k : Nat) (x : Bar) : (c.setBar k x).regs = c.regs := by rfl
@[simp] theorem setBar_mem (k : Nat) (x : Bar) : (c.setBar k x).mem = c.mem := by rfl
@[simp] theorem setBar_ecc (k : Nat) (x : Bar) : (c.setBar k x).ecc = c.ecc := by rfl
@[simp] theorem setBar_filled (k : Nat) (x : Bar) : (c.setBar k x).filled = c.filled := by rfl
@[simp] theorem setBar_lanes (k : Nat) (x : Bar) : (c.setBar k x).lanes = c.lanes := by rfl
@[simp] theorem setBar_triads (k : Nat) (x : Bar) : (c.setBar k x).triads = c.triads := by rfl
@[simp] theorem setBar_ports (k : Nat) (x : Bar) : (c.setBar k x).ports = c.ports := by rfl
@[simp] theorem setBar_sweeps (k : Nat) (x : Bar) : (c.setBar k x).sweeps = c.sweeps := by rfl
@[simp] theorem setBar_sweepAt (k : Nat) (x : Bar) : (c.setBar k x).sweepAt = c.sweepAt := by rfl
@[simp] theorem setBar_stores (k : Nat) (x : Bar) : (c.setBar k x).stores = c.stores := by rfl
@[simp] theorem setBar_commits (k : Nat) (x : Bar) : (c.setBar k x).commits = c.commits := by rfl
@[simp] theorem setBar_flt (k : Nat) (x : Bar) : (c.setBar k x).flt = c.flt := by rfl
@[simp] theorem setBar_gov (k : Nat) (x : Bar) : (c.setBar k x).gov = c.gov := by rfl
@[simp] theorem setBar_chan (k : Nat) (x : Bar) : (c.setBar k x).chan = c.chan := by rfl
@[simp] theorem setBar_pair (k : Nat) (x : Bar) : (c.setBar k x).pair = c.pair := by rfl
@[simp] theorem setBar_parts (k : Nat) (x : Bar) : (c.setBar k x).parts = c.parts := by rfl
@[simp] theorem setBar_handovers (k : Nat) (x : Bar) : (c.setBar k x).handovers = c.handovers := by rfl
@[simp] theorem setBar_arbs (k : Nat) (x : Bar) : (c.setBar k x).arbs = c.arbs := by rfl
@[simp] theorem setBar_leat (k : Nat) (x : Bar) : (c.setBar k x).leat = c.leat := by rfl
@[simp] theorem setBar_lanOwner (k : Nat) (x : Bar) : (c.setBar k x).lanOwner = c.lanOwner := by rfl
@[simp] theorem setBar_cas (k : Nat) (x : Bar) : (c.setBar k x).cas = c.cas := by rfl
@[simp] theorem setBar_snap (k : Nat) (x : Bar) : (c.setBar k x).snap = c.snap := by rfl
@[simp] theorem setBar_host (k : Nat) (x : Bar) : (c.setBar k x).host = c.host := by rfl
@[simp] theorem setBar_mgt (k : Nat) (x : Bar) : (c.setBar k x).mgt = c.mgt := by rfl
@[simp] theorem setBar_misc (k : Nat) (x : Bar) : (c.setBar k x).misc = c.misc := by rfl
@[simp] theorem setBar_boot (k : Nat) (x : Bar) : (c.setBar k x).boot = c.boot := by rfl
@[simp] theorem setBar_stage (k : Nat) (x : Bar) : (c.setBar k x).stage = c.stage := by rfl
@[simp] theorem setBar_flash (k : Nat) (x : Bar) : (c.setBar k x).flash = c.flash := by rfl
@[simp] theorem setBar_book (k : Nat) (x : Bar) : (c.setBar k x).book = c.book := by rfl
@[simp] theorem setBar_free (k : Nat) (x : Bar) : (c.setBar k x).free = c.free := by rfl
@[simp] theorem rd_setBar (k : Nat) (x : Bar) (r : RegName) : (c.setBar k x).rd r = c.rd r := by rfl
@[simp] theorem gf_setBar (k : Nat) (x : Bar) (r : RegName) (f : Fld) : (c.setBar k x).gf r f = c.gf r f := by rfl
@[simp] theorem gb_setBar (k : Nat) (x : Bar) (r : RegName) (f : Fld) : (c.setBar k x).gb r f = c.gb r f := by rfl
@[simp] theorem lane_setBar (k : Nat) (x : Bar) (k' : Nat) : (c.setBar k x).lane k' = c.lane k' := by rfl
@[simp] theorem triad_setBar (k : Nat) (x : Bar) (k' : Nat) : (c.setBar k x).triad k' = c.triad k' := by rfl
@[simp] theorem port_setBar (k : Nat) (x : Bar) (k' : Nat) : (c.setBar k x).port k' = c.port k' := by rfl
@[simp] theorem part_setBar (k : Nat) (x : Bar) (k' : Nat) : (c.setBar k x).part k' = c.part k' := by rfl
@[simp] theorem cstore_setBar (k : Nat) (x : Bar) (k' : Nat) : (c.setBar k x).cstore k' = c.cstore k' := by rfl
@[simp] theorem sweep_setBar (k : Nat) (x : Bar) (k' : Nat) : (c.setBar k x).sweep k' = c.sweep k' := by rfl
@[simp] theorem byte_setBar (k : Nat) (x : Bar) (a : Nat) : (c.setBar k x).byte a = c.byte a := by rfl
@[simp] theorem flips_setBar (k : Nat) (x : Bar) (a : Nat) : (c.setBar k x).flips a = c.flips a := by rfl
@[simp] theorem que_setBar (k : Nat) (x : Bar) (q : Nat) : (c.setBar k x).que q = c.que q := by rfl
@[simp] theorem pth_setBar (k : Nat) (x : Bar) (q : Nat) : (c.setBar k x).pth q = c.pth q := by rfl
@[simp] theorem eg_setBar (k : Nat) (x : Bar) (q : Nat) : (c.setBar k x).eg q = c.eg q := by rfl

/-! ### `setSweep` -/

@[simp] theorem setSweep_off (k : Nat) (x : Sweep) : (c.setSweep k x).off = c.off := by rfl
@[simp] theorem setSweep_regs (k : Nat) (x : Sweep) : (c.setSweep k x).regs = c.regs := by rfl
@[simp] theorem setSweep_mem (k : Nat) (x : Sweep) : (c.setSweep k x).mem = c.mem := by rfl
@[simp] theorem setSweep_ecc (k : Nat) (x : Sweep) : (c.setSweep k x).ecc = c.ecc := by rfl
@[simp] theorem setSweep_filled (k : Nat) (x : Sweep) : (c.setSweep k x).filled = c.filled := by rfl
@[simp] theorem setSweep_lanes (k : Nat) (x : Sweep) : (c.setSweep k x).lanes = c.lanes := by rfl
@[simp] theorem setSweep_triads (k : Nat) (x : Sweep) : (c.setSweep k x).triads = c.triads := by rfl
@[simp] theorem setSweep_ports (k : Nat) (x : Sweep) : (c.setSweep k x).ports = c.ports := by rfl
@[simp] theorem setSweep_bars (k : Nat) (x : Sweep) : (c.setSweep k x).bars = c.bars := by rfl
@[simp] theorem setSweep_sweepAt (k : Nat) (x : Sweep) : (c.setSweep k x).sweepAt = c.sweepAt := by rfl
@[simp] theorem setSweep_stores (k : Nat) (x : Sweep) : (c.setSweep k x).stores = c.stores := by rfl
@[simp] theorem setSweep_commits (k : Nat) (x : Sweep) : (c.setSweep k x).commits = c.commits := by rfl
@[simp] theorem setSweep_flt (k : Nat) (x : Sweep) : (c.setSweep k x).flt = c.flt := by rfl
@[simp] theorem setSweep_gov (k : Nat) (x : Sweep) : (c.setSweep k x).gov = c.gov := by rfl
@[simp] theorem setSweep_chan (k : Nat) (x : Sweep) : (c.setSweep k x).chan = c.chan := by rfl
@[simp] theorem setSweep_pair (k : Nat) (x : Sweep) : (c.setSweep k x).pair = c.pair := by rfl
@[simp] theorem setSweep_parts (k : Nat) (x : Sweep) : (c.setSweep k x).parts = c.parts := by rfl
@[simp] theorem setSweep_handovers (k : Nat) (x : Sweep) : (c.setSweep k x).handovers = c.handovers := by rfl
@[simp] theorem setSweep_arbs (k : Nat) (x : Sweep) : (c.setSweep k x).arbs = c.arbs := by rfl
@[simp] theorem setSweep_leat (k : Nat) (x : Sweep) : (c.setSweep k x).leat = c.leat := by rfl
@[simp] theorem setSweep_lanOwner (k : Nat) (x : Sweep) : (c.setSweep k x).lanOwner = c.lanOwner := by rfl
@[simp] theorem setSweep_cas (k : Nat) (x : Sweep) : (c.setSweep k x).cas = c.cas := by rfl
@[simp] theorem setSweep_snap (k : Nat) (x : Sweep) : (c.setSweep k x).snap = c.snap := by rfl
@[simp] theorem setSweep_host (k : Nat) (x : Sweep) : (c.setSweep k x).host = c.host := by rfl
@[simp] theorem setSweep_mgt (k : Nat) (x : Sweep) : (c.setSweep k x).mgt = c.mgt := by rfl
@[simp] theorem setSweep_misc (k : Nat) (x : Sweep) : (c.setSweep k x).misc = c.misc := by rfl
@[simp] theorem setSweep_boot (k : Nat) (x : Sweep) : (c.setSweep k x).boot = c.boot := by rfl
@[simp] theorem setSweep_stage (k : Nat) (x : Sweep) : (c.setSweep k x).stage = c.stage := by rfl
@[simp] theorem setSweep_flash (k : Nat) (x : Sweep) : (c.setSweep k x).flash = c.flash := by rfl
@[simp] theorem setSweep_book (k : Nat) (x : Sweep) : (c.setSweep k x).book = c.book := by rfl
@[simp] theorem setSweep_free (k : Nat) (x : Sweep) : (c.setSweep k x).free = c.free := by rfl
@[simp] theorem rd_setSweep (k : Nat) (x : Sweep) (r : RegName) : (c.setSweep k x).rd r = c.rd r := by rfl
@[simp] theorem gf_setSweep (k : Nat) (x : Sweep) (r : RegName) (f : Fld) : (c.setSweep k x).gf r f = c.gf r f := by rfl
@[simp] theorem gb_setSweep (k : Nat) (x : Sweep) (r : RegName) (f : Fld) : (c.setSweep k x).gb r f = c.gb r f := by rfl
@[simp] theorem lane_setSweep (k : Nat) (x : Sweep) (k' : Nat) : (c.setSweep k x).lane k' = c.lane k' := by rfl
@[simp] theorem triad_setSweep (k : Nat) (x : Sweep) (k' : Nat) : (c.setSweep k x).triad k' = c.triad k' := by rfl
@[simp] theorem port_setSweep (k : Nat) (x : Sweep) (k' : Nat) : (c.setSweep k x).port k' = c.port k' := by rfl
@[simp] theorem part_setSweep (k : Nat) (x : Sweep) (k' : Nat) : (c.setSweep k x).part k' = c.part k' := by rfl
@[simp] theorem cstore_setSweep (k : Nat) (x : Sweep) (k' : Nat) : (c.setSweep k x).cstore k' = c.cstore k' := by rfl
@[simp] theorem bar_setSweep (k : Nat) (x : Sweep) (k' : Nat) : (c.setSweep k x).bar k' = c.bar k' := by rfl
@[simp] theorem byte_setSweep (k : Nat) (x : Sweep) (a : Nat) : (c.setSweep k x).byte a = c.byte a := by rfl
@[simp] theorem flips_setSweep (k : Nat) (x : Sweep) (a : Nat) : (c.setSweep k x).flips a = c.flips a := by rfl
@[simp] theorem que_setSweep (k : Nat) (x : Sweep) (q : Nat) : (c.setSweep k x).que q = c.que q := by rfl
@[simp] theorem pth_setSweep (k : Nat) (x : Sweep) (q : Nat) : (c.setSweep k x).pth q = c.pth q := by rfl
@[simp] theorem eg_setSweep (k : Nat) (x : Sweep) (q : Nat) : (c.setSweep k x).eg q = c.eg q := by rfl

/-! ### `setArb` -/

@[simp] theorem setArb_off (k : Nat) (x : Arb) : (c.setArb k x).off = c.off := by rfl
@[simp] theorem setArb_regs (k : Nat) (x : Arb) : (c.setArb k x).regs = c.regs := by rfl
@[simp] theorem setArb_mem (k : Nat) (x : Arb) : (c.setArb k x).mem = c.mem := by rfl
@[simp] theorem setArb_ecc (k : Nat) (x : Arb) : (c.setArb k x).ecc = c.ecc := by rfl
@[simp] theorem setArb_filled (k : Nat) (x : Arb) : (c.setArb k x).filled = c.filled := by rfl
@[simp] theorem setArb_lanes (k : Nat) (x : Arb) : (c.setArb k x).lanes = c.lanes := by rfl
@[simp] theorem setArb_triads (k : Nat) (x : Arb) : (c.setArb k x).triads = c.triads := by rfl
@[simp] theorem setArb_ports (k : Nat) (x : Arb) : (c.setArb k x).ports = c.ports := by rfl
@[simp] theorem setArb_bars (k : Nat) (x : Arb) : (c.setArb k x).bars = c.bars := by rfl
@[simp] theorem setArb_sweeps (k : Nat) (x : Arb) : (c.setArb k x).sweeps = c.sweeps := by rfl
@[simp] theorem setArb_sweepAt (k : Nat) (x : Arb) : (c.setArb k x).sweepAt = c.sweepAt := by rfl
@[simp] theorem setArb_stores (k : Nat) (x : Arb) : (c.setArb k x).stores = c.stores := by rfl
@[simp] theorem setArb_commits (k : Nat) (x : Arb) : (c.setArb k x).commits = c.commits := by rfl
@[simp] theorem setArb_flt (k : Nat) (x : Arb) : (c.setArb k x).flt = c.flt := by rfl
@[simp] theorem setArb_gov (k : Nat) (x : Arb) : (c.setArb k x).gov = c.gov := by rfl
@[simp] theorem setArb_chan (k : Nat) (x : Arb) : (c.setArb k x).chan = c.chan := by rfl
@[simp] theorem setArb_pair (k : Nat) (x : Arb) : (c.setArb k x).pair = c.pair := by rfl
@[simp] theorem setArb_parts (k : Nat) (x : Arb) : (c.setArb k x).parts = c.parts := by rfl
@[simp] theorem setArb_handovers (k : Nat) (x : Arb) : (c.setArb k x).handovers = c.handovers := by rfl
@[simp] theorem setArb_leat (k : Nat) (x : Arb) : (c.setArb k x).leat = c.leat := by rfl
@[simp] theorem setArb_lanOwner (k : Nat) (x : Arb) : (c.setArb k x).lanOwner = c.lanOwner := by rfl
@[simp] theorem setArb_cas (k : Nat) (x : Arb) : (c.setArb k x).cas = c.cas := by rfl
@[simp] theorem setArb_snap (k : Nat) (x : Arb) : (c.setArb k x).snap = c.snap := by rfl
@[simp] theorem setArb_host (k : Nat) (x : Arb) : (c.setArb k x).host = c.host := by rfl
@[simp] theorem setArb_mgt (k : Nat) (x : Arb) : (c.setArb k x).mgt = c.mgt := by rfl
@[simp] theorem setArb_misc (k : Nat) (x : Arb) : (c.setArb k x).misc = c.misc := by rfl
@[simp] theorem setArb_boot (k : Nat) (x : Arb) : (c.setArb k x).boot = c.boot := by rfl
@[simp] theorem setArb_stage (k : Nat) (x : Arb) : (c.setArb k x).stage = c.stage := by rfl
@[simp] theorem setArb_flash (k : Nat) (x : Arb) : (c.setArb k x).flash = c.flash := by rfl
@[simp] theorem setArb_book (k : Nat) (x : Arb) : (c.setArb k x).book = c.book := by rfl
@[simp] theorem setArb_free (k : Nat) (x : Arb) : (c.setArb k x).free = c.free := by rfl
@[simp] theorem rd_setArb (k : Nat) (x : Arb) (r : RegName) : (c.setArb k x).rd r = c.rd r := by rfl
@[simp] theorem gf_setArb (k : Nat) (x : Arb) (r : RegName) (f : Fld) : (c.setArb k x).gf r f = c.gf r f := by rfl
@[simp] theorem gb_setArb (k : Nat) (x : Arb) (r : RegName) (f : Fld) : (c.setArb k x).gb r f = c.gb r f := by rfl
@[simp] theorem lane_setArb (k : Nat) (x : Arb) (k' : Nat) : (c.setArb k x).lane k' = c.lane k' := by rfl
@[simp] theorem triad_setArb (k : Nat) (x : Arb) (k' : Nat) : (c.setArb k x).triad k' = c.triad k' := by rfl
@[simp] theorem port_setArb (k : Nat) (x : Arb) (k' : Nat) : (c.setArb k x).port k' = c.port k' := by rfl
@[simp] theorem part_setArb (k : Nat) (x : Arb) (k' : Nat) : (c.setArb k x).part k' = c.part k' := by rfl
@[simp] theorem cstore_setArb (k : Nat) (x : Arb) (k' : Nat) : (c.setArb k x).cstore k' = c.cstore k' := by rfl
@[simp] theorem bar_setArb (k : Nat) (x : Arb) (k' : Nat) : (c.setArb k x).bar k' = c.bar k' := by rfl
@[simp] theorem sweep_setArb (k : Nat) (x : Arb) (k' : Nat) : (c.setArb k x).sweep k' = c.sweep k' := by rfl
@[simp] theorem byte_setArb (k : Nat) (x : Arb) (a : Nat) : (c.setArb k x).byte a = c.byte a := by rfl
@[simp] theorem flips_setArb (k : Nat) (x : Arb) (a : Nat) : (c.setArb k x).flips a = c.flips a := by rfl
@[simp] theorem que_setArb (k : Nat) (x : Arb) (q : Nat) : (c.setArb k x).que q = c.que q := by rfl
@[simp] theorem pth_setArb (k : Nat) (x : Arb) (q : Nat) : (c.setArb k x).pth q = c.pth q := by rfl
@[simp] theorem eg_setArb (k : Nat) (x : Arb) (q : Nat) : (c.setArb k x).eg q = c.eg q := by rfl

/-! ### `modFlt` -/

@[simp] theorem modFlt_off (f : Flt → Flt) : (c.modFlt f).off = c.off := by rfl
@[simp] theorem modFlt_regs (f : Flt → Flt) : (c.modFlt f).regs = c.regs := by rfl
@[simp] theorem modFlt_mem (f : Flt → Flt) : (c.modFlt f).mem = c.mem := by rfl
@[simp] theorem modFlt_ecc (f : Flt → Flt) : (c.modFlt f).ecc = c.ecc := by rfl
@[simp] theorem modFlt_filled (f : Flt → Flt) : (c.modFlt f).filled = c.filled := by rfl
@[simp] theorem modFlt_lanes (f : Flt → Flt) : (c.modFlt f).lanes = c.lanes := by rfl
@[simp] theorem modFlt_triads (f : Flt → Flt) : (c.modFlt f).triads = c.triads := by rfl
@[simp] theorem modFlt_ports (f : Flt → Flt) : (c.modFlt f).ports = c.ports := by rfl
@[simp] theorem modFlt_bars (f : Flt → Flt) : (c.modFlt f).bars = c.bars := by rfl
@[simp] theorem modFlt_sweeps (f : Flt → Flt) : (c.modFlt f).sweeps = c.sweeps := by rfl
@[simp] theorem modFlt_sweepAt (f : Flt → Flt) : (c.modFlt f).sweepAt = c.sweepAt := by rfl
@[simp] theorem modFlt_stores (f : Flt → Flt) : (c.modFlt f).stores = c.stores := by rfl
@[simp] theorem modFlt_commits (f : Flt → Flt) : (c.modFlt f).commits = c.commits := by rfl
@[simp] theorem modFlt_gov (f : Flt → Flt) : (c.modFlt f).gov = c.gov := by rfl
@[simp] theorem modFlt_chan (f : Flt → Flt) : (c.modFlt f).chan = c.chan := by rfl
@[simp] theorem modFlt_pair (f : Flt → Flt) : (c.modFlt f).pair = c.pair := by rfl
@[simp] theorem modFlt_parts (f : Flt → Flt) : (c.modFlt f).parts = c.parts := by rfl
@[simp] theorem modFlt_handovers (f : Flt → Flt) : (c.modFlt f).handovers = c.handovers := by rfl
@[simp] theorem modFlt_arbs (f : Flt → Flt) : (c.modFlt f).arbs = c.arbs := by rfl
@[simp] theorem modFlt_leat (f : Flt → Flt) : (c.modFlt f).leat = c.leat := by rfl
@[simp] theorem modFlt_lanOwner (f : Flt → Flt) : (c.modFlt f).lanOwner = c.lanOwner := by rfl
@[simp] theorem modFlt_cas (f : Flt → Flt) : (c.modFlt f).cas = c.cas := by rfl
@[simp] theorem modFlt_snap (f : Flt → Flt) : (c.modFlt f).snap = c.snap := by rfl
@[simp] theorem modFlt_host (f : Flt → Flt) : (c.modFlt f).host = c.host := by rfl
@[simp] theorem modFlt_mgt (f : Flt → Flt) : (c.modFlt f).mgt = c.mgt := by rfl
@[simp] theorem modFlt_misc (f : Flt → Flt) : (c.modFlt f).misc = c.misc := by rfl
@[simp] theorem modFlt_boot (f : Flt → Flt) : (c.modFlt f).boot = c.boot := by rfl
@[simp] theorem modFlt_stage (f : Flt → Flt) : (c.modFlt f).stage = c.stage := by rfl
@[simp] theorem modFlt_flash (f : Flt → Flt) : (c.modFlt f).flash = c.flash := by rfl
@[simp] theorem modFlt_book (f : Flt → Flt) : (c.modFlt f).book = c.book := by rfl
@[simp] theorem modFlt_free (f : Flt → Flt) : (c.modFlt f).free = c.free := by rfl
@[simp] theorem rd_modFlt (f : Flt → Flt) (r : RegName) : (c.modFlt f).rd r = c.rd r := by rfl
@[simp] theorem gf_modFlt (f : Flt → Flt) (r : RegName) (f' : Fld) : (c.modFlt f).gf r f' = c.gf r f' := by rfl
@[simp] theorem gb_modFlt (f : Flt → Flt) (r : RegName) (f' : Fld) : (c.modFlt f).gb r f' = c.gb r f' := by rfl
@[simp] theorem lane_modFlt (f : Flt → Flt) (k : Nat) : (c.modFlt f).lane k = c.lane k := by rfl
@[simp] theorem triad_modFlt (f : Flt → Flt) (k : Nat) : (c.modFlt f).triad k = c.triad k := by rfl
@[simp] theorem port_modFlt (f : Flt → Flt) (k : Nat) : (c.modFlt f).port k = c.port k := by rfl
@[simp] theorem part_modFlt (f : Flt → Flt) (k : Nat) : (c.modFlt f).part k = c.part k := by rfl
@[simp] theorem cstore_modFlt (f : Flt → Flt) (k : Nat) : (c.modFlt f).cstore k = c.cstore k := by rfl
@[simp] theorem bar_modFlt (f : Flt → Flt) (k : Nat) : (c.modFlt f).bar k = c.bar k := by rfl
@[simp] theorem sweep_modFlt (f : Flt → Flt) (k : Nat) : (c.modFlt f).sweep k = c.sweep k := by rfl
@[simp] theorem byte_modFlt (f : Flt → Flt) (a : Nat) : (c.modFlt f).byte a = c.byte a := by rfl
@[simp] theorem flips_modFlt (f : Flt → Flt) (a : Nat) : (c.modFlt f).flips a = c.flips a := by rfl
@[simp] theorem que_modFlt (f : Flt → Flt) (q : Nat) : (c.modFlt f).que q = c.que q := by rfl
@[simp] theorem pth_modFlt (f : Flt → Flt) (q : Nat) : (c.modFlt f).pth q = c.pth q := by rfl
@[simp] theorem eg_modFlt (f : Flt → Flt) (q : Nat) : (c.modFlt f).eg q = c.eg q := by rfl

/-! ### `modChan` -/

@[simp] theorem modChan_off (f : Chan → Chan) : (c.modChan f).off = c.off := by rfl
@[simp] theorem modChan_regs (f : Chan → Chan) : (c.modChan f).regs = c.regs := by rfl
@[simp] theorem modChan_mem (f : Chan → Chan) : (c.modChan f).mem = c.mem := by rfl
@[simp] theorem modChan_ecc (f : Chan → Chan) : (c.modChan f).ecc = c.ecc := by rfl
@[simp] theorem modChan_filled (f : Chan → Chan) : (c.modChan f).filled = c.filled := by rfl
@[simp] theorem modChan_lanes (f : Chan → Chan) : (c.modChan f).lanes = c.lanes := by rfl
@[simp] theorem modChan_triads (f : Chan → Chan) : (c.modChan f).triads = c.triads := by rfl
@[simp] theorem modChan_ports (f : Chan → Chan) : (c.modChan f).ports = c.ports := by rfl
@[simp] theorem modChan_bars (f : Chan → Chan) : (c.modChan f).bars = c.bars := by rfl
@[simp] theorem modChan_sweeps (f : Chan → Chan) : (c.modChan f).sweeps = c.sweeps := by rfl
@[simp] theorem modChan_sweepAt (f : Chan → Chan) : (c.modChan f).sweepAt = c.sweepAt := by rfl
@[simp] theorem modChan_stores (f : Chan → Chan) : (c.modChan f).stores = c.stores := by rfl
@[simp] theorem modChan_commits (f : Chan → Chan) : (c.modChan f).commits = c.commits := by rfl
@[simp] theorem modChan_flt (f : Chan → Chan) : (c.modChan f).flt = c.flt := by rfl
@[simp] theorem modChan_gov (f : Chan → Chan) : (c.modChan f).gov = c.gov := by rfl
@[simp] theorem modChan_pair (f : Chan → Chan) : (c.modChan f).pair = c.pair := by rfl
@[simp] theorem modChan_parts (f : Chan → Chan) : (c.modChan f).parts = c.parts := by rfl
@[simp] theorem modChan_handovers (f : Chan → Chan) : (c.modChan f).handovers = c.handovers := by rfl
@[simp] theorem modChan_arbs (f : Chan → Chan) : (c.modChan f).arbs = c.arbs := by rfl
@[simp] theorem modChan_leat (f : Chan → Chan) : (c.modChan f).leat = c.leat := by rfl
@[simp] theorem modChan_lanOwner (f : Chan → Chan) : (c.modChan f).lanOwner = c.lanOwner := by rfl
@[simp] theorem modChan_cas (f : Chan → Chan) : (c.modChan f).cas = c.cas := by rfl
@[simp] theorem modChan_snap (f : Chan → Chan) : (c.modChan f).snap = c.snap := by rfl
@[simp] theorem modChan_host (f : Chan → Chan) : (c.modChan f).host = c.host := by rfl
@[simp] theorem modChan_mgt (f : Chan → Chan) : (c.modChan f).mgt = c.mgt := by rfl
@[simp] theorem modChan_misc (f : Chan → Chan) : (c.modChan f).misc = c.misc := by rfl
@[simp] theorem modChan_boot (f : Chan → Chan) : (c.modChan f).boot = c.boot := by rfl
@[simp] theorem modChan_stage (f : Chan → Chan) : (c.modChan f).stage = c.stage := by rfl
@[simp] theorem modChan_flash (f : Chan → Chan) : (c.modChan f).flash = c.flash := by rfl
@[simp] theorem modChan_book (f : Chan → Chan) : (c.modChan f).book = c.book := by rfl
@[simp] theorem modChan_free (f : Chan → Chan) : (c.modChan f).free = c.free := by rfl
@[simp] theorem rd_modChan (f : Chan → Chan) (r : RegName) : (c.modChan f).rd r = c.rd r := by rfl
@[simp] theorem gf_modChan (f : Chan → Chan) (r : RegName) (f' : Fld) : (c.modChan f).gf r f' = c.gf r f' := by rfl
@[simp] theorem gb_modChan (f : Chan → Chan) (r : RegName) (f' : Fld) : (c.modChan f).gb r f' = c.gb r f' := by rfl
@[simp] theorem lane_modChan (f : Chan → Chan) (k : Nat) : (c.modChan f).lane k = c.lane k := by rfl
@[simp] theorem triad_modChan (f : Chan → Chan) (k : Nat) : (c.modChan f).triad k = c.triad k := by rfl
@[simp] theorem port_modChan (f : Chan → Chan) (k : Nat) : (c.modChan f).port k = c.port k := by rfl
@[simp] theorem part_modChan (f : Chan → Chan) (k : Nat) : (c.modChan f).part k = c.part k := by rfl
@[simp] theorem cstore_modChan (f : Chan → Chan) (k : Nat) : (c.modChan f).cstore k = c.cstore k := by rfl
@[simp] theorem bar_modChan (f : Chan → Chan) (k : Nat) : (c.modChan f).bar k = c.bar k := by rfl
@[simp] theorem sweep_modChan (f : Chan → Chan) (k : Nat) : (c.modChan f).sweep k = c.sweep k := by rfl
@[simp] theorem byte_modChan (f : Chan → Chan) (a : Nat) : (c.modChan f).byte a = c.byte a := by rfl
@[simp] theorem flips_modChan (f : Chan → Chan) (a : Nat) : (c.modChan f).flips a = c.flips a := by rfl

/-! ### `setQue` -/

@[simp] theorem setQue_off (k : Nat) (x : Que) : (c.setQue k x).off = c.off := by rfl
@[simp] theorem setQue_regs (k : Nat) (x : Que) : (c.setQue k x).regs = c.regs := by rfl
@[simp] theorem setQue_mem (k : Nat) (x : Que) : (c.setQue k x).mem = c.mem := by rfl
@[simp] theorem setQue_ecc (k : Nat) (x : Que) : (c.setQue k x).ecc = c.ecc := by rfl
@[simp] theorem setQue_filled (k : Nat) (x : Que) : (c.setQue k x).filled = c.filled := by rfl
@[simp] theorem setQue_lanes (k : Nat) (x : Que) : (c.setQue k x).lanes = c.lanes := by rfl
@[simp] theorem setQue_triads (k : Nat) (x : Que) : (c.setQue k x).triads = c.triads := by rfl
@[simp] theorem setQue_ports (k : Nat) (x : Que) : (c.setQue k x).ports = c.ports := by rfl
@[simp] theorem setQue_bars (k : Nat) (x : Que) : (c.setQue k x).bars = c.bars := by rfl
@[simp] theorem setQue_sweeps (k : Nat) (x : Que) : (c.setQue k x).sweeps = c.sweeps := by rfl
@[simp] theorem setQue_sweepAt (k : Nat) (x : Que) : (c.setQue k x).sweepAt = c.sweepAt := by rfl
@[simp] theorem setQue_stores (k : Nat) (x : Que) : (c.setQue k x).stores = c.stores := by rfl
@[simp] theorem setQue_commits (k : Nat) (x : Que) : (c.setQue k x).commits = c.commits := by rfl
@[simp] theorem setQue_flt (k : Nat) (x : Que) : (c.setQue k x).flt = c.flt := by rfl
@[simp] theorem setQue_gov (k : Nat) (x : Que) : (c.setQue k x).gov = c.gov := by rfl
@[simp] theorem setQue_pair (k : Nat) (x : Que) : (c.setQue k x).pair = c.pair := by rfl
@[simp] theorem setQue_parts (k : Nat) (x : Que) : (c.setQue k x).parts = c.parts := by rfl
@[simp] theorem setQue_handovers (k : Nat) (x : Que) : (c.setQue k x).handovers = c.handovers := by rfl
@[simp] theorem setQue_arbs (k : Nat) (x : Que) : (c.setQue k x).arbs = c.arbs := by rfl
@[simp] theorem setQue_leat (k : Nat) (x : Que) : (c.setQue k x).leat = c.leat := by rfl
@[simp] theorem setQue_lanOwner (k : Nat) (x : Que) : (c.setQue k x).lanOwner = c.lanOwner := by rfl
@[simp] theorem setQue_cas (k : Nat) (x : Que) : (c.setQue k x).cas = c.cas := by rfl
@[simp] theorem setQue_snap (k : Nat) (x : Que) : (c.setQue k x).snap = c.snap := by rfl
@[simp] theorem setQue_host (k : Nat) (x : Que) : (c.setQue k x).host = c.host := by rfl
@[simp] theorem setQue_mgt (k : Nat) (x : Que) : (c.setQue k x).mgt = c.mgt := by rfl
@[simp] theorem setQue_misc (k : Nat) (x : Que) : (c.setQue k x).misc = c.misc := by rfl
@[simp] theorem setQue_boot (k : Nat) (x : Que) : (c.setQue k x).boot = c.boot := by rfl
@[simp] theorem setQue_stage (k : Nat) (x : Que) : (c.setQue k x).stage = c.stage := by rfl
@[simp] theorem setQue_flash (k : Nat) (x : Que) : (c.setQue k x).flash = c.flash := by rfl
@[simp] theorem setQue_book (k : Nat) (x : Que) : (c.setQue k x).book = c.book := by rfl
@[simp] theorem setQue_free (k : Nat) (x : Que) : (c.setQue k x).free = c.free := by rfl
@[simp] theorem rd_setQue (k : Nat) (x : Que) (r : RegName) : (c.setQue k x).rd r = c.rd r := by rfl
@[simp] theorem gf_setQue (k : Nat) (x : Que) (r : RegName) (f : Fld) : (c.setQue k x).gf r f = c.gf r f := by rfl
@[simp] theorem gb_setQue (k : Nat) (x : Que) (r : RegName) (f : Fld) : (c.setQue k x).gb r f = c.gb r f := by rfl
@[simp] theorem lane_setQue (k : Nat) (x : Que) (k' : Nat) : (c.setQue k x).lane k' = c.lane k' := by rfl
@[simp] theorem triad_setQue (k : Nat) (x : Que) (k' : Nat) : (c.setQue k x).triad k' = c.triad k' := by rfl
@[simp] theorem port_setQue (k : Nat) (x : Que) (k' : Nat) : (c.setQue k x).port k' = c.port k' := by rfl
@[simp] theorem part_setQue (k : Nat) (x : Que) (k' : Nat) : (c.setQue k x).part k' = c.part k' := by rfl
@[simp] theorem cstore_setQue (k : Nat) (x : Que) (k' : Nat) : (c.setQue k x).cstore k' = c.cstore k' := by rfl
@[simp] theorem bar_setQue (k : Nat) (x : Que) (k' : Nat) : (c.setQue k x).bar k' = c.bar k' := by rfl
@[simp] theorem sweep_setQue (k : Nat) (x : Que) (k' : Nat) : (c.setQue k x).sweep k' = c.sweep k' := by rfl
@[simp] theorem byte_setQue (k : Nat) (x : Que) (a : Nat) : (c.setQue k x).byte a = c.byte a := by rfl
@[simp] theorem flips_setQue (k : Nat) (x : Que) (a : Nat) : (c.setQue k x).flips a = c.flips a := by rfl

/-! ### `setPth` -/

@[simp] theorem setPth_off (k : Nat) (x : PathS) : (c.setPth k x).off = c.off := by rfl
@[simp] theorem setPth_regs (k : Nat) (x : PathS) : (c.setPth k x).regs = c.regs := by rfl
@[simp] theorem setPth_mem (k : Nat) (x : PathS) : (c.setPth k x).mem = c.mem := by rfl
@[simp] theorem setPth_ecc (k : Nat) (x : PathS) : (c.setPth k x).ecc = c.ecc := by rfl
@[simp] theorem setPth_filled (k : Nat) (x : PathS) : (c.setPth k x).filled = c.filled := by rfl
@[simp] theorem setPth_lanes (k : Nat) (x : PathS) : (c.setPth k x).lanes = c.lanes := by rfl
@[simp] theorem setPth_triads (k : Nat) (x : PathS) : (c.setPth k x).triads = c.triads := by rfl
@[simp] theorem setPth_ports (k : Nat) (x : PathS) : (c.setPth k x).ports = c.ports := by rfl
@[simp] theorem setPth_bars (k : Nat) (x : PathS) : (c.setPth k x).bars = c.bars := by rfl
@[simp] theorem setPth_sweeps (k : Nat) (x : PathS) : (c.setPth k x).sweeps = c.sweeps := by rfl
@[simp] theorem setPth_sweepAt (k : Nat) (x : PathS) : (c.setPth k x).sweepAt = c.sweepAt := by rfl
@[simp] theorem setPth_stores (k : Nat) (x : PathS) : (c.setPth k x).stores = c.stores := by rfl
@[simp] theorem setPth_commits (k : Nat) (x : PathS) : (c.setPth k x).commits = c.commits := by rfl
@[simp] theorem setPth_flt (k : Nat) (x : PathS) : (c.setPth k x).flt = c.flt := by rfl
@[simp] theorem setPth_gov (k : Nat) (x : PathS) : (c.setPth k x).gov = c.gov := by rfl
@[simp] theorem setPth_pair (k : Nat) (x : PathS) : (c.setPth k x).pair = c.pair := by rfl
@[simp] theorem setPth_parts (k : Nat) (x : PathS) : (c.setPth k x).parts = c.parts := by rfl
@[simp] theorem setPth_handovers (k : Nat) (x : PathS) : (c.setPth k x).handovers = c.handovers := by rfl
@[simp] theorem setPth_arbs (k : Nat) (x : PathS) : (c.setPth k x).arbs = c.arbs := by rfl
@[simp] theorem setPth_leat (k : Nat) (x : PathS) : (c.setPth k x).leat = c.leat := by rfl
@[simp] theorem setPth_lanOwner (k : Nat) (x : PathS) : (c.setPth k x).lanOwner = c.lanOwner := by rfl
@[simp] theorem setPth_cas (k : Nat) (x : PathS) : (c.setPth k x).cas = c.cas := by rfl
@[simp] theorem setPth_snap (k : Nat) (x : PathS) : (c.setPth k x).snap = c.snap := by rfl
@[simp] theorem setPth_host (k : Nat) (x : PathS) : (c.setPth k x).host = c.host := by rfl
@[simp] theorem setPth_mgt (k : Nat) (x : PathS) : (c.setPth k x).mgt = c.mgt := by rfl
@[simp] theorem setPth_misc (k : Nat) (x : PathS) : (c.setPth k x).misc = c.misc := by rfl
@[simp] theorem setPth_boot (k : Nat) (x : PathS) : (c.setPth k x).boot = c.boot := by rfl
@[simp] theorem setPth_stage (k : Nat) (x : PathS) : (c.setPth k x).stage = c.stage := by rfl
@[simp] theorem setPth_flash (k : Nat) (x : PathS) : (c.setPth k x).flash = c.flash := by rfl
@[simp] theorem setPth_book (k : Nat) (x : PathS) : (c.setPth k x).book = c.book := by rfl
@[simp] theorem setPth_free (k : Nat) (x : PathS) : (c.setPth k x).free = c.free := by rfl
@[simp] theorem rd_setPth (k : Nat) (x : PathS) (r : RegName) : (c.setPth k x).rd r = c.rd r := by rfl
@[simp] theorem gf_setPth (k : Nat) (x : PathS) (r : RegName) (f : Fld) : (c.setPth k x).gf r f = c.gf r f := by rfl
@[simp] theorem gb_setPth (k : Nat) (x : PathS) (r : RegName) (f : Fld) : (c.setPth k x).gb r f = c.gb r f := by rfl
@[simp] theorem lane_setPth (k : Nat) (x : PathS) (k' : Nat) : (c.setPth k x).lane k' = c.lane k' := by rfl
@[simp] theorem triad_setPth (k : Nat) (x : PathS) (k' : Nat) : (c.setPth k x).triad k' = c.triad k' := by rfl
@[simp] theorem port_setPth (k : Nat) (x : PathS) (k' : Nat) : (c.setPth k x).port k' = c.port k' := by rfl
@[simp] theorem part_setPth (k : Nat) (x : PathS) (k' : Nat) : (c.setPth k x).part k' = c.part k' := by rfl
@[simp] theorem cstore_setPth (k : Nat) (x : PathS) (k' : Nat) : (c.setPth k x).cstore k' = c.cstore k' := by rfl
@[simp] theorem bar_setPth (k : Nat) (x : PathS) (k' : Nat) : (c.setPth k x).bar k' = c.bar k' := by rfl
@[simp] theorem sweep_setPth (k : Nat) (x : PathS) (k' : Nat) : (c.setPth k x).sweep k' = c.sweep k' := by rfl
@[simp] theorem byte_setPth (k : Nat) (x : PathS) (a : Nat) : (c.setPth k x).byte a = c.byte a := by rfl
@[simp] theorem flips_setPth (k : Nat) (x : PathS) (a : Nat) : (c.setPth k x).flips a = c.flips a := by rfl

/-! ### `setEg` -/

@[simp] theorem setEg_off (k : Nat) (x : Egress) : (c.setEg k x).off = c.off := by rfl
@[simp] theorem setEg_regs (k : Nat) (x : Egress) : (c.setEg k x).regs = c.regs := by rfl
@[simp] theorem setEg_mem (k : Nat) (x : Egress) : (c.setEg k x).mem = c.mem := by rfl
@[simp] theorem setEg_ecc (k : Nat) (x : Egress) : (c.setEg k x).ecc = c.ecc := by rfl
@[simp] theorem setEg_filled (k : Nat) (x : Egress) : (c.setEg k x).filled = c.filled := by rfl
@[simp] theorem setEg_lanes (k : Nat) (x : Egress) : (c.setEg k x).lanes = c.lanes := by rfl
@[simp] theorem setEg_triads (k : Nat) (x : Egress) : (c.setEg k x).triads = c.triads := by rfl
@[simp] theorem setEg_ports (k : Nat) (x : Egress) : (c.setEg k x).ports = c.ports := by rfl
@[simp] theorem setEg_bars (k : Nat) (x : Egress) : (c.setEg k x).bars = c.bars := by rfl
@[simp] theorem setEg_sweeps (k : Nat) (x : Egress) : (c.setEg k x).sweeps = c.sweeps := by rfl
@[simp] theorem setEg_sweepAt (k : Nat) (x : Egress) : (c.setEg k x).sweepAt = c.sweepAt := by rfl
@[simp] theorem setEg_stores (k : Nat) (x : Egress) : (c.setEg k x).stores = c.stores := by rfl
@[simp] theorem setEg_commits (k : Nat) (x : Egress) : (c.setEg k x).commits = c.commits := by rfl
@[simp] theorem setEg_flt (k : Nat) (x : Egress) : (c.setEg k x).flt = c.flt := by rfl
@[simp] theorem setEg_gov (k : Nat) (x : Egress) : (c.setEg k x).gov = c.gov := by rfl
@[simp] theorem setEg_pair (k : Nat) (x : Egress) : (c.setEg k x).pair = c.pair := by rfl
@[simp] theorem setEg_parts (k : Nat) (x : Egress) : (c.setEg k x).parts = c.parts := by rfl
@[simp] theorem setEg_handovers (k : Nat) (x : Egress) : (c.setEg k x).handovers = c.handovers := by rfl
@[simp] theorem setEg_arbs (k : Nat) (x : Egress) : (c.setEg k x).arbs = c.arbs := by rfl
@[simp] theorem setEg_leat (k : Nat) (x : Egress) : (c.setEg k x).leat = c.leat := by rfl
@[simp] theorem setEg_lanOwner (k : Nat) (x : Egress) : (c.setEg k x).lanOwner = c.lanOwner := by rfl
@[simp] theorem setEg_cas (k : Nat) (x : Egress) : (c.setEg k x).cas = c.cas := by rfl
@[simp] theorem setEg_snap (k : Nat) (x : Egress) : (c.setEg k x).snap = c.snap := by rfl
@[simp] theorem setEg_host (k : Nat) (x : Egress) : (c.setEg k x).host = c.host := by rfl
@[simp] theorem setEg_mgt (k : Nat) (x : Egress) : (c.setEg k x).mgt = c.mgt := by rfl
@[simp] theorem setEg_misc (k : Nat) (x : Egress) : (c.setEg k x).misc = c.misc := by rfl
@[simp] theorem setEg_boot (k : Nat) (x : Egress) : (c.setEg k x).boot = c.boot := by rfl
@[simp] theorem setEg_stage (k : Nat) (x : Egress) : (c.setEg k x).stage = c.stage := by rfl
@[simp] theorem setEg_flash (k : Nat) (x : Egress) : (c.setEg k x).flash = c.flash := by rfl
@[simp] theorem setEg_book (k : Nat) (x : Egress) : (c.setEg k x).book = c.book := by rfl
@[simp] theorem setEg_free (k : Nat) (x : Egress) : (c.setEg k x).free = c.free := by rfl
@[simp] theorem rd_setEg (k : Nat) (x : Egress) (r : RegName) : (c.setEg k x).rd r = c.rd r := by rfl
@[simp] theorem gf_setEg (k : Nat) (x : Egress) (r : RegName) (f : Fld) : (c.setEg k x).gf r f = c.gf r f := by rfl
@[simp] theorem gb_setEg (k : Nat) (x : Egress) (r : RegName) (f : Fld) : (c.setEg k x).gb r f = c.gb r f := by rfl
@[simp] theorem lane_setEg (k : Nat) (x : Egress) (k' : Nat) : (c.setEg k x).lane k' = c.lane k' := by rfl
@[simp] theorem triad_setEg (k : Nat) (x : Egress) (k' : Nat) : (c.setEg k x).triad k' = c.triad k' := by rfl
@[simp] theorem port_setEg (k : Nat) (x : Egress) (k' : Nat) : (c.setEg k x).port k' = c.port k' := by rfl
@[simp] theorem part_setEg (k : Nat) (x : Egress) (k' : Nat) : (c.setEg k x).part k' = c.part k' := by rfl
@[simp] theorem cstore_setEg (k : Nat) (x : Egress) (k' : Nat) : (c.setEg k x).cstore k' = c.cstore k' := by rfl
@[simp] theorem bar_setEg (k : Nat) (x : Egress) (k' : Nat) : (c.setEg k x).bar k' = c.bar k' := by rfl
@[simp] theorem sweep_setEg (k : Nat) (x : Egress) (k' : Nat) : (c.setEg k x).sweep k' = c.sweep k' := by rfl
@[simp] theorem byte_setEg (k : Nat) (x : Egress) (a : Nat) : (c.setEg k x).byte a = c.byte a := by rfl
@[simp] theorem flips_setEg (k : Nat) (x : Egress) (a : Nat) : (c.setEg k x).flips a = c.flips a := by rfl

/-! ### `modPair` -/

@[simp] theorem modPair_off (f : Pair → Pair) : (c.modPair f).off = c.off := by rfl
@[simp] theorem modPair_regs (f : Pair → Pair) : (c.modPair f).regs = c.regs := by rfl
@[simp] theorem modPair_mem (f : Pair → Pair) : (c.modPair f).mem = c.mem := by rfl
@[simp] theorem modPair_ecc (f : Pair → Pair) : (c.modPair f).ecc = c.ecc := by rfl
@[simp] theorem modPair_filled (f : Pair → Pair) : (c.modPair f).filled = c.filled := by rfl
@[simp] theorem modPair_lanes (f : Pair → Pair) : (c.modPair f).lanes = c.lanes := by rfl
@[simp] theorem modPair_triads (f : Pair → Pair) : (c.modPair f).triads = c.triads := by rfl
@[simp] theorem modPair_ports (f : Pair → Pair) : (c.modPair f).ports = c.ports := by rfl
@[simp] theorem modPair_bars (f : Pair → Pair) : (c.modPair f).bars = c.bars := by rfl
@[simp] theorem modPair_sweeps (f : Pair → Pair) : (c.modPair f).sweeps = c.sweeps := by rfl
@[simp] theorem modPair_sweepAt (f : Pair → Pair) : (c.modPair f).sweepAt = c.sweepAt := by rfl
@[simp] theorem modPair_stores (f : Pair → Pair) : (c.modPair f).stores = c.stores := by rfl
@[simp] theorem modPair_commits (f : Pair → Pair) : (c.modPair f).commits = c.commits := by rfl
@[simp] theorem modPair_flt (f : Pair → Pair) : (c.modPair f).flt = c.flt := by rfl
@[simp] theorem modPair_gov (f : Pair → Pair) : (c.modPair f).gov = c.gov := by rfl
@[simp] theorem modPair_chan (f : Pair → Pair) : (c.modPair f).chan = c.chan := by rfl
@[simp] theorem modPair_parts (f : Pair → Pair) : (c.modPair f).parts = c.parts := by rfl
@[simp] theorem modPair_handovers (f : Pair → Pair) : (c.modPair f).handovers = c.handovers := by rfl
@[simp] theorem modPair_arbs (f : Pair → Pair) : (c.modPair f).arbs = c.arbs := by rfl
@[simp] theorem modPair_leat (f : Pair → Pair) : (c.modPair f).leat = c.leat := by rfl
@[simp] theorem modPair_lanOwner (f : Pair → Pair) : (c.modPair f).lanOwner = c.lanOwner := by rfl
@[simp] theorem modPair_cas (f : Pair → Pair) : (c.modPair f).cas = c.cas := by rfl
@[simp] theorem modPair_snap (f : Pair → Pair) : (c.modPair f).snap = c.snap := by rfl
@[simp] theorem modPair_host (f : Pair → Pair) : (c.modPair f).host = c.host := by rfl
@[simp] theorem modPair_mgt (f : Pair → Pair) : (c.modPair f).mgt = c.mgt := by rfl
@[simp] theorem modPair_misc (f : Pair → Pair) : (c.modPair f).misc = c.misc := by rfl
@[simp] theorem modPair_boot (f : Pair → Pair) : (c.modPair f).boot = c.boot := by rfl
@[simp] theorem modPair_stage (f : Pair → Pair) : (c.modPair f).stage = c.stage := by rfl
@[simp] theorem modPair_flash (f : Pair → Pair) : (c.modPair f).flash = c.flash := by rfl
@[simp] theorem modPair_book (f : Pair → Pair) : (c.modPair f).book = c.book := by rfl
@[simp] theorem modPair_free (f : Pair → Pair) : (c.modPair f).free = c.free := by rfl
@[simp] theorem rd_modPair (f : Pair → Pair) (r : RegName) : (c.modPair f).rd r = c.rd r := by rfl
@[simp] theorem gf_modPair (f : Pair → Pair) (r : RegName) (f' : Fld) : (c.modPair f).gf r f' = c.gf r f' := by rfl
@[simp] theorem gb_modPair (f : Pair → Pair) (r : RegName) (f' : Fld) : (c.modPair f).gb r f' = c.gb r f' := by rfl
@[simp] theorem lane_modPair (f : Pair → Pair) (k : Nat) : (c.modPair f).lane k = c.lane k := by rfl
@[simp] theorem triad_modPair (f : Pair → Pair) (k : Nat) : (c.modPair f).triad k = c.triad k := by rfl
@[simp] theorem port_modPair (f : Pair → Pair) (k : Nat) : (c.modPair f).port k = c.port k := by rfl
@[simp] theorem part_modPair (f : Pair → Pair) (k : Nat) : (c.modPair f).part k = c.part k := by rfl
@[simp] theorem cstore_modPair (f : Pair → Pair) (k : Nat) : (c.modPair f).cstore k = c.cstore k := by rfl
@[simp] theorem bar_modPair (f : Pair → Pair) (k : Nat) : (c.modPair f).bar k = c.bar k := by rfl
@[simp] theorem sweep_modPair (f : Pair → Pair) (k : Nat) : (c.modPair f).sweep k = c.sweep k := by rfl
@[simp] theorem byte_modPair (f : Pair → Pair) (a : Nat) : (c.modPair f).byte a = c.byte a := by rfl
@[simp] theorem flips_modPair (f : Pair → Pair) (a : Nat) : (c.modPair f).flips a = c.flips a := by rfl
@[simp] theorem que_modPair (f : Pair → Pair) (q : Nat) : (c.modPair f).que q = c.que q := by rfl
@[simp] theorem pth_modPair (f : Pair → Pair) (q : Nat) : (c.modPair f).pth q = c.pth q := by rfl
@[simp] theorem eg_modPair (f : Pair → Pair) (q : Nat) : (c.modPair f).eg q = c.eg q := by rfl

/-! ### `modHost` -/

@[simp] theorem modHost_off (f : HostLink → HostLink) : (c.modHost f).off = c.off := by rfl
@[simp] theorem modHost_regs (f : HostLink → HostLink) : (c.modHost f).regs = c.regs := by rfl
@[simp] theorem modHost_mem (f : HostLink → HostLink) : (c.modHost f).mem = c.mem := by rfl
@[simp] theorem modHost_ecc (f : HostLink → HostLink) : (c.modHost f).ecc = c.ecc := by rfl
@[simp] theorem modHost_filled (f : HostLink → HostLink) : (c.modHost f).filled = c.filled := by rfl
@[simp] theorem modHost_lanes (f : HostLink → HostLink) : (c.modHost f).lanes = c.lanes := by rfl
@[simp] theorem modHost_triads (f : HostLink → HostLink) : (c.modHost f).triads = c.triads := by rfl
@[simp] theorem modHost_ports (f : HostLink → HostLink) : (c.modHost f).ports = c.ports := by rfl
@[simp] theorem modHost_bars (f : HostLink → HostLink) : (c.modHost f).bars = c.bars := by rfl
@[simp] theorem modHost_sweeps (f : HostLink → HostLink) : (c.modHost f).sweeps = c.sweeps := by rfl
@[simp] theorem modHost_sweepAt (f : HostLink → HostLink) : (c.modHost f).sweepAt = c.sweepAt := by rfl
@[simp] theorem modHost_stores (f : HostLink → HostLink) : (c.modHost f).stores = c.stores := by rfl
@[simp] theorem modHost_commits (f : HostLink → HostLink) : (c.modHost f).commits = c.commits := by rfl
@[simp] theorem modHost_flt (f : HostLink → HostLink) : (c.modHost f).flt = c.flt := by rfl
@[simp] theorem modHost_gov (f : HostLink → HostLink) : (c.modHost f).gov = c.gov := by rfl
@[simp] theorem modHost_chan (f : HostLink → HostLink) : (c.modHost f).chan = c.chan := by rfl
@[simp] theorem modHost_pair (f : HostLink → HostLink) : (c.modHost f).pair = c.pair := by rfl
@[simp] theorem modHost_parts (f : HostLink → HostLink) : (c.modHost f).parts = c.parts := by rfl
@[simp] theorem modHost_handovers (f : HostLink → HostLink) : (c.modHost f).handovers = c.handovers := by rfl
@[simp] theorem modHost_arbs (f : HostLink → HostLink) : (c.modHost f).arbs = c.arbs := by rfl
@[simp] theorem modHost_leat (f : HostLink → HostLink) : (c.modHost f).leat = c.leat := by rfl
@[simp] theorem modHost_lanOwner (f : HostLink → HostLink) : (c.modHost f).lanOwner = c.lanOwner := by rfl
@[simp] theorem modHost_cas (f : HostLink → HostLink) : (c.modHost f).cas = c.cas := by rfl
@[simp] theorem modHost_snap (f : HostLink → HostLink) : (c.modHost f).snap = c.snap := by rfl
@[simp] theorem modHost_mgt (f : HostLink → HostLink) : (c.modHost f).mgt = c.mgt := by rfl
@[simp] theorem modHost_misc (f : HostLink → HostLink) : (c.modHost f).misc = c.misc := by rfl
@[simp] theorem modHost_boot (f : HostLink → HostLink) : (c.modHost f).boot = c.boot := by rfl
@[simp] theorem modHost_stage (f : HostLink → HostLink) : (c.modHost f).stage = c.stage := by rfl
@[simp] theorem modHost_flash (f : HostLink → HostLink) : (c.modHost f).flash = c.flash := by rfl
@[simp] theorem modHost_book (f : HostLink → HostLink) : (c.modHost f).book = c.book := by rfl
@[simp] theorem modHost_free (f : HostLink → HostLink) : (c.modHost f).free = c.free := by rfl
@[simp] theorem rd_modHost (f : HostLink → HostLink) (r : RegName) : (c.modHost f).rd r = c.rd r := by rfl
@[simp] theorem gf_modHost (f : HostLink → HostLink) (r : RegName) (f' : Fld) : (c.modHost f).gf r f' = c.gf r f' := by rfl
@[simp] theorem gb_modHost (f : HostLink → HostLink) (r : RegName) (f' : Fld) : (c.modHost f).gb r f' = c.gb r f' := by rfl
@[simp] theorem lane_modHost (f : HostLink → HostLink) (k : Nat) : (c.modHost f).lane k = c.lane k := by rfl
@[simp] theorem triad_modHost (f : HostLink → HostLink) (k : Nat) : (c.modHost f).triad k = c.triad k := by rfl
@[simp] theorem port_modHost (f : HostLink → HostLink) (k : Nat) : (c.modHost f).port k = c.port k := by rfl
@[simp] theorem part_modHost (f : HostLink → HostLink) (k : Nat) : (c.modHost f).part k = c.part k := by rfl
@[simp] theorem cstore_modHost (f : HostLink → HostLink) (k : Nat) : (c.modHost f).cstore k = c.cstore k := by rfl
@[simp] theorem bar_modHost (f : HostLink → HostLink) (k : Nat) : (c.modHost f).bar k = c.bar k := by rfl
@[simp] theorem sweep_modHost (f : HostLink → HostLink) (k : Nat) : (c.modHost f).sweep k = c.sweep k := by rfl
@[simp] theorem byte_modHost (f : HostLink → HostLink) (a : Nat) : (c.modHost f).byte a = c.byte a := by rfl
@[simp] theorem flips_modHost (f : HostLink → HostLink) (a : Nat) : (c.modHost f).flips a = c.flips a := by rfl
@[simp] theorem que_modHost (f : HostLink → HostLink) (q : Nat) : (c.modHost f).que q = c.que q := by rfl
@[simp] theorem pth_modHost (f : HostLink → HostLink) (q : Nat) : (c.modHost f).pth q = c.pth q := by rfl
@[simp] theorem eg_modHost (f : HostLink → HostLink) (q : Nat) : (c.modHost f).eg q = c.eg q := by rfl

/-! ### `modMgt` -/

@[simp] theorem modMgt_off (f : Mgt → Mgt) : (c.modMgt f).off = c.off := by rfl
@[simp] theorem modMgt_regs (f : Mgt → Mgt) : (c.modMgt f).regs = c.regs := by rfl
@[simp] theorem modMgt_mem (f : Mgt → Mgt) : (c.modMgt f).mem = c.mem := by rfl
@[simp] theorem modMgt_ecc (f : Mgt → Mgt) : (c.modMgt f).ecc = c.ecc := by rfl
@[simp] theorem modMgt_filled (f : Mgt → Mgt) : (c.modMgt f).filled = c.filled := by rfl
@[simp] theorem modMgt_lanes (f : Mgt → Mgt) : (c.modMgt f).lanes = c.lanes := by rfl
@[simp] theorem modMgt_triads (f : Mgt → Mgt) : (c.modMgt f).triads = c.triads := by rfl
@[simp] theorem modMgt_ports (f : Mgt → Mgt) : (c.modMgt f).ports = c.ports := by rfl
@[simp] theorem modMgt_bars (f : Mgt → Mgt) : (c.modMgt f).bars = c.bars := by rfl
@[simp] theorem modMgt_sweeps (f : Mgt → Mgt) : (c.modMgt f).sweeps = c.sweeps := by rfl
@[simp] theorem modMgt_sweepAt (f : Mgt → Mgt) : (c.modMgt f).sweepAt = c.sweepAt := by rfl
@[simp] theorem modMgt_stores (f : Mgt → Mgt) : (c.modMgt f).stores = c.stores := by rfl
@[simp] theorem modMgt_commits (f : Mgt → Mgt) : (c.modMgt f).commits = c.commits := by rfl
@[simp] theorem modMgt_flt (f : Mgt → Mgt) : (c.modMgt f).flt = c.flt := by rfl
@[simp] theorem modMgt_gov (f : Mgt → Mgt) : (c.modMgt f).gov = c.gov := by rfl
@[simp] theorem modMgt_chan (f : Mgt → Mgt) : (c.modMgt f).chan = c.chan := by rfl
@[simp] theorem modMgt_pair (f : Mgt → Mgt) : (c.modMgt f).pair = c.pair := by rfl
@[simp] theorem modMgt_parts (f : Mgt → Mgt) : (c.modMgt f).parts = c.parts := by rfl
@[simp] theorem modMgt_handovers (f : Mgt → Mgt) : (c.modMgt f).handovers = c.handovers := by rfl
@[simp] theorem modMgt_arbs (f : Mgt → Mgt) : (c.modMgt f).arbs = c.arbs := by rfl
@[simp] theorem modMgt_leat (f : Mgt → Mgt) : (c.modMgt f).leat = c.leat := by rfl
@[simp] theorem modMgt_lanOwner (f : Mgt → Mgt) : (c.modMgt f).lanOwner = c.lanOwner := by rfl
@[simp] theorem modMgt_cas (f : Mgt → Mgt) : (c.modMgt f).cas = c.cas := by rfl
@[simp] theorem modMgt_snap (f : Mgt → Mgt) : (c.modMgt f).snap = c.snap := by rfl
@[simp] theorem modMgt_host (f : Mgt → Mgt) : (c.modMgt f).host = c.host := by rfl
@[simp] theorem modMgt_misc (f : Mgt → Mgt) : (c.modMgt f).misc = c.misc := by rfl
@[simp] theorem modMgt_boot (f : Mgt → Mgt) : (c.modMgt f).boot = c.boot := by rfl
@[simp] theorem modMgt_stage (f : Mgt → Mgt) : (c.modMgt f).stage = c.stage := by rfl
@[simp] theorem modMgt_flash (f : Mgt → Mgt) : (c.modMgt f).flash = c.flash := by rfl
@[simp] theorem modMgt_book (f : Mgt → Mgt) : (c.modMgt f).book = c.book := by rfl
@[simp] theorem modMgt_free (f : Mgt → Mgt) : (c.modMgt f).free = c.free := by rfl
@[simp] theorem rd_modMgt (f : Mgt → Mgt) (r : RegName) : (c.modMgt f).rd r = c.rd r := by rfl
@[simp] theorem gf_modMgt (f : Mgt → Mgt) (r : RegName) (f' : Fld) : (c.modMgt f).gf r f' = c.gf r f' := by rfl
@[simp] theorem gb_modMgt (f : Mgt → Mgt) (r : RegName) (f' : Fld) : (c.modMgt f).gb r f' = c.gb r f' := by rfl
@[simp] theorem lane_modMgt (f : Mgt → Mgt) (k : Nat) : (c.modMgt f).lane k = c.lane k := by rfl
@[simp] theorem triad_modMgt (f : Mgt → Mgt) (k : Nat) : (c.modMgt f).triad k = c.triad k := by rfl
@[simp] theorem port_modMgt (f : Mgt → Mgt) (k : Nat) : (c.modMgt f).port k = c.port k := by rfl
@[simp] theorem part_modMgt (f : Mgt → Mgt) (k : Nat) : (c.modMgt f).part k = c.part k := by rfl
@[simp] theorem cstore_modMgt (f : Mgt → Mgt) (k : Nat) : (c.modMgt f).cstore k = c.cstore k := by rfl
@[simp] theorem bar_modMgt (f : Mgt → Mgt) (k : Nat) : (c.modMgt f).bar k = c.bar k := by rfl
@[simp] theorem sweep_modMgt (f : Mgt → Mgt) (k : Nat) : (c.modMgt f).sweep k = c.sweep k := by rfl
@[simp] theorem byte_modMgt (f : Mgt → Mgt) (a : Nat) : (c.modMgt f).byte a = c.byte a := by rfl
@[simp] theorem flips_modMgt (f : Mgt → Mgt) (a : Nat) : (c.modMgt f).flips a = c.flips a := by rfl
@[simp] theorem que_modMgt (f : Mgt → Mgt) (q : Nat) : (c.modMgt f).que q = c.que q := by rfl
@[simp] theorem pth_modMgt (f : Mgt → Mgt) (q : Nat) : (c.modMgt f).pth q = c.pth q := by rfl
@[simp] theorem eg_modMgt (f : Mgt → Mgt) (q : Nat) : (c.modMgt f).eg q = c.eg q := by rfl

/-! ### `modMisc` -/

@[simp] theorem modMisc_off (f : Misc → Misc) : (c.modMisc f).off = c.off := by rfl
@[simp] theorem modMisc_regs (f : Misc → Misc) : (c.modMisc f).regs = c.regs := by rfl
@[simp] theorem modMisc_mem (f : Misc → Misc) : (c.modMisc f).mem = c.mem := by rfl
@[simp] theorem modMisc_ecc (f : Misc → Misc) : (c.modMisc f).ecc = c.ecc := by rfl
@[simp] theorem modMisc_filled (f : Misc → Misc) : (c.modMisc f).filled = c.filled := by rfl
@[simp] theorem modMisc_lanes (f : Misc → Misc) : (c.modMisc f).lanes = c.lanes := by rfl
@[simp] theorem modMisc_triads (f : Misc → Misc) : (c.modMisc f).triads = c.triads := by rfl
@[simp] theorem modMisc_ports (f : Misc → Misc) : (c.modMisc f).ports = c.ports := by rfl
@[simp] theorem modMisc_bars (f : Misc → Misc) : (c.modMisc f).bars = c.bars := by rfl
@[simp] theorem modMisc_sweeps (f : Misc → Misc) : (c.modMisc f).sweeps = c.sweeps := by rfl
@[simp] theorem modMisc_sweepAt (f : Misc → Misc) : (c.modMisc f).sweepAt = c.sweepAt := by rfl
@[simp] theorem modMisc_stores (f : Misc → Misc) : (c.modMisc f).stores = c.stores := by rfl
@[simp] theorem modMisc_commits (f : Misc → Misc) : (c.modMisc f).commits = c.commits := by rfl
@[simp] theorem modMisc_flt (f : Misc → Misc) : (c.modMisc f).flt = c.flt := by rfl
@[simp] theorem modMisc_gov (f : Misc → Misc) : (c.modMisc f).gov = c.gov := by rfl
@[simp] theorem modMisc_chan (f : Misc → Misc) : (c.modMisc f).chan = c.chan := by rfl
@[simp] theorem modMisc_pair (f : Misc → Misc) : (c.modMisc f).pair = c.pair := by rfl
@[simp] theorem modMisc_parts (f : Misc → Misc) : (c.modMisc f).parts = c.parts := by rfl
@[simp] theorem modMisc_handovers (f : Misc → Misc) : (c.modMisc f).handovers = c.handovers := by rfl
@[simp] theorem modMisc_arbs (f : Misc → Misc) : (c.modMisc f).arbs = c.arbs := by rfl
@[simp] theorem modMisc_leat (f : Misc → Misc) : (c.modMisc f).leat = c.leat := by rfl
@[simp] theorem modMisc_lanOwner (f : Misc → Misc) : (c.modMisc f).lanOwner = c.lanOwner := by rfl
@[simp] theorem modMisc_cas (f : Misc → Misc) : (c.modMisc f).cas = c.cas := by rfl
@[simp] theorem modMisc_snap (f : Misc → Misc) : (c.modMisc f).snap = c.snap := by rfl
@[simp] theorem modMisc_host (f : Misc → Misc) : (c.modMisc f).host = c.host := by rfl
@[simp] theorem modMisc_mgt (f : Misc → Misc) : (c.modMisc f).mgt = c.mgt := by rfl
@[simp] theorem modMisc_boot (f : Misc → Misc) : (c.modMisc f).boot = c.boot := by rfl
@[simp] theorem modMisc_stage (f : Misc → Misc) : (c.modMisc f).stage = c.stage := by rfl
@[simp] theorem modMisc_flash (f : Misc → Misc) : (c.modMisc f).flash = c.flash := by rfl
@[simp] theorem modMisc_book (f : Misc → Misc) : (c.modMisc f).book = c.book := by rfl
@[simp] theorem modMisc_free (f : Misc → Misc) : (c.modMisc f).free = c.free := by rfl
@[simp] theorem rd_modMisc (f : Misc → Misc) (r : RegName) : (c.modMisc f).rd r = c.rd r := by rfl
@[simp] theorem gf_modMisc (f : Misc → Misc) (r : RegName) (f' : Fld) : (c.modMisc f).gf r f' = c.gf r f' := by rfl
@[simp] theorem gb_modMisc (f : Misc → Misc) (r : RegName) (f' : Fld) : (c.modMisc f).gb r f' = c.gb r f' := by rfl
@[simp] theorem lane_modMisc (f : Misc → Misc) (k : Nat) : (c.modMisc f).lane k = c.lane k := by rfl
@[simp] theorem triad_modMisc (f : Misc → Misc) (k : Nat) : (c.modMisc f).triad k = c.triad k := by rfl
@[simp] theorem port_modMisc (f : Misc → Misc) (k : Nat) : (c.modMisc f).port k = c.port k := by rfl
@[simp] theorem part_modMisc (f : Misc → Misc) (k : Nat) : (c.modMisc f).part k = c.part k := by rfl
@[simp] theorem cstore_modMisc (f : Misc → Misc) (k : Nat) : (c.modMisc f).cstore k = c.cstore k := by rfl
@[simp] theorem bar_modMisc (f : Misc → Misc) (k : Nat) : (c.modMisc f).bar k = c.bar k := by rfl
@[simp] theorem sweep_modMisc (f : Misc → Misc) (k : Nat) : (c.modMisc f).sweep k = c.sweep k := by rfl
@[simp] theorem byte_modMisc (f : Misc → Misc) (a : Nat) : (c.modMisc f).byte a = c.byte a := by rfl
@[simp] theorem flips_modMisc (f : Misc → Misc) (a : Nat) : (c.modMisc f).flips a = c.flips a := by rfl
@[simp] theorem que_modMisc (f : Misc → Misc) (q : Nat) : (c.modMisc f).que q = c.que q := by rfl
@[simp] theorem pth_modMisc (f : Misc → Misc) (q : Nat) : (c.modMisc f).pth q = c.pth q := by rfl
@[simp] theorem eg_modMisc (f : Misc → Misc) (q : Nat) : (c.modMisc f).eg q = c.eg q := by rfl

/-! ### `setByte` -/

@[simp] theorem setByte_off (a : Nat) (b : Byte) : (c.setByte a b).off = c.off := by rfl
@[simp] theorem setByte_regs (a : Nat) (b : Byte) : (c.setByte a b).regs = c.regs := by rfl
@[simp] theorem setByte_ecc (a : Nat) (b : Byte) : (c.setByte a b).ecc = c.ecc := by rfl
@[simp] theorem setByte_filled (a : Nat) (b : Byte) : (c.setByte a b).filled = c.filled := by rfl
@[simp] theorem setByte_lanes (a : Nat) (b : Byte) : (c.setByte a b).lanes = c.lanes := by rfl
@[simp] theorem setByte_triads (a : Nat) (b : Byte) : (c.setByte a b).triads = c.triads := by rfl
@[simp] theorem setByte_ports (a : Nat) (b : Byte) : (c.setByte a b).ports = c.ports := by rfl
@[simp] theorem setByte_bars (a : Nat) (b : Byte) : (c.setByte a b).bars = c.bars := by rfl
@[simp] theorem setByte_sweeps (a : Nat) (b : Byte) : (c.setByte a b).sweeps = c.sweeps := by rfl
@[simp] theorem setByte_sweepAt (a : Nat) (b : Byte) : (c.setByte a b).sweepAt = c.sweepAt := by rfl
@[simp] theorem setByte_stores (a : Nat) (b : Byte) : (c.setByte a b).stores = c.stores := by rfl
@[simp] theorem setByte_commits (a : Nat) (b : Byte) : (c.setByte a b).commits = c.commits := by rfl
@[simp] theorem setByte_flt (a : Nat) (b : Byte) : (c.setByte a b).flt = c.flt := by rfl
@[simp] theorem setByte_gov (a : Nat) (b : Byte) : (c.setByte a b).gov = c.gov := by rfl
@[simp] theorem setByte_chan (a : Nat) (b : Byte) : (c.setByte a b).chan = c.chan := by rfl
@[simp] theorem setByte_pair (a : Nat) (b : Byte) : (c.setByte a b).pair = c.pair := by rfl
@[simp] theorem setByte_parts (a : Nat) (b : Byte) : (c.setByte a b).parts = c.parts := by rfl
@[simp] theorem setByte_handovers (a : Nat) (b : Byte) : (c.setByte a b).handovers = c.handovers := by rfl
@[simp] theorem setByte_arbs (a : Nat) (b : Byte) : (c.setByte a b).arbs = c.arbs := by rfl
@[simp] theorem setByte_leat (a : Nat) (b : Byte) : (c.setByte a b).leat = c.leat := by rfl
@[simp] theorem setByte_lanOwner (a : Nat) (b : Byte) : (c.setByte a b).lanOwner = c.lanOwner := by rfl
@[simp] theorem setByte_cas (a : Nat) (b : Byte) : (c.setByte a b).cas = c.cas := by rfl
@[simp] theorem setByte_snap (a : Nat) (b : Byte) : (c.setByte a b).snap = c.snap := by rfl
@[simp] theorem setByte_host (a : Nat) (b : Byte) : (c.setByte a b).host = c.host := by rfl
@[simp] theorem setByte_mgt (a : Nat) (b : Byte) : (c.setByte a b).mgt = c.mgt := by rfl
@[simp] theorem setByte_misc (a : Nat) (b : Byte) : (c.setByte a b).misc = c.misc := by rfl
@[simp] theorem setByte_boot (a : Nat) (b : Byte) : (c.setByte a b).boot = c.boot := by rfl
@[simp] theorem setByte_stage (a : Nat) (b : Byte) : (c.setByte a b).stage = c.stage := by rfl
@[simp] theorem setByte_flash (a : Nat) (b : Byte) : (c.setByte a b).flash = c.flash := by rfl
@[simp] theorem setByte_book (a : Nat) (b : Byte) : (c.setByte a b).book = c.book := by rfl
@[simp] theorem setByte_free (a : Nat) (b : Byte) : (c.setByte a b).free = c.free := by rfl
@[simp] theorem rd_setByte (a : Nat) (b : Byte) (r : RegName) : (c.setByte a b).rd r = c.rd r := by rfl
@[simp] theorem gf_setByte (a : Nat) (b : Byte) (r : RegName) (f : Fld) : (c.setByte a b).gf r f = c.gf r f := by rfl
@[simp] theorem gb_setByte (a : Nat) (b : Byte) (r : RegName) (f : Fld) : (c.setByte a b).gb r f = c.gb r f := by rfl
@[simp] theorem lane_setByte (a : Nat) (b : Byte) (k : Nat) : (c.setByte a b).lane k = c.lane k := by rfl
@[simp] theorem triad_setByte (a : Nat) (b : Byte) (k : Nat) : (c.setByte a b).triad k = c.triad k := by rfl
@[simp] theorem port_setByte (a : Nat) (b : Byte) (k : Nat) : (c.setByte a b).port k = c.port k := by rfl
@[simp] theorem part_setByte (a : Nat) (b : Byte) (k : Nat) : (c.setByte a b).part k = c.part k := by rfl
@[simp] theorem cstore_setByte (a : Nat) (b : Byte) (k : Nat) : (c.setByte a b).cstore k = c.cstore k := by rfl
@[simp] theorem bar_setByte (a : Nat) (b : Byte) (k : Nat) : (c.setByte a b).bar k = c.bar k := by rfl
@[simp] theorem sweep_setByte (a : Nat) (b : Byte) (k : Nat) : (c.setByte a b).sweep k = c.sweep k := by rfl
@[simp] theorem flips_setByte (a : Nat) (b : Byte) (a' : Nat) : (c.setByte a b).flips a' = c.flips a' := by rfl
@[simp] theorem que_setByte (a : Nat) (b : Byte) (q : Nat) : (c.setByte a b).que q = c.que q := by rfl
@[simp] theorem pth_setByte (a : Nat) (b : Byte) (q : Nat) : (c.setByte a b).pth q = c.pth q := by rfl
@[simp] theorem eg_setByte (a : Nat) (b : Byte) (q : Nat) : (c.setByte a b).eg q = c.eg q := by rfl

/-! ### `setFlips` -/

@[simp] theorem setFlips_off (a : Nat) (m : BitVec 72) : (c.setFlips a m).off = c.off := by rfl
@[simp] theorem setFlips_regs (a : Nat) (m : BitVec 72) : (c.setFlips a m).regs = c.regs := by rfl
@[simp] theorem setFlips_mem (a : Nat) (m : BitVec 72) : (c.setFlips a m).mem = c.mem := by rfl
@[simp] theorem setFlips_filled (a : Nat) (m : BitVec 72) : (c.setFlips a m).filled = c.filled := by rfl
@[simp] theorem setFlips_lanes (a : Nat) (m : BitVec 72) : (c.setFlips a m).lanes = c.lanes := by rfl
@[simp] theorem setFlips_triads (a : Nat) (m : BitVec 72) : (c.setFlips a m).triads = c.triads := by rfl
@[simp] theorem setFlips_ports (a : Nat) (m : BitVec 72) : (c.setFlips a m).ports = c.ports := by rfl
@[simp] theorem setFlips_bars (a : Nat) (m : BitVec 72) : (c.setFlips a m).bars = c.bars := by rfl
@[simp] theorem setFlips_sweeps (a : Nat) (m : BitVec 72) : (c.setFlips a m).sweeps = c.sweeps := by rfl
@[simp] theorem setFlips_sweepAt (a : Nat) (m : BitVec 72) : (c.setFlips a m).sweepAt = c.sweepAt := by rfl
@[simp] theorem setFlips_stores (a : Nat) (m : BitVec 72) : (c.setFlips a m).stores = c.stores := by rfl
@[simp] theorem setFlips_commits (a : Nat) (m : BitVec 72) : (c.setFlips a m).commits = c.commits := by rfl
@[simp] theorem setFlips_flt (a : Nat) (m : BitVec 72) : (c.setFlips a m).flt = c.flt := by rfl
@[simp] theorem setFlips_gov (a : Nat) (m : BitVec 72) : (c.setFlips a m).gov = c.gov := by rfl
@[simp] theorem setFlips_chan (a : Nat) (m : BitVec 72) : (c.setFlips a m).chan = c.chan := by rfl
@[simp] theorem setFlips_pair (a : Nat) (m : BitVec 72) : (c.setFlips a m).pair = c.pair := by rfl
@[simp] theorem setFlips_parts (a : Nat) (m : BitVec 72) : (c.setFlips a m).parts = c.parts := by rfl
@[simp] theorem setFlips_handovers (a : Nat) (m : BitVec 72) : (c.setFlips a m).handovers = c.handovers := by rfl
@[simp] theorem setFlips_arbs (a : Nat) (m : BitVec 72) : (c.setFlips a m).arbs = c.arbs := by rfl
@[simp] theorem setFlips_leat (a : Nat) (m : BitVec 72) : (c.setFlips a m).leat = c.leat := by rfl
@[simp] theorem setFlips_lanOwner (a : Nat) (m : BitVec 72) : (c.setFlips a m).lanOwner = c.lanOwner := by rfl
@[simp] theorem setFlips_cas (a : Nat) (m : BitVec 72) : (c.setFlips a m).cas = c.cas := by rfl
@[simp] theorem setFlips_snap (a : Nat) (m : BitVec 72) : (c.setFlips a m).snap = c.snap := by rfl
@[simp] theorem setFlips_host (a : Nat) (m : BitVec 72) : (c.setFlips a m).host = c.host := by rfl
@[simp] theorem setFlips_mgt (a : Nat) (m : BitVec 72) : (c.setFlips a m).mgt = c.mgt := by rfl
@[simp] theorem setFlips_misc (a : Nat) (m : BitVec 72) : (c.setFlips a m).misc = c.misc := by rfl
@[simp] theorem setFlips_boot (a : Nat) (m : BitVec 72) : (c.setFlips a m).boot = c.boot := by rfl
@[simp] theorem setFlips_stage (a : Nat) (m : BitVec 72) : (c.setFlips a m).stage = c.stage := by rfl
@[simp] theorem setFlips_flash (a : Nat) (m : BitVec 72) : (c.setFlips a m).flash = c.flash := by rfl
@[simp] theorem setFlips_book (a : Nat) (m : BitVec 72) : (c.setFlips a m).book = c.book := by rfl
@[simp] theorem setFlips_free (a : Nat) (m : BitVec 72) : (c.setFlips a m).free = c.free := by rfl
@[simp] theorem rd_setFlips (a : Nat) (m : BitVec 72) (r : RegName) : (c.setFlips a m).rd r = c.rd r := by rfl
@[simp] theorem gf_setFlips (a : Nat) (m : BitVec 72) (r : RegName) (f : Fld) : (c.setFlips a m).gf r f = c.gf r f := by rfl
@[simp] theorem gb_setFlips (a : Nat) (m : BitVec 72) (r : RegName) (f : Fld) : (c.setFlips a m).gb r f = c.gb r f := by rfl
@[simp] theorem lane_setFlips (a : Nat) (m : BitVec 72) (k : Nat) : (c.setFlips a m).lane k = c.lane k := by rfl
@[simp] theorem triad_setFlips (a : Nat) (m : BitVec 72) (k : Nat) : (c.setFlips a m).triad k = c.triad k := by rfl
@[simp] theorem port_setFlips (a : Nat) (m : BitVec 72) (k : Nat) : (c.setFlips a m).port k = c.port k := by rfl
@[simp] theorem part_setFlips (a : Nat) (m : BitVec 72) (k : Nat) : (c.setFlips a m).part k = c.part k := by rfl
@[simp] theorem cstore_setFlips (a : Nat) (m : BitVec 72) (k : Nat) : (c.setFlips a m).cstore k = c.cstore k := by rfl
@[simp] theorem bar_setFlips (a : Nat) (m : BitVec 72) (k : Nat) : (c.setFlips a m).bar k = c.bar k := by rfl
@[simp] theorem sweep_setFlips (a : Nat) (m : BitVec 72) (k : Nat) : (c.setFlips a m).sweep k = c.sweep k := by rfl
@[simp] theorem byte_setFlips (a : Nat) (m : BitVec 72) (a' : Nat) : (c.setFlips a m).byte a' = c.byte a' := by rfl
@[simp] theorem que_setFlips (a : Nat) (m : BitVec 72) (q : Nat) : (c.setFlips a m).que q = c.que q := by rfl
@[simp] theorem pth_setFlips (a : Nat) (m : BitVec 72) (q : Nat) : (c.setFlips a m).pth q = c.pth q := by rfl
@[simp] theorem eg_setFlips (a : Nat) (m : BitVec 72) (q : Nat) : (c.setFlips a m).eg q = c.eg q := by rfl

/-! ### `leatPut` -/

@[simp] theorem leatPut_off (m : LeatMsg) : (c.leatPut m).off = c.off := by rfl
@[simp] theorem leatPut_regs (m : LeatMsg) : (c.leatPut m).regs = c.regs := by rfl
@[simp] theorem leatPut_mem (m : LeatMsg) : (c.leatPut m).mem = c.mem := by rfl
@[simp] theorem leatPut_ecc (m : LeatMsg) : (c.leatPut m).ecc = c.ecc := by rfl
@[simp] theorem leatPut_filled (m : LeatMsg) : (c.leatPut m).filled = c.filled := by rfl
@[simp] theorem leatPut_lanes (m : LeatMsg) : (c.leatPut m).lanes = c.lanes := by rfl
@[simp] theorem leatPut_triads (m : LeatMsg) : (c.leatPut m).triads = c.triads := by rfl
@[simp] theorem leatPut_ports (m : LeatMsg) : (c.leatPut m).ports = c.ports := by rfl
@[simp] theorem leatPut_bars (m : LeatMsg) : (c.leatPut m).bars = c.bars := by rfl
@[simp] theorem leatPut_sweeps (m : LeatMsg) : (c.leatPut m).sweeps = c.sweeps := by rfl
@[simp] theorem leatPut_sweepAt (m : LeatMsg) : (c.leatPut m).sweepAt = c.sweepAt := by rfl
@[simp] theorem leatPut_stores (m : LeatMsg) : (c.leatPut m).stores = c.stores := by rfl
@[simp] theorem leatPut_commits (m : LeatMsg) : (c.leatPut m).commits = c.commits := by rfl
@[simp] theorem leatPut_flt (m : LeatMsg) : (c.leatPut m).flt = c.flt := by rfl
@[simp] theorem leatPut_gov (m : LeatMsg) : (c.leatPut m).gov = c.gov := by rfl
@[simp] theorem leatPut_chan (m : LeatMsg) : (c.leatPut m).chan = c.chan := by rfl
@[simp] theorem leatPut_pair (m : LeatMsg) : (c.leatPut m).pair = c.pair := by rfl
@[simp] theorem leatPut_parts (m : LeatMsg) : (c.leatPut m).parts = c.parts := by rfl
@[simp] theorem leatPut_handovers (m : LeatMsg) : (c.leatPut m).handovers = c.handovers := by rfl
@[simp] theorem leatPut_arbs (m : LeatMsg) : (c.leatPut m).arbs = c.arbs := by rfl
@[simp] theorem leatPut_lanOwner (m : LeatMsg) : (c.leatPut m).lanOwner = c.lanOwner := by rfl
@[simp] theorem leatPut_cas (m : LeatMsg) : (c.leatPut m).cas = c.cas := by rfl
@[simp] theorem leatPut_snap (m : LeatMsg) : (c.leatPut m).snap = c.snap := by rfl
@[simp] theorem leatPut_host (m : LeatMsg) : (c.leatPut m).host = c.host := by rfl
@[simp] theorem leatPut_mgt (m : LeatMsg) : (c.leatPut m).mgt = c.mgt := by rfl
@[simp] theorem leatPut_misc (m : LeatMsg) : (c.leatPut m).misc = c.misc := by rfl
@[simp] theorem leatPut_boot (m : LeatMsg) : (c.leatPut m).boot = c.boot := by rfl
@[simp] theorem leatPut_stage (m : LeatMsg) : (c.leatPut m).stage = c.stage := by rfl
@[simp] theorem leatPut_flash (m : LeatMsg) : (c.leatPut m).flash = c.flash := by rfl
@[simp] theorem leatPut_book (m : LeatMsg) : (c.leatPut m).book = c.book := by rfl
@[simp] theorem leatPut_free (m : LeatMsg) : (c.leatPut m).free = c.free := by rfl
@[simp] theorem rd_leatPut (m : LeatMsg) (r : RegName) : (c.leatPut m).rd r = c.rd r := by rfl
@[simp] theorem gf_leatPut (m : LeatMsg) (r : RegName) (f : Fld) : (c.leatPut m).gf r f = c.gf r f := by rfl
@[simp] theorem gb_leatPut (m : LeatMsg) (r : RegName) (f : Fld) : (c.leatPut m).gb r f = c.gb r f := by rfl
@[simp] theorem lane_leatPut (m : LeatMsg) (k : Nat) : (c.leatPut m).lane k = c.lane k := by rfl
@[simp] theorem triad_leatPut (m : LeatMsg) (k : Nat) : (c.leatPut m).triad k = c.triad k := by rfl
@[simp] theorem port_leatPut (m : LeatMsg) (k : Nat) : (c.leatPut m).port k = c.port k := by rfl
@[simp] theorem part_leatPut (m : LeatMsg) (k : Nat) : (c.leatPut m).part k = c.part k := by rfl
@[simp] theorem cstore_leatPut (m : LeatMsg) (k : Nat) : (c.leatPut m).cstore k = c.cstore k := by rfl
@[simp] theorem bar_leatPut (m : LeatMsg) (k : Nat) : (c.leatPut m).bar k = c.bar k := by rfl
@[simp] theorem sweep_leatPut (m : LeatMsg) (k : Nat) : (c.leatPut m).sweep k = c.sweep k := by rfl
@[simp] theorem byte_leatPut (m : LeatMsg) (a : Nat) : (c.leatPut m).byte a = c.byte a := by rfl
@[simp] theorem flips_leatPut (m : LeatMsg) (a : Nat) : (c.leatPut m).flips a = c.flips a := by rfl
@[simp] theorem que_leatPut (m : LeatMsg) (q : Nat) : (c.leatPut m).que q = c.que q := by rfl
@[simp] theorem pth_leatPut (m : LeatMsg) (q : Nat) : (c.leatPut m).pth q = c.pth q := by rfl
@[simp] theorem eg_leatPut (m : LeatMsg) (q : Nat) : (c.leatPut m).eg q = c.eg q := by rfl

/-! ### `bookInc` -/

@[simp] theorem bookInc_off (o : Nat) : (c.bookInc o).off = c.off := by rfl
@[simp] theorem bookInc_regs (o : Nat) : (c.bookInc o).regs = c.regs := by rfl
@[simp] theorem bookInc_mem (o : Nat) : (c.bookInc o).mem = c.mem := by rfl
@[simp] theorem bookInc_ecc (o : Nat) : (c.bookInc o).ecc = c.ecc := by rfl
@[simp] theorem bookInc_filled (o : Nat) : (c.bookInc o).filled = c.filled := by rfl
@[simp] theorem bookInc_lanes (o : Nat) : (c.bookInc o).lanes = c.lanes := by rfl
@[simp] theorem bookInc_triads (o : Nat) : (c.bookInc o).triads = c.triads := by rfl
@[simp] theorem bookInc_ports (o : Nat) : (c.bookInc o).ports = c.ports := by rfl
@[simp] theorem bookInc_bars (o : Nat) : (c.bookInc o).bars = c.bars := by rfl
@[simp] theorem bookInc_sweeps (o : Nat) : (c.bookInc o).sweeps = c.sweeps := by rfl
@[simp] theorem bookInc_sweepAt (o : Nat) : (c.bookInc o).sweepAt = c.sweepAt := by rfl
@[simp] theorem bookInc_stores (o : Nat) : (c.bookInc o).stores = c.stores := by rfl
@[simp] theorem bookInc_commits (o : Nat) : (c.bookInc o).commits = c.commits := by rfl
@[simp] theorem bookInc_flt (o : Nat) : (c.bookInc o).flt = c.flt := by rfl
@[simp] theorem bookInc_gov (o : Nat) : (c.bookInc o).gov = c.gov := by rfl
@[simp] theorem bookInc_chan (o : Nat) : (c.bookInc o).chan = c.chan := by rfl
@[simp] theorem bookInc_pair (o : Nat) : (c.bookInc o).pair = c.pair := by rfl
@[simp] theorem bookInc_parts (o : Nat) : (c.bookInc o).parts = c.parts := by rfl
@[simp] theorem bookInc_handovers (o : Nat) : (c.bookInc o).handovers = c.handovers := by rfl
@[simp] theorem bookInc_arbs (o : Nat) : (c.bookInc o).arbs = c.arbs := by rfl
@[simp] theorem bookInc_leat (o : Nat) : (c.bookInc o).leat = c.leat := by rfl
@[simp] theorem bookInc_lanOwner (o : Nat) : (c.bookInc o).lanOwner = c.lanOwner := by rfl
@[simp] theorem bookInc_cas (o : Nat) : (c.bookInc o).cas = c.cas := by rfl
@[simp] theorem bookInc_snap (o : Nat) : (c.bookInc o).snap = c.snap := by rfl
@[simp] theorem bookInc_host (o : Nat) : (c.bookInc o).host = c.host := by rfl
@[simp] theorem bookInc_mgt (o : Nat) : (c.bookInc o).mgt = c.mgt := by rfl
@[simp] theorem bookInc_misc (o : Nat) : (c.bookInc o).misc = c.misc := by rfl
@[simp] theorem bookInc_boot (o : Nat) : (c.bookInc o).boot = c.boot := by rfl
@[simp] theorem bookInc_stage (o : Nat) : (c.bookInc o).stage = c.stage := by rfl
@[simp] theorem bookInc_flash (o : Nat) : (c.bookInc o).flash = c.flash := by rfl
@[simp] theorem bookInc_free (o : Nat) : (c.bookInc o).free = c.free := by rfl
@[simp] theorem rd_bookInc (o : Nat) (r : RegName) : (c.bookInc o).rd r = c.rd r := by rfl
@[simp] theorem gf_bookInc (o : Nat) (r : RegName) (f : Fld) : (c.bookInc o).gf r f = c.gf r f := by rfl
@[simp] theorem gb_bookInc (o : Nat) (r : RegName) (f : Fld) : (c.bookInc o).gb r f = c.gb r f := by rfl
@[simp] theorem lane_bookInc (o : Nat) (k : Nat) : (c.bookInc o).lane k = c.lane k := by rfl
@[simp] theorem triad_bookInc (o : Nat) (k : Nat) : (c.bookInc o).triad k = c.triad k := by rfl
@[simp] theorem port_bookInc (o : Nat) (k : Nat) : (c.bookInc o).port k = c.port k := by rfl
@[simp] theorem part_bookInc (o : Nat) (k : Nat) : (c.bookInc o).part k = c.part k := by rfl
@[simp] theorem cstore_bookInc (o : Nat) (k : Nat) : (c.bookInc o).cstore k = c.cstore k := by rfl
@[simp] theorem bar_bookInc (o : Nat) (k : Nat) : (c.bookInc o).bar k = c.bar k := by rfl
@[simp] theorem sweep_bookInc (o : Nat) (k : Nat) : (c.bookInc o).sweep k = c.sweep k := by rfl
@[simp] theorem byte_bookInc (o : Nat) (a : Nat) : (c.bookInc o).byte a = c.byte a := by rfl
@[simp] theorem flips_bookInc (o : Nat) (a : Nat) : (c.bookInc o).flips a = c.flips a := by rfl
@[simp] theorem que_bookInc (o : Nat) (q : Nat) : (c.bookInc o).que q = c.que q := by rfl
@[simp] theorem pth_bookInc (o : Nat) (q : Nat) : (c.bookInc o).pth q = c.pth q := by rfl
@[simp] theorem eg_bookInc (o : Nat) (q : Nat) : (c.bookInc o).eg q = c.eg q := by rfl

/-! ### `bookInc8` -/

@[simp] theorem bookInc8_off (o : Nat) : (c.bookInc8 o).off = c.off := by rfl
@[simp] theorem bookInc8_regs (o : Nat) : (c.bookInc8 o).regs = c.regs := by rfl
@[simp] theorem bookInc8_mem (o : Nat) : (c.bookInc8 o).mem = c.mem := by rfl
@[simp] theorem bookInc8_ecc (o : Nat) : (c.bookInc8 o).ecc = c.ecc := by rfl
@[simp] theorem bookInc8_filled (o : Nat) : (c.bookInc8 o).filled = c.filled := by rfl
@[simp] theorem bookInc8_lanes (o : Nat) : (c.bookInc8 o).lanes = c.lanes := by rfl
@[simp] theorem bookInc8_triads (o : Nat) : (c.bookInc8 o).triads = c.triads := by rfl
@[simp] theorem bookInc8_ports (o : Nat) : (c.bookInc8 o).ports = c.ports := by rfl
@[simp] theorem bookInc8_bars (o : Nat) : (c.bookInc8 o).bars = c.bars := by rfl
@[simp] theorem bookInc8_sweeps (o : Nat) : (c.bookInc8 o).sweeps = c.sweeps := by rfl
@[simp] theorem bookInc8_sweepAt (o : Nat) : (c.bookInc8 o).sweepAt = c.sweepAt := by rfl
@[simp] theorem bookInc8_stores (o : Nat) : (c.bookInc8 o).stores = c.stores := by rfl
@[simp] theorem bookInc8_commits (o : Nat) : (c.bookInc8 o).commits = c.commits := by rfl
@[simp] theorem bookInc8_flt (o : Nat) : (c.bookInc8 o).flt = c.flt := by rfl
@[simp] theorem bookInc8_gov (o : Nat) : (c.bookInc8 o).gov = c.gov := by rfl
@[simp] theorem bookInc8_chan (o : Nat) : (c.bookInc8 o).chan = c.chan := by rfl
@[simp] theorem bookInc8_pair (o : Nat) : (c.bookInc8 o).pair = c.pair := by rfl
@[simp] theorem bookInc8_parts (o : Nat) : (c.bookInc8 o).parts = c.parts := by rfl
@[simp] theorem bookInc8_handovers (o : Nat) : (c.bookInc8 o).handovers = c.handovers := by rfl
@[simp] theorem bookInc8_arbs (o : Nat) : (c.bookInc8 o).arbs = c.arbs := by rfl
@[simp] theorem bookInc8_leat (o : Nat) : (c.bookInc8 o).leat = c.leat := by rfl
@[simp] theorem bookInc8_lanOwner (o : Nat) : (c.bookInc8 o).lanOwner = c.lanOwner := by rfl
@[simp] theorem bookInc8_cas (o : Nat) : (c.bookInc8 o).cas = c.cas := by rfl
@[simp] theorem bookInc8_snap (o : Nat) : (c.bookInc8 o).snap = c.snap := by rfl
@[simp] theorem bookInc8_host (o : Nat) : (c.bookInc8 o).host = c.host := by rfl
@[simp] theorem bookInc8_mgt (o : Nat) : (c.bookInc8 o).mgt = c.mgt := by rfl
@[simp] theorem bookInc8_misc (o : Nat) : (c.bookInc8 o).misc = c.misc := by rfl
@[simp] theorem bookInc8_boot (o : Nat) : (c.bookInc8 o).boot = c.boot := by rfl
@[simp] theorem bookInc8_stage (o : Nat) : (c.bookInc8 o).stage = c.stage := by rfl
@[simp] theorem bookInc8_flash (o : Nat) : (c.bookInc8 o).flash = c.flash := by rfl
@[simp] theorem bookInc8_free (o : Nat) : (c.bookInc8 o).free = c.free := by rfl
@[simp] theorem rd_bookInc8 (o : Nat) (r : RegName) : (c.bookInc8 o).rd r = c.rd r := by rfl
@[simp] theorem gf_bookInc8 (o : Nat) (r : RegName) (f : Fld) : (c.bookInc8 o).gf r f = c.gf r f := by rfl
@[simp] theorem gb_bookInc8 (o : Nat) (r : RegName) (f : Fld) : (c.bookInc8 o).gb r f = c.gb r f := by rfl
@[simp] theorem lane_bookInc8 (o : Nat) (k : Nat) : (c.bookInc8 o).lane k = c.lane k := by rfl
@[simp] theorem triad_bookInc8 (o : Nat) (k : Nat) : (c.bookInc8 o).triad k = c.triad k := by rfl
@[simp] theorem port_bookInc8 (o : Nat) (k : Nat) : (c.bookInc8 o).port k = c.port k := by rfl
@[simp] theorem part_bookInc8 (o : Nat) (k : Nat) : (c.bookInc8 o).part k = c.part k := by rfl
@[simp] theorem cstore_bookInc8 (o : Nat) (k : Nat) : (c.bookInc8 o).cstore k = c.cstore k := by rfl
@[simp] theorem bar_bookInc8 (o : Nat) (k : Nat) : (c.bookInc8 o).bar k = c.bar k := by rfl
@[simp] theorem sweep_bookInc8 (o : Nat) (k : Nat) : (c.bookInc8 o).sweep k = c.sweep k := by rfl
@[simp] theorem byte_bookInc8 (o : Nat) (a : Nat) : (c.bookInc8 o).byte a = c.byte a := by rfl
@[simp] theorem flips_bookInc8 (o : Nat) (a : Nat) : (c.bookInc8 o).flips a = c.flips a := by rfl
@[simp] theorem que_bookInc8 (o : Nat) (q : Nat) : (c.bookInc8 o).que q = c.que q := by rfl
@[simp] theorem pth_bookInc8 (o : Nat) (q : Nat) : (c.bookInc8 o).pth q = c.pth q := by rfl
@[simp] theorem eg_bookInc8 (o : Nat) (q : Nat) : (c.bookInc8 o).eg q = c.eg q := by rfl

/-! ### Reads after writes -/

variable (r : RegName) (f g : Fld) (v : DWord) (n k j : Nat)

theorem updLane_eq (h : Lane → Lane) : c.updLane k h = c.setLane k (h (c.lane k)) := by rfl
theorem updTriad_eq (h : Triad → Triad) : c.updTriad k h = c.setTriad k (h (c.triad k)) := by rfl
theorem updPort_eq (h : Port → Port) : c.updPort k h = c.setPort k (h (c.port k)) := by rfl
theorem updQue_eq (h : Que → Que) : c.updQue k h = c.setQue k (h (c.que k)) := by rfl
theorem updPth_eq (h : PathS → PathS) : c.updPth k h = c.setPth k (h (c.pth k)) := by rfl
theorem updEg_eq (h : Egress → Egress) : c.updEg k h = c.setEg k (h (c.eg k)) := by rfl

@[simp] theorem rd_wr_same : (c.wr r v).rd r = v := Tab.get_put_same _ _ _ _

/-- A register write leaves every register at another address alone. -/
theorem rd_wr_other {q r : RegName} (v : DWord) (h : q.addr ≠ r.addr) : (c.wr r v).rd q = c.rd q :=
  Tab.get_put_other _ _ _ _ h

theorem gf_eq : c.gf r f = f.get (c.rd r) := by rfl

/-- A field reads what was written to it, cut to its width. -/
theorem gf_sf_same (h : f.lo ≤ f.hi) (hn : f.hi < 64) : (c.sf r f n).gf r f = n % 2 ^ (f.hi + 1 - f.lo) := by
  rw [gf_eq, sf, rd_wr_same, Fld.get_put_same f _ _ h hn]

/-- A field write leaves the register's other fields alone. -/
theorem gf_sf_field (h : f.lo ≤ f.hi) (hn : f.hi < 64) (hd : g.hi < f.lo ∨ f.hi < g.lo) :
    (c.sf r f n).gf r g = c.gf r g := by
  rw [gf_eq, sf, rd_wr_same, Fld.get_put_other f g _ _ h hn hd, gf_eq]

/-- A field write leaves every register at another address alone. -/
theorem rd_sf_other {q r : RegName} (f : Fld) (n : Nat) (h : q.addr ≠ r.addr) : (c.sf r f n).rd q = c.rd q :=
  c.rd_wr_other _ h

theorem gf_sf_other {q r : RegName} (f g : Fld) (n : Nat) (h : q.addr ≠ r.addr) : (c.sf r f n).gf q g = c.gf q g := by
  rw [gf_eq, rd_sf_other c f n h, gf_eq]

theorem gf_wr_other {q r : RegName} (v : DWord) (g : Fld) (h : q.addr ≠ r.addr) : (c.wr r v).gf q g = c.gf q g := by
  rw [gf_eq, rd_wr_other c v h, gf_eq]

@[simp] theorem gf_wr_same : (c.wr r v).gf r g = g.get v := by rw [gf_eq, rd_wr_same]


@[simp] theorem lane_setLane_same (x : Lane) : (c.setLane k x).lane k = x := Tab.get_set_same _ _ _ _
theorem lane_setLane_other (x : Lane) (h : j ≠ k) : (c.setLane k x).lane j = c.lane j := Tab.get_set_other _ _ _ h
@[simp] theorem setLane_setLane (x y : Lane) : (c.setLane k x).setLane k y = c.setLane k y := by simp [setLane]
@[simp] theorem triad_setTriad_same (x : Triad) : (c.setTriad k x).triad k = x := Tab.get_set_same _ _ _ _
theorem triad_setTriad_other (x : Triad) (h : j ≠ k) : (c.setTriad k x).triad j = c.triad j := Tab.get_set_other _ _ _ h
@[simp] theorem setTriad_setTriad (x y : Triad) : (c.setTriad k x).setTriad k y = c.setTriad k y := by simp [setTriad]
@[simp] theorem port_setPort_same (x : Port) : (c.setPort k x).port k = x := Tab.get_set_same _ _ _ _
theorem port_setPort_other (x : Port) (h : j ≠ k) : (c.setPort k x).port j = c.port j := Tab.get_set_other _ _ _ h
@[simp] theorem setPort_setPort (x y : Port) : (c.setPort k x).setPort k y = c.setPort k y := by simp [setPort]
@[simp] theorem part_setPart_same (x : Part) : (c.setPart k x).part k = x := Tab.get_set_same _ _ _ _
theorem part_setPart_other (x : Part) (h : j ≠ k) : (c.setPart k x).part j = c.part j := Tab.get_set_other _ _ _ h
@[simp] theorem setPart_setPart (x y : Part) : (c.setPart k x).setPart k y = c.setPart k y := by simp [setPart]
@[simp] theorem cstore_setStore_same (x : CStore) : (c.setStore k x).cstore k = x := Tab.get_set_same _ _ _ _
theorem cstore_setStore_other (x : CStore) (h : j ≠ k) : (c.setStore k x).cstore j = c.cstore j := Tab.get_set_other _ _ _ h
@[simp] theorem setStore_setStore (x y : CStore) : (c.setStore k x).setStore k y = c.setStore k y := by simp [setStore]
@[simp] theorem bar_setBar_same (x : Bar) : (c.setBar k x).bar k = x := Tab.get_set_same _ _ _ _
theorem bar_setBar_other (x : Bar) (h : j ≠ k) : (c.setBar k x).bar j = c.bar j := Tab.get_set_other _ _ _ h
@[simp] theorem setBar_setBar (x y : Bar) : (c.setBar k x).setBar k y = c.setBar k y := by simp [setBar]
@[simp] theorem sweep_setSweep_same (x : Sweep) : (c.setSweep k x).sweep k = x := Tab.get_set_same _ _ _ _
theorem sweep_setSweep_other (x : Sweep) (h : j ≠ k) : (c.setSweep k x).sweep j = c.sweep j := Tab.get_set_other _ _ _ h
@[simp] theorem setSweep_setSweep (x y : Sweep) : (c.setSweep k x).setSweep k y = c.setSweep k y := by simp [setSweep]
@[simp] theorem que_setQue_same (x : Que) : (c.setQue k x).que k = x := Tab.get_set_same _ _ _ _
theorem que_setQue_other (x : Que) (h : j ≠ k) : (c.setQue k x).que j = c.que j := Tab.get_set_other _ _ _ h
@[simp] theorem setQue_setQue (x y : Que) : (c.setQue k x).setQue k y = c.setQue k y := by simp [setQue]
@[simp] theorem pth_setPth_same (x : PathS) : (c.setPth k x).pth k = x := Tab.get_set_same _ _ _ _
theorem pth_setPth_other (x : PathS) (h : j ≠ k) : (c.setPth k x).pth j = c.pth j := Tab.get_set_other _ _ _ h
@[simp] theorem setPth_setPth (x y : PathS) : (c.setPth k x).setPth k y = c.setPth k y := by simp [setPth]
@[simp] theorem eg_setEg_same (x : Egress) : (c.setEg k x).eg k = x := Tab.get_set_same _ _ _ _
theorem eg_setEg_other (x : Egress) (h : j ≠ k) : (c.setEg k x).eg j = c.eg j := Tab.get_set_other _ _ _ h
@[simp] theorem setEg_setEg (x y : Egress) : (c.setEg k x).setEg k y = c.setEg k y := by simp [setEg]
@[simp] theorem pth_setQue (x : Que) : (c.setQue k x).pth j = c.pth j := by rfl
@[simp] theorem eg_setQue (x : Que) : (c.setQue k x).eg j = c.eg j := by rfl
@[simp] theorem que_setPth (x : PathS) : (c.setPth k x).que j = c.que j := by rfl
@[simp] theorem eg_setPth (x : PathS) : (c.setPth k x).eg j = c.eg j := by rfl
@[simp] theorem que_setEg (x : Egress) : (c.setEg k x).que j = c.que j := by rfl
@[simp] theorem pth_setEg (x : Egress) : (c.setEg k x).pth j = c.pth j := by rfl

@[simp] theorem byte_setByte_same (a : Nat) (b : Byte) : (c.setByte a b).byte a = b := Tab.get_put_same _ _ _ _
/-- A byte write leaves every other byte alone. -/
theorem byte_setByte_other {a a' : Nat} (b : Byte) (h : a' ≠ a) : (c.setByte a b).byte a' = c.byte a' :=
  Tab.get_put_other _ _ _ _ h

end Sys2Proof.Machine.Chip
end

