-- ==== Sys2Proof/Laws/Lane.lean ====
section
/-! SUPPORT. What the shared operations of an instruction do, each said once: an instruction that runs acts, a
retirement changes its lane alone, an exception is an entry by R81. -/
namespace Sys2Proof.Machine

theorem laneKey_div (l : LaneId) : laneKey l / 3 = l.t := by
  have := l.i.isLt; simp only [laneKey]; omega

theorem laneKey_mod (l : LaneId) : laneKey l % 3 = l.i := by
  have := l.i.isLt; simp only [laneKey]; omega

namespace Chip
variable {c : Chip} {s : State} {l : LaneId}

@[simp] theorem split_setLane (c : Chip) (k t : Nat) (x : Lane) : (c.setLane k x).split t = c.split t := rfl

@[simp] theorem tcfg_setLane (c : Chip) (k : Nat) (x : Lane) (r : RegName) (f : Fld) :
    (c.setLane k x).gf r f = c.gf r f := rfl

/-- On a SPLIT core with nothing due the boundary takes nothing. -/
theorem splitBoundary_of_empty (k : Nat) (x : Lane) (ha : (c.port k).tx.pendAbort = none) (hd : (c.port k).dwe = [])
    (he : (c.port k).pend = []) : (c.setLane k x).splitBoundary k = none := by
  simp [splitBoundary, ha, hd, he, selectEvent]

theorem splitBoundary_of_calm (h : Calm s l) (hs : s.chip.split l.t = true) : s.chip.splitBoundary (laneKey l) = none := by
  simp only [Calm, hs, if_true] at h
  simp [splitBoundary, h.1, h.2.1, h.2.2, selectEvent]

/-- An instruction that runs at a calm boundary acts. -/
theorem instr_of_runs (i : Instr) (body : Chip → Chip) (h : Runs s l i) : s.chip.instr l i body = body s.chip := by
  obtain ⟨hr, hc⟩ := h
  rw [instr, if_pos hr, atBoundary]
  split
  · rename_i hs
    rw [splitBoundary_of_calm hc (by simp_all)]
  · rfl

/-- The lane that a retirement leaves: `y`, with a digest record where the interval has passed (R136). -/
def settled (c : Chip) (t : Nat) (y : Lane) : Lane :=
  if !c.split t && decide (2 ^ c.gf (.CLU_TCFG t) CLU_TCFG.DIGLOG ≤ y.retired - y.digCount) then y.digestPoint .interval
  else y

/-- What follows a retirement at a calm boundary touches the lane alone. -/
theorem afterRetire_calm (h : Calm s l) (y : Lane) (hy : y.replay = (s.lane l).replay) :
    (s.chip.setLane (laneKey l) y).afterRetire (laneKey l) = s.chip.setLane (laneKey l) (s.chip.settled l.t y) := by
  simp only [Calm] at h
  simp only [afterRetire, laneKey_div, split_setLane, settled]
  by_cases hs : s.chip.split l.t = true
  · simp only [hs, if_true] at h ⊢
    rw [splitBoundary_of_empty _ _ h.1 h.2.1 h.2.2]
    simp
  · simp only [hs, Bool.false_eq_true, if_false] at h ⊢
    have hr : y.replay = [] := by rw [hy, h.2]
    have ht : ∀ x : Lane, x.replay = [] → (s.chip.setLane (laneKey l) x).takeHeld (laneKey l) = s.chip.setLane (laneKey l) x := by
      intro x _
      simp [takeHeld, laneKey_div, h.1]
    by_cases hd : 2 ^ s.chip.gf (.CLU_TCFG l.t) CLU_TCFG.DIGLOG ≤ y.retired - y.digCount
    · simp only [lane_setLane_same, ge_iff_le, hd, if_true, tcfg_setLane, digest, laneKey_div, split_setLane, hs,
        Bool.false_eq_true, if_false, updLane_eq, setLane_setLane]
      have : (y.digestPoint .interval).replay = [] := hr
      simp [this, ht _ this]
    · simp [hd, hr, ht y hr]

/-- The fields of the settled lane other than its digests. -/
theorem settled_arch (t : Nat) (y : Lane) : (c.settled t y).arch = y.arch := by
  unfold settled; split <;> rfl

theorem settled_frame (t : Nat) (x y : Lane) (h : LaneFrame x y) : LaneFrame x (c.settled t y) := by
  unfold settled; split
  · exact ⟨h.sb, h.storeSeq, h.readSeq, h.save, h.txNo, h.txLines, h.whash, h.dcache, h.icache, h.itlb, h.dtlb, h.walkc,
      h.halted, h.barIn, h.barDone⟩
  · exact h

theorem settled_retired {len : Word} {steps : Nat} {upd : Arch → Arch} {ld : Option LoadDelay} (t : Nat) (x y : Lane)
    (h : RetiredLane x y len steps upd ld) : RetiredLane x (c.settled t y) len steps upd ld := by
  unfold settled; split
  · exact ⟨h.arch, h.retired, h.steps, h.ldPend, h.feed, h.waiting⟩
  · exact h

end Chip

theorem Lane.retire_frame (x : Lane) (len : Word) (steps : Nat) (upd : Arch → Arch) (ld : Option LoadDelay) :
    LaneFrame x (x.retire len steps upd ld) := by constructor <;> rfl

theorem Lane.retire_retired (x : Lane) (len : Word) (steps : Nat) (upd : Arch → Arch) (ld : Option LoadDelay) :
    RetiredLane x (x.retire len steps upd ld) len steps upd ld := by constructor <;> rfl

/-- A retirement at a calm boundary: the lane alone changes, and it is the retired one. -/
theorem Chip.retire_calm {s : State} {l : LaneId} (h : Calm s l) (len : Word) (steps : Nat) (upd : Arch → Arch)
    (ld : Option LoadDelay) :
    s.chip.retire (laneKey l) len steps upd ld =
      s.chip.setLane (laneKey l) (s.chip.settled l.t ((s.lane l).retire len steps upd ld)) :=
  Chip.afterRetire_calm h _ rfl

/-- An instruction whose effect is a retirement, at a calm boundary. -/
theorem retires_of_calm {s : State} {l : LaneId} (h : Calm s l) (len : Word) (steps : Nat) (upd : Arch → Arch) :
    Retires s l len steps upd (.next { s with chip := s.chip.retire (laneKey l) len steps upd }) :=
  ⟨_, by rw [Chip.retire_calm h], Chip.settled_retired _ _ _ (Lane.retire_retired ..),
    Chip.settled_frame _ _ _ (Lane.retire_frame ..)⟩

/-- A register instruction whose body gives an update retires with it. -/
theorem regInstr_retires {s : State} {l : LaneId} {i : Instr} {len : Word} {steps : Arch → Nat}
    {body : Arch → Res (Arch → Arch)} {upd : Arch → Arch} (h : Runs s l i) (hb : body (s.lane l).view = .ok upd) :
    Retires s l len (steps (s.lane l).view) upd (s.act (fun now c => c.regInstr now l i len steps body)) := by
  simp only [State.act, Chip.regInstr, Chip.instr_of_runs i _ h, hb]
  exact retires_of_calm h.2 ..

/-- The same with the steps and the update in another spelling. -/
theorem regInstr_retires_eq {s : State} {l : LaneId} {i : Instr} {len : Word} {steps : Arch → Nat} {n : Nat}
    {body : Arch → Res (Arch → Arch)} {u upd : Arch → Arch} (h : Runs s l i) (hb : body (s.lane l).view = .ok u)
    (hs : steps (s.lane l).view = n) (hu : ∀ z, u z = upd z) :
    Retires s l len n upd (s.act (fun now c => c.regInstr now l i len steps body)) := by
  obtain rfl := funext hu
  subst hs
  exact regInstr_retires h hb

/-! ### Exception entry -/

/-- A status field is one that lies in the word. -/
theorem Arch.st_setSt_same (a : Arch) (f : Fld) (v : Nat) (h : f.lo ≤ f.hi) (hn : f.hi < 32) :
    (a.setSt f v).st f = v % 2 ^ (f.hi + 1 - f.lo) := Fld.get_put_same f _ _ h hn

theorem Arch.st_setSt_other (a : Arch) (f g : Fld) (v : Nat) (h : f.lo ≤ f.hi) (hn : f.hi < 32)
    (hd : g.hi < f.lo ∨ f.hi < g.lo) : (a.setSt f v).st g = a.st g := Fld.get_put_other f g _ _ h hn hd

@[simp] theorem Arch.setSt_g (a : Arch) (f : Fld) (v : Nat) : (a.setSt f v).g = a.g := rfl
@[simp] theorem Arch.setSt_f (a : Arch) (f : Fld) (v : Nat) : (a.setSt f v).f = a.f := rfl
@[simp] theorem Arch.setSt_pc (a : Arch) (f : Fld) (v : Nat) : (a.setSt f v).pc = a.pc := rfl
@[simp] theorem Arch.setSt_estatus (a : Arch) (f : Fld) (v : Nat) : (a.setSt f v).estatus = a.estatus := rfl
@[simp] theorem Arch.setSt_epc (a : Arch) (f : Fld) (v : Nat) : (a.setSt f v).epc = a.epc := rfl
@[simp] theorem Arch.setSt_ecause (a : Arch) (f : Fld) (v : Nat) : (a.setSt f v).ecause = a.ecause := rfl
@[simp] theorem Arch.setSt_eval (a : Arch) (f : Fld) (v : Nat) : (a.setSt f v).eval = a.eval := rfl
@[simp] theorem Arch.setSt_excShadow (a : Arch) (f : Fld) (v : Nat) : (a.setSt f v).excShadow = a.excShadow := rfl
@[simp] theorem Arch.setSt_vbr (a : Arch) (f : Fld) (v : Nat) : (a.setSt f v).vbr = a.vbr := rfl
@[simp] theorem Arch.setSt_mvbr (a : Arch) (f : Fld) (v : Nat) : (a.setSt f v).mvbr = a.mvbr := rfl
@[simp] theorem Arch.setSt_sscratch (a : Arch) (f : Fld) (v : Nat) : (a.setSt f v).sscratch = a.sscratch := rfl
@[simp] theorem Arch.setSt_mscratch (a : Arch) (f : Fld) (v : Nat) : (a.setSt f v).mscratch = a.mscratch := rfl
@[simp] theorem Arch.setSt_ptbr (a : Arch) (f : Fld) (v : Nat) : (a.setSt f v).ptbr = a.ptbr := rfl
@[simp] theorem Arch.setSt_asid (a : Arch) (f : Fld) (v : Nat) : (a.setSt f v).asid = a.asid := rfl
@[simp] theorem Arch.setSt_fpsr (a : Arch) (f : Fld) (v : Nat) : (a.setSt f v).fpsr = a.fpsr := rfl
@[simp] theorem Arch.setSt_bargroup (a : Arch) (f : Fld) (v : Nat) : (a.setSt f v).bargroup = a.bargroup := rfl
@[simp] theorem Arch.setSt_txstatus (a : Arch) (f : Fld) (v : Nat) : (a.setSt f v).txstatus = a.txstatus := rfl
@[simp] theorem Arch.setSt_handler (a : Arch) (f : Fld) (v : Nat) : (a.setSt f v).handler = a.handler := rfl

/-- The cause word: code, kind and the asynchronous bit (R68). -/
theorem ecause_fields {code kind : Nat} (a : code < 256) (b : kind < 4) (tx async : Bool) :
    let w : Word := BitVec.ofNat 32 (code + 256 * kind + 2 ^ 30 * bit tx + 2 ^ 31 * bit async)
    Fld.get ⟨7, 0⟩ w = code ∧ Fld.get ⟨9, 8⟩ w = kind ∧ Fld.get ⟨31, 31⟩ w = bit async := by
  cases tx <;> cases async <;> simp [Fld.get, bit] <;> omega

/-- `STATUS` after entry. -/
theorem entryStatus_fields (w : Word) (ds : Option LoadDelay) (m : Bool) :
    SR.EXL.get (Chip.entryStatus w ds m) = 1 ∧ SR.PL.get (Chip.entryStatus w ds m) = (if m then 2 else 1) ∧
    SR.LDS.get (Chip.entryStatus w ds m) = bit ds.isSome := by
  refine ⟨Fld.get_put_same SR.EXL _ 1 (by decide) (by decide), ?_, ?_⟩
  · unfold Chip.entryStatus
    rw [Fld.get_put_other SR.EXL SR.PL _ _ (by decide) (by decide) (by decide),
      Fld.get_put_same SR.PL _ _ (by decide) (by decide)]
    split <;> rfl
  · unfold Chip.entryStatus
    rw [Fld.get_put_other SR.EXL SR.LDS _ _ (by decide) (by decide) (by decide),
      Fld.get_put_other SR.PL SR.LDS _ _ (by decide) (by decide) (by decide)]
    cases ds with
    | none => exact Fld.get_put_same SR.LDS _ 0 (by decide) (by decide)
    | some d =>
      rw [Fld.get_put_other SR.LDF SR.LDS _ _ (by decide) (by decide) (by decide),
        Fld.get_put_other SR.LDREG SR.LDS _ _ (by decide) (by decide) (by decide),
        Fld.get_put_same SR.LDS _ 1 (by decide) (by decide)]
      rfl

theorem Lane.landed_status (x : Lane) : x.landed.status = x.arch.status := by
  have w : ∀ (a : Arch) (r : RegId) (v : Word), (a.writeReg r v).status = a.status := by
    intro a r v; cases r with
    | g n => simp only [Arch.writeReg, Arch.setG]; split <;> rfl
    | f n => rfl
  unfold Lane.landed; split
  · exact w ..
  · rfl

theorem Lane.landed_pl (x : Lane) : x.landed.pl = x.arch.pl := by rw [Arch.pl, Arch.pl, Arch.st, Arch.st, x.landed_status]

/-- The lane after entry outside a transaction. -/
def enteredLane (split : Bool) (x : Lane) (e : Exc) (async toM : Bool) : Lane :=
  let m := toM || x.landed.pl == 2
  let y : Lane := { x with
    arch := Chip.entryArch x.landed (Chip.delaySave x) e async false m
    ldPend := none, feed := none, waiting := none, areq := none, presented := false, miss := none
    progress := 0, sleepTill := none, devLoad := none, devResult := none, fills := [], steps := x.steps + 8
    evNo := x.evNo + bit async }
  let y := if split then y else y.digestPoint .entry
  y.toVector ((if m then y.arch.mvbr else y.arch.vbr) + BitVec.ofNat 32 (Chip.vecOffset e.code x.landed.pl))

/-- Entry outside a transaction changes its lane alone. -/
theorem Chip.enter_eq (c : Chip) (k : Nat) (e : Exc) (async toM : Bool) (h : (c.lane k).save = none) :
    c.enter k e async toM = c.setLane k (enteredLane (c.split (k / 3)) (c.lane k) e async toM) := by
  unfold Chip.enter enteredLane
  simp only [Lane.landed_pl]
  unfold Lane.landed
  simp only [h, Option.isSome_none, Bool.false_eq_true, if_false, Chip.digest, Chip.split_setLane, Chip.updLane_eq]
  split <;> split <;> simp

theorem enteredLane_arch (split : Bool) (x : Lane) (e : Exc) (async toM : Bool) :
    (enteredLane split x e async toM).arch =
      let b := Chip.entryArch x.landed (Chip.delaySave x) e async false (toM || x.landed.pl == 2)
      { b with pc := (if toM || x.landed.pl == 2 then b.mvbr else b.vbr) +
          BitVec.ofNat 32 (Chip.vecOffset e.code x.landed.pl) } := by
  cases split <;> rfl

/-- The registers of a lane that has entered an exception. -/
theorem enteredLane_entered (split : Bool) (x : Lane) (e : Exc) (async toM : Bool) (ha : e.code < 256) (hk : e.kind < 4) :
    Entered x (enteredLane split x e async toM).arch e async toM := by
  obtain ⟨hc, hd, he⟩ := ecause_fields ha hk false async
  obtain ⟨h1, h2, h3⟩ := entryStatus_fields x.landed.status (Chip.delaySave x) (toM || x.landed.pl == 2)
  rw [enteredLane_arch]
  exact ⟨rfl, rfl, hc, hd, he, rfl, h1, h2, rfl, h3, fun d h => by simp [Chip.entryArch, h], rfl, rfl, rfl, rfl, rfl, rfl,
    rfl, rfl, rfl, rfl, rfl⟩

/-- A synchronous exception of a lane outside a transaction, with EXL clear (R81). -/
theorem raises_of_mayEnter {s : State} {l : LaneId} (h : MayEnter s l) (e : Exc) (toM : Bool) (ha : e.code < 256)
    (hk : e.kind < 4) : Raises s l e toM 0 (.next { s with chip := s.chip.raise s.now.toNat (laneKey l) e toM }) := by
  refine ⟨enteredLane (s.chip.split l.t) (s.lane l) e false toM, ?_, enteredLane_entered _ _ _ _ _ ha hk, ?_, ?_, ?_, ?_⟩
  · rw [Chip.raise, if_neg h.1, Chip.enter_eq _ _ _ _ _ (by exact h.2), laneKey_div]
  all_goals unfold enteredLane; cases s.chip.split l.t
  all_goals first | rfl | (constructor <;> rfl)

/-- The same with steps counted before (R34). -/
theorem raises_counted {s : State} {l : LaneId} (h : MayEnter s l) (e : Exc) (toM : Bool) (n : Nat) (ha : e.code < 256)
    (hk : e.kind < 4) :
    Raises s l e toM n (.next { s with chip :=
      (s.chip.updLane (laneKey l) (fun x => { x with steps := x.steps + n })).raise s.now.toNat (laneKey l) e toM }) := by
  obtain ⟨h1, h2⟩ := h
  refine ⟨enteredLane (s.chip.split l.t) { s.lane l with steps := (s.lane l).steps + n } e false toM, ?_, ?_, ?_, ?_, ?_, ?_⟩
  · rw [Chip.updLane_eq, Chip.raise, Chip.lane_setLane_same, if_neg (by exact h1), Chip.enter_eq _ _ _ _ _ (by simpa using h2),
      laneKey_div]
    simp [State.withLane]
  · have e := enteredLane_entered (s.chip.split l.t) { s.lane l with steps := (s.lane l).steps + n } e false toM ha hk
    exact ⟨e.epc, e.estatus, e.code, e.kind, e.async, e.eval, e.exl, e.pl, e.pc, e.lds, e.shadow, e.g, e.f, e.fpsr, e.vbr,
      e.mvbr, e.sscratch, e.mscratch, e.ptbr, e.asid, e.bargroup, e.txstatus⟩
  all_goals unfold enteredLane; cases s.chip.split l.t
  all_goals first | rfl | (constructor <;> rfl)

/-- A register instruction whose body answers an exception enters it. -/
theorem regInstr_raises {s : State} {l : LaneId} {i : Instr} {len : Word} {steps : Arch → Nat}
    {body : Arch → Res (Arch → Arch)} {e : Exc} (h : Runs s l i) (hm : MayEnter s l) (hb : body (s.lane l).view = .exc e)
    (ha : e.code < 256) (hk : e.kind < 4) :
    Raises s l e false 0 (s.act (fun now c => c.regInstr now l i len steps body)) := by
  simp only [State.act, Chip.regInstr, Chip.instr_of_runs i _ h, hb]
  exact raises_of_mayEnter hm e false ha hk

end Sys2Proof.Machine
end

