-- ==== Sys2Proof/Laws/Data.lean ====
section
/-! SUPPORT. Data accesses, each shared operation said once: an access that reaches memory, a load from the store buffer or
the data cache, a store into the buffer. -/
namespace Sys2Proof.Machine
variable {s : State} {l : LaneId}

theorem BitVec.ofNat_natLE (l : List Byte) : natLE l < 2 ^ (8 * l.length) := by
  induction l with
  | nil => simp [natLE]
  | cons b r ih =>
    have := b.isLt
    simp only [natLE, List.length_cons, Nat.mul_add, Nat.pow_add]
    omega

/-- With no byte taken from the new value, the merge is the low bytes of the old one. -/
theorem natLE_bytes (n v : Nat) :
    natLE ((List.range n).map (fun i => BitVec.ofNat 8 (v / 2 ^ (8 * i)))) = v % 2 ^ (8 * n) := by
  induction n generalizing v with
  | zero => simp [natLE, Nat.mod_one]
  | succ n ih =>
    rw [List.range_succ_eq_map, List.map_cons, List.map_map, natLE]
    have h : (fun i => BitVec.ofNat 8 (v / 2 ^ (8 * i))) ∘ Nat.succ = fun i => BitVec.ofNat 8 (v / 256 / 2 ^ (8 * i)) := by
      funext i
      simp only [Function.comp, Nat.div_div_eq_div_mul]
      congr 3
      rw [show 8 * i.succ = 8 + 8 * i by omega, Nat.pow_add]
    rw [h, ih, show 8 * (n + 1) = 8 + 8 * n by omega, Nat.pow_add, Nat.mod_mul]
    simp

theorem mergeBytes_zero (n old new : Nat) : mergeBytes n 0 old new = old % 2 ^ (8 * n) := by
  rw [← natLE_bytes]; simp [mergeBytes]

namespace Chip

/-- The translation of an access that hits the data TLB changes nothing. -/
theorem translate_hit {e : TlbE} {va : Nat} {kd : Kind} (c : Chip) (now p k : Nat) (hk : kd ≠ .fetch)
    (he : (c.lane k).dtlb.find? (fun e => e.hits p ((c.lane k).arch.asid.setWidth 8) va) = some e)
    (hp : permits e.u e.x e.w e.r kd (c.lane k).arch.pl = true) :
    c.translate now p k va kd = (c, .ok (e.page * 4096 + va % 2 ^ pageBits e.lvl)) := by
  have hpl : (c.lane k).arch.status.toNat / 4 % 4 = (c.lane k).arch.pl := by simp [Arch.pl, Arch.st, SR.PL, Fld.get]
  cases kd with
  | fetch => exact absurd rfl hk
  | load => simp only [translate, he, hpl, hp, if_true]
  | store => simp only [translate, he, hpl, hp, if_true]

/-- An access that reaches memory passes its checks and changes nothing. -/
theorem dataPlace_reaches {va size a : Nat} {kd : Kind} (hk : kd ≠ .fetch) (h : Reaches s l va size kd a) (now : Nat) :
    s.chip.dataPlace now (laneKey l) va size kd = (s.chip, .mem a) := by
  obtain ⟨ha, e, r, he, hp, hr, hm⟩ := h
  have ht := translate_hit s.chip now ((s.chip.partOf l.t).getD 0) (laneKey l) hk he hp
  simp [dataPlace, ha, laneKey_div, ht, hr, hm]

/-- A misaligned access stops at its first check. -/
theorem dataPlace_misaligned {va size : Nat} {kd : Kind} (h : va % size ≠ 0) (c : Chip) (now k : Nat) :
    c.dataPlace now k va size kd = (c, .exc ⟨if kd == .store then 0x0B else 0x08, kd.code, va⟩) := by
  simp [dataPlace, h]

/-- A load whose bytes the store buffer holds takes them from there. -/
theorem loadMem_forwarded {a size v : Nat} (c : Chip) (k : Nat) (h : Forwarded (c.lane k) a size v) :
    c.loadMem k a size = (c, .val v) := by
  rw [Forwarded] at h
  simp [loadMem, h]

/-- A load whose line the data cache holds takes its bytes and touches the line. -/
theorem loadMem_cacheHit {a size v : Nat} (hz : 0 < size) (h : CacheHit s l a size v) :
    s.chip.loadMem (laneKey l) a size = (s.chip.hitLine (laneKey l) (lineOf a) false, .val v) := by
  obtain ⟨hf, hc, hs, e, he, hb, rfl⟩ := h
  have : ¬ (0 = 2 ^ size - 1) := by have := Nat.one_lt_two_pow hz.ne'; omega
  simp [loadMem, this, hf, hs, wsetPart, fetchLine, laneKey_div, hc, he, hb, mergeBytes_zero]

end Chip

/-- A lane that has loaded. -/
theorem loads_of_val {len : Word} {steps : Nat} {upd : Arch → Arch} {ld : Option LoadDelay} {x : Lane} (h : Calm s l)
    (hx : x.arch = (s.lane l).arch) (hl : x.ldPend = (s.lane l).ldPend) (hr : x.retired = (s.lane l).retired)
    (hst : x.steps = (s.lane l).steps) (hsb : x.sb = (s.lane l).sb) (hss : x.storeSeq = (s.lane l).storeSeq)
    (hrs : x.readSeq = (s.lane l).readSeq) (hsv : x.save = (s.lane l).save) (hi : x.icache = (s.lane l).icache)
    (hit : x.itlb = (s.lane l).itlb) (hdt : x.dtlb = (s.lane l).dtlb) (hw : x.walkc = (s.lane l).walkc)
    (hh : x.halted = (s.lane l).halted) (hp : x.replay = (s.lane l).replay) :
    Loads s l len steps upd ld
      (.next { s with chip := (s.chip.setLane (laneKey l) x).retire (laneKey l) len steps upd ld }) := by
  have hland : x.landed = (s.lane l).landed := by simp [Lane.landed, hx, hl]
  refine ⟨s.chip.settled l.t (x.retire len steps upd ld), ?_, ?_, ?_⟩
  · rw [Chip.retire, Chip.updLane_eq, Chip.lane_setLane_same, Chip.setLane_setLane,
      Chip.afterRetire_calm h (x.retire len steps upd ld) hp]
  · refine Chip.settled_retired _ _ _ ⟨?_, ?_, ?_, rfl, rfl, rfl⟩
    · simp [Lane.retire, hland]
    · simp [Lane.retire, hr]
    · simp [Lane.retire, hst]
  · have f := Chip.settled_frame (c := s.chip) l.t x _ (Lane.retire_frame x len steps upd ld)
    exact ⟨f.sb.trans hsb, f.storeSeq.trans hss, f.readSeq.trans hrs, f.save.trans hsv, f.icache.trans hi, f.itlb.trans hit,
      f.dtlb.trans hdt, f.walkc.trans hw, f.halted.trans hh⟩

end Sys2Proof.Machine
end

