-- ==== Sys2Proof/Laws/Memory.lean ====
section
/-! SUPPORT. Memory in canonical form: every operation that writes memory keeps it, and reading and reporting leave memory's
bytes alone. -/
namespace Sys2Proof.Machine

theorem Tab.wf_dropKeys {α : Type} [DecidableEq α] (d : α) {t : Tab α} (p : Nat → Bool) (h : t.wf d = true) :
    (t.dropKeys p).wf d = true := by
  simp only [Tab.wf, Tab.dropKeys, Bool.and_eq_true, List.all_eq_true, bne_iff_ne, Tab.sorted_iff] at *
  exact ⟨h.1.filter _, fun e he => h.2 e (List.mem_filter.1 he).1⟩

/-- After reset memory is in canonical form. -/
theorem reset_memory_wf : Memory.wf State.reset.chip.mem = true := rfl

/-- Memory is its bytes: two memories in canonical form that read alike are equal. -/
theorem memory_ext {m n : Tab Byte} (hm : Memory.wf m = true) (hn : Memory.wf n = true)
    (h : ∀ a : Nat, Tab.get 0 m a = Tab.get 0 n a) : m = n := Tab.ext_of_wf 0 hm hn h

namespace Chip
variable (c : Chip)

/-- What folds of chips leave alone. -/
theorem foldl_mem {α : Type} (f : Chip → α → Chip) (hf : ∀ (c : Chip) (x : α), (f c x).mem = c.mem) (l : List α) :
    (l.foldl f c).mem = c.mem := by
  induction l generalizing c with
  | nil => rfl
  | cons x r ih => rw [List.foldl_cons, ih, hf]

theorem foldl_wf {α : Type} (f : Chip → α → Chip)
    (hf : ∀ (c : Chip) (x : α), Memory.wf c.mem = true → Memory.wf (f c x).mem = true) (l : List α)
    (h : Memory.wf c.mem = true) : Memory.wf (l.foldl f c).mem = true := by
  induction l generalizing c with
  | nil => exact h
  | cons x r ih => exact ih _ (hf c x h)

/-! ### Reports and pending events -/

@[simp] theorem inc_mem (r : RegName) (f : Fld) : (c.inc r f).mem = c.mem := by rfl
@[simp] theorem setSticky_mem (src cls : Nat) : (c.setSticky src cls).mem = c.mem := by rfl

@[simp] theorem openRound_mem (t : Nat) : (c.openRound t).mem = c.mem := by
  unfold openRound; split <;> rfl

@[simp] theorem pendEvent_mem (k n : Nat) : (c.pendEvent k n).mem = c.mem := by
  simp [pendEvent, updPort]

@[simp] theorem corrected_mem (now src : Nat) : (c.corrected now src).mem = c.mem := by
  unfold corrected; simp only []; split <;> rfl

@[simp] theorem leatPut_mem' (m : LeatMsg) : (c.leatPut m).mem = c.mem := by rfl

@[simp] theorem leatSend_mem (m : LeatMsg) : (c.leatSend m).mem = c.mem := by
  unfold leatSend; split <;> rfl

@[simp] theorem hostFault_mem (s k : Nat) : (c.hostFault s k).mem = c.mem := by rfl

@[simp] theorem setAttr_mem (s k : Nat) : (c.setAttr s k).mem = c.mem := by
  unfold setAttr; split <;> rfl

@[simp] theorem noteManager_mem (s : Nat) : (c.noteManager s).mem = c.mem := by
  unfold noteManager; split <;> simp

@[simp] theorem containedMark_mem (s k : Nat) (t : Option Nat) : (c.containedMark s k t).mem = c.mem := by
  unfold containedMark; split <;> (try split) <;> simp

@[simp] theorem containedNotify_mem (s k : Nat) : (c.containedNotify s k).mem = c.mem := by
  unfold containedNotify; split <;> simp

@[simp] theorem startGrace_mem (now s k : Nat) : (c.startGrace now s k).mem = c.mem := by
  unfold startGrace; split <;> rfl

@[simp] theorem quiet_mem (now : Nat) : (c.quiet now).mem = c.mem := by rfl

@[simp] theorem containedState_mem (now s k : Nat) (had : Bool) : (c.containedState now s k had).mem = c.mem := by
  unfold containedState; simp only []; repeat' split
  all_goals simp

@[simp] theorem contained_mem (now s : Nat) (w t : Option Nat) : (c.contained now s w t).mem = c.mem := by
  unfold contained; simp only []; split <;> simp

@[simp] theorem eccNote_mem (a k : Nat) (y : BitVec 8) (b : Bool) : (c.eccNote a k y b).mem = c.mem := by
  unfold eccNote
  generalize c.region a = r
  cases r <;> simp only []
  all_goals repeat' split
  all_goals simp

@[simp] theorem eccReport_mem (now a k : Nat) (y : BitVec 8) (b : Bool) (w : Option Nat) :
    (c.eccReport now a k y b w).mem = c.mem := by
  unfold eccReport; simp only []; split <;> simp

@[simp] theorem fillRegion_mem (a : Nat) : (c.fillRegion a).mem = c.mem := by
  unfold fillRegion
  generalize c.region a = r
  cases r <;> simp only []
  split
  · rfl
  · split <;> simp

/-! ### Coherence -/

@[simp] theorem enterInv_mem (t line : Nat) : (c.enterInv t line).mem = c.mem := by
  unfold enterInv; simp only []; split <;> simp

@[simp] theorem want_mem (t : Nat) (d : Decision) : (c.want t d).mem = c.mem := by
  unfold want; split <;> simp [updTriad]

@[simp] theorem txConflict_mem (k : Nat) (y : BitVec 8) : (c.txConflict k y).mem = c.mem := by
  unfold txConflict; simp only []; repeat' split
  all_goals simp

@[simp] theorem snoop_mem (line k : Nat) : (c.snoop line k).mem = c.mem := by
  unfold snoop; simp only []; repeat' split
  all_goals simp [dropD, updLane]

@[simp] theorem snoopAll_mem (line : Nat) (src : Option Nat) : (c.snoopAll line src).mem = c.mem :=
  foldl_mem c _ (fun c k => by simp) _

/-! ### Every memory operation keeps the canonical form -/

variable {c}

theorem setByte_wf (a : Nat) (b : Byte) (h : Memory.wf c.mem = true) : Memory.wf (c.setByte a b).mem = true :=
  Tab.wf_put 0 a b h

theorem setBytes_wf (a : Nat) (l : List Byte) (h : Memory.wf c.mem = true) : Memory.wf (c.setBytes a l).mem = true := by
  induction l generalizing c a with
  | nil => exact h
  | cons b r ih => exact ih _ (setByte_wf a b h)

theorem storeWord_wf (a : Nat) (d : DWord) (h : Memory.wf c.mem = true) : Memory.wf (c.storeWord a d).mem = true := by
  rw [storeWord, setFlips_mem]; exact setBytes_wf _ _ h

theorem readWord_wf (now a : Nat) (w : Option Nat) (b : Bool) (h : Memory.wf c.mem = true) :
    Memory.wf (c.readWord now a w b).1.mem = true := by
  have hf : ∀ x : Nat, Memory.wf (c.fillRegion x).mem = true := fun x => by rw [fillRegion_mem]; exact h
  unfold readWord; simp only []; split
  · exact hf _
  · rw [eccReport_mem]; exact storeWord_wf _ _ (hf _)
  · rw [eccReport_mem]; exact hf _

theorem writeWord_wf (now a be : Nat) (v : DWord) (w : Option Nat) (h : Memory.wf c.mem = true) :
    Memory.wf (c.writeWord now a be v w).mem = true := by
  have hf : ∀ x : Nat, Memory.wf (c.fillRegion x).mem = true := fun x => by rw [fillRegion_mem]; exact h
  unfold writeWord; simp only []; split
  · exact storeWord_wf _ _ (hf _)
  · split
    · exact storeWord_wf _ _ (hf _)
    · rw [eccReport_mem]; exact storeWord_wf _ _ (hf _)
    · rw [eccReport_mem, setFlips_mem]; exact storeWord_wf _ _ (hf _)

theorem readWords_wf (now : Nat) (w : Option Nat) (n a : Nat) (h : Memory.wf c.mem = true) :
    Memory.wf (c.readWords now w n a).1.mem = true := by
  induction n generalizing c a with
  | zero => exact h
  | succ n ih =>
    have := ih (a + 8) (readWord_wf (c := c) now a w false h)
    unfold readWords; simp only []; split <;> exact this

theorem readBytes_wf (now : Nat) (w : Option Nat) (a n : Nat) (h : Memory.wf c.mem = true) :
    Memory.wf (c.readBytes now w a n).1.mem = true := by
  have := readWords_wf (c := c) now w ((a + n + 7) / 8 - a / 8) (a / 8 * 8) h
  unfold readBytes; simp only []; split <;> exact this

theorem writeLine_wf (now line : Nat) (mask : BitVec 64) (data : BitVec 512) (w : Option Nat) (h : Memory.wf c.mem = true) :
    Memory.wf (c.writeLine now line mask data w).mem = true :=
  foldl_wf c _ (fun c i hc => by
    show Memory.wf (ite _ c _).mem = true
    split
    · exact hc
    · exact writeWord_wf _ _ _ _ _ hc) _ h

theorem storeVisible_wf (now a be : Nat) (v : DWord) (w src : Option Nat) (h : Memory.wf c.mem = true) :
    Memory.wf (c.storeVisible now a be v w src).mem = true := by
  rw [storeVisible, snoopAll_mem]; exact writeWord_wf _ _ _ _ _ h

theorem writeBytes_wf (now : Nat) (w : Option Nat) (fuel a : Nat) (l : List Byte) (h : Memory.wf c.mem = true) :
    Memory.wf (c.writeBytes now w fuel a l).mem = true := by
  induction fuel generalizing c a l with
  | zero => exact h
  | succ n ih =>
    cases l with
    | nil => exact h
    | cons b r => exact ih _ _ (storeVisible_wf _ _ _ _ _ _ h)

end Chip
end Sys2Proof.Machine
end

