-- ==== Sys2Proof/Tests/Slice0.lean ====
section
/-! SUPPORT. Tests on fixed values, each expected result from the specification, and for every statement a witness: states
and operands that meet the hypotheses of its clauses. -/
namespace Sys2Proof.Tests
open Sys2Proof.Machine
set_option autoImplicit false
set_option maxRecDepth 20000
set_option exponentiation.threshold 1024

/-! ### States -/

/-- Fields of registers set in turn. -/
def sets (c : Chip) (l : List (RegName × Fld × Nat)) : Chip := l.foldl (fun c e => c.sf e.1 e.2.1 e.2.2) c

/-- A state at a time with no command waiting. -/
def st (c : Chip) (now : Nat := 0) : State := ⟨BitVec.ofNat 64 now, c, []⟩

def l00 : LaneId := ⟨0, 0⟩
def l01 : LaneId := ⟨0, 1⟩

/-- A device out of reset that has loaded nothing. -/
def on : Chip := { off := false }

/-- Partition 0 runs and holds triad 0. -/
def part0 : Chip := sets on [(.PRT_CFG 0, PRT_CFG.DEFINED, 1), (.PRT_CFG 0, PRT_CFG.TRIADS, 1), (.PRT_STATE 0, PRT_STATE.STATE, 2)]

/-- Triad 0 in SPLIT mode, its cores running. -/
def split0 : Chip := sets part0 [(.CLU_TCFG 0, CLU_TCFG.MODE, 1), (.CLU_TSTATE 0, CLU_TSTATE.STATE, 7)]

/-- Triad 0 in TRIAD mode, voting with all three lanes. -/
def triad0 : Chip := sets part0 [(.CLU_TSTATE 0, CLU_TSTATE.STATE, 1), (.CLU_TSTATE 0, CLU_TSTATE.VOTE, 7)]

/-- Registers with values of interest. -/
def arch0 : Arch := { g := [(1, 1), (2, 2), (3, 0x80000000), (4, 0xFFFFFFFF)], f := [(1, 0x7F800001), (2, 0x3F800000)] }

/-- `split0` with lane 0 at given contents. -/
def withLane0 (c : Chip) (x : Lane) : State := st (c.setLane 0 x)

theorem split0_runs (i : Instr) : Runs (st split0) l00 i ∧ MayEnter (st split0) l00 :=
  ⟨⟨(by decide : ((st split0).chip.laneFree l00 && true) = true), by unfold Calm; decide⟩, by unfold MayEnter; decide⟩

/-- `split0` with DRAM on port 0, one window on it, and lane 0 with a page of it in its data TLB. -/
def dram0 : Chip := sets split0 [(.DRM_CFG 0, DRM_CFG.PRESENT, 1), (.PRT_WBASE 0 0, PRT_WBASE.EN, 1), (.PRT_WBASE 0 0, PRT_WBASE.W, 1),
  (.PRT_WBASE 0 0, PRT_WBASE.X, 1), (.PRT_WLIMIT 0 0, PRT_WLIMIT.LIMIT, 0xFFFF)]
def page0 : TlbE := ⟨0, 0, true, 3, 0, 0, true, true, true, true⟩
def rec0 (seq a : Nat) : StoreRec := { seq := seq, data := 0x1122334455667788, addr := BitVec.ofNat 40 a, be := 0xFF }
def line0 : CLine := { line := 1, data := 5 }

/-- A lane with its page, a store of 8 bytes at 0x20 in its buffer, line 1 in its data cache, `sp` at 0x40. -/
def lane0 : Lane :=
  { arch := { g := [(1, 1), (2, 2), (16, 7), (30, 0x40)] }, dtlb := [page0], itlb := [page0], storeSeq := 1
    sb := [{ item := .store (rec0 0 0x20) }], dcache := ({ ways := 8 } : L1).setWay 1 0 (some line0) }
def data0 : State := withLane0 dram0 lane0

/-! ### Witnesses: Prenyx -/

/-- Operands of every kind for the integer, carry and multiply statements: two lanes of one core, `g3` the most negative
number, `g4` minus one, `g0` zero. -/
theorem witness_integer :
    let s := withLane0 split0 { arch := arch0 }
    Runs s l00 (.add l00 .full 5 1 2) ∧ MayEnter s l00 ∧ ((s.lane l00).view.gr 3) = 0x80000000 ∧
      ((s.lane l00).view.gr 4) = 0xFFFFFFFF ∧ ((s.lane l00).view.gr 0) = 0 ∧ (5 : Reg).toNat % 2 = 1 ∧
      ((s.lane l00).view.gr 1) ≠ ((s.lane l00).view.gr 2) ∧ ((s.lane l00).view.gr 4).toInt < ((s.lane l00).view.gr 1).toInt := by
  unfold Runs Calm MayEnter; decide

/-- An odd and an even jump target, a taken and an untaken branch. -/
theorem witness_branches :
    let s := withLane0 split0 { arch := arch0 }
    Runs s l00 (.jmpr l00 1) ∧ MayEnter s l00 ∧ ((s.lane l00).view.gr 1).toNat % 2 = 1 ∧
      ((s.lane l00).view.gr 2).toNat % 2 = 0 ∧ ((s.lane l00).view.gr 31).toNat % 2 = 0 := by
  unfold Runs Calm MayEnter; decide

/-- A signalling NaN, a quiet NaN, and numbers. -/
theorem witness_floats :
    let s := withLane0 split0 { arch := arch0 }
    let nan (w : Word) : Prop := w.toNat / 2 ^ 23 % 256 = 255 ∧ w.toNat % 2 ^ 23 ≠ 0
    Runs s l00 (.fadd l00 3 1 2) ∧ nan ((s.lane l00).view.fr 1) ∧ ((s.lane l00).view.fr 1).getLsbD 22 = false ∧
      ¬ nan ((s.lane l00).view.fr 2) ∧ nan 0x7FC00000 := by
  unfold Runs Calm; decide

/-- A load that the store buffer answers, one that the data cache answers, a misaligned one. -/
theorem witness_loads :
    Runs data0 l00 (.ldW l00 .full 5 0 0x20) ∧ Unbegun (data0.lane l00) ∧ MayEnter data0 l00 ∧
      Reaches data0 l00 0x20 4 .load 0x20 ∧ Forwarded (data0.lane l00) 0x20 4 0x55667788 ∧
      Reaches data0 l00 0x40 8 .load 0x40 ∧ CacheHit data0 l00 0x40 8 5 ∧
      ((data0.lane l00).view.gr 1 + (0 : BitVec 13).signExtend 32).toNat % 4 ≠ 0 := by
  refine ⟨⟨by decide, by unfold Calm; decide⟩, by unfold Unbegun; decide, by unfold MayEnter; decide,
    ⟨by decide, page0, .dram 0, by decide, by decide, by decide, by decide⟩, by unfold Forwarded; decide,
    ⟨by decide, page0, .dram 0, by decide, by decide, by decide, by decide⟩,
    ⟨by decide, by decide, by decide, line0, by decide, by decide, by decide⟩, by decide⟩

/-- A store with room, one with a full buffer, a misaligned one. -/
theorem witness_stores :
    Runs data0 l00 (.stW l00 .full 1 0 0x20) ∧ MayEnter data0 l00 ∧ Reaches data0 l00 0x20 4 .store 0x20 ∧
      (data0.lane l00).sb.length < 8 ∧ (data0.lane l00).save = none ∧
      (let s := withLane0 dram0 { lane0 with sb := List.replicate 8 { item := .store (rec0 0 0x20) } }
       Runs s l00 (.stW l00 .full 1 0 0x20) ∧ Reaches s l00 0x20 4 .store 0x20 ∧ (s.lane l00).save = none ∧
         8 ≤ (s.lane l00).sb.length) := by
  refine ⟨⟨by decide, by unfold Calm; decide⟩, by unfold MayEnter; decide,
    ⟨by decide, page0, .dram 0, by decide, by decide, by decide, by decide⟩, by decide, by decide,
    ⟨by decide, by unfold Calm; decide⟩, ⟨by decide, page0, .dram 0, by decide, by decide, by decide, by decide⟩,
    by decide, by decide⟩

/-- `CALLM` with one register of the mask: its two pushes reach memory; the operands of each of its exceptions. -/
theorem witness_callm :
    Runs data0 l00 (.callm l00 2 1) ∧ MayEnter data0 l00 ∧ Unbegun (data0.lane l00) ∧
      Reaches data0 l00 0x3C 4 .store 0x3C ∧ Reaches data0 l00 0x38 4 .store 0x38 ∧
      ((data0.lane l00).view.gr 30).toNat % 4 = 0 ∧ ((data0.lane l00).view.gr 1).toNat % 2 = 1 ∧
      ((withLane0 dram0 { lane0 with arch := { g := [(30, 0x42)] } }).lane l00).view.gr 30 = 0x42 := by
  refine ⟨⟨by decide, by unfold Calm; decide⟩, by unfold MayEnter; decide, by unfold Unbegun; decide,
    ⟨by decide, page0, .dram 0, by decide, by decide, by decide, by decide⟩,
    ⟨by decide, page0, .dram 0, by decide, by decide, by decide, by decide⟩, by decide, by decide, by decide⟩

/-- `RETM` without a register: its one word, an even return address, is in the store buffer. -/
theorem witness_retm :
    let s := withLane0 dram0 { lane0 with arch := { g := [(30, 0x20)] } }
    Runs s l00 (.retm l00 0) ∧ Reaches s l00 0x20 4 .load 0x20 ∧ Forwarded (s.lane l00) 0x20 4 0x55667788 ∧
      (BitVec.ofNat 32 0x55667788).toNat % 2 = 0 := by
  refine ⟨⟨by decide, by unfold Calm; decide⟩, ⟨by decide, page0, .dram 0, by decide, by decide, by decide, by decide⟩,
    by unfold Forwarded; decide, by decide⟩

/-- `TRAP` with EXL clear, and with EXL set; an odd fetch address, a page without execute permission, one outside every
window; a return from level S. -/
theorem witness_traps :
    (let s := withLane0 split0 { arch := { status := SR.EXL.put 0 1 } }
     Runs s l00 (.trap l00 .full 1) ∧ (s.lane l00).arch.st SR.EXL = 1 ∧ (s.lane l00).halted = false) ∧
    (let s := withLane0 dram0 { lane0 with arch := { pc := 3 } }
     s.chip.laneFree l00 = true ∧ Calm s l00 ∧ (s.lane l00).waiting = none ∧ MayEnter s l00 ∧
       (s.lane l00).arch.pc.toNat % 2 = 1) ∧
    (let s := withLane0 dram0 { lane0 with itlb := [{ page0 with x := false }] }
     s.chip.laneFree l00 = true ∧ (s.lane l00).itlb.find? (fun e => e.hits 0 0 0) = some { page0 with x := false } ∧
       permits true false true true .fetch (s.lane l00).arch.pl = false) ∧
    (let s := withLane0 dram0 { lane0 with itlb := [{ page0 with page := 0x10000 }] }
     s.chip.laneFree l00 = true ∧ permits true true true true .fetch (s.lane l00).arch.pl = true ∧
       s.chip.window 0 (0x10000 * 4096) .fetch = none) ∧
    (let s := withLane0 split0 { arch := { status := SR.PL.put 0 1, estatus := SR.LDS.put 0 1 } }
     Runs s l00 (.xret l00) ∧ MayEnter s l00 ∧ (s.lane l00).save = none ∧ (s.lane l00).arch.pl = 1 ∧
       SR.PL.get (s.lane l00).arch.estatus = 0) ∧
    (Runs (st split0) l00 (.xret l00) ∧ ((st split0).lane l00).arch.pl = 0) ∧
    decodePrenyx l00 .full 1 = none := by
  unfold Runs Calm MayEnter; decide

/-- Levels 0 and 2 on a SPLIT core, a number outside the table, and a triad's lane. -/
theorem witness_control :
    Runs (st split0) l00 (.crd l00 1 0xFFF) ∧ MayEnter (st split0) l00 ∧ ((st split0).lane l00).arch.pl = 0 ∧
    (let s := withLane0 split0 { arch := { status := SR.PL.put 0 2 } }
     Runs s l00 (.cwr l00 0x007 1) ∧ (s.lane l00).arch.pl = 2 ∧ (s.lane l00).save = none) ∧
    (st split0).chip.split 0 = true ∧
    Runs (st triad0) l00 (.sample l00 1 0) ∧ MayEnter (st triad0) l00 ∧ (st triad0).chip.split 0 = false := by
  unfold Runs Calm MayEnter; decide

/-- A lane of a triad that asks, and one whose result is there. -/
theorem witness_agreed_reads :
    (Runs (st triad0) l00 (.tstat l00 1) ∧ ((st triad0).lane l00).areq = none) ∧
    (let s := st ((triad0.setLane 0 { areq := some ⟨.txstatus, 0⟩, presented := true, waiting := some (.tstat l00 1) }).setTriad 0
        { ares := [{ req := ⟨.txstatus, 0⟩, value := 5, err := false }] })
     Runs s l00 (.tstat l00 1) ∧ (s.lane l00).areq = some ⟨.txstatus, (s.lane l00).readSeq⟩ ∧ (s.lane l00).presented = true ∧
       (s.chip.triad 0).ares.find? (fun e => true && e.req == ⟨.txstatus, 0⟩) =
         some { req := ⟨.txstatus, 0⟩, value := 5, err := false }) := by
  unfold Runs Calm; decide

/-- A core with an event pending and events masked, one with none, one with a turn hint, one asleep past its time. -/
theorem witness_waits :
    (let s := st (split0.setPort 0 { pend := [0x1000] })
     s.chip.mayRun l00 (.waitev l00) = true ∧ (s.chip.port 0).tx.pendAbort = none ∧ (s.chip.port 0).dwe = [] ∧
       (s.lane l00).arch.st SR.EIE = 0 ∧ (s.lane l00).save = none ∧ (s.lane l00).replay = []) ∧
    (Runs (st split0) l00 (.waitev l00) ∧ ((st split0).chip.port 0).pend = []) ∧
    (let s := st ((split0.setLane 0 { arch := { status := SR.PL.put 0 1 } }).setPort 0 { hint := some ⟨1, 0xFFFF⟩ })
     Runs s l00 (.waitturn l00 1) ∧ (s.lane l00).arch.pl ≠ 0 ∧ (s.lane l00).sleepTill = none) ∧
    (let s := withLane0 split0 { waiting := some (.waitturn l00 1), sleepTill := some 0, devResult := some (7, false) }
     s.chip.laneFree l00 = true ∧ Calm s l00 ∧ (s.lane l00).waiting = some (.waitturn l00 1) ∧ 0 ≤ s.now.toNat) := by
  unfold Runs Calm; decide

/-- A fence with nothing before it and one with a store before it; a barrier group the lane is no member of, one at which it
waits, one whose round has ended. -/
theorem witness_fences :
    (Runs (st split0) l00 (.fenceI l00) ∧ ((st split0).lane l00).stores = [] ∧ ((st split0).chip.port 0).outq = [] ∧
      ((st split0).chip.port 0).devOut = [] ∧ ((st split0).lane l00).save = none) ∧
    (Runs data0 l00 (.fenceSl l00) ∧ ¬ (∀ r ∈ (data0.lane l00).stores, r.txn = true)) ∧
    (Runs (st split0) l00 (.barwait l00 3) ∧ ((st split0).lane l00).arch.bargroup.getLsbD 3 = false ∧ MayEnter (st split0) l00) ∧
    (let s := withLane0 split0 { barIn := [3] }
     Runs s l00 (.barwait l00 3) ∧ 3 ∈ (s.lane l00).barIn ∧ 3 ∉ (s.lane l00).barDone) ∧
    (let s := withLane0 split0 { barIn := [3], barDone := [3] }
     Runs s l00 (.barwait l00 3) ∧ 3 ∈ (s.lane l00).barDone) ∧
    (let s := withLane0 dram0 { lane0 with arch := { bargroup := 8 } }
     Runs s l00 (.barwait l00 3) ∧ (s.lane l00).arch.bargroup.getLsbD 3 = true ∧ s.chip.fencedAll (laneKey l00) = false) := by
  unfold Runs Calm MayEnter; decide

/-- Level U and level S; the last set and way of the data cache, and a set beyond it. -/
theorem witness_caches :
    (let s := withLane0 split0 { arch := { status := SR.PL.put 0 1, g := [(1, 0x3F07), (2, 0x4000)] } }
     Runs s l00 (.cacheInvalidate l00 .setWay false 1 0) ∧ MayEnter s l00 ∧ (s.lane l00).arch.pl ≠ 0 ∧
       (s.lane l00).stores = [] ∧ ((s.lane l00).view.gr 1).toNat / 2 ^ 8 % 128 = 63 ∧
       ((s.lane l00).view.gr 1).toNat % 8 = 7 ∧ (s.lane l00).dcache.ways = 8 ∧
       64 ≤ ((s.lane l00).view.gr 2).toNat / 2 ^ 8 % 128) ∧
    (Runs (st split0) l00 (.tlbinvAll l00) ∧ MayEnter (st split0) l00 ∧ ((st split0).lane l00).arch.pl = 0) ∧
    (let e : CLine := { line := 64 * 2 + 63, data := 0 }
     let x := ({ ways := 8 } : L1).setWay 63 7 (some e)
     x.at 63 7 = some e ∧ e.line % 64 = 63 ∧ x.way? e.line = some 7) := by
  unfold Runs Calm MayEnter; decide

/-- A SPLIT core outside a transaction, at depth 1 with its commit recorded and done, at depth 14, at depth 1 with an abort. -/
theorem witness_transactions :
    (Runs (st split0) l00 (.tbegin l00 0) ∧ ((st split0).lane l00).arch.depth = 0 ∧ MayEnter (st split0) l00 ∧
      (st split0).chip.gb (.CLU_L1CTL 0) CLU_L1CTL.DACT = true) ∧
    (let s := withLane0 split0 { arch := { txstatus := SR.DEPTH.put 0 14 }, save := some {} }
     Runs s l00 (.tbegin l00 0) ∧ (s.lane l00).arch.depth = 14) ∧
    (let s := withLane0 split0 { arch := { txstatus := SR.DEPTH.put 0 1 }, save := some {} }
     Runs s l00 (.tend l00) ∧ (s.lane l00).arch.depth = 1 ∧ (s.lane l00).progress = 0 ∧ (s.lane l00).sb.length < 8) ∧
    (let m : Commit := { key := 0, crec := ⟨0, 0, 0, 0⟩, part := 0, triad := 0, split := true, pos := 0, wset := [], rset := []
                         time := 0, stage := .done }
     let s := st ({ split0 with commits := [m] }.setLane 0
       { arch := { txstatus := SR.DEPTH.put 0 1 }, save := some {}, waiting := some (.tend l00), progress := 1, storeSeq := 1 })
     s.chip.mayRun l00 (.tend l00) = true ∧ Calm s l00 ∧ (s.lane l00).progress = 1 ∧
       s.chip.commits.find? (fun m => m.key == 0 && m.crec.seq + 1 == 1) = some m ∧ m.stage = .done) := by
  unfold Runs Calm MayEnter; decide

/-! ### Witnesses: the sluice -/

def sr (seq : Nat) (txn dev : Bool) : StoreRec := { rec0 seq 0x20 with txn := txn, dev := dev }
def owing (i : VRec) : Lane := { sb := [{ item := i }], storeSeq := 1 }

/-- A triad whose lane 0 owes a store. -/
def readyStore (c : Chip) (r : StoreRec) : Prop := c.off = false ∧ c.split 0 = false ∧ c.tstate 0 = tVoting ∧
  c.voting 0 = [0, 1, 2] ∧ (c.lane 0).nextRec = some (.store r) ∧ (c.triad 0).digs = []

/-- The first record, the second of a memory, a device and a transactional store, a late third that differs; SPLIT mode. -/
theorem witness_store_votes :
    (let c := triad0.setLane 0 (owing (.store (sr 0 false false)))
     readyStore c (sr 0 false false) ∧ (c.triad 0).fwdSeq = 0 ∧ (c.triad 0).recs = []) ∧
    (∀ p ∈ [(false, false), (false, true), (true, false)],
      let r := sr 0 p.1 p.2
      let c := (triad0.setLane 0 (owing (.store r))).setTriad 0 { recs := [(1, .store r)] }
      readyStore c r ∧ (c.triad 0).recs = [(1, .store r)] ∧ (c.triad 0).slogLeft = [] ∧ (c.port 0).dropTo ≤ r.seq ∧
        c.gb (.CLU_TSTATE 0) CLU_TSTATE.LOGFULL = false ∧ (c.port 0).tx.ended = false ∧ (c.port 0).tx.first ≤ r.seq ∧
        (c.port 0).outq = [] ∧ (c.port 0).devOut.length < 8) := by
  unfold readyStore; decide

theorem witness_store_verdicts :
    (let c := (sets triad0 [(.CLU_TCFG 0, CLU_TCFG.REBUILDLIM, 1)]).setLane 0 (owing (.store (sr 0 false false)))
     let c := c.setTriad 0 { fwdSeq := 1, fwd := [.store (sr 0 true false)] }
     readyStore c (sr 0 false false) ∧ (c.triad 0).fwd.find? (fun v => v.seq == 0) = some (.store (sr 0 true false)) ∧
       (c.triad 0).verdicts.length < c.gf (.CLU_TCFG 0) CLU_TCFG.REBUILDLIM) ∧
    (let c := split0.setLane 0 (owing (.store (sr 0 false false)))
     c.off = false ∧ c.split 0 = true ∧ c.tstate 0 = tSplit ∧ (c.lane 0).nextRec = some (.store (sr 0 false false)) ∧
       (c.port 0).outq = []) := by
  unfold readyStore; decide

def crec0 : CommitRec := ⟨1, 0, 0, 0⟩
def dig0 : DigRec := ⟨0, .interval, 0, 0, {}⟩

/-- A commit record in either mode, with an earlier store not yet visible; the first and the second digest; a held triad. -/
theorem witness_commit_digest_votes :
    (let c := (triad0.setLane 0 (owing (.commit { crec0 with seq := 0 })))
     (c.lane 0).nextRec = some (.commit { crec0 with seq := 0 }) ∧ c.tstate 0 = tVoting ∧ c.voting 0 = [0, 1, 2] ∧
       (c.triad 0).recs = [] ∧ (c.triad 0).digs = [] ∧ (c.triad 0).fwdSeq = 0) ∧
    (let c := (split0.setLane 0 (owing (.commit crec0))).setPort 0 { outq := [sr 0 false false] }
     (c.lane 0).nextRec = some (.commit crec0) ∧ c.split 0 = true ∧ c.tstate 0 = tSplit ∧ (c.port 0).tx.pendAbort = none ∧
       (∃ e ∈ (c.port 0).outq, e.dev = false ∧ e.seq < crec0.seq) ∧ c.commits = []) ∧
    (let c := (triad0.setLane 0 { digests := [dig0] }).setTriad 0 { digs := [(1, dig0)] }
     c.tstate 0 = tVoting ∧ c.voting 0 = [0, 1, 2] ∧ (c.lane 0).digests = [dig0] ∧ (c.triad 0).recs = [] ∧
       dig0.no = (c.triad 0).digNext ∧ c.gb (.CLU_TSTATE 0) CLU_TSTATE.DBGHOLD = false ∧ (c.triad 0).sluReq = false ∧
       (c.triad 0).releasing = false ∧ dig0.staged.save = none) ∧
    (sets triad0 [(.CLU_TSTATE 0, CLU_TSTATE.DBGHOLD, 1)]).gb (.CLU_TSTATE 0) CLU_TSTATE.DBGHOLD = true := by
  decide

/-- A running core with DRAM for its control store, a repair under way, a bad control-store word of a powered core. -/
theorem witness_local_errors :
    (dram0.laneFree l00 = true ∧ dram0.coreOf 0 0 < 104 ∧ dram0.split 0 = true ∧ dram0.gb (.DRM_CFG 0) DRM_CFG.PRESENT = true) ∧
    on.laneFree l00 = false ∧
    ((dram0.setLane 0 { repairing := some 5 }).lane 0).repairing = some 5 ∧
    (let c := dram0.setStore 103 { badWords := [8191] }
     c.domainOn (1 + 103 / 13) = true ∧ 8191 ∈ (c.cstore 103).badWords) := by
  decide

/-- Lane 0 owes a record for 50 µs, with the spare free and with it in use; a rebuild that may end, a swap, a restart. -/
theorem witness_failures :
    (let c := triad0.setTriad 0 { nextSeq := [(1, 1), (2, 1)] }
     c.off = false ∧ c.tstate 0 = tVoting ∧ c.voting 0 = [0, 1, 2] ∧ c.owes 0 0 = true ∧ (c.triad 0).lastRec.get 0 0 + 50000 ≤ 50000 ∧
       c.coreOf 0 0 % 13 ≠ 12 ∧ c.spareFree 0 = true ∧ (sets c [(.CLU_SPARE 0, CLU_SPARE.STATE, 1)]).spareFree 0 = false) ∧
    (let c := (sets triad0 [(.CLU_TSTATE 0, CLU_TSTATE.STATE, tRebuild), (.CLU_TSTATE 0, CLU_TSTATE.VOTE, 6)]).setTriad 0
       { rebuild := some { lane := 0, swap := false, ready := true } }
     c.tstate 0 = tRebuild ∧ c.voting 0 = without [0, 1, 2] 0 ∧ (c.triad 0).elog = [] ∧ (c.triad 0).haltReq = false) ∧
    (let c := (sets triad0 [(.CLU_TSTATE 0, CLU_TSTATE.STATE, tRebuild), (.CLU_LANEMAP 0, ⟨3, 0⟩, 12)]).setTriad 0
       { rebuild := some { lane := 0, swap := true, compared := false } }
     c.tstate 0 = tRebuild ∧ c.coreOf 0 0 % 13 = 12) ∧
    (let c := (sets triad0 [(.CLU_TSTATE 0, CLU_TSTATE.STATE, tRestart)]).setTriad 0 { restarting := true }
     c.tstate 0 = tRestart ∧ (c.triad 0).alive = [0, 1, 2] ∧ c.flt.deviceBrake = false ∧
       ∀ i < 3, (c.lane (3 * 0 + i)).replay = []) ∧
    (let c := sets triad0 [(.CLU_TCFG 0, CLU_TCFG.RSTWIN, 1), (.CLU_TSTATE 0, CLU_TSTATE.RSTUSED, 1)]
     c.gb (.CLU_TSTATE 0) CLU_TSTATE.RSTUSED = true ∧ (c.triad 0).rstUsedAt + 1000000 * c.gf (.CLU_TCFG 0) CLU_TCFG.RSTWIN ≤ 1000000) := by
  decide

/-- The manager may command triad 0 in every state the statement names; an agent that may not; a covered triad. -/
theorem witness_triad_commands :
    triad0.tctlOk .manager 0 = true ∧ triad0.tctlOk .host 0 = false ∧ triad0.covered 0 = false ∧ triad0.tstate 0 = tVoting ∧
    { triad0 with flt := { deviceBrake := true } }.covered 0 = true ∧ on.tctlOk .manager 0 = true ∧ on.tstate 0 = tIdle ∧
    split0.tctlOk .manager 0 = true ∧ split0.splitRuns 0 = true ∧
    (let c := sets triad0 [(.CLU_TCFG 0, CLU_TCFG.SLUPER, 1)]
     c.gf (.CLU_TCFG 0) CLU_TCFG.SLUPER ≠ 0 ∧ (c.triad 0).sluAt + 10000000 * c.gf (.CLU_TCFG 0) CLU_TCFG.SLUPER ≤ 10000000) := by
  decide

/-- A triad that a debugger may reach, in each state, stopped, and held. -/
theorem witness_debug :
    let c := sets triad0 [(.CLU_TCFG 0, CLU_TCFG.DBGEN, 1)]
    c.debugOk 0 = true ∧ c.tstate 0 = tVoting ∧ triad0.debugOk 0 = false ∧
      (sets c [(.CLU_TSTATE 0, CLU_TSTATE.STATE, tRestart)]).debugOk 0 = true ∧
      (c.setTriad 0 { holdAt := some 0 }).stopped 0 = true ∧
      ((sets c [(.DRM_CFG 0, DRM_CFG.PRESENT, 1)]).region 0).isMem = true ∧ c.region 0x5000000000 = .unmapped ∧
      (sets c [(.CLU_TSTATE 0, CLU_TSTATE.DBGHOLD, 1)]).debugOk 0 = true := by
  decide

/-! ### Witnesses: events, rounds, fills, stores -/

def evOn : Word := SR.EIE.put 0 1

/-- A timer that has reached DUE; the first and the third report; a count reached by three equal lanes. -/
theorem witness_events :
    (let c := sets triad0 [(.CLU_EVTIMER 0 3, CLU_EVTIMER.DUE, 5)]
     c.eventArmed 5 (c.portKey 0 0) (.timer 3) = true ∧ c.eventArmed 4 (c.portKey 0 0) (.timer 3) = false ∧ c.following = false ∧
       c.gf (.CLU_EVTIMER 0 3) CLU_EVTIMER.DUE ≤ c.timeNow 5) ∧
    (let c := triad0.setTriad 0 { round := some {} }
     (c.triad 0).round = some {} ∧ (c.lane 0).waiting = none ∧ Chip.opportunity (c.lane 0) = true) ∧
    (let c := (triad0.setTriad 0 { round := some { reports := [(1, 4), (2, 6)] } }).setPort 0 { pend := [0x1000] }
     (c.triad 0).round = some { reports := [(1, 4), (2, 6)] } ∧ (c.port 0).dwe = [] ∧ (c.triad 0).held = .none ∧
       c.gb (.CLU_TSTATE 0) CLU_TSTATE.LOGFULL = false ∧ ∀ i < 3, (c.lane (3 * 0 + i)).waiting = none) ∧
    (let l : Lane := { arch := { status := evOn }, retired := 9 }
     let c := (((triad0.setTriad 0 { round := some { c := some 9, sel := .event 0x1000 } }).setPort 0 { pend := [0x1000] }).setLane 0
       l).setLane 1 l |>.setLane 2 l
     c.tstate 0 = tVoting ∧ c.snap = none ∧ (c.port 0).pend = [0x1000] ∧ 0x1000 < 2 ^ 13 ∧
       (∀ i < 3, (c.lane (3 * 0 + i)).retired = 9 ∧ (c.lane (3 * 0 + i)).save = none ∧
         Chip.opportunity (c.lane (3 * 0 + i)) = true ∧ (c.lane (3 * 0 + i)).arch = (c.lane (3 * 0)).arch) ∧
       Chip.deliverable (c.lane 0).arch = true) := by
  decide

/-- A line that one lane holds and one that none holds, in each mode; a waiting queue. -/
theorem witness_invalidations :
    (let c := triad0.setLane 2 lane0
     (∃ j, j < 3 ∧ ((c.lane (3 * 0 + j)).dcache.find 1).isSome) ∧ 1 ∉ (c.port 0).tx.rset ∧ (c.triad 0).invq.length < 64) ∧
    (∀ j < 3, (triad0.lane (3 * 0 + j)).dcache.find 1 = none ∧ (triad0.lane (3 * 0 + j)).fills = []) ∧
    (split0.split 0 = true ∧ ∀ j < 3, 1 ∉ (split0.port (3 * 0 + j)).tx.rset) ∧
    (let c := triad0.setTriad 0 { invq := [1] }
     c.live 0 = true ∧ c.following = false ∧ (c.triad 0).round = none ∧ (c.triad 0).invq ≠ []) := by
  decide

/-- A lane that misses, with an empty bin and with a snapshot of another lane, and a SPLIT core that misses. -/
theorem witness_fills :
    let l : Lane := { miss := some (false, 7) }
    let f : Fill := { line := 7, count := 0, data := 0 }
    (let c := triad0.setLane 0 l
     c.laneFree l00 = true ∧ c.dataMiss 0 7 = true ∧ (c.lane 0).save = none ∧ (c.triad 0).bin = [] ∧ c.ecc = []) ∧
    (let c := (triad0.setLane 0 l).setTriad 0 { bin := [⟨f, [1]⟩] }
     c.laneFree l00 = true ∧ c.dataMiss 0 7 = true ∧ (c.triad 0).bin = [⟨f, [1]⟩] ∧ c.votes 0 0 = true ∧ f.count = (c.lane 0).retired) ∧
    (let c := split0.setLane 0 l
     c.laneFree l00 = true ∧ c.dataMiss 0 7 = true ∧ c.split 0 = true) := by
  decide

/-- The first request, the second, and an agreed `TIMEBASE` read. -/
theorem witness_read_votes :
    let r : AReq := ⟨.timebase, 0⟩
    (let c := triad0.setLane 0 { areq := some r }
     c.tstate 0 = tVoting ∧ c.voting 0 = [0, 1, 2] ∧ (c.lane 0).areq = some r ∧ (c.lane 0).presented = false ∧ (c.triad 0).areqs = []) ∧
    (let c := (triad0.setLane 0 { areq := some r }).setTriad 0 { areqs := [(1, r)] }
     (c.triad 0).areqs = [(1, r)] ∧ (c.triad 0).rlogLeft = [] ∧ (c.triad 0).ares = [] ∧ (c.triad 0).aready = []) ∧
    (let c := triad0.setTriad 0 { aready := [(r, 0)] }
     c.gb (.CLU_TSTATE 0) CLU_TSTATE.LOGFULL = false ∧ c.following = false ∧ (c.triad 0).leatReads = [] ∧
       (c.triad 0).aready = [(r, 0)]) := by
  decide

/-- A sweep of a SPLIT core at a line; a walk with a leaf at level 1; a permitted write of `CLU_L1CTL`. -/
theorem witness_sweeps :
    (let c := (sets dram0 [(.CLU_SWEEP 0 0, CLU_SWEEP.BUSY, 1)]).setSweep 0 { op := 2, key := 0, left := 2, page := some 0 }
     c.domainOn 1 = true ∧ c.sweepSlot 0 = some 0 ∧ (c.sweep 0).left = 0 + 2 ∧ (c.sweep 0).page = some 0 ∧
       (c.region (0 + (c.sweep 0).va % 4096)).isMem = true ∧
       c.gb (.CLU_L1CTL 0) CLU_L1CTL.DEN = c.gb (.CLU_L1CTL 0) CLU_L1CTL.DACT) ∧
    (let c := dram0.storeWord 0 0x49
     c.laneFree l00 = true ∧ ∃ c1 w, c.walk 0 0 0 0 .load 0 = (c1, .ok w)) ∧
    dram0.mayWrite .manager (.CLU_L1CTL 0) = true := by
  refine ⟨by decide, ⟨by decide, ?_⟩, by decide⟩
  exact ⟨_, _, rfl⟩

/-! ### Witnesses: memory, registers, banks, arbiters, governor, mill book -/

def w0 : WLine := ⟨1, 0xFF, 0x1122334455667788⟩
def m0 (stage : CommitStep) (off : Option Nat) : Commit :=
  { key := 0, crec := ⟨0, 0, 0, 1⟩, part := 0, triad := 0, split := true, pos := 0, cseq := some 1, wset := [w0], rset := []
    time := 0, off := off, stage := stage }

/-- A store at the front of its port, alone and behind a commit that holds its line; a commit that waits for room in the ring
with a partner there, and one held back before its entry is written. -/
theorem witness_stores_reach_memory :
    (let c := dram0.setPort 0 { outq := [rec0 0 0x20] }
     c.off = false ∧ ((st c).lane l00).devLoad = none ∧ c.portKey 0 0 = 0 ∧ (c.port 0).outq = [rec0 0 0x20] ∧
       c.lineHeld (lineOf 0x20) (some 0) = false ∧ c.ecc = [] ∧ c.commits = [] ∧ c.snap = none) ∧
    (let c : Chip := { dram0.setPort 0 { outq := [rec0 0 0x40] } with commits := [{ m0 .ack (some 0) with key := 5, rset := [1] }] }
     c.off = false ∧ ((st c).lane l00).devLoad = none ∧ c.lineHeld (lineOf 0x40) (some 0) = true) ∧
    (let c : Chip := { sets dram0 [(.PAR_STAT, PAR_STAT.STATE, 2)] with commits := [m0 .ring none] }
     c.off = false ∧ c.ringFits (entryBytes 1) = true ∧ c.paired = true) ∧
    (let c : Chip := { dram0 with commits := [m0 .hold none] }
     c.off = false ∧ c.ecc = [] ∧ 64 * w0.line + 64 ≤ journalBase ∧ c.gb .SYS_SNAP SYS_SNAP.BUSY = false) := by
  decide

/-- A write of `FLT_ERRMASK` by the manager's partition and by another one; one not answered for the whole limit; a device load
of a SPLIT core and one of a triad, neither answered. -/
theorem witness_device_accesses :
    let w : DevOut := ⟨0, BitVec.ofNat 40 RegName.FLT_ERRMASK.addr, 5, 0⟩
    let own (p t : Nat) (c : Chip) : Chip :=
      sets c [(.PRT_CFG p, PRT_CFG.DEFINED, 1), (.PRT_CFG p, PRT_CFG.TRIADS, 2 ^ t), (.PRT_STATE p, PRT_STATE.STATE, 2)]
    let c := split0.setPort 0 { devOut := [w] }
    let d := (sets (own 1 1 split0) [(.CLU_TCFG 1, CLU_TCFG.MODE, 1), (.CLU_TSTATE 1, CLU_TSTATE.STATE, 7)]).setPort 3
      { devOut := [w] }
    (c.off = false ∧ (c.port 0).devOut = [w] ∧ (c.port 0).outq = [] ∧ c.commits = [] ∧ c.snap = none ∧
      c.domainOn 0 = true ∧ c.portKey 0 0 = 0 ∧ c.isMgrPart (c.keyPart 0) = true ∧ w.issued + c.devLimit ≤ 10000000000) ∧
    (d.off = false ∧ (d.port 3).devOut = [w] ∧ d.portKey 1 0 = 3 ∧ d.isMgrPart (d.keyPart 3) = false) ∧
    (let s := st (split0.setLane 0 { devLoad := some (w.addr, 0) }) 10000000000
     s.chip.split 0 = true ∧ (s.lane l00).devLoad = some (w.addr, 0) ∧ (s.lane l00).devResult = none ∧
       0 + s.chip.devLimit ≤ s.now.toNat) ∧
    (let s := st (triad0.setTriad 0 { aready := [(⟨.load w.addr, 0⟩, 0)] }) 10000000000
     s.chip.split 0 = false ∧ s.chip.off = false ∧ s.chip.following = false ∧ s.chip.live 0 = true ∧
       s.chip.gb (.CLU_TSTATE 0) CLU_TSTATE.LOGFULL = false ∧ (s.chip.triad 0).aready = [(⟨.load w.addr, 0⟩, 0)] ∧
       0 + s.chip.devLimit ≤ s.now.toNat) := by
  decide

/-- The manager writes; partition 1 may not write the collector's registers, and may write its triad's timers. -/
theorem witness_register_writes :
    on.off = false ∧ on.domainOn 0 = true ∧ on.domainOn 8 = true ∧ on.mayWrite (.part 1) .FLT_ERRMASK = false ∧
    SYS_DEVTIMEOUT.LIMIT.get (5 : BitVec 64) ≠ on.gf .SYS_DEVTIMEOUT SYS_DEVTIMEOUT.LIMIT ∧
    part0.mayWrite (.part 0) (.CLU_EVTIMER 0 3) = true ∧ part0.mayWrite (.part 1) (.CLU_EVTIMER 31 3) = false ∧
    (sets on [(.SYS_PWRSTAT, SYS_PWRSTAT.ON, 1)]).domainOn 8 = false ∧ on.region 0x8000000000 ≠ .register := by
  decide

/-- The first and last address bits, and a word of ones with check bits of ones. -/
theorem witness_ecc :
    (eccDecode 0x1234 (eccCheck 0x1234 0xFFFFFFFFF8) 0xFFFFFFFFF8).2.1 = .clean ∧
    (eccDecode 0x1235 (eccCheck 0x1234 0xFFFFFFFFF8) 0xFFFFFFFFF8) = (0x1234, .corrected, eccCheck 1 0) ∧
    (eccDecode 0x1234 (eccCheck 0x1234 0x8) (0x8 ^^^ 2 ^ 39 ^^^ 2 ^ 3)).2.1 = .uncorrectable := by
  decide +kernel

/-- Bank 63: a write to partition 0 and one of TYPE 5; a handover with nothing in its way, which clears; the manager's bank and
its aliases, another agent's. -/
theorem witness_banks :
    let a := setBase + 0x80000 * 63
    let b := clearBase + 0x80000 * 63
    let mine := sets part0 [(.BNK_OWNER 63, BNK_OWNER.TYPE, 1), (.BNK_OWNER 63, BNK_OWNER.PART, 0)]
    part0.mayWrite .manager (.BNK_OWNER 63) = true ∧ part0.handoverBad 63 (BNK_OWNER.TYPE.put 0 1) = false ∧
    part0.handoverBad 63 (BNK_OWNER.TYPE.put 0 5) = true ∧ part0.mayWrite (.part 1) (.BNK_OWNER 63) = false ∧
    ({ on with handovers := [(63, 1, 0, true)] } : Chip).bankGated 63 = false ∧
    ({ on with commits := [{ m0 .ring none with wset := [⟨(bankBase + 0x80000 * 63) / 64, 1, 0⟩] }] } : Chip).bankGated 63 = true ∧
    mine.region a = .bitSet 63 ∧ mine.region b = .bitClear 63 ∧ mine.agentOwns .manager 63 = true ∧
    mine.domainOn (9 + 63 / 8) = true ∧ mine.ecc = [] ∧ mine.agentOwns (.part 1) 63 = false := by
  decide

/-- The last line of bank 63 with its last check bit flipped; the last region and the last line of 8 GiB of DRAM on port 0. -/
theorem witness_scrubs :
    let a := bankBase + 0x2000000 - 64
    let d := sets on [(.DRM_CFG 0, DRM_CFG.PRESENT, 1), (.DRM_CFG 0, DRM_CFG.TRAINED, 1)]
    on.region a = .bank 63 ∧ on.domainOn (9 + 63 / 8) = true ∧ a % 64 = 0 ∧
    ({ on with ecc := [(a / 8, BitVec.ofNat 72 (2 ^ 71))] } : Chip).ecc = [(a / 8, BitVec.ofNat 72 (2 ^ 71))] ∧
    d.gb (.DRM_CFG 0) DRM_CFG.TRAINED = true ∧ d.region (dramBase 0 + 0x100000 * 8191) = .dram 0 ∧ d.ecc = [] ∧
    64 * ((2 ^ 27 - 1) + 1) = d.dramSize 0 ∧ on.gb (.DRM_CFG 0) DRM_CFG.TRAINED = false := by
  decide

/-- Port 0 before port 97, the last of the cores. -/
theorem witness_arbitration :
    let c := sets part0 [(.ARB_PORT 0, ARB_PORT.WEIGHT, 1), (.ARB_PORT 97, ARB_PORT.WEIGHT, 1), (.ARB_PORT 97, ARB_PORT.CLASS, 1)]
    c.off = false ∧ (c.arb 10).reqs = [] ∧ (c.arb 10).credit = [] ∧ (c.arb 10).win1 = [] ∧ (c.arb 10).win2 = [] ∧
    c.gf (.ARB_PORT 0) ARB_PORT.WEIGHT ≠ 0 ∧ c.gf (.ARB_PORT 97) ARB_PORT.WEIGHT ≠ 0 ∧
    (c.reqRank 0).1 < (c.reqRank 97).1 ∧
    c.mayWrite .manager (.ARB_PORT 0) = true ∧ c.mayWrite .manager (.ARB_LONG 343) = true ∧
    c.mayWrite (.part 1) (.ARB_PORT 0) = false ∧ c.mayWrite (.part 1) (.ARB_LONG 343) = false := by
  decide

/-- Readings below and above FLOOR plus MARGIN, the last step below 900 mV; a third transaction not acknowledged, a retry due; a
missed floor; permitted and refused writes, FLOOR at both ends of its range. -/
theorem witness_governor :
    let mons (v : Nat) := List.replicate 13 (BitVec.ofNat 12 v)
    let c := sets on [(.GOV_VOLT, GOV_VOLT.CMD, 895), (.GOV_FLOOR, GOV_FLOOR.FLOOR, 1000), (.GOV_FLOOR, GOV_FLOOR.BASE, 900)]
    c.off = false ∧ c.speedIndex (mons 5) = some (0, 5) ∧ c.govHeld = false ∧ 5 < c.govFloor + c.govMargin ∧ c.govCmd < 900 ∧
    c.speedIndex (mons 4000) = some (0, 4000) ∧ c.govFloor + c.govMargin ≤ 4000 ∧ c.gov.aboveSince = none ∧
    c.gov.retryAt = none ∧ c.gov.belowSince = none ∧
    (sets c [(.GOV_CTRL, GOV_CTRL.HOLD, 1)]).govHeld = true ∧ ({ c with gov := { nacks := 2 } } : Chip).gov.nacks = 2 ∧
    ({ c with gov := { retryAt := some 1000000 } } : Chip).gov.retryAt = some 1000000 ∧
    (let d := { sets c [(.GOV_VOLT, GOV_VOLT.CMD, 900)] with gov := { belowSince := some 0 } }
     d.speedIndex (mons 5) = some (0, 5) ∧ 5 < d.govFloor ∧ d.govCmd = 900 ∧ 0 + 20000 ≤ 20000 ∧
       d.gb .GOV_STATUS GOV_STATUS.FLOORMISS = false) ∧
    c.flt.deviceBrake = false ∧ c.mayWrite .manager .GOV_CTRL = true ∧ c.mayWrite .manager .GOV_FLOOR = true ∧
    c.gb .GOV_STATUS GOV_STATUS.RECALBUSY = false ∧ (sets c [(.GOV_STATUS, GOV_STATUS.RECALBUSY, 1)]).govHeld = true ∧
    c.mayWrite .host .GOV_CTRL = false ∧ c.mayWrite .host .GOV_FLOOR = false ∧
    (∀ n ∈ [900, 2400], c.gf .GOV_FLOOR GOV_FLOOR.BASE ≤ GOV_FLOOR.FLOOR.get (GOV_FLOOR.FLOOR.put (0 : DWord) n) ∧
      GOV_FLOOR.FLOOR.get (GOV_FLOOR.FLOOR.put (0 : DWord) n) ≤ 2400) ∧
    (∀ n ∈ [899, 2401], GOV_FLOOR.FLOOR.get (GOV_FLOOR.FLOOR.put (0 : DWord) n) < c.gf .GOV_FLOOR GOV_FLOOR.BASE ∨
      2400 < GOV_FLOOR.FLOOR.get (GOV_FLOOR.FLOOR.put (0 : DWord) n)) := by
  decide

/-- No save runs, one runs, its first try and its second; the interval just over and not yet. -/
theorem witness_mill_book :
    on.mayWrite .manager .BOK_CTL = true ∧ on.mayWrite .host .BOK_CTL = false ∧ on.misc.save = none ∧
    on.saveDue (60000000000 * on.gf .BOK_POLICY BOK_POLICY.INTERVAL) = true ∧
    (sets on [(.BOK_POLICY, BOK_POLICY.INTERVAL, 10)]).saveDue (600000000000 - 1) = false ∧
    ∀ b, ({ on with misc := { save := some (1, 15, b) } } : Chip).misc.save = some (1, 15, b) := by
  decide

/-! ### Witnesses: the millrace and its engines -/

/-- Queue 7 of partition 0 with rings of 32 entries in DRAM and path 3, an Ethernet path of lane 2 whose link is up. -/
def mill0 : Chip := sets dram0 [(.QUE_CFG 7, QUE_CFG.EN, 1), (.QUE_CFG 7, QUE_CFG.PATH, 3), (.QUE_STAT 7, QUE_STAT.STATE, 1),
  (.QUE_HR 7, QUE_HR.BASE, 0x1000 / 64), (.QUE_HR 7, QUE_HR.LOG2, 5), (.QUE_TR 7, QUE_TR.BASE, 0x2000 / 32), (.QUE_TR 7, QUE_TR.LOG2, 5),
  (.QUE_CTLA 7, QUE_CTLA.BASE, 0x3000 / 128), (.CHN_PATHCFG 3, CHN_PATHCFG.EN, 1), (.CHN_PATHCFG 3, CHN_PATHCFG.LANE, 2),
  (.CHN_PATHCFG 3, CHN_PATHCFG.QUOTA, 8), (.CHN_TAGS, CHN_TAGS.FREE, 100), (.LAN_CFG 2, LAN_CFG.EN, 1), (.LAN_STAT 2, LAN_STAT.LINK, 1),
  (.LAN_CFG 2, LAN_CFG.MAXFRAME, 1518)]
def step0 (op param dsel ssel len aux : Nat) (last : Bool := true) : PStep :=
  { op := op, param := param, qpath := true, pathNo := 0, dsel := dsel, ssel := ssel, last := last, addr := 0x4000, len := len, aux := aux }
def prog0 (x : PStep) (stage : Option Staged := none) : Prog :=
  { gen := 0, id := 5, buf0 := 0x5000, len0 := 4, buf1 := 0, len1 := 0, aux0 := 0, base := 0x6000, pc := 0x6000, cur := x, stage := stage }
def onCpu (c : Chip) (p : Prog) : Chip :=
  let c := c.setQue 7 { prog := some p }
  { c with chan := { c.chan with cpus := [(15, 7)] } }
def staged0 (n : Nat) : Staged := ⟨List.replicate n 7, 1, 3, none⟩
/-- Queue 7 with its entry counter at 1 and a `JUMP` with COND 2 at 0x6020, in memory. -/
def mem0 : Chip := { mill0 with filled := [(0, [0])], mem := [(0x3000, 1), (0x6020, 9), (0x6026, 2)] }

def jump0 : PStep := { op := 9, param := 2, qpath := false, pathNo := 0, dsel := 0, ssel := 0, last := false, addr := 0, len := 0, aux := 0 }

/-- `MayPut` as a check. -/
def canPut (c : Chip) (q a n : Nat) : Bool :=
  c.rangeHeld a n == false && c.rangeStatus (c.queOwner q) a n == 0 && c.ecc == [] && decide (a + n ≤ journalBase) &&
    (match c.queOwner q with | some o => c.gb (.PRT_LOGCFG o) PRT_LOGCFG.EN == false | none => true)

theorem mayPut_of_canPut {c : Chip} {q a n : Nat} (h : canPut c q a n = true) : c.MayPut q a n := by
  simp only [canPut, Bool.and_eq_true, beq_iff_eq, decide_eq_true_eq] at h
  obtain ⟨⟨⟨⟨h1, h2⟩, h3⟩, h4⟩, h5⟩ := h
  refine ⟨h1, h2, h3, h4, fun o ho => ?_⟩
  rw [ho] at h5
  simpa using h5


/-- A program at a `SEND` behind a frame in flight on processor 15; programs at a `RECV`, a `WAIT`, a `COPY`, a `JUMP`
back to its start, one past the last step, a `MARK`. -/
theorem witness_program_steps :
    let egr : EFrame := { path := 3, cls := 0, prio := 0, arr := 0, bytes := [] }
    (let p := prog0 (step0 1 0 0 4 0 0) (some (staged0 64))
     let c := (onCpu mill0 p).setEg 2 { cur := some egr }
     c.StepReady 7 p 1 ∧ c.stepPath 7 p.cur = 3 ∧ c.pathStatus 7 3 = 0 ∧ c.pWcp 3 = false ∧ c.pLane 3 = 2 ∧
       c.gf (.CHN_PATHCFG 3) CHN_PATHCFG.QUOTA ≠ 0 ∧ c.tagFree 3 = true ∧ (c.laneFrame 3 (staged0 64).bytes).isSome = true ∧
       c.muted = false ∧ c.flt.deviceBrake = false ∧ c.flt.partBrakes = [] ∧ c.linkUp 2 = true ∧ (c.eg 2).cur = some egr) := by
  unfold Chip.StepReady; decide

theorem witness_program_waits :
    (let p := prog0 (step0 2 0 1 0 64 0)
     (onCpu mill0 p).StepReady 7 p 2 ∧ (p.buffer p.cur.dsel).isSome = true) ∧
    (let p := prog0 (step0 3 0 0 0 0 100)
     (onCpu mill0 p).StepReady 7 p 3 ∧ p.cur.opt % 4 = 0 ∧ p.aux = 100 ∧ (onCpu mill0 p).following = false) ∧
    (let p := prog0 (step0 8 0 1 4 64 0) (some (staged0 64))
     (onCpu mill0 p).StepReady 7 p 8 ∧ (p.buffer p.cur.dsel).isSome = true) := by
  unfold Chip.StepReady; decide

theorem witness_program_jumps :
    (let p := prog0 (step0 9 2 0 0 0 0)
     (onCpu mill0 p).StepReady 7 p 9 ∧ p.cur.opt % 4 = 2 ∧ p.prevOk = true ∧ p.cur.last = true) ∧
    (let p := prog0 (step0 9 0 0 0 0 0x6020)
     let c := onCpu mem0 p
     c.StepReady 7 p 9 ∧ p.cur.opt % 4 = 0 ∧ p.count < 256 ∧ p.aux % 2 ^ 40 / 32 * 32 = 0x6020 ∧
       jump0.known = true) ∧
    (let p := prog0 (step0 11 0 1 0 32 9)
     let c := onCpu mill0 p
     c.StepReady 7 p 11 ∧ p.cur.dsel = 1 ∧ 32 ≤ p.cur.len ∧ canPut c 7 p.cur.addr 32 = true) := by
  unfold Chip.StepReady; decide

/-- Queue 7: an entry to take and a doorbell to see; a completion to write into an empty tailrace; a program at a `NOTIFY`, at the
end of a `COPY`, at a `RECV` and at a `WAIT` whose times have come. `lineA_mem0`, `lineA_mem0_door` and `fetch_mem0` give the reads. -/
theorem witness_queue_rings :
    (mem0.millOn = true ∧ mem0.queEn 7 = true ∧ mem0.queState 7 ≠ 5 ∧ mem0.gb .SYS_SNAP SYS_SNAP.BUSY = false ∧
      (mem0.que 7).prog = none ∧ mem0.hrSize 7 = 32 ∧ (1 + 65536 - (mem0.que 7).hrhead) % 65536 ≤ 32 ∧ 1 ≠ (mem0.que 7).door ∧
      32 < (1 + 65536 - ((mem0.setQue 7 { hrhead := 40 }).que 7).hrhead) % 65536) ∧
    (let c := mem0.setQue 7 { door := 1 }
     c.millOn = true ∧ c.chan.cpus.keys.contains 15 = false ∧ c.nextQueue = some 7) ∧
    (let m : Comp := ⟨mem0.queGen 7, 5, {}, false⟩
     let c := mem0.setQue 7 { posts := [m] }
     let a := c.trBase 7 + 32 * ((c.que 7).trtail % c.trSize 7)
     m.gen = c.queGen 7 ∧ c.rangeStatus (c.queOwner 7) (c.ctla 7) 128 = 0 ∧
       ((c.que 7).trtail + 65536 - 0) % 65536 < c.trSize 7 ∧ canPut c 7 a 32 = true ∧
       (a + 32 ≤ c.ctla 7 ∨ c.ctla 7 + 128 ≤ a) ∧ (c.que 7).posts = [m]) := by
  decide

theorem witness_queue_programs :
    (let p := prog0 (step0 10 0 0 0 0 0)
     let c := onCpu mem0 p
     c.stepBlocked 7 p = false ∧ (c.que 7).posts = [] ∧ (c.que 7).abort = none ∧ p.phase = .ready ∧ (c.cpuOf 7).isSome = true) ∧
    (let p := { prog0 (step0 8 0 1 4 64 0) (some (staged0 64)) with phase := .moving }
     let c := onCpu mem0 p
     c.stepBlocked 7 p = false ∧ p.buffer p.cur.dsel = some (0x4000, 64) ∧ canPut c 7 0x4000 64 = true) ∧
    (let p := { prog0 (step0 2 0 1 0 64 100) with phase := .recv 0 }
     let c := sets (onCpu mem0 p) [(.CHN_PATHSTAT 3, CHN_PATHSTAT.UNACK, 2)]
     c.stepBlocked 7 p = false ∧ (c.que 7).prog = some p ∧ p.aux = 100 ∧ c.following = false ∧ c.paired = false ∧
       c.stepPath 7 p.cur = 3 ∧ (p.pc + 32) % 2 ^ 40 = 0x6020 ∧ jump0.op = 9 ∧ jump0.opt % 4 = 2 ∧ p.count < 256 ∧
       2 ≤ c.gf (.CHN_PATHSTAT 3) CHN_PATHSTAT.UNACK) ∧
    (let p := { prog0 (step0 3 0 0 0 0 100) with phase := .wait 0 0 100 }
     let c := onCpu mem0 p
     c.stepBlocked 7 p = false ∧ (c.que 7).prog = some p ∧ c.following = false ∧ p.cur.last = true) := by
  decide

/-! What a read of filled, unflipped DRAM gives an engine: the hypotheses about line A and a step's fetch can be met. -/

theorem readWord_quiet (c : Chip) (now a : Nat) (who : Option Nat) (d : DWord) (s : BitVec 8) (hf : c.fillRegion (a / 8 * 8) = c)
    (h : c.readCode (a / 8 * 8) = (d, .clean, s)) : c.readWord now a who = (c, some d) := by
  simp [Chip.readWord, hf, h]

theorem lineA_quiet (c : Chip) (now q off : Nat) (d : DWord) (s : BitVec 8)
    (hr : c.rangeStatus (c.queOwner q) (c.ctla q + off) 2 = 0) (h8 : (c.ctla q + off) % 8 = 0)
    (hf : c.fillRegion (c.ctla q + off) = c) (h : c.readCode (c.ctla q + off) = (d, .clean, s)) :
    c.lineA now q off = (c, .ok (natLE (bytesLE 2 d.toNat))) := by
  have e : (c.ctla q + off) / 8 * 8 = c.ctla q + off := by omega
  have e2 : (c.ctla q + off + 2 + 7) / 8 - (c.ctla q + off) / 8 = 1 := by omega
  have hw := readWord_quiet c now (c.ctla q + off) (c.queOwner q) d s (by rwa [e]) (by rwa [e])
  simp [Chip.lineA, Chip.engRead, hr, Chip.readBytes, e, e2, Chip.readWords, hw, h8]

theorem fillRegion_filled (c : Chip) (a : Nat) (p : Fin 2) (hr : c.region a = .dram p)
    (h : (c.filled.get [] p).contains (a % 0x800000000 / 0x100000) = true) : c.fillRegion a = c := by
  simp only [Chip.fillRegion, hr, h, if_true]

theorem lineA_chan (c : Chip) (q off : Nat) (p : Fin 2) (d : DWord) (s : BitVec 8)
    (hr : c.rangeStatus (c.queOwner q) (c.ctla q + off) 2 = 0) (h8 : (c.ctla q + off) % 8 = 0)
    (hd : c.region (c.ctla q + off) = .dram p) (hf : (c.filled.get [] p).contains ((c.ctla q + off) % 0x800000000 / 0x100000) = true)
    (h : c.readCode (c.ctla q + off) = (d, .clean, s)) (k : Chan) :
    ({ c with chan := k } : Chip).lineA 0 q off = ({ c with chan := k }, .ok (natLE (bytesLE 2 d.toNat))) :=
  lineA_quiet { c with chan := k } 0 q off d s hr h8 (fillRegion_filled { c with chan := k } _ p hd hf) h

theorem fetch_quiet (c : Chip) (q pc : Nat) (p : Fin 2) (d : Fin 4 → DWord) (s : BitVec 8)
    (hr : c.rangeStatus (c.queOwner q) pc 32 = 0) (h8 : pc % 8 = 0)
    (hd : ∀ i : Fin 4, c.region (pc + 8 * i) = .dram p ∧
      (c.filled.get [] p).contains ((pc + 8 * i) % 0x800000000 / 0x100000) = true ∧ c.readCode (pc + 8 * i) = (d i, .clean, s)) :
    c.fetchStep 0 q pc = (c, .ok (decodeStep (bytesLE 32
      ((d 0).toNat + 2 ^ 64 * ((d 1).toNat + 2 ^ 64 * ((d 2).toNat + 2 ^ 64 * (d 3).toNat)))))) := by
  have e2 : (pc + 32 + 7) / 8 - pc / 8 = 4 := by omega
  have e3 : pc / 8 * 8 = pc := by omega
  have hw (i : Fin 4) : c.readWord 0 (pc + 8 * i) (c.queOwner q) = (c, some (d i)) := by
    have e : (pc + 8 * i) / 8 * 8 = pc + 8 * i := by omega
    exact readWord_quiet c 0 _ _ (d i) s (by rw [e]; exact fillRegion_filled c _ p (hd i).1 (hd i).2.1) (by rw [e]; exact (hd i).2.2)
  have h0 := hw 0; have h1 := hw 1; have h2 := hw 2; have h3 : c.readWord 0 (pc + 24) (c.queOwner q) = (c, some (d 3)) := hw 3
  simp at h0 h1 h2
  simp [Chip.fetchStep, Chip.engRead, hr, Chip.readBytes, e2, e3, Chip.readWords, h0, h1, h2, h3, h8, Nat.add_assoc]

theorem fetch_chan (c : Chip) (q pc : Nat) (p : Fin 2) (d : Fin 4 → DWord) (s : BitVec 8)
    (hr : c.rangeStatus (c.queOwner q) pc 32 = 0) (h8 : pc % 8 = 0)
    (hd : ∀ i : Fin 4, c.region (pc + 8 * i) = .dram p ∧
      (c.filled.get [] p).contains ((pc + 8 * i) % 0x800000000 / 0x100000) = true ∧ c.readCode (pc + 8 * i) = (d i, .clean, s))
    (j : PStep) (hj : decodeStep (bytesLE 32
      ((d 0).toNat + 2 ^ 64 * ((d 1).toNat + 2 ^ 64 * ((d 2).toNat + 2 ^ 64 * (d 3).toNat)))) = j) (k : Chan) :
    ({ c with chan := k } : Chip).fetchStep 0 q pc = ({ c with chan := k }, .ok j) :=
  hj ▸ fetch_quiet { c with chan := k } q pc p d s hr h8 hd

theorem fetch_mem0 (k : Chan) : ({ mem0 with chan := k } : Chip).fetchStep 0 7 0x6020 = ({ mem0 with chan := k }, .ok jump0) :=
  fetch_chan mem0 7 0x6020 0 (fun i => if i = 0 then 0x0002000000000009 else 0) 0 (by decide) (by decide) (by decide) jump0
    (by decide) k

theorem lineA_mem0 (k : Chan) : ({ mem0 with chan := k } : Chip).lineA 0 7 8 = ({ mem0 with chan := k }, .ok 0) :=
  lineA_chan mem0 7 8 0 0 0 (by decide) (by decide) (by decide) (by decide) (by decide) k

theorem lineA_mem0_door (k : Chan) : ({ mem0 with chan := k } : Chip).lineA 0 7 0 = ({ mem0 with chan := k }, .ok 1) :=
  lineA_chan mem0 7 0 0 1 0 (by decide) (by decide) (by decide) (by decide) (by decide) k

/-- Steps with their jobs to come: `SEAL` and `OPEN` of MODE 5 with slot 9, `SQUEEZE` and `EXPAND`. -/
theorem witness_engine_steps :
    (∀ x ∈ [(4, true), (5, false)],
      let p := prog0 (step0 x.1 (5 + 8 + 15 * 16) 4 4 0 9) (some (staged0 64))
      let c := onCpu mem0 p
      c.StepReady 7 p x.1 ∧ p.coptOk x.2 = true ∧ p.copt.lenOk x.2 64 = true ∧ p.copt.mode ≠ 0 ∧ p.copt.ksrc = true ∧
        p.copt.slot = 9 ∧ c.gb (.CPH_SLOT 9) CPH_SLOT.LOADING = false) ∧
    (∀ x ∈ [(6, true, 64), (7, false, 0)],
      let p := prog0 (step0 x.1 x.2.2 4 4 0 0) (some (staged0 64))
      (onCpu mem0 p).StepReady 7 p x.1 ∧ Chip.millOptOk p x.2.1 = true ∧ (x.2.1 = true → p.cur.opt / 64 % 4 ≠ 0)) := by
  unfold Chip.StepReady; decide

/-- A cipher job that waits for a free core with its slot loaded, a millstone job, and both on their last core. -/
theorem witness_engine_jobs :
    (let p := { prog0 (step0 4 (1 + 8) 4 4 0 9) (some (staged0 64)) with phase := .job }
     let j : Job := { q := some 7, part := 0, cls := 0, len := 64 }
     let c := sets (onCpu mem0 p) [(.CPH_SLOT 9, CPH_SLOT.VALID, 1), (.CPH_SLOT 9, CPH_SLOT.ASSIGNED, 1), (.CPH_SLOT 9, CPH_SLOT.USE, 1)]
     let c := { c with chan := { c.chan with cjobs := [j] } }
     c.poolOn .cipher = true ∧ (c.pick .cipher c.cipherEligible).map (fun x => x.1) = some j ∧ (c.freeCores .cipher).head? = some 0 ∧
       (c.que 7).prog = some p ∧ c.slotStatus 7 p true = 0 ∧ p.copt.ivOk (staged0 64).bytes = true) ∧
    (let p := { prog0 (step0 7 0 4 4 0 0) (some (staged0 64)) with phase := .job }
     let j : Job := { q := some 7, part := 0, cls := 0, len := 64 }
     let c := onCpu mem0 p
     let c := { c with chan := { c.chan with mjobs := [j] } }
     c.poolOn .mill = true ∧ (c.pick .mill (fun _ => true)).map (fun x => x.1) = some j ∧ (c.freeCores .mill).head? = some 0) ∧
    (on.pick .cipher on.cipherEligible).isNone = true ∧ (on.pick .mill (fun _ => true)).isNone = true := by
  decide

/-- Jobs on the last core of each engine that end, with the buffer of their step as long as the result. -/
theorem witness_job_ends :
    (let p := { prog0 (step0 4 (5 + 8 + 15 * 16) 1 4 32 9) with phase := .job }
     let j : Job := { q := some 7, part := 0, cls := 0, len := 16, core := some 15, begun := true, key := List.replicate 32 0
                      data := List.replicate 16 0 }
     let c := onCpu mem0 p
     let c := { c with chan := { c.chan with cjobs := [j] } }
     (c.que 7).prog = some p ∧ p.buffer p.cur.dsel = some (0x4000, 32) ∧ canPut c 7 0x4000 32 = true ∧ c.jobOn .cipher 15 = some j ∧
       p.cur.op = 4 ∧ p.copt.mode ≠ 0 ∧ (on.jobOn .cipher 15).isNone = true) ∧
    (let p := { prog0 (step0 7 0 1 4 32 0) with phase := .job }
     let j : Job := { q := some 7, part := 0, cls := 0, len := 16, core := some 7, begun := true, data := List.replicate 16 0 }
     let c := onCpu mem0 p
     let c := { c with chan := { c.chan with mjobs := [j] } }
     c.jobOn .mill 7 = some j ∧ (on.jobOn .mill 7).isNone = true) ∧
    on.coreState .cipher 15 ≠ 3 ∧ on.coreState .mill 7 ≠ 3 ∧ on.coreState .cipher 15 = 0 ∧
    on.mayWrite .manager (Chip.coreReg .cipher 15) = true ∧ on.mayWrite .manager (Chip.coreReg .mill 7) = true ∧
    on.mayWrite .host (Chip.coreReg .mill 7) = false ∧ (sets on [(.CPH_CORE 15, CPH_CORE.STATE, 2)]).coreState .cipher 15 = 2 := by
  decide

/-- A command with BUSY set; one for a slot not assigned; one of the manager with the root key whose blob is well formed; an
unwrap at its end; a slot free and loading; an assignment that clashes. -/
theorem witness_key_slots :
    let c := sets mem0 [(.CPH_SLOT 9, CPH_SLOT.ASSIGNED, 1), (.CPH_UNWRAP_ADDR 0, CPH_UNWRAP_ADDR.ADDR, 0x7000 / 8)]
    let go : DWord := 2 ^ 63
    c.poolOn .cipher = true ∧ c.mayWrite .manager (.CPH_UNWRAP_CMD 0) = true ∧ go.getLsbD 63 = true ∧
    (sets c [(.CPH_UNWRAP_STAT 0, CPH_UNWRAP_STAT.BUSY, 1)]).gb (.CPH_UNWRAP_STAT 0) CPH_UNWRAP_STAT.BUSY = true ∧
    c.gb (.CPH_UNWRAP_STAT 0) CPH_UNWRAP_STAT.BUSY = false ∧ c.unwrapCheck 0 true true 0 8 = 7 ∧ c.unwrapCheck 0 true true 0 9 = 0 ∧
    c.gb (.CPH_SLOT 9) CPH_SLOT.LOADING = false ∧ c.rangeStatus (some 0) 0x7000 8 = 0 ∧
    (let h := ({ c with mem := [(0x7004, 32), (0x7005, 1), (0x7006, 0x42), (0x7007, 0x4B)] } : Chip).rawNat 8 0x7000
     h / 2 ^ 48 = 0x4B42 ∧ h / 2 ^ 40 % 256 = 1 ∧ h / 2 ^ 32 % 256 = 32) ∧
    c.mayWrite (.part 1) (.CPH_UNWRAP_CMD 0) = false ∧ c.mayWrite (.part 1) (.CPH_SLOT 9) = false ∧
    c.mayWrite .manager (.CPH_SLOT 9) = true ∧ (sets c [(.CPH_SLOT 9, CPH_SLOT.LOADING, 1)]).gb (.CPH_SLOT 9) CPH_SLOT.LOADING = true ∧
    c.chan.cjobs = [] ∧
    (let v : DWord := CPH_SLOT.OWNER.put (2 ^ 49) 1
     c.gb (.CPH_SLOT 9) CPH_SLOT.ASSIGNED = true ∧ v.getLsbD 49 = true ∧ c.gf (.CPH_SLOT 9) CPH_SLOT.OWNER ≠ CPH_SLOT.OWNER.get v) ∧
    (let j : Job := { q := none, part := 0, cls := 0, len := 32, core := some 15, begun := true }
     let u : Unwrap := { slot := 9, kek := 0, root := true, addr := 0x7000, wlen := 32, rights := some 0 }
     let d := { c with chan := { c.chan with cjobs := [j], unwraps := [(0, u)] } }
     d.chan.unwraps.find? (fun e => e.1 == 0) = some (0, u) ∧ d.chan.clrs = [] ∧ d.chan.unwrapQ = [] ∧ u.bad = 0 ∧ j.bad = 0) := by
  decide

/-- A `RECV` that waits for a tag; a frame at the end of its transmission with a tag; queues and paths to abort; the epoch
reservation low and under way. -/
theorem witness_tags_egress_aborts :
    (let p := { prog0 (step0 2 0 1 0 64 0) with phase := .tag }
     let c := mem0.setQue 7 { prog := some p }
     let c := { c with chan := { c.chan with tagQ := [7] } }
     c.grantNext = some 7 ∧ c.following = false ∧ c.tagFree 3 = true ∧ c.pathStatus 7 3 = 0 ∧ on.grantNext ≠ some 7) ∧
    (let f : EFrame := { path := 3, cls := 0, prio := 0, arr := 0, bytes := List.replicate 60 0, tag := true }
     let c := (sets mem0 [(.CHN_PATHSTAT 3, CHN_PATHSTAT.UNACK, 2)]).setEg 2 { cur := some f }
     c.laneCut 2 = false ∧ c.linkUp 2 = true ∧ (c.eg 2).cur = some f ∧ (c.eg 2).queue = [] ∧ (ptpEvent f.bytes).isNone = true ∧
       2 ≤ c.gf (.CHN_PATHSTAT 3) CHN_PATHSTAT.UNACK) ∧
    mem0.mayWrite .manager (.QUE_CMD 7) = true ∧ mem0.queEn 7 = true ∧ (mem0.que 7).abort = none ∧
    mem0.mayWrite (.part 1) (.QUE_CMD 7) = false ∧ mem0.mayWrite .manager (.CHN_PATHCTL 3) = true ∧ mem0.pEn 3 = true ∧
    mem0.mayWrite (.part 1) (.CHN_PATHCTL 3) = false ∧
    (mem0.setPth 3 { rise := some true }).resvLow = true ∧ mem0.resvLow = false ∧ mem0.chan.resv = none ∧
    ({ mem0 with chan := { resv := some 64 } } : Chip).chan.paths = [] := by
  decide

/-! ### Witnesses: the channel protocol, lanes, clocks -/

/-- A WCP frame of path 3: TYPE, FLAGS, SEQ, ACK below 256, payload. -/
def wcp0 (typ flags seq ack : Nat) (pl : List Byte) : List Byte :=
  [BitVec.ofNat 8 (16 + typ), BitVec.ofNat 8 flags, 0, 3, 0, 0, 0, BitVec.ofNat 8 pl.length, 0, 0, 0, BitVec.ofNat 8 seq, 0, 0, 0,
    BitVec.ofNat 8 ack] ++ pl

/-- `mem0` with path 3 a WCP path without security that has sent sequence numbers below 6 and expects 5. -/
def chan0 : Chip := sets mem0 [(.CHN_PATHCFG 3, CHN_PATHCFG.WCP, 1), (.CHN_PATHSEQ 3, CHN_PATHSEQ.RXNEXT, 5),
  (.CHN_PATHSEQ 3, CHN_PATHSEQ.TXSEQ, 6), (.CHN_PATHSTAT 3, CHN_PATHSTAT.UNACK, 2)]

/-- A frame below, at and without its `RECV`; one that its `RECV` takes; an acknowledgement of one of two; a `SYNC`; a header too
short and of another version. -/
theorem witness_wcp_frames :
    (∀ x ∈ [(1, 5), (3, 5), (1, 4), (3, 4)],
      let f := wcp0 x.1 0 x.2 0 [1, 2, 3, 4]
      let c := chan0
      (whdr f).typ = x.1 ∧ c.off = false ∧ c.domainOn 19 = true ∧ c.pEn 3 = true ∧ c.pWcp 3 = true ∧ c.following = false ∧
        c.hdrOk 3 f = true ∧ c.pathKey 3 = some [] ∧ wcpOpen (c.pSec 3) [] (!c.pathDir 3) f = some [1, 2, 3, 4] ∧
        c.peerValid 3 = false ∧ (c.pth 3).rxq = [] ∧ (c.pth 3).frames = [] ∧ c.awaits 3 = false ∧
        (whdr f).flags.testBit 0 = false ∧ (whdr f).seq = x.2 ∧ c.rxnext 3 = 5 ∧ (c.recvFor 3).isNone = true) ∧
    serialBelow 32 4 5 = true ∧
    (let p := { prog0 (step0 2 0 1 0 4 0) with phase := .recv 0 }
     let c := chan0.setQue 7 { prog := some p }
     c.recvFor 3 = some 7 ∧ (c.que 7).prog = some p ∧ c.stepPath 7 p.cur = 3 ∧ c.pCmp 3 = false ∧
       p.buffer p.cur.dsel = some (0x4000, 4) ∧ canPut c 7 0x4000 4 = true ∧ 2 ≤ c.gf (.CHN_PATHSTAT 3) CHN_PATHSTAT.UNACK) ∧
    (let g : WFrame := { seq := 5, bytes := [] }
     let f := wcp0 2 0 0 6 []
     let c := chan0.setPth 3 { frames := [g] }
     (whdr f).typ = 2 ∧ c.hdrOk 3 f = true ∧ (c.pth 3).frames = [g] ∧ serialBelow 32 g.seq (whdr f).ack = true ∧
       (whdr f).ack = c.txseq 3) ∧
    (let f := wcp0 4 0 0 0 [0, 0, 0, 9, 0, 0, 0, 6]
     let e : EFrame := { path := 3, cls := 0, prio := 0, arr := 0, bytes := [] }
     let c := chan0.setEg 2 { cur := some e }
     (whdr f).typ = 4 ∧ c.hdrOk 3 f = true ∧ (wcpOpen 0 [] true f).isSome = true ∧ (whdr f).flags.testBit 2 = false ∧ c.pLane 3 = 2 ∧
       c.linkUp 2 = true ∧ (c.eg 2).cur = some e ∧ (c.eg 2).queue = [] ∧ c.muted = false ∧ (c.pth 3).rise = none ∧
       (c.pth 3).ctl < 2 ^ 32 - 1) ∧
    (∀ f ∈ [[0x11, 0, 0, 3], 0x21 :: (wcp0 1 0 5 0 []).drop 1], (whdr f).typ = 1 ∧ chan0.hdrOk 3 f = false) := by
  decide

/-- The eighth expiry; a delayed acknowledgement and a `SYNC` that are due. -/
theorem witness_wcp_timers :
    let c := chan0.setPth 3 { timer := some 0, expiries := 7, ackFrom := some 0, syncAt := some 0 }
    (c.pth 3).timer = some 0 ∧ 0 + c.retxNs 3 ≤ 10000000 ∧ c.muted = false ∧ (c.pth 3).rise = none ∧ (c.pth 3).frames = [] ∧
    0 + 1000 * c.gf .CHN_WCPCFG CHN_WCPCFG.ACKDLY ≤ 10000000 ∧
    (sets c [(.CHN_PATHSTAT 3, CHN_PATHSTAT.AWAIT, 1)]).awaits 3 = true ∧ (chan0.pth 3).timer = none := by
  decide

/-- Lane 2: frames with a wrong FCS and with a right one, of no path and of path 3; its link up and lost; lane 19, the last; a loop
with and without a path. -/
theorem witness_lanes :
    let body : List Byte := List.replicate 12 0 ++ [0x88, 0xB5] ++ List.replicate 46 0
    let good := withFcs body
    chan0.off = false ∧ chan0.rxOpen 2 = true ∧ withFcs ((body ++ [0, 0, 0, 0]).take ((body ++ [0, 0, 0, 0]).length - 4)) ≠ body ++ [0, 0, 0, 0] ∧
    chan0.laneAccept 0 2 (.eth good) = (chan0, true) ∧ chan0.findPath 2 (.eth good) = none ∧ chan0.following = false ∧ chan0.muted = false ∧ chan0.domainOn 19 = true ∧
    (ptpEvent good).isNone = true ∧ (chan0.eg 2).queue = [] ∧ chan0.gb (.LAN_STAT 2) LAN_STAT.LINK = true ∧
    chan0.gb (.LAN_CFG 2) LAN_CFG.CRIT = false ∧ (sets chan0 [(.LAN_CFG 2, LAN_CFG.CRIT, 1)]).gb (.LAN_CFG 2) LAN_CFG.CRIT = true ∧
    chan0.gb (.LAN_STAT 19) LAN_STAT.LINK = false ∧
    (let c := sets on [(.LAN_CFG 19, LAN_CFG.EN, 1), (.LAN_QCFG 4, LAN_QCFG.RATE, 3)]
     c.gb (.LAN_CFG 19) LAN_CFG.EN = true ∧ c.domainOn (20 + 19 / 4) = true ∧ c.gf (.LAN_QCFG 4) LAN_QCFG.RATE ≠ 0 ∧ c.testsOn 4 19 = []) ∧
    chan0.mayWrite .manager (.LAN_CTL 2) = true ∧ chan0.gb (.LAN_STAT 2) LAN_STAT.TRAINING = false ∧
    chan0.pathNames 2 = true ∧ chan0.pathNames 19 = false ∧ chan0.mayWrite (.part 1) (.LAN_CTL 2) = false ∧
    (sets chan0 [(.LAN_CFG 2, LAN_CFG.PAUSEEN, 1)]).gb (.LAN_CFG 2) LAN_CFG.PAUSEEN = true ∧
    chan0.gb (.LAN_CFG 2) LAN_CFG.PAUSEEN = false ∧ chan0.mayRead .manager (.LAN_TXTS 2) = true ∧
    chan0.mayRead (.part 1) (.LAN_TXTS 2) = false ∧ (chan0.setEg 2 { pausedTill := 9 }).off = false := by
  decide +kernel

/-- The clock past a second not yet signalled, a pulse under way; field lane 63 as CAN with a frame that can be sent again, its last
try, error-active and bus-off; lanes of the other kinds; permitted and refused writes. -/
theorem witness_clocks_field_lanes :
    let f : EFrame := { path := 3, cls := 0, prio := 0, arr := 0, bytes := [1], tries := 2 }
    let can := (sets on [(.FLD_CFG 63, FLD_CFG.EN, 1), (.FLD_CFG 63, FLD_CFG.RETRY, 3), (.FLD_STAT 63, FLD_STAT.SAFE, 0)]).setEg 0x7F { cur := some f }
    let uart := (sets on [(.FLD_CFG 63, FLD_CFG.EN, 1), (.FLD_CFG 63, FLD_CFG.MODE, 2), (.FLD_STAT 63, FLD_STAT.SAFE, 0)]).setEg 0x7F { queue := [f] }
    on.mayWrite .manager .TIM_PTP = true ∧ on.mayWrite .manager .TIM_PTPSTEP = true ∧ on.mayWrite (.part 1) .TIM_PTP = false ∧
    on.mayWrite (.part 1) .TIM_PTPSTEP = false ∧ on.mayWrite .manager .TIM_PPS = true ∧ on.mayWrite (.part 1) .TIM_PPS = false ∧
    on.chan.ptp.next < on.ptpNow 1500000000 / 1000000000 ∧ on.ptpNow 0 / 1000000000 ≤ on.chan.ptp.next ∧
    (sets on [(.TIM_PPS, TIM_PPS.OUTEN, 1)]).gb .TIM_PPS TIM_PPS.OUTEN = true ∧ on.muted = false ∧ on.pair.cut = false ∧
    (sets on [(.CLU_EVCFG 31, CLU_EVCFG.PPSEN, 1)]).gb (.CLU_EVCFG 31) CLU_EVCFG.PPSEN = true ∧
    (can.eg 0x7F).cur = some f ∧ (can.eg 0x7F).queue = [] ∧ can.laneCut 0x7F = false ∧ can.fldMode 63 = 0 ∧
    can.gf (.FLD_STAT 63) FLD_STAT.CANST < 2 ∧ can.frameReady f = true ∧ can.frameAllowed f = true ∧
    f.tries < can.gf (.FLD_CFG 63) FLD_CFG.RETRY ∧ (sets can [(.FLD_CFG 63, FLD_CFG.RETRY, 2)]).gf (.FLD_CFG 63) FLD_CFG.RETRY ≤ f.tries ∧
    uart.fldMode 63 = 2 ∧ uart.laneCut 0x7F = false ∧ (uart.eg 0x7F).cur = none ∧ (uart.eg 0x7F).queue = [f] ∧
    uart.frameReady f = true ∧ uart.frameAllowed f = true ∧
    (sets on [(.FLD_STAT 63, FLD_STAT.CANST, 2)]).gf (.FLD_STAT 63) FLD_STAT.CANST = 2 ∧
    on.domainOn 26 = true ∧ on.mayWrite .manager (.FLD_CTL 63) = true ∧ on.mayWrite (.part 1) (.FLD_CTL 63) = false := by
  decide

/-- An asynchronous frame that its `RECV` takes. -/
theorem witness_async_frame :
    let p := { prog0 (step0 2 0 1 0 8 0) with phase := .recv 0 }
    let c := (sets mem0 [(.FLD_CFG 63, FLD_CFG.EN, 1), (.FLD_CFG 63, FLD_CFG.MODE, 2), (.FLD_STAT 63, FLD_STAT.SAFE, 0),
      (.CHN_PATHCFG 3, CHN_PATHCFG.LANE, 0x7F),
      (.CHN_PATHSTAT 3, CHN_PATHSTAT.UNACK, 2)]).setQue 7 { prog := some p }
    let f := RxFrame.async [1, 2, 3] 0
    let d := (c.fldAccept 0x7F f).1
    c.fldMode 63 = 2 ∧ (c.fldAccept 0x7F f).2 = true ∧ c.following = false ∧ c.muted = false ∧ c.domainOn 19 = true ∧
    d.findPath 0x7F f = some (3, [1, 2, 3]) ∧ d.pWcp 3 = false ∧ d.exportOf 3 = none ∧ d.recvFor 3 = some 7 ∧
    (d.que 7).prog = some p ∧ d.stepPath 7 p.cur = 3 ∧ d.pCmp 3 = false ∧ p.cur.last = true ∧ (d.que 7).posts = [] ∧
    p.buffer p.cur.dsel = some (0x4000, 8) ∧ canPut d 7 0x4000 3 = true ∧ 2 ≤ d.gf (.CHN_PATHSTAT 3) CHN_PATHSTAT.UNACK := by
  decide +kernel

/-! ### Witnesses: partitions, faults, brakes -/

/-- Partition 1, which is not the manager's, with triad 31 in a state. -/
def part1 (pst tst : Nat) : Chip := sets on [(.PRT_CFG 1, PRT_CFG.DEFINED, 1), (.PRT_CFG 1, PRT_CFG.TRIADS, 2 ^ 31),
  (.PRT_STATE 1, PRT_STATE.STATE, pst), (.CLU_TSTATE 31, CLU_TSTATE.STATE, tst)]

/-- Partition 1 stopped, running, in reset and in removal; a write log that is good and one that is bad. -/
theorem witness_partitions :
    on.mayWrite .manager (.PRT_CTL 1) = true ∧ on.mayWrite (.part 1) (.PRT_CTL 1) = false ∧
    (part1 1 0).pstate 1 = 1 ∧ (part1 1 0).clusterDown 1 = false ∧ (part1 1 0).flt.deviceBrake = false ∧
    (part1 1 0).triadsOf 1 = [31] ∧ (part1 1 0).tstate 31 ≠ 6 ∧ (part1 1 0).gb (.CLU_SLUTEST 31) CLU_SLUTEST.DONE = false ∧
    (∀ i : Fin 3, ((part1 1 0).cstore ((part1 1 0).coreOf 31 i)).failed = false) ∧
    (part1 2 1).isMgrPart 1 = false ∧ (part1 2 1).pstate 1 = 2 ∧ (part1 2 1).flt.safeDue = [] ∧ (part1 2 1).chan.safeWait = [] ∧
    (part1 4 0).pstate 1 = 4 ∧ (part1 4 0).prtPending 1 = false ∧ ((part1 4 0).part 1).again = false ∧
    (part1 4 0).gb (.CPH_UNWRAP_STAT 1) CPH_UNWRAP_STAT.BUSY = false ∧
    on.mayWrite .manager (.PRT_LOGCTL 1) = true ∧ on.mayWrite (.part 1) (.PRT_LOGCTL 1) = false ∧
    on.mayWrite .manager (.PRT_LOGCFG 1) = true ∧ on.mayWrite (.part 1) (.PRT_LOGCFG 1) = false ∧
    (sets on [(.PRT_LOGCTL 1, PRT_LOGCTL.BUSY, 1)]).gb (.PRT_LOGCTL 1) PRT_LOGCTL.BUSY = true ∧
    on.logOk 11 0 0 = false ∧
    (sets on [(.BNK_OWNER 0, BNK_OWNER.TYPE, 4)]).logOk 22 (bankBase / 0x200) (bankBase / 0x200) = true := by
  decide

theorem witness_partition_units : (part1 2 1).partQueues 1 = [] ∧ (part1 2 1).partPaths 1 = [] := by
  constructor <;> decide +kernel

/-- No path has a SAFE frame. -/
theorem witness_no_safe_paths : ∀ p, on.safePaths p = [] := by
  intro p
  have h : ∀ n ∈ List.range 1024, on.pEn n = false := by decide +kernel
  rw [Chip.safePaths, List.filter_eq_nil_iff]
  intro n hn
  simp [h n hn]

/-- A device in RUN, one in FAULT with a contained fault of partition 1, its timer just over and not yet; the quiet period at its
end, below the limit and at it; brakes that are free. -/
theorem witness_faults :
    (let c := sets on [(.FLT_STATE, FLT_STATE.STATE, 3)]
     c.off = false ∧ c.gf .FLT_STATE FLT_STATE.STATE = 3 ∧ c.attributed 19 1 = false ∧ c.standby = false ∧ c.sticky 19 0 = false ∧
       c.chan.safeWait = []) ∧
    (let c : Chip := { on with flt := { grace0 := [(19, 5)] } }
     c.flt.grace0 = [(19, 5)] ∧ (19, 5).2 ≤ 5) ∧
    (let c : Chip := { on with flt := { grace1 := [(19, 1, 5), (19, 64, 5)] } }
     c.graceOver 5 19 1 = true ∧ c.graceOver 5 19 64 = true ∧ c.graceOver 4 19 1 = false ∧ c.flt.deviceBrake = false) ∧
    (let c : Chip := { on with flt := { deviceBrake := true } }
     c.flt.deviceBrake = true ∧ c.flt.idle = false ∧ c.flt.brakedAt + 1000000 * c.gf .FLT_BRAKE FLT_BRAKE.SAFEHOLD ≤ 100000000000) ∧
    (let c := sets on [(.FLT_STATE, FLT_STATE.STATE, 4), (.FLT_RECOV, FLT_RECOV.LIMIT, 1)]
     c.gf .FLT_STATE FLT_STATE.STATE = 4 ∧ c.flt.grace0 = [] ∧ c.flt.grace1 = [] ∧
       c.flt.quietFrom + 1000000 * c.gf .FLT_RECOV FLT_RECOV.QUIET ≤ 10000000000000 ∧
       c.flt.returns.length < c.gf .FLT_RECOV FLT_RECOV.LIMIT ∧ (sets c [(.FLT_RECOV, FLT_RECOV.LIMIT, 0)]).gf .FLT_RECOV FLT_RECOV.LIMIT ≤ 0) ∧
    on.mayWrite .manager .FLT_BRAKE = true ∧ on.mayWrite (.part 1) .FLT_BRAKE = false ∧
    (part1 2 1).gb (.PRT_CFG 1) PRT_CFG.DEFINED = true ∧ 1 ∉ (part1 2 1).flt.partBrakes ∧ (part1 2 1).tstate 31 ∉ [0, 5, 6] ∧
    on.tstate 31 ∈ [0, 5, 6] ∧ on.mayWrite .manager (.FLT_ATTR 19) = true ∧ on.mayWrite .manager .FLT_MATTR = true ∧
    on.mayWrite .manager .FLT_STATUS = true ∧ on.mayWrite (.part 1) (.FLT_ATTR 19) = true ∧ on.mayWrite .host (.FLT_ATTR 19) = false ∧
    on.mayWrite (.part 1) .FLT_MATTR = false ∧ on.mayWrite (.part 1) .FLT_STATUS = false := by
  decide

theorem witness_early : ∀ s k, on.graceOver 0 s k = false := by intro s k; rfl

/-! ### Witnesses: the pair, the leat, the cascade -/

/-- A device of a pair in a state, both channels in order. -/
def pair0 (pst : Nat) : Chip := sets on [(.PAR_CFG, PAR_CFG.TOPO, 1), (.PAR_STAT, PAR_STAT.STATE, pst), (.PAR_STAT, PAR_STAT.LEATOK, 1),
  (.PAR_STAT, PAR_STAT.WATCHOK, 1), (.FLT_STATE, FLT_STATE.STATE, 3)]

/-- A standby of a triad far behind its horizon. -/
def lagging : Chip := (sets (pair0 4) [(.CLU_TSTATE 0, CLU_TSTATE.STATE, 1), (.CLU_TSTATE 0, CLU_TSTATE.VOTE, 7)]).setTriad 0
  { horizon := 100, marks := [(100, 0)] }

theorem witness_pair_roles :
    (pair0 2).beats = true ∧ (pair0 2).inPair = true ∧ on.beats = false ∧ on.inPair = false ∧ (pair0 2).off = false ∧
    (pair0 4).boot.step ≠ 9 ∧ (pair0 4).leatOk = true ∧ (sets (pair0 4) [(.PAR_STAT, PAR_STAT.LEATOK, 0)]).leatOk = false ∧
    (pair0 2).pair.watchAt + 1000 * (pair0 2).gf .PAR_CFG PAR_CFG.HBLOSS ≤ 1000000 ∧ (pair0 2).watchOk = true ∧
    (pair0 2).pair.copying = false ∧ (pair0 2).chan.egress = [] ∧ (pair0 2).commits = [] ∧ (pair0 2).snap = none ∧
    (pair0 4).wcpPaths = [] ∧
    ({ pair0 3 with pair := { prim := true, catchUp := true } } : Chip).horizonsMet = true ∧
    ({ pair0 3 with pair := { prim := true, catchUp := true } } : Chip).triadsLive = [] ∧
    lagging.standby = true ∧ lagging.lag 10000000 = 10000000 ∧ 1000 * lagging.gf .PAR_CFG PAR_CFG.LAGMAX < 10000000 ∧
    lagging.horizonsMet = false ∧ (pair0 4).lag 0 = 0 ∧
    (pair0 2).primary = true ∧ (pair0 2).pair.cut = false ∧ (pair0 2).pair.sentAt + 100000 ≤ 100000 ∧ (pair0 4).primary = false ∧
    (pair0 2).mayWrite .manager .PAR_CTL = true ∧ (pair0 2).mayWrite (.part 1) .PAR_CTL = false ∧
    (let c := sets (pair0 2) [(.PAR_CFG, PAR_CFG.SWAPINT, 1)]
     c.gf .PAR_CFG PAR_CFG.SWAPINT ≠ 0 ∧ c.pair.swapAt + 60000000000 * c.gf .PAR_CFG PAR_CFG.SWAPINT ≤ 60000000000) ∧
    (pair0 3).primary = true ∧ (pair0 3).paired = false ∧ (pair0 2).boot.corePg = false ∧
    (let c := { sets (pair0 0) [(.FLT_STATE, FLT_STATE.STATE, 2)] with boot := { step := 9, joinFrom := some 0 } }
     c.gf .FLT_STATE FLT_STATE.STATE = 2 ∧ 0 + 1000000 * c.gf .PAR_CFG PAR_CFG.JOINWAIT ≤ 1000000000000 ∧ c.leatOk = true) ∧
    (let c := sets (pair0 2) [(.PAR_STAT, ⟨16, 16⟩, 1), (.PAR_STAT, ⟨19, 19⟩, 1)]
     c.gf .PAR_CFG PAR_CFG.TOPO ≠ 0 ∧ c.gb .PAR_STAT ⟨16, 16⟩ = true ∧ c.gb .PAR_STAT ⟨19, 19⟩ = true ∧
       (pair0 2).gb .PAR_STAT ⟨16, 16⟩ = false) := by
  decide +kernel

/-- Heartbeats of a standby and of a second primary; a following device; a journal entry that fits and one of a bad shape; an
acknowledgement; output digests; a joining device. -/
theorem witness_leat :
    (let h : HeartMsg := ⟨false, false, 0, 0, 0, 0, none⟩
     (pair0 2).boot.step ≠ 9 ∧ h.ring = none ∧ (pair0 2).takeovers < ({ h with primary := true, takeovers := 1 } : HeartMsg).takeovers.toNat ∧
       (pair0 2).chan.safeWait = [] ∧ (pair0 2).flt.deviceBrake = false) ∧
    (pair0 4).following = true ∧ lagging.split 0 = false ∧ lagging.live 0 = true ∧
    (∀ i ∈ lagging.voting 0, (lagging.lane (3 * 0 + i)).retired ≠ 5) ∧ (pair0 4).pair.decs = [] ∧ (pair0 4).chan.ques = [] ∧
    (pair0 4).hostWindow 0x40 = none ∧ (pair0 4).ecc = [] ∧ (pair0 4).pair.waitStart = false ∧
    ((pair0 4).copyIn (0 :: 1 :: List.replicate 6 0)).2 = true ∧ ((pair0 4).copyIn [0, 1]).2 = false ∧
    (let m : Commit := m0 .ack (some 0)
     let c : Chip := { pair0 2 with commits := [m], leat := [.journal 1] }
     c.paired = true ∧ c.leat = [.journal 1] ∧ m.stage = .ack ∧ m.cseq = some 1 ∧ 64 * w0.line + 64 ≤ journalBase ∧
       m.key = 3 * m.triad + m.pos ∧ c.gb .SYS_SNAP SYS_SNAP.BUSY = false) ∧
    (((pair0 4).setPth 3 { outCount := 4, outHist := [(4, 9)] }).pth 3).outHist = [(4, 9)] ∧
    (pair0 5).following = false ∧ (pair0 3).following = false ∧ (pair0 2).heartOf none = ⟨true, false, 0, 0, 0, 0, none⟩ ∧
    (let c := sets (pair0 2) [(.CLU_TSTATE 0, CLU_TSTATE.STATE, 1)]
     c.live 0 = true ∧ c.split 0 = false) := by
  decide +kernel

/-- A device of a cascade with an export, the master and another; a ring link heard and not; a snapshot into the manager's banks. -/
theorem witness_cascade :
    let c := sets mem0 [(.PAR_CFG, PAR_CFG.TOPO, 2), (.CAS_EXPORT 63, CAS_EXPORT.EN, 1), (.CAS_EXPORT 63, CAS_EXPORT.PATH, 3),
      (.CHN_PATHCFG 9, CHN_PATHCFG.EN, 1), (.CHN_PATHCFG 9, CHN_PATHCFG.WCP, 1), (.CHN_PATHCFG 9, CHN_PATHCFG.LANE, 0x80)]
    let e : EFrame := { path := 3, cls := 0, prio := 0, arr := 0, bytes := [] }
    let a := bankBase
    let own := sets on [(.BNK_OWNER 0, BNK_OWNER.TYPE, 4)]
    c.off = false ∧ c.cascade = true ∧ c.pEn 9 = true ∧ c.pWcp 9 = true ∧ 0x80 ≤ c.pLane 9 ∧ c.domainOn 19 = true ∧
    c.gb (.CAS_EXPORT 63) CAS_EXPORT.EN = true ∧ (c.laneFrame 3 [1, 2]).isSome = true ∧ c.pLane 3 = 2 ∧ c.linkUp 2 = true ∧
    ((c.setEg 2 { cur := some e }).eg 2).cur = some e ∧ c.gb (.CAS_EXPORT 0) CAS_EXPORT.EN = false ∧ c.casMaster = true ∧
    (sets c [(.CAS_CFG, CAS_CFG.ID, 1)]).casMaster = false ∧ 1 ∉ c.cas.lost ∧ c.cas.heard.get 0 1 + 10000 ≤ 10000 ∧
    c.mayWrite .manager .CAS_CTL = true ∧ c.mayWrite (.part 1) .CAS_CTL = false ∧ on.cascade = false ∧
    own.mayWrite .manager .SYS_SNAP = true ∧ own.mayWrite (.part 1) .SYS_SNAP = false ∧ own.gb .SYS_SNAP SYS_SNAP.BUSY = false ∧
    own.snapOk a = true ∧ own.snapOk 0 = false ∧ own.triadsLive = [] ∧ triad0.triadsLive = [0] ∧
    ({ pair0 3 with pair := { prim := true, copying := true } } : Chip).pair.copying = true := by
  decide

/-! ### Witnesses: power, tests, boot, staging, the host, management -/

/-- Domains on, off and in transition; a test with each kind of target free and running; temperatures at the limits. -/
theorem witness_power_tests :
    let c := sets on [(.SYS_TEST 15, SYS_TEST.KIND, 3), (.SYS_TEST 15, SYS_TEST.TARGET, 63), (.SYS_TEST 15, SYS_TEST.STATE, 1)]
    let d := sets c [(.SYS_TEST 15, SYS_TEST.STATE, 2)]
    on.mayWrite .manager .SYS_PWRCTL = true ∧ on.mayWrite (.part 1) .SYS_PWRCTL = false ∧ on.domainBusy 16 = false ∧
    on.domainOn 16 = true ∧ on.mayPowerDown 16 = true ∧ (part1 2 1).mayPowerDown 8 = false ∧
    (sets on [(.SYS_PWRSTAT, SYS_PWRSTAT.BUSY, 2 ^ 16)]).domainBusy 16 = true ∧ on.misc.pwrWait = [] ∧
    (sets on [(.SYS_PWRSTAT, SYS_PWRSTAT.ON, 1)]).domainOn 16 = false ∧
    on.mayWrite .manager (.SYS_TEST 15) = true ∧ on.mayWrite (.part 1) (.SYS_TEST 15) = false ∧
    on.tState 15 ≠ 1 ∧ on.tState 15 ≠ 2 ∧ Chip.testDomain 3 63 = some 16 ∧ Chip.testDomain 3 64 = none ∧
    c.tState 15 = 1 ∧ c.tKind 15 = 3 ∧ c.tTarget 15 = 63 ∧ c.testFree 15 = true ∧ d.tState 15 = 2 ∧
    Chip.hottest [124, 20] = some (124, 0) ∧ (Chip.hottest [20, 125]).map (fun e => e.1) = some 125 ∧
    ({ on with misc := { hotFrom := some 0 } } : Chip).misc.hotFrom = some 0 := by
  decide

/-- What a register reads where none of the stored ones has its address. -/
theorem rd_reset {c : Chip} {r : RegName} (h : ∀ e ∈ c.regs, e.1 ≠ r.addr) : c.rd r = r.reset := by
  unfold Chip.rd
  generalize c.regs = l at h
  induction l with
  | nil => rfl
  | cons e l ih =>
    have h1 : ¬ r.addr = e.1 := fun g => h e (List.mem_cons_self ..) g.symm
    simp only [Tab.get, h1, if_false]
    exact ih (fun x hx => h x (List.mem_cons_of_mem _ hx))

/-- The test of slot 15 is the only one of its target. -/
theorem witness_lone : ∀ j : Nat, j ≠ 15 →
    (sets on [(.SYS_TEST 15, SYS_TEST.KIND, 3), (.SYS_TEST 15, SYS_TEST.TARGET, 63)]).sameTarget 15 j = false := by
  intro j hj
  have hk : (sets on [(.SYS_TEST 15, SYS_TEST.KIND, 3), (.SYS_TEST 15, SYS_TEST.TARGET, 63)]).tKind j = 0 := by
    have hm : (sets on [(.SYS_TEST 15, SYS_TEST.KIND, 3), (.SYS_TEST 15, SYS_TEST.TARGET, 63)]).regs.map Prod.fst = [0xF000000678] := by
      decide
    have hr : (sets on [(.SYS_TEST 15, SYS_TEST.KIND, 3), (.SYS_TEST 15, SYS_TEST.TARGET, 63)]).rd (.SYS_TEST j) = 0 := by
      refine rd_reset (r := .SYS_TEST j) fun e he => ?_
      have : e.1 ∈ [0xF000000678] := hm ▸ List.mem_map_of_mem he
      have ha : (RegName.SYS_TEST j).addr = 0xF000000600 + 8 * j := rfl
      simp only [List.mem_singleton] at this
      omega
    simp only [Chip.tKind, Chip.gf, hr]
    decide
  have h3 : (sets on [(.SYS_TEST 15, SYS_TEST.KIND, 3), (.SYS_TEST 15, SYS_TEST.TARGET, 63)]).tKind 15 = 3 := by decide
  simp [Chip.sameTarget, hk, h3]

/-- Octets in flash from an offset of port 0. -/
def inFlash (off : Nat) (l : List Byte) : Tab Byte := ((List.range l.length).map (fun i => (off + i, l.getD i 0))).filter (fun e => e.2 != 0xFF)

/-- The header of copy A with a PREFIX and a LENGTH, and one `BANK` record of DRAM port 0. -/
def image0 (pfx len : Nat) (present : Nat) : List Byte :=
  bytesLE 8 0x454C464401000080 ++ bytesLE 8 (2 ^ 32) ++ bytesLE 8 len ++ bytesLE 8 pfx ++ List.replicate 96 0 ++
  bytesLE 8 (2 ^ 48 + 2 ^ 40 + 80) ++ bytesLE 8 (0x100 * 2 ^ 32) ++ bytesLE 8 present ++ List.replicate 72 0

/-- A load at a step with copy A in use. -/
def loading0 (step pfx present : Nat) : Chip :=
  { sets on [(.FLT_STATE, FLT_STATE.STATE, 1), (.CFG_STAT, CFG_STAT.BOOTSEL, 7)] with
    boot := { step := step, copy := some false, first := some false }, flash := inFlash 0x1000000 (image0 pfx 248 present) }

/-- Releases with TEST_MODE high and with the clock missing; a warm reset that waits for the core supply; training with a port
that passes and fails; a copy that fails its check; the second pass of a load; the tests passed. -/
theorem witness_boot :
    on.off = false ∧ ({} : Chip).off = true ∧ on.boot.corePg = false ∧ on.mayWrite .manager .CFG_CTL = true ∧
    on.mayWrite (.part 1) .CFG_CTL = false ∧
    (let c : Chip := { sets on [(.CFG_STAT, CFG_STAT.BOOTSEL, 7)] with boot := { step := 1, warm := true, corePg := true } }
     c.flt.deviceBrake = false ∧ c.boot.step = 1 ∧ c.boot.warm = true ∧ c.boot.corePg = true ∧ c.bootSel = 7 ∧
       (sets c [(.CFG_STAT, CFG_STAT.BOOTSEL, 3)]).bootSel = 3) ∧
    on.flt.deviceBrake = false := by
  decide

theorem witness_load :
    (∀ x ∈ [0, 1],
      let c := loading0 4 224 x
      c.loading 4 = true ∧ c.boot.copy = some false ∧ (c.copyHdr false).toOption.any (fun h =>
        (c.dramRecs false h).map (fun r => (r.idx, DRM_CFG.PRESENT.get (r.w 0))) == [(0x100, x)]) = true) ∧
    (let c := loading0 5 0 1
     c.loading 5 = true ∧ c.boot.order = [] ∧ c.flt.deviceBrake = false ∧
       (c.copyHdr false).toOption.any (fun h => c.copyVerdict false h [] != 0) = true) ∧
    (let c := loading0 6 0 1
     c.loading 6 = true ∧ c.secondPass ≠ 0 ∧ (sets c [(.DRM_CFG 0, DRM_CFG.PRESENT, 1)]).secondPass = 0) ∧
    (let c : Chip := { sets on [(.FLT_STATE, FLT_STATE.STATE, 2)] with boot := { step := 8 } }
     c.gf .FLT_STATE FLT_STATE.STATE = 2 ∧ c.boot.step = 8 ∧ c.gf .PAR_CFG PAR_CFG.TOPO ≠ 1 ∧ c.flt.early = false ∧
       (∀ p : Fin 64, c.gb (.PRT_CFG p) PRT_CFG.AUTOSTART = false) ∧
       (sets c [(.PAR_CFG, PAR_CFG.TOPO, 1)]).gf .PAR_CFG PAR_CFG.TOPO = 1) := by
  decide +kernel

/-- The three commands, in order and out of it, each at its end, one of the management port. -/
theorem witness_staging :
    let v (op n off : Nat) : DWord := CFG_STGCMD.OFFSET.put (CFG_STGCMD.LEN.put (CFG_STGCMD.OP.put (CFG_STGCMD.GO.put 0 1) op) n) off
    let c : Chip := { mem0 with stage := { slot := mem0.freeSlot, erased := true } }
    c.mayWrite .manager .CFG_STGCMD = true ∧ c.mayWrite (.part 1) .CFG_STGCMD = false ∧
    (∀ op ∈ [1, 2, 3], CFG_STGCMD.GO.get (v op 256 512) = 1 ∧ CFG_STGCMD.OP.get (v op 256 512) = op) ∧
    c.gb .CFG_STGSTAT CFG_STGSTAT.BUSY = false ∧ c.stage.slot = c.freeSlot ∧ c.mgrReadable 0 256 = true ∧ c.ecc = [] ∧
    CFG_STGCMD.LEN.get (v 2 256 512) = 256 ∧ CFG_STGCMD.OFFSET.get (v 2 256 512) = 512 ∧ CFG_STGCMD.OFFSET.get (v 2 256 9) % 256 ≠ 0 ∧
    on.mgrReadable 0 256 = false ∧ on.stage.erased = false ∧ on.stage.mgt = false ∧ on.stage.op = 0 ∧
    (sets on [(.CFG_STGSTAT, CFG_STGSTAT.BUSY, 1)]).gb .CFG_STGSTAT CFG_STGSTAT.BUSY = true ∧
    ({ on with stage := { op := 1, mgt := true }, mgt := { running := [{ cmd := 9, seq := 1 }] } } : Chip).mgt.responses = [] := by
  decide

/-- A link that is up with nothing under way, with window 31 on DRAM and queue 7 of the host. -/
def host0 : Chip := { sets mem0 [(.HST_STAT, HST_STAT.UP, 1), (.HST_WBASE 31, HST_WBASE.EN, 1), (.HST_WBASE 31, HST_WBASE.W, 1),
  (.HST_WBASE 31, HST_WBASE.BASE, 4), (.HST_WLIMIT 31, HST_WLIMIT.LIMIT, 5), (.QUE_CFG 7, QUE_CFG.HOST, 1)]
  with host := { credits := 1 } }

/-- Registers read, refused, off and misaligned; memory in the window, before and behind it; a doorbell, an event; a flit that is
the next one and one that is not; the ninth failure; a stall; a link that is down. -/
theorem witness_host :
    let e := RegName.FLT_ERRMASK
    let st := RegName.TIM_NOW
    let mgr := sets host0 [(.PRT_MGR, PRT_MGR.SITE, 1)]
    host0.hostUp = true ∧ host0.host.reqs = [] ∧ host0.host.faults = [] ∧ host0.chan.hev = [] ∧ host0.host.owedPosted = 0 ∧
    host0.host.owedNonPosted = 0 ∧ host0.host.cpls = [] ∧ host0.host.replay = [] ∧ 1 ≤ host0.host.credits ∧
    (∀ r ∈ [e, st], r.addr % 8 = 0 ∧ host0.region r.addr = .register ∧ bookWindow r.addr = false ∧ regOf r.addr = some r ∧
      host0.answers r.addr = true) ∧
    mgr.devReadable mgr.hostAgent e.addr = true ∧ host0.devReadable host0.hostAgent (RegName.BNK_OWNER 0).addr = false ∧
    (sets host0 [(.SYS_PWRSTAT, SYS_PWRSTAT.ON, 1)]).answers (RegName.CLU_EVTIMER 0 0).addr = false ∧
    host0.region 0 ≠ .register ∧ host0.standby = false ∧ mgr.gb .PRT_MGR PRT_MGR.SITE = true ∧ mgr.domainOn 0 = true ∧
    host0.mayWrite host0.hostAgent e = false ∧ regOf (RegName.HST_WBASE 31).addr = some (.HST_WBASE 31) ∧
    host0.mayWrite host0.hostAgent (.HST_WBASE 31) = false ∧
    Chip.blockOk 0x4000 256 = true ∧ Chip.blockOk 0x40F0 17 = false ∧ host0.hostMemStatus 0x4000 true = 0 ∧
    host0.hostMemStatus 0x3000 true ≠ 0 ∧ host0.hostMemStatus 0x6000 false ≠ 0 ∧ host0.hostWindow 0x6000 = none ∧
    host0.rangeHeld 0x4000 256 = false ∧ host0.ecc = [] ∧
    ({ host0 with commits := [{ m0 .ack (some 0) with rset := [0x100] }] } : Chip).rangeHeld 0x4000 256 = true ∧
    host0.gb (.QUE_CFG 7) QUE_CFG.HOST = true ∧ host0.gb (.QUE_CFG 8) QUE_CFG.HOST = false ∧
    host0.rangeStatus none (host0.ctla 7) 8 = 0 ∧ host0.rangeHeld (host0.ctla 7) 8 = false ∧
    ((sets host0 [(.CLU_EVCFG 31, CLU_EVCFG.HOSTEN, 0x8000)]).gf (.CLU_EVCFG 31) CLU_EVCFG.HOSTEN).testBit 15 = true ∧
    (host0.gf (.CLU_EVCFG 31) CLU_EVCFG.HOSTEN).testBit 15 = false ∧ host0.host.rxSeq = 0 ∧ host0.host.fails < 8 ∧
    ({ host0 with host := { fails := 8, stallFrom := some 0 } } : Chip).hostUp = true ∧ mem0.hostUp = false ∧
    mem0.domainOn 29 = true ∧ mem0.host.stallFrom = none := by
  decide +kernel

/-- What a register reads is its reset value or a stored one. -/
theorem rd_cases (c : Chip) (r : RegName) : c.rd r = r.reset ∨ ∃ e ∈ c.regs, e.1 = r.addr ∧ c.rd r = e.2 := by
  unfold Chip.rd
  generalize c.regs = l
  induction l with
  | nil => exact .inl rfl
  | cons e l ih =>
    by_cases h : r.addr = e.1
    · exact .inr ⟨e, List.mem_cons_self .., h.symm, by simp [Tab.get, h]⟩
    · simp only [Tab.get, h, if_false]
      rcases ih with ih | ⟨x, hx, h1, h2⟩
      · exact .inl ih
      · exact .inr ⟨x, List.mem_cons_of_mem _ hx, h1, h2⟩

/-- No partition's log is on: no register stored at an address of theirs has the bit. -/
theorem witness_no_logs : ∀ p : Nat, host0.gb (.PRT_LOGCFG p) PRT_LOGCFG.EN = false := by
  intro p
  have ha : (RegName.PRT_LOGCFG p).addr = 0xF000051000 + 0x40 * p + 24 := rfl
  have hm : ∀ e ∈ host0.regs, e.1 % 0x40 = 0x18 → (PRT_LOGCFG.EN.get e.2 == 1) = false := by decide
  rcases rd_cases host0 (.PRT_LOGCFG p) with h | ⟨e, he, h1, h2⟩
  · simp only [Chip.gb, Chip.gf, h]
    exact (by decide : (PRT_LOGCFG.EN.get (0xC000000000000 : DWord) == 1) = false)
  · simp only [Chip.gb, Chip.gf, h2]
    exact hm e he (by omega)

/-- A device with a management key; commands with each kind of payload, and ones too old, of another epoch, of a bad form. -/
def mgt0 : Chip := { sets mem0 [(.MGT_STAT, MGT_STAT.KEY, 1), (.MGT_STAT, MGT_STAT.LASTSEQ, 4)] with mgt := { key := List.replicate 32 5 } }
def frame0 (cmd : Nat) (payload : List Byte) : MgtFrame :=
  { flags := 0, len := BitVec.ofNat 16 payload.length, mepoch := 0, seq := 5, payload := payload
    tag := mgtTag (List.replicate 32 5) (mgtOctets cmd 0 payload.length 0 5 payload) }

theorem witness_management_tag (cmd : Fin 10) (pl : List Byte) (h : pl.length < 65536) :
    let f := frame0 cmd pl
    f.tag = mgtTag mgt0.mgt.key (mgtOctets cmd f.flags.toNat f.len.toNat f.mepoch.toNat f.seq.toNat f.payload) := by
  intro f
  have hk : mgt0.mgt.key = List.replicate 32 5 := rfl
  have e : (BitVec.ofNat 16 pl.length).toNat = pl.length := by
    rw [BitVec.toNat_ofNat]
    exact Nat.mod_eq_of_lt h
  simp only [f, frame0, hk, e]
  rfl

theorem witness_management :
    let f := frame0 2 []
    let word (r : RegName) : List Byte := bytesLE 8 r.addr
    mgt0.off = false ∧ mgt0.gb .MGT_STAT MGT_STAT.KEY = true ∧ mgt0.mgt.responses = [] ∧ mgt0.mgt.running = [] ∧
    mem0.gb .MGT_STAT MGT_STAT.KEY = false ∧ f.mepoch.toNat = mgt0.mepoch ∧ mgt0.lastSeq < f.seq.toNat ∧ f.flags = 0 ∧
    f.len.toNat = f.payload.length ∧ ({ f with mepoch := 1 } : MgtFrame).mepoch.toNat ≠ mgt0.mepoch ∧
    ({ f with flags := 1 } : MgtFrame).flags ≠ 0 ∧
    (let f := frame0 2 (word .TIM_NOW ++ [1, 0])
     f.payload.length = 10 ∧ plNat f 8 2 = 1 ∧ regOf (plNat f 0 8) = some .TIM_NOW ∧ mgt0.answers (plNat f 0 8) = true ∧
       mgt0.devReadable .miller (plNat f 0 8) = true) ∧
    (let f := frame0 3 (word .FLT_ERRMASK ++ List.replicate 8 1)
     f.payload.length = 16 ∧ mgt0.standby = false ∧ plNat f 0 8 = RegName.FLT_ERRMASK.addr ∧ mgt0.domainOn 0 = true ∧
       mgt0.mayWrite .miller (.LAN_CTL 23) = false ∧ (pair0 4).standby = true) ∧
    (let f := frame0 4 (bytesLE 8 1)
     f.payload.length = 8 ∧ ∀ k : Fin 20, (BitVec.ofNat 64 (plNat f 0 8)).getLsbD (3 * k + 1) = false) ∧
    (∀ x ∈ [4095, 4096], let f := frame0 5 (bytesLE 4 x ++ bytesLE 2 1)
     f.payload.length = 6 ∧ plNat f 4 2 ≤ 4096 ∧ plNat f 0 4 + plNat f 4 2 = x + 1) ∧
    (let f := frame0 6 [1, 0, 3, 0]
     f.payload.length = 4 ∧ Chip.abortOf f = some (.path 3) ∧ mgt0.domainOn 19 = true ∧ mgt0.abortable (.path 3) = true ∧
       mgt0.abortable (.path 4) = false) := by
  decide

theorem witness_management_commands :
    (let f := frame0 7 [1, 1]
     f.payload.length = 2 ∧ plByte f 0 = 1 ∧ plByte f 1 < 64 ∧ (part1 2 1).gb (.PRT_CFG 1) PRT_CFG.DEFINED = true ∧
       plByte (frame0 7 [2, 0]) 0 = 2 ∧ mgt0.chan.safeWait = []) ∧
    (let f := frame0 8 [1, 1]
     f.payload.length = 2 ∧ plByte f 0 = 1 ∧ plByte f 1 = 1 ∧ (part1 2 1).pstate 1 = 2 ∧ (part1 3 5).pstate 1 = 3 ∧
       ((part1 3 5).rd .FLT_RELPERM).getLsbD 1 = false ∧ (part1 2 1).flt.safeDue = [] ∧ mgt0.boot.corePg = false) ∧
    (let f := frame0 9 [1, 0, 0, 0, 0, 0, 0, 0]
     stageForm f = true ∧ plByte f 0 = 1 ∧ mgt0.stageSlotOk (plByte f 1) = true ∧ mgt0.gb .CFG_STGSTAT CFG_STGSTAT.BUSY = false ∧
       ({ mgt0 with boot := { copy := some false } } : Chip).stageSlotOk 0 = false) ∧
    (let c := { mgt0.setQue 7 { abort := some ⟨3⟩ } with mgt := { running := [⟨6, 4, some (.queue 7)⟩] } }
     let c := sets c [(.QUE_CTLA 7, QUE_CTLA.BASE, 2 ^ 30)]
     c.millOn = true ∧ c.following = false ∧ c.chan.egress = [] ∧ (c.que 7).abort = some ⟨3⟩ ∧ (c.que 7).prog = none ∧
       c.chan.paths = [] ∧ c.rangeStatus (c.queOwner 7) (c.ctla 7) 128 ≠ 0) ∧
    (let c := sets (mgt0.setPth 3 { abort := true }) [(.CHN_PATHCFG 3, CHN_PATHCFG.QUEUE, 9)]
     (c.pth 3).abort = true ∧ c.chan.ques = [] ∧ c.pWcp 3 = false ∧ c.queEn (c.gf (.CHN_PATHCFG 3) CHN_PATHCFG.QUEUE) = false) ∧
    (mgt0.que 7).abort = none ∧ (mgt0.pth 3).abort = false := by
  decide

/-! ### Witnesses: the block as a whole -/

/-- Well-formed commands that wait; a word that decodes, and the instruction it came from. -/
theorem witness_whole :
    (∀ i ∈ [Instr.brakeReq, .waitev l00], WellFormed i) ∧
    ∃ w, encode (.addi l00 .full 5 6 0xFFFF) = some w ∧ decodePrenyx l00 .full w = some (.addi l00 .full 5 6 0xFFFF) := by
  refine ⟨by decide, _, rfl, by decide⟩

/-! ### Ill-formed commands are refused by the check -/

theorem test_wf_mov_half : ¬ WellFormed (.mov l00 .half 0 0) ∧ ¬ WellFormed (.mov l00 .half 16 1) := by decide
theorem test_wf_add_half : ¬ WellFormed (.add l00 .half 1 2 3) := by decide
theorem test_wf_addi_half : ¬ WellFormed (.addi l00 .half 1 1 64) ∧ ¬ WellFormed (.addi l00 .half 30 30 2) := by decide
theorem test_wf_ld_half : ¬ WellFormed (.ldW l00 .half 5 6 32) ∧ ¬ WellFormed (.ldW l00 .half 5 0 4) := by decide
theorem test_wf_st_half : ¬ WellFormed (.stW l00 .half 5 30 512) := by decide
theorem test_wf_branch_half : ¬ WellFormed (.brZ l00 .half 5 64) ∧ ¬ WellFormed (.brNz l00 .half 16 0) := by decide
theorem test_wf_cache : ¬ WellFormed (.cacheClean l00 .address false 1 2) ∧ ¬ WellFormed (.cacheInvalidate l00 .setWay true 1 2) ∧
    ¬ WellFormed (.cacheCleanInvalidate l00 .address true 1 2) := by decide
theorem test_wf_can : ¬ WellFormed (.frameReceived 64 (.can false 0x800 false false false false [])) ∧
    ¬ WellFormed (.frameReceived 64 (.can false 0 false false false false (List.replicate 9 0))) ∧
    ¬ WellFormed (.input 64 0 (.can false 0 true false false false (List.replicate 65 0)) 0) := by decide
theorem test_wf_monitors : ¬ WellFormed (.governorTick []) ∧ ¬ WellFormed (.floormiss []) ∧ ¬ WellFormed (.recalibrationEnd []) := by
  decide

/-! ### Words written out bit by bit from the layouts of R86 to R112 -/

/-- FN C B A D OPC L -/
theorem test_decode_add : decodePrenyx l00 .full 0b000000_00000_00111_00110_00101_00001_1 = some (.add l00 .full 5 6 7) := by decide
theorem test_decode_remu : decodePrenyx l00 .full 0b011011_00000_00111_00110_00101_00001_1 = some (.remu l00 5 6 7) := by decide
theorem test_decode_shra : decodePrenyx l00 .full 0b001001_00000_11111_00110_00101_00010_1 = some (.shraImmediate l00 5 6 31) := by
  decide
theorem test_decode_addi : decodePrenyx l00 .full 0b1111111111111110_00110_00101_00011_1 = some (.addi l00 .full 5 6 0xFFFE) := by
  decide
theorem test_decode_lhi : decodePrenyx l00 .full 0b100000000000000000001_00101_00111_1 = some (.lhi l00 5 0x100001) := by decide
/-- OFF[12:5] W OFF[4:0] A D OPC L: the worked example of the encoding chapter, the store and the branch beside it. -/
theorem test_decode_load : decodePrenyx l00 .full 0x00483151 = some (.ldW l00 .full 5 6 8) ∧
    decodePrenyx l00 .half 0x590A = some (.stW l00 .half 5 9 0) ∧ decodePrenyx l00 .half 0x50D2 = some (.brNz l00 .half 5 6) ∧
    decodePrenyx l00 .half 0x5648 = some (.ldW l00 .half 5 6 8) := by decide
theorem test_decode_store : decodePrenyx l00 .full 0b10000000_011_00100_00110_00001_01001_1 = some (.stD l00 4 6 0x1001) := by decide
theorem test_decode_branch : decodePrenyx l00 .full 0b11111111_011_00111_00110_11110_01010_1 = some (.brGe l00 6 7 0x1FFE) := by
  decide
theorem test_decode_call : decodePrenyx l00 .full 0b10000000000000000000000001_01100_1 = some (.call l00 0x2000001) := by decide
theorem test_decode_jr : decodePrenyx l00 .full 0b000001_00000_00000_11111_00000_01101_1 = some (.callr l00 31) := by decide
theorem test_decode_callm : decodePrenyx l00 .full 0b0000000000000111_0000_0_00101_01110_1 = some (.callm l00 5 7) ∧
    decodePrenyx l00 .full 0b0000000000000111_0000_1_00000_01110_1 = some (.retm l00 7) := by decide
theorem test_decode_trap : decodePrenyx l00 .full 0b000000_00_10000001_00000_00000_01111_1 = some (.trap l00 .full 0x81) := by decide
theorem test_decode_csr : decodePrenyx l00 .full 0b000000000111_0001_00001_00000_10000_1 = some (.cwr l00 7 1) := by decide
theorem test_decode_barwait : decodePrenyx l00 .full 0b000100_00000_00000_0_1111_00000_10001_1 = some (.barwait l00 15) := by decide
theorem test_decode_cache : decodePrenyx l00 .full 0b000000_10_01_1_00000_00110_00000_10010_1 =
    some (.cacheInvalidate l00 .setWay true 6 0) := by decide
/-- The worked example of the encoding chapter. -/
theorem test_decode_tbegin : decodePrenyx l00 .full 0x00010027 = some (.tbegin l00 0x20) := by decide
theorem test_decode_fp : decodePrenyx l00 .full 0b001100_00000_00111_00110_00101_10100_1 = some (.fcmpLe l00 5 6 7) := by decide
theorem test_decode_undefined : decodePrenyx l00 .full 0xFFFFFFFF = none ∧ decodePrenyx l00 .half 0 = none ∧
    decodePrenyx l00 .full 1 = none ∧ decodePrenyx l00 .full 0b000000_00001_00111_00110_00101_00001_1 = none := by decide

/-! ### Worked examples of the specification -/

/-- The chip after a command. -/
def after (i : Instr) (s : State) : Chip := match exec i s with | .next t => t.chip | _ => {}

/-- The addition of R114's example: each of its instructions, one step on the registers before it. -/
theorem test_addc_low :
    let d := after (.addc l00 10 10 12) (withLane0 split0 { arch := { g := [(10, 0xFFFFFFF0), (12, 0x20)] } })
    (d.lane 0).arch.gr 10 = 0x10 ∧ (d.lane 0).arch.st SR.CY = 1 := by decide
theorem test_addc_high :
    let d := after (.addc l00 11 11 13) (withLane0 split0 { arch := { g := [(11, 2)], status := SR.CY.put 0 1 } })
    (d.lane 0).arch.gr 11 = 3 ∧ (d.lane 0).arch.st SR.CY = 0 := by decide

/-- The breaker command of the bank chapter: bit 5 set through the alias, bit 2 cleared. -/
theorem test_bit_aliases :
    let mine : Chip := { sets part0 [(.BNK_OWNER 40, BNK_OWNER.TYPE, 1)] with mem := [(bankBase + 0x80000 * 40, 4)] }
    (after (.bitSetAliasStore (.part 0) (BitVec.ofNat 40 (setBase + 0x80000 * 40)) 0x20) (st mine)).byte (bankBase + 0x80000 * 40) = 0x24 ∧
    (after (.bitClearAliasStore (.part 0) (BitVec.ofNat 40 (clearBase + 0x80000 * 40)) 4) (st mine)).byte (bankBase + 0x80000 * 40) = 0 := by
  decide

/-- The check of R226's example; its word read in bank 12, and with d0 flipped. -/
theorem test_ecc_example : eccCheck 1 0x4000680000 = 0x70 ∧ eccDecode 1 0x70 0x4000600000 = (1, .uncorrectable, 0x42) ∧
    eccDecode 0 0x70 0x4000680000 = (1, .corrected, 7) := by decide

/-- The header and the nonce of R300's example. -/
theorem test_wcp_header :
    let f : List Byte := [0x11, 0x00, 0x02, 0x5C, 0x00, 0x07, 0x01, 0x00, 0x00, 0x01, 0x2C, 0x40, 0x00, 0x00, 0x0F, 0x11]
    whdr f = ⟨1, 1, 0, 604, 7, 256, 0x12C40, 0xF11⟩ ∧
    wcpNonce f false = [0x02, 0x5C, 0x00, 0x07, 0x01, 0x00, 0x00, 0x01, 0x2C, 0x40, 0x01, 0x00] := by decide

/-- The frame and the response of the management chapter's example, before their tags. -/
theorem test_management_octets :
    mgtOctets 6 0 4 0x17 0xA3C [0, 0, 0x03, 0x08] = [0x06, 0, 4, 0, 0x17, 0, 0x3C, 0x0A, 0, 0, 0, 0, 0x03, 0x08] ∧
    mgtOctets 0x86 0 0 0x17 0xA3C [] = [0x86, 0, 0, 0, 0x17, 0, 0x3C, 0x0A, 0, 0] ∧
    Chip.abortOf { frame0 6 [0, 0, 0x03, 0x08] with seq := 0xA3C } = some (.queue 2051) := by decide

end Sys2Proof.Tests
end

section
/-! The block at reset: every sparse table of the chip is empty, so that each accessor answers its table's default. -/
namespace Sys2Proof.Machine

/-- A register that no table entry overrides reads the reset value of its field table (R10). -/
theorem Chip.rd_of_regs_eq_nil {c : Chip} (h : c.regs = []) (r : RegName) : c.rd r = r.reset := by
  rw [Chip.rd, h, Tab.get_nil]

/-- The choice of log 7 for memory that nothing has written. -/
theorem Chip.byte_of_mem_eq_nil {c : Chip} (h : c.mem = []) (a : Nat) : c.byte a = 0 := by
  rw [Chip.byte, h, Tab.get_nil]

/-- The choice of log 7 for flash: every octet is erased. -/
theorem Chip.flashRd_of_flash_eq_nil {c : Chip} (h : c.flash = []) (port off n : Nat) :
    c.flashRd port off n = List.replicate n 0xFF := by
  simp [Chip.flashRd, h, List.map_const']

/-- The choice of log 8 for lanes that no partition has started: internal state empty. -/
theorem Chip.lane_of_lanes_eq_nil {c : Chip} (h : c.lanes = []) (k : Nat) : c.lane k = {} := by
  rw [Chip.lane, h, Tab.get_nil]

/-- `g0` reads 0 whatever the registers hold (R62). -/
theorem Arch.gr_zero (a : Arch) : a.gr 0 = 0 := if_pos rfl

end Sys2Proof.Machine

open Sys2Proof Sys2Proof.Machine

/-- Settles O58: the reads of registers, memory, flash and lanes follow from the empty tables of the reset chip; the queues,
the faults and the held cold reset are fields of the reset state itself. -/
theorem resetState : Obligations.ResetState := by
  unfold Obligations.ResetState
  intro s c
  have registers : ∀ r : RegName, c.rd r = r.reset := Chip.rd_of_regs_eq_nil rfl
  have memory : ∀ a : Nat, c.byte a = 0 := Chip.byte_of_mem_eq_nil rfl
  have flash : ∀ p o : Nat, c.flashRd p o 1 = [0xFF] := fun p o => Chip.flashRd_of_flash_eq_nil rfl p o 1
  have lanes : ∀ k : Nat, (c.lane k).arch.gr 0 = 0 ∧ (c.lane k).retired = 0 ∧ (c.lane k).sb = [] := fun k => by
    rw [Chip.lane_of_lanes_eq_nil rfl k]
    exact ⟨Arch.gr_zero _, rfl, rfl⟩
  exact ⟨rfl, rfl, rfl, registers, memory, flash, rfl, rfl, rfl, rfl, rfl, rfl, rfl, rfl, lanes, reset_memory_wf⟩
end

section
/-! The queue and the time base: what a command leaves of both, and a step of either kind. -/
namespace Sys2Proof.Machine

/-- Every command but the two of the reset pin acts on the chip alone. -/
theorem exec_acts_on_chip (i : Instr) (s : State) (ha : i ≠ .porstNAssert) (hr : ∀ p, i ≠ .porstNRelease p) :
    ∃ c, exec i s = .next { s with chip := c } := by
  cases i with
  | porstNAssert => exact absurd rfl ha
  | porstNRelease p => exact absurd rfl (hr p)
  | _ => exact ⟨_, rfl⟩

/-- `PORST_N` low sets the time base to 0 and discards no waiting command (R40). -/
theorem exec_porstNAssert (s : State) :
    exec .porstNAssert s = .next { s with now := 0, chip := { flash := s.chip.flash, free := s.chip.free } } := rfl

/-- The release of `PORST_N` starts the time base at 0 where the device is off, and is nothing where it is not (R40). -/
theorem exec_porstNRelease (p : BootPins) (s : State) :
    ∃ t, exec (.porstNRelease p) s = .next t ∧ t.pending = s.pending ∧ (t.now = s.now ∨ t.now = 0) := by
  by_cases h : s.chip.off = true
  · exact ⟨_, if_pos h, rfl, .inr rfl⟩
  · exact ⟨_, if_neg h, rfl, .inl rfl⟩

/-- Every command answers a next state with the same commands waiting; only the reset pin changes the time. -/
theorem exec_queue_time (i : Instr) (s : State) :
    ∃ t, exec i s = .next t ∧ t.pending = s.pending ∧
      (t.now = s.now ∨ (t.now = 0 ∧ (i = .porstNAssert ∨ ∃ p, i = .porstNRelease p))) := by
  by_cases ha : i = .porstNAssert
  · subst ha
    exact ⟨_, exec_porstNAssert s, rfl, .inr ⟨rfl, .inl rfl⟩⟩
  by_cases hr : ∃ p, i = .porstNRelease p
  · obtain ⟨p, rfl⟩ := hr
    obtain ⟨t, he, hq, ht⟩ := exec_porstNRelease p s
    exact ⟨t, he, hq, ht.imp_right (⟨·, .inr ⟨p, rfl⟩⟩)⟩
  · obtain ⟨c, he⟩ := exec_acts_on_chip i s ha (not_exists.1 hr)
    exact ⟨_, he, rfl, .inl rfl⟩

/-- A step answers a next state: with nothing waiting, the tick; else the front command's, which waits no longer. -/
theorem step_queue_time (s : State) :
    ∃ t, step s = .next t ∧ t.pending = s.pending.drop 1 ∧ (s.pending = [] → t.now = s.now + 1) ∧
      (∀ i, s.pending.head? = some i →
        t.now = s.now ∨ (t.now = 0 ∧ (i = .porstNAssert ∨ ∃ p, i = .porstNRelease p))) := by
  cases hp : s.pending with
  | nil => exact ⟨s.tick, by simp only [step, hp], by simp [State.tick, hp], fun _ => rfl, by simp⟩
  | cons i r =>
    obtain ⟨t, he, hq, ht⟩ := exec_queue_time i { s with pending := r }
    refine ⟨t, by simpa only [step, hp] using he, hq, fun h => by simp at h, fun j hj => ?_⟩
    obtain rfl : i = j := by simpa using hj
    exact ht

end Sys2Proof.Machine

open Sys2Proof Sys2Proof.Machine

/-- Settles O59: the front command leaves the queue's rest, and the commands of the rest are among those that waited. -/
theorem queueAndTime : Obligations.QueueAndTime := by
  unfold Obligations.QueueAndTime
  intro s wf
  obtain ⟨t, he, hq, tick, time⟩ := step_queue_time s
  have rest : ∀ i ∈ t.pending, WellFormed i := fun i hi => wf i (List.mem_of_mem_drop (hq ▸ hi))
  exact ⟨t, he, ⟨t, he⟩, hq, rest, tick, time⟩
end

section
/-! What a report to the fault collector does, said once: the sticky bit it sets, the registers of chapter 18 it may write
besides, and what it leaves alone; and what setting the device brake leaves alone. -/
namespace Sys2Proof.Machine

/-! ### Frames -/

/-- Memory and the device registers at addresses outside `A` are as they were. -/
structure RegFrame (A : Nat → Prop) (c d : Chip) : Prop where
  mem : d.mem = c.mem
  rd : ∀ q : RegName, ¬ A q.addr → d.rd q = c.rd q

/-- The lanes, the control stores and the governor are as they were too. -/
structure UnitFrame (A : Nat → Prop) (c d : Chip) : Prop extends RegFrame A c d where
  lanes : d.lanes = c.lanes
  stores : d.stores = c.stores
  gov : d.gov = c.gov

variable {A B : Nat → Prop} {c d e : Chip}

namespace RegFrame

theorem refl (A : Nat → Prop) (c : Chip) : RegFrame A c c := ⟨rfl, fun _ _ => rfl⟩

theorem trans (h : RegFrame A c d) (k : RegFrame A d e) : RegFrame A c e :=
  ⟨k.mem.trans h.mem, fun q hq => (k.rd q hq).trans (h.rd q hq)⟩

/-- An operation that writes neither memory nor a device register. -/
theorem of_eq (hm : d.mem = c.mem) (hr : d.regs = c.regs) : RegFrame A c d :=
  ⟨hm, fun _ _ => by rw [Chip.rd, hr, ← Chip.rd]⟩

theorem flt (c : Chip) (f : Flt) : RegFrame A c { c with flt := f } := of_eq rfl rfl

theorem wr {r : RegName} (c : Chip) (v : DWord) (h : A r.addr) : RegFrame A c (c.wr r v) :=
  ⟨rfl, fun _ hq => c.rd_wr_other v (fun he => hq (he ▸ h))⟩

theorem sf {r : RegName} (c : Chip) (f : Fld) (n : Nat) (h : A r.addr) : RegFrame A c (c.sf r f n) := wr c _ h

theorem foldl {α : Type} {f : Chip → α → Chip} {l : List α} (c : Chip) (hf : ∀ c, ∀ x ∈ l, RegFrame A c (f c x)) :
    RegFrame A c (l.foldl f c) := by
  induction l generalizing c with
  | nil => exact refl A c
  | cons x r ih => exact (hf c x (by simp)).trans (ih _ fun c y hy => hf c y (by simp [hy]))

theorem mono (h : RegFrame A c d) (hAB : ∀ a, A a → B a) : RegFrame B c d :=
  ⟨h.mem, fun q hq => h.rd q (fun ha => hq (hAB _ ha))⟩

theorem gf (h : RegFrame A c d) {q : RegName} (f : Fld) (hq : ¬ A q.addr) : d.gf q f = c.gf q f := by
  rw [Chip.gf_eq, h.rd q hq, Chip.gf_eq]

theorem gb (h : RegFrame A c d) {q : RegName} (f : Fld) (hq : ¬ A q.addr) : d.gb q f = c.gb q f := by
  rw [Chip.gb, h.gf f hq, Chip.gb]

end RegFrame

namespace UnitFrame

theorem refl (A : Nat → Prop) (c : Chip) : UnitFrame A c c := ⟨.refl A c, rfl, rfl, rfl⟩

theorem trans (h : UnitFrame A c d) (k : UnitFrame A d e) : UnitFrame A c e :=
  ⟨h.toRegFrame.trans k.toRegFrame, k.lanes.trans h.lanes, k.stores.trans h.stores, k.gov.trans h.gov⟩

theorem mono (h : UnitFrame A c d) (hAB : ∀ a, A a → B a) : UnitFrame B c d :=
  ⟨h.toRegFrame.mono hAB, h.lanes, h.stores, h.gov⟩

theorem wr {r : RegName} (c : Chip) (v : DWord) (h : A r.addr) : UnitFrame A c (c.wr r v) := ⟨.wr c v h, rfl, rfl, rfl⟩

theorem sf {r : RegName} (c : Chip) (f : Fld) (n : Nat) (h : A r.addr) : UnitFrame A c (c.sf r f n) := wr c _ h

theorem bookInc (c : Chip) (o : Nat) : UnitFrame A c (c.bookInc o) := ⟨⟨rfl, fun q _ => c.rd_bookInc o q⟩, rfl, rfl, rfl⟩

theorem lane (h : UnitFrame A c d) (k : Nat) : d.lane k = c.lane k := by rw [Chip.lane, h.lanes, ← Chip.lane]

theorem cstore (h : UnitFrame A c d) (k : Nat) : d.cstore k = c.cstore k := by rw [Chip.cstore, h.stores, ← Chip.cstore]

end UnitFrame

namespace SameCore

theorem refl (c : Chip) : SameCore c c := ⟨rfl, rfl, rfl, rfl⟩

theorem trans (h : SameCore c d) (k : SameCore d e) : SameCore c e := by
  obtain ⟨hm, hl, hp, hc⟩ := h
  obtain ⟨km, kl, kp, kc⟩ := k
  exact ⟨km.trans hm, kl.trans hl, kp.trans hp, kc.trans hc⟩

theorem wr (c : Chip) (r : RegName) (v : DWord) : SameCore c (c.wr r v) := ⟨rfl, rfl, rfl, rfl⟩

theorem sf (c : Chip) (r : RegName) (f : Fld) (n : Nat) : SameCore c (c.sf r f n) := ⟨rfl, rfl, rfl, rfl⟩

theorem gov (c : Chip) (g : Gov) : SameCore c { c with gov := g } := ⟨rfl, rfl, rfl, rfl⟩

theorem flt (c : Chip) (f : Flt) : SameCore c { c with flt := f } := ⟨rfl, rfl, rfl, rfl⟩

end SameCore

namespace Chip

/-! ### Sticky bits -/

theorem sticky_congr (h : d.rd .FLT_STATUS = c.rd .FLT_STATUS) (src cls : Nat) : d.sticky src cls = c.sticky src cls := by
  rw [sticky, h, ← sticky]

theorem toNat_setBit_testBit (w : DWord) (i j : Nat) :
    (BitVec.ofNat 64 (setBit w.toNat i)).toNat.testBit j = (w.toNat.testBit j || decide (i = j ∧ j < 64)) := by
  have hw : w.toNat.testBit j = true → j < 64 := fun h => Nat.lt_of_not_le fun hj =>
    absurd h (by rw [Nat.testBit_lt_two_pow (w.isLt.trans_le (Nat.pow_le_pow_right (by decide) hj))]; decide)
  rw [BitVec.toNat_ofNat, Nat.testBit_mod_two_pow, setBit, Nat.testBit_or, Nat.testBit_two_pow]
  cases hb : w.toNat.testBit j
  · by_cases hj : j < 64 <;> simp [hj]
  · simp [hw hb]

theorem sticky_setSticky (c : Chip) (src cls s k : Nat) :
    (c.setSticky src cls).sticky s k = (c.sticky s k || decide (3 * src + cls = 3 * s + k ∧ 3 * s + k < 64)) := by
  rw [sticky, setSticky, rd_wr_same, toNat_setBit_testBit, ← sticky]

theorem stands_setSticky (c : Chip) {src cls : Nat} (h : 3 * src + cls < 64) : (c.setSticky src cls).stands src cls := by
  simp [stands, sticky_setSticky, h]

theorem stands_setSticky_of (src cls : Nat) {s k : Nat} (h : c.stands s k) : (c.setSticky src cls).stands s k := by
  simp [stands, sticky_setSticky, show c.sticky s k = true from h]

/-! ### Corrected faults (R407) -/

/-- The collector's registers that a report writes: `FLT_STATUS`, `FLT_STATE`, `FLT_TATTR`, `FLT_MATTR`, `FLT_ATTR`. -/
abbrev FltAddr (a : Nat) : Prop := 0xF000010000 ≤ a ∧ a < 0xF0000102A0

theorem corrected_eq (c : Chip) (now src : Nat) : ∃ f, c.corrected now src = { c.setSticky src 0 with flt := f } := by
  unfold corrected
  simp only []
  split
  · exact ⟨_, rfl⟩
  · exact ⟨_, rfl⟩

theorem corrected_unitFrame (c : Chip) (now src : Nat) : UnitFrame FltAddr c (c.corrected now src) := by
  obtain ⟨f, h⟩ := c.corrected_eq now src
  have k : UnitFrame FltAddr c (c.setSticky src 0) := .wr c _ (by decide)
  rw [h]
  exact ⟨⟨k.mem, k.rd⟩, k.lanes, k.stores, k.gov⟩

theorem corrected_sameCore (c : Chip) (now src : Nat) : SameCore c (c.corrected now src) := by
  obtain ⟨f, h⟩ := c.corrected_eq now src
  rw [h]
  exact .trans (.wr c _ _) (.flt _ f)

theorem corrected_stands (c : Chip) (now : Nat) {src : Nat} (h : src < 21) : (c.corrected now src).stands src 0 := by
  obtain ⟨f, hf⟩ := c.corrected_eq now src
  rw [hf]
  exact c.stands_setSticky (by omega)

/-! ### Contained faults (R408) -/

theorem openRound_eq (c : Chip) (t : Nat) : ∃ x, c.openRound t = { c with triads := x } := by
  unfold openRound
  split
  · exact ⟨_, rfl⟩
  · exact ⟨_, rfl⟩

theorem pendEvent_eq (c : Chip) (key n : Nat) : ∃ p x, c.pendEvent key n = { c with ports := p, triads := x } := by
  obtain ⟨x, h⟩ := (c.updPort key (fun p => { p with pend := addNew p.pend n })).openRound_eq (key / 3)
  exact ⟨_, x, h⟩

theorem noteManager_eq (c : Chip) (src : Nat) : ∃ p x, c.noteManager src = { c with ports := p, triads := x } := by
  unfold noteManager
  split
  · exact ⟨_, _, rfl⟩
  · exact c.pendEvent_eq _ _

/-- The notices of a contained fault are pending events and the rounds that they open. -/
theorem containedNotify_eq (c : Chip) (src k : Nat) :
    ∃ p x, c.containedNotify src k = { c with ports := p, triads := x } := by
  unfold containedNotify
  split
  · exact c.noteManager_eq src
  · obtain ⟨p, x, h⟩ := c.pendEvent_eq (c.noteKey k) (0x1010 + src)
    obtain ⟨p', x', h'⟩ := (c.pendEvent (c.noteKey k) (0x1010 + src)).noteManager_eq src
    exact ⟨p', x', h'.trans (by rw [h])⟩

theorem startGrace_eq (c : Chip) (now src k : Nat) : ∃ f, c.startGrace now src k = { c with flt := f } := by
  unfold startGrace
  split
  · exact ⟨_, rfl⟩
  · exact ⟨_, rfl⟩

/-- Step 4 of R408 and the grace timer: the collector's own state, and `FLT_STATE` where the device runs. -/
theorem containedState_eq (c : Chip) (now src k : Nat) (had : Bool) :
    ∃ f, c.containedState now src k had = { c with flt := f } ∨
      c.containedState now src k had = ({ c with flt := f }).sf .FLT_STATE FLT_STATE.STATE 4 := by
  have graced : ∃ f, (if had then c else c.startGrace now src k).quiet now = { c with flt := f } := by
    cases had
    · obtain ⟨f, h⟩ := c.startGrace_eq now src k
      exact ⟨_, congrArg (·.quiet now) h⟩
    · exact ⟨_, rfl⟩
  obtain ⟨f, h⟩ := graced
  unfold containedState
  simp only [h]
  split
  · exact ⟨_, .inl rfl⟩
  · split
    · exact ⟨f, .inr rfl⟩
    · exact ⟨f, .inl rfl⟩

theorem setAttr_unitFrame (c : Chip) {src : Nat} (h : src < 20) (k : Nat) : UnitFrame FltAddr c (c.setAttr src k) := by
  unfold setAttr
  split
  · exact .wr c _ (by decide)
  · exact .wr c _ (by simp only [FltAddr, RegName.addr]; omega)

theorem rd_setAttr_status (c : Chip) (src k : Nat) : (c.setAttr src k).rd .FLT_STATUS = c.rd .FLT_STATUS := by
  unfold setAttr
  split
  · exact c.rd_wr_other _ (by decide)
  · exact c.rd_wr_other _ (by simp only [RegName.addr]; omega)

theorem containedMark_unitFrame (c : Chip) {src : Nat} (h : src < 20) (k : Nat) (triad : Option Nat) :
    UnitFrame FltAddr c (c.containedMark src k triad) := by
  have marked : UnitFrame FltAddr c ((c.setSticky src 1).setAttr src k) :=
    .trans (.wr c _ (by decide)) (setAttr_unitFrame _ h k)
  unfold containedMark
  split
  · split
    · exact marked.trans (.wr _ _ (by decide))
    · exact marked
  · exact marked

theorem rd_containedMark_status (c : Chip) (src k : Nat) (triad : Option Nat) :
    (c.containedMark src k triad).rd .FLT_STATUS = (c.setSticky src 1).rd .FLT_STATUS := by
  have marked := (c.setSticky src 1).rd_setAttr_status src k
  unfold containedMark
  split
  · split
    · exact (rd_wr_other _ _ (by decide)).trans marked
    · exact marked
  · exact marked

/-- After its marks a contained fault writes no register but `FLT_STATE`. -/
theorem contained_eq (c : Chip) (now src : Nat) (who triad : Option Nat) :
    ∃ l p x h f, let d : Chip := { ({ c with leat := l } : Chip).containedMark src (c.attrKey who) triad with
        ports := p, triads := x, host := h, flt := f }
      c.contained now src who triad = d ∨ c.contained now src who triad = d.sf .FLT_STATE FLT_STATE.STATE 4 := by
  have told : ∃ l, (if c.standby then c.leatPut (.pfault src 1) else c) = { c with leat := l } := by
    cases c.standby
    · exact ⟨_, rfl⟩
    · exact ⟨_, rfl⟩
  obtain ⟨l, hl⟩ := told
  unfold contained
  simp only [hl]
  obtain ⟨p, x, hn⟩ := (({ c with leat := l } : Chip).containedMark src (c.attrKey who) triad).containedNotify_eq src
    (c.attrKey who)
  rw [hn]
  obtain ⟨f, hs⟩ := containedState_eq _ now src (c.attrKey who)
    (({ c with leat := l } : Chip).attributed src (c.attrKey who))
  exact ⟨l, p, x, _, f, hs⟩

theorem contained_unitFrame (c : Chip) (now : Nat) {src : Nat} (h : src < 20) (who triad : Option Nat) :
    UnitFrame FltAddr c (c.contained now src who triad) := by
  obtain ⟨l, p, x, ho, f, hd⟩ := c.contained_eq now src who triad
  have k := containedMark_unitFrame { c with leat := l } h (c.attrKey who) triad
  have base : UnitFrame FltAddr c { ({ c with leat := l } : Chip).containedMark src (c.attrKey who) triad with
      ports := p, triads := x, host := ho, flt := f } := ⟨⟨k.mem, k.rd⟩, k.lanes, k.stores, k.gov⟩
  rcases hd with hd | hd
  · rw [hd]; exact base
  · rw [hd]; exact base.trans (.sf _ _ _ (by decide))

theorem contained_stands (c : Chip) (now : Nat) {src : Nat} (h : src < 20) (who triad : Option Nat) :
    (c.contained now src who triad).stands src 1 := by
  obtain ⟨l, p, x, ho, f, hd⟩ := c.contained_eq now src who triad
  have marked : (({ c with leat := l } : Chip).containedMark src (c.attrKey who) triad).stands src 1 :=
    (sticky_congr (rd_containedMark_status _ _ _ _) _ _).trans (stands_setSticky _ (by omega))
  rcases hd with hd | hd
  · rw [hd]; exact marked
  · rw [hd]; exact (sticky_congr (rd_sf_other _ _ _ (by decide)) _ _).trans marked

/-! ### Faults of a triad (R402, R404) -/

/-- The addresses of the collector and of the fault syndrome of triad `t`. -/
abbrev TriadFltAddr (t a : Nat) : Prop := FltAddr a ∨ a = (RegName.CLU_FSYND t).addr

/-- What a fault report of a triad does: its source stands in the class, the syndrome names its code, and outside the
collector and the syndrome the block is as it was. -/
structure TriadReport (c d : Chip) (t code cls : Nat) : Prop extends UnitFrame (TriadFltAddr t) c d where
  stands : d.stands (t / 4) cls
  code : d.gf (.CLU_FSYND t) CLU_FSYND.CODE = code

theorem fsynd_unitFrame (c : Chip) (now t code cls : Nat) : UnitFrame (TriadFltAddr t) c (c.fsynd now t code cls) := by
  have put : ∀ (c : Chip) (f : Fld) (n : Nat), UnitFrame (TriadFltAddr t) c (c.sf (.CLU_FSYND t) f n) :=
    fun c f n => .sf c f n (.inr rfl)
  exact (((put _ _ _).trans (put _ _ _)).trans (put _ _ _)).trans (put _ _ _)

theorem gf_fsynd_code (c : Chip) (now t cls : Nat) {code : Nat} (h : code < 256) :
    (c.fsynd now t code cls).gf (.CLU_FSYND t) CLU_FSYND.CODE = code := by
  unfold fsynd
  simp (disch := decide) only [gf_sf_field, gf_sf_same]
  exact Nat.mod_eq_of_lt h

/-- The syndrome of a triad is no register of the collector. -/
theorem not_fltAddr_fsynd (t : Nat) : ¬ FltAddr (RegName.CLU_FSYND t).addr := by
  simp only [FltAddr, RegName.addr]
  omega

theorem triadCorrected_report (c : Chip) (now : Nat) {t code : Nat} (ht : t < 32) (h : code < 256) :
    TriadReport c (c.triadCorrected now t code) t code 0 := by
  have note := (c.fsynd now t code 0).corrected_unitFrame now (t / 4)
  exact ⟨(c.fsynd_unitFrame now t code 0).trans (note.mono fun _ => .inl), corrected_stands _ now (by omega),
    (note.gf _ (not_fltAddr_fsynd t)).trans (c.gf_fsynd_code now t 0 h)⟩

theorem triadContained_report (c : Chip) (now : Nat) {t code : Nat} (ht : t < 32) (h : code < 256) :
    TriadReport c (c.triadContained now t code) t code 1 := by
  have note := (c.fsynd now t code 1).contained_unitFrame now (src := t / 4) (by omega) (c.partOf t) (some t)
  exact ⟨(c.fsynd_unitFrame now t code 1).trans (note.mono fun _ => .inl), contained_stands _ now (by omega) _ _,
    (note.gf _ (not_fltAddr_fsynd t)).trans (c.gf_fsynd_code now t 1 h)⟩

/-! ### The device brake (R411, R412) -/

/-- The registers of the units that a brake stops: `SYS_BARSTAT`, `PRT_STATE`, and those of field lanes and clusters. -/
abbrev BrakeAddr (a : Nat) : Prop :=
  (0xF000000200 ≤ a ∧ a < 0xF000000280) ∨ (0xF000051000 ≤ a ∧ a < 0xF000052000) ∨ 0xF000200000 ≤ a

theorem brakeAddr_barstat {g : Nat} (h : g < 16) : BrakeAddr (RegName.SYS_BARSTAT g).addr := by
  simp only [BrakeAddr, RegName.addr]; omega

theorem brakeAddr_prtState {p : Nat} (h : p < 64) : BrakeAddr (RegName.PRT_STATE p).addr := by
  simp only [BrakeAddr, RegName.addr]; omega

theorem brakeAddr_fldStat (n : Nat) : BrakeAddr (RegName.FLD_STAT n).addr := by
  simp only [BrakeAddr, RegName.addr]; omega

theorem brakeAddr_tstate (t : Nat) : BrakeAddr (RegName.CLU_TSTATE t).addr := by
  simp only [BrakeAddr, RegName.addr]; omega

theorem want_regs (c : Chip) (t : Nat) (d : Decision) : (c.want t d).regs = c.regs := by
  unfold want
  split
  · rfl
  · obtain ⟨x, h⟩ := (c.updTriad t (fun x => { x with wants := addNew x.wants d })).openRound_eq t
    rw [h]; rfl

theorem barRelease_brakeFrame (c : Chip) (g key : Nat) : RegFrame BrakeAddr c (c.barRelease g key) := by
  unfold barRelease
  split
  · exact .of_eq rfl rfl
  · exact .of_eq (c.want_mem _ _) (c.want_regs _ _)

theorem barSync_brakeFrame (c : Chip) {g : Nat} (h : g < 16) : RegFrame BrakeAddr c (c.barSync g) :=
  .trans (.sf c _ _ (brakeAddr_barstat h)) (.sf _ _ _ (brakeAddr_barstat h))

theorem barEnd_brakeFrame (c : Chip) {g : Nat} (h : g < 16) : RegFrame BrakeAddr c (c.barEnd g) := by
  have emptied : RegFrame BrakeAddr c (c.setBar g { arrived := [] }) := .of_eq rfl rfl
  have counted : RegFrame BrakeAddr _ ((c.setBar g { arrived := [] }).inc (.SYS_BARSTAT g) SYS_BARSTAT.ROUNDS) :=
    .sf _ _ _ (brakeAddr_barstat h)
  exact ((emptied.trans counted).trans (.foldl _ fun c k _ => c.barRelease_brakeFrame g k)).trans (barSync_brakeFrame _ h)

theorem casCheck_brakeFrame (c : Chip) (m a : Nat) : RegFrame BrakeAddr c (c.casCheck m a) := by
  unfold casCheck
  split
  · refine .trans ?_ (barSync_brakeFrame (g := 15) _ (by decide))
    exact .of_eq rfl rfl
  · split
    · refine .trans ?_ (barEnd_brakeFrame (g := 15) _ (by decide))
      exact .of_eq rfl rfl
    · exact barSync_brakeFrame _ (by decide)

theorem barCheck_brakeFrame (c : Chip) {g : Nat} (h : g < 16) : RegFrame BrakeAddr c (c.barCheck g) := by
  unfold barCheck
  simp only []
  split
  · exact c.barSync_brakeFrame h
  · split
    · exact c.casCheck_brakeFrame _ _
    · split
      · exact c.barEnd_brakeFrame h
      · exact c.barSync_brakeFrame h

theorem barLeave_brakeFrame (c : Chip) (key : Nat) {g : Nat} (h : g < 16) : RegFrame BrakeAddr c (c.barLeave key g) :=
  .trans (d := c.setBar g { arrived := without (c.bar g).arrived key }) (.of_eq rfl rfl) (barCheck_brakeFrame _ h)

theorem barLeaveAll_brakeFrame (c : Chip) (key : Nat) : RegFrame BrakeAddr c (c.barLeaveAll key) := by
  unfold barLeaveAll
  refine .trans ?_ (.foldl _ fun c g hg => ?_)
  · exact .foldl c fun _ _ _ => .of_eq rfl rfl
  · exact c.barLeave_brakeFrame key (List.mem_range.1 (List.mem_filter.1 hg).1)

theorem txDiscard_brakeFrame (c : Chip) (key : Nat) : RegFrame BrakeAddr c (c.txDiscard key) := by
  unfold txDiscard
  split
  · exact .refl _ c
  · exact .of_eq rfl rfl

theorem fieldSafe_brakeFrame (c : Chip) (n : Nat) : RegFrame BrakeAddr c (c.fieldSafe n) := .sf c _ _ (brakeAddr_fldStat n)

theorem brakeTriad_brakeFrame (c : Chip) (t : Nat) : RegFrame BrakeAddr c (c.brakeTriad t) := by
  have left : ∀ (c : Chip) (l : List Nat), RegFrame BrakeAddr c (l.foldl (fun c k => (c.txDiscard k).barLeaveAll k) c) :=
    fun c l => .foldl c fun c k _ => (c.txDiscard_brakeFrame k).trans (barLeaveAll_brakeFrame _ k)
  have halted : ∀ c : Chip, RegFrame BrakeAddr c ((List.range 3).foldl (fun c i => c.haltLane (3 * t + i)) c) :=
    fun c => .foldl c fun _ _ _ => .of_eq rfl rfl
  have safe : ∀ c : Chip, RegFrame BrakeAddr c ((List.range 64).foldl (fun c n =>
      if c.gb (.FLD_CFG n) FLD_CFG.TRIADEN && c.gf (.FLD_CFG n) FLD_CFG.TRIAD == t then c.fieldSafe n else c) c) :=
    fun c => .foldl c fun c n _ => by
      split
      · exact c.fieldSafe_brakeFrame n
      · exact .refl _ c
  unfold brakeTriad
  simp only []
  split
  · exact .refl _ c
  · refine .trans ?_ (safe _)
    refine .trans ?_ (.sf _ _ _ (brakeAddr_tstate t))
    refine .trans ?_ (.sf _ _ _ (brakeAddr_tstate t))
    exact ((left c _).trans (halted _)).trans (.of_eq rfl rfl)

/-- A defined partition's triads are braked, and its state becomes BRAKED out of the states 2, 4 and 5 (R412). -/
def brakeMember (c : Chip) (p : Nat) : Chip :=
  if c.gb (.PRT_CFG p) PRT_CFG.DEFINED then
    let c := (c.triadsOf p).foldl (fun c t => c.brakeTriad t) c
    if c.pstate p = 2 ∨ c.pstate p = 4 ∨ c.pstate p = 5 then c.sf (.PRT_STATE p) PRT_STATE.STATE 3 else c
  else c

/-- Every unit that the device brake stops has stopped. -/
def brakeUnits (c : Chip) : Chip :=
  let c := (List.range 64).foldl brakeMember c
  let c := (List.range 32).foldl (fun c t => c.brakeTriad t) c
  (List.range 64).foldl (fun c n => c.fieldSafe n) c

theorem brakeMember_brakeFrame (c : Chip) {p : Nat} (h : p < 64) : RegFrame BrakeAddr c (c.brakeMember p) := by
  have triads : RegFrame BrakeAddr c ((c.triadsOf p).foldl (fun c t => c.brakeTriad t) c) :=
    .foldl c fun c t _ => c.brakeTriad_brakeFrame t
  unfold brakeMember
  split
  · simp only []
    split
    · exact triads.trans (.sf _ _ _ (brakeAddr_prtState h))
    · exact triads
  · exact .refl _ c

theorem brakeUnits_brakeFrame (c : Chip) : RegFrame BrakeAddr c c.brakeUnits := by
  have parts : RegFrame BrakeAddr c ((List.range 64).foldl brakeMember c) :=
    .foldl c fun c p hp => c.brakeMember_brakeFrame (List.mem_range.1 hp)
  exact (parts.trans (.foldl _ fun c t _ => c.brakeTriad_brakeFrame t)).trans (.foldl _ fun c n _ => c.fieldSafe_brakeFrame n)

/-- What the collector shows of a brake: the bit of `FLT_STATUS`, SAFE and the cause in `FLT_STATE` (R405, R411). -/
def showBrake (c : Chip) (cause : Nat) : Chip :=
  ((c.setSticky 21 0).sf .FLT_STATE FLT_STATE.STATE 5).sf .FLT_STATE FLT_STATE.CAUSE cause

theorem showBrake_regFrame (c : Chip) (cause : Nat) : RegFrame FltAddr c (c.showBrake cause) :=
  .trans (.trans (.wr c _ (by decide)) (.sf _ _ _ (by decide))) (.sf _ _ _ (by decide))

theorem showBrake_stands (cause : Nat) {src cls : Nat} (h : c.stands src cls) : (c.showBrake cause).stands src cls :=
  (sticky_congr ((rd_sf_other _ _ _ (by decide)).trans (rd_sf_other _ _ _ (by decide))) _ _).trans (stands_setSticky_of 21 0 h)

/-- Setting the device brake: the units stop, the collector holds the brake and shows it (R412, R414). -/
theorem brakeDevice_eq (c : Chip) (now cause : Nat) (hb : c.flt.deviceBrake = false) (ho : c.off = false) :
    ∃ f : Flt, f.deviceBrake = true ∧ c.brakeDevice now cause = ({ c.brakeUnits with flt := f } : Chip).showBrake cause := by
  unfold brakeDevice
  rw [hb, ho]
  exact ⟨_, rfl, rfl⟩

/-- What setting the brake keeps: faults that stand, memory, the registers outside the collector and the braked units. -/
theorem brakeDevice_sets (c : Chip) (now cause : Nat) (hb : c.flt.deviceBrake = false) (ho : c.off = false) :
    (∀ src cls, c.stands src cls → (c.brakeDevice now cause).stands src cls) ∧
      (c.brakeDevice now cause).flt.deviceBrake = true ∧
      RegFrame (fun a => FltAddr a ∨ BrakeAddr a) c (c.brakeDevice now cause) := by
  obtain ⟨f, hf, he⟩ := c.brakeDevice_eq now cause hb ho
  have held : RegFrame BrakeAddr c { c.brakeUnits with flt := f } := c.brakeUnits_brakeFrame.trans (.flt _ f)
  have shown := ({ c.brakeUnits with flt := f } : Chip).showBrake_regFrame cause
  rw [he]
  refine ⟨fun src cls h => ?_, hf, (held.mono fun _ => .inr).trans (shown.mono fun _ => .inl)⟩
  exact showBrake_stands cause ((sticky_congr (held.rd _ (by decide)) _ _).trans h)

/-- A fatal fault where no brake is set: the fault stands, the device brake is set, and memory and the registers outside the
collector and the braked units are as they were (R411). -/
theorem fatal_sets (c : Chip) (now : Nat) {src : Nat} (hs : src < 20) (hb : c.flt.deviceBrake = false) (ho : c.off = false) :
    (c.fatal now src).stands src 2 ∧ (c.fatal now src).flt.deviceBrake = true ∧
      RegFrame (fun a => FltAddr a ∨ BrakeAddr a) c (c.fatal now src) := by
  obtain ⟨stands, braked, frame⟩ := ((c.setSticky src 2).hostFault src 2).brakeDevice_sets now 1 hb ho
  have noted : RegFrame FltAddr c ((c.setSticky src 2).hostFault src 2) := .trans (.wr c _ (by decide)) (.of_eq rfl rfl)
  exact ⟨stands src 2 (c.stands_setSticky (by omega)), braked, (noted.mono fun _ => .inl).trans frame⟩

end Chip
end Sys2Proof.Machine
end

section
/-! The governor (R45 to R51): what readings and their comparison write. -/
namespace Sys2Proof.Machine

variable {c d e : Chip}

/-! ### Writes to device registers alone -/

namespace OnlyRegs
variable {rs : List RegName}

theorem refl (c : Chip) (rs : List RegName) : OnlyRegs c c rs := ⟨rfl, fun _ _ => rfl⟩

theorem trans (h : OnlyRegs c d rs) (k : OnlyRegs d e rs) : OnlyRegs c e rs := by
  obtain ⟨hd, hr⟩ := h
  obtain ⟨ke, kr⟩ := k
  exact ⟨ke.trans (congrArg (fun x : Chip => { x with regs := e.regs }) hd), fun q hq => (kr q hq).trans (hr q hq)⟩

theorem wr {r : RegName} (c : Chip) (v : DWord) (h : r ∈ rs) : OnlyRegs c (c.wr r v) rs :=
  ⟨rfl, fun _ hq => c.rd_wr_other v (fun he => hq (he ▸ List.mem_map_of_mem h))⟩

theorem sf {r : RegName} (c : Chip) (f : Fld) (n : Nat) (h : r ∈ rs) : OnlyRegs c (c.sf r f n) rs := wr c _ h

theorem foldl {α : Type} {f : Chip → α → Chip} {l : List α} (c : Chip) (hf : ∀ c, ∀ x ∈ l, OnlyRegs c (f c x) rs) :
    OnlyRegs c (l.foldl f c) rs := by
  induction l generalizing c with
  | nil => exact refl c rs
  | cons x r ih => exact (hf c x (by simp)).trans (ih _ fun c y hy => hf c y (by simp [hy]))

theorem sameCore (h : OnlyRegs c d rs) : SameCore c d := by
  obtain ⟨hd, -⟩ := h
  rw [hd]
  exact .refl c

theorem gov (h : OnlyRegs c d rs) : d.gov = c.gov := by
  obtain ⟨hd, -⟩ := h
  rw [hd]

theorem gf (h : OnlyRegs c d rs) {q : RegName} (f : Fld) (hq : q.addr ∉ rs.map RegName.addr) : d.gf q f = c.gf q f := by
  rw [Chip.gf_eq, h.2 q hq, Chip.gf_eq]

theorem gb (h : OnlyRegs c d rs) {q : RegName} (f : Fld) (hq : q.addr ∉ rs.map RegName.addr) : d.gb q f = c.gb q f := by
  rw [Chip.gb, h.gf f hq, Chip.gb]

end OnlyRegs

namespace Chip

/-- A one-bit field reads the bit written to it. -/
theorem gb_sf_same (c : Chip) (r : RegName) (i : Nat) (b : Bool) (h : i < 64) : (c.sf r ⟨i, i⟩ (bit b)).gb r ⟨i, i⟩ = b := by
  rw [gb, gf_sf_same c r _ _ (le_refl i) h]
  cases b <;> simp [bit]

@[simp] theorem gf_withGov (c : Chip) (g : Gov) (r : RegName) (f : Fld) : ({ c with gov := g } : Chip).gf r f = c.gf r f := rfl

@[simp] theorem gb_withGov (c : Chip) (g : Gov) (r : RegName) (f : Fld) : ({ c with gov := g } : Chip).gb r f = c.gb r f := rfl

/-! ### Readings -/

/-- The registers that new readings write. -/
def readingRegs : List RegName := .GOV_INDEX :: (List.range 13).map .GOV_MON

theorem noteMons_onlyRegs (c : Chip) (mons : List (BitVec 12)) : OnlyRegs c (c.noteMons mons) readingRegs :=
  .foldl c fun c _ hm => .wr c _ (List.mem_cons_of_mem _ (List.mem_map_of_mem hm))

theorem noteIndex_onlyRegs (c : Chip) (x : Nat × Nat) : OnlyRegs c (c.noteIndex x) readingRegs :=
  .trans (.sf c _ _ (List.mem_cons_self ..)) (.sf _ _ _ (List.mem_cons_self ..))

/-- Which channels report depends on `SYS_PWRSTAT` alone. -/
theorem speedIndex_congr (h : d.rd .SYS_PWRSTAT = c.rd .SYS_PWRSTAT) (mons : List (BitVec 12)) :
    d.speedIndex mons = c.speedIndex mons := by
  simp only [speedIndex, chanOn, domainOn, domainBusy, gf_eq, h]

/-- A speed index is a reading of one of the 13 channels. -/
theorem speedIndex_lt {mons : List (BitVec 12)} {m v : Nat} (h : c.speedIndex mons = some (m, v)) : m < 13 ∧ v < 4096 := by
  have bounded : ∀ b, c.speedIndex mons = b → ∀ x ∈ b, x.1 < 13 ∧ x.2 < 4096 := by
    rintro _ rfl
    unfold speedIndex
    refine List.foldlRecOn (motive := fun b : Option (Nat × Nat) => ∀ x ∈ b, x.1 < 13 ∧ x.2 < 4096) _ _ (by simp) fun b hb m hm => ?_
    simp only []
    have fresh : ∀ x ∈ some (m, (mons.getD m 0).toNat), x.1 < 13 ∧ x.2 < 4096 := by
      rintro _ ⟨⟩
      exact ⟨List.mem_range.1 hm, (mons.getD m 0).isLt⟩
    split
    · cases b with
      | none => exact fresh
      | some y =>
        simp only []
        split
        · exact fresh
        · exact hb
    · exact hb
  exact bounded _ h _ rfl

theorem noteIndex_index (c : Chip) (x : Nat × Nat) (h : x.2 < 4096) : (c.noteIndex x).gf .GOV_INDEX GOV_INDEX.INDEX = x.2 := by
  unfold noteIndex
  simp (disch := decide) only [gf_sf_same]
  exact Nat.mod_eq_of_lt h

theorem noteIndex_mon (c : Chip) (x : Nat × Nat) (h : x.1 < 13) : (c.noteIndex x).gf .GOV_INDEX GOV_INDEX.MON = x.1 := by
  unfold noteIndex
  simp (disch := decide) only [gf_sf_field, gf_sf_same]
  exact Nat.mod_eq_of_lt (h.trans (by decide))

/-! ### The commanded voltage -/

theorem govVolt_sameCore (c : Chip) (mv : Nat) : SameCore c (c.govVolt mv) := .trans (.sf c _ _ _) (.sf _ _ _ _)

theorem govVolt_onlyRegs (c : Chip) (mv : Nat) : OnlyRegs c (c.govVolt mv) [.GOV_VOLT, .GOV_STATUS] :=
  .trans (.sf c _ _ (by simp)) (.sf _ _ _ (by simp))

theorem govVolt_cmd (c : Chip) {mv : Nat} (h : mv < 1024) : (c.govVolt mv).govCmd = mv := by
  unfold govVolt govCmd
  rw [gf_sf_other _ _ _ _ (by decide), gf_sf_same _ _ _ _ (by decide) (by decide)]
  exact Nat.mod_eq_of_lt h

theorem govVolt_atmax (c : Chip) (mv : Nat) : (c.govVolt mv).gb .GOV_STATUS GOV_STATUS.ATMAX = (mv == 900) :=
  gb_sf_same _ _ 0 _ (by decide)

theorem govVolt_recalbusy (c : Chip) (mv : Nat) :
    (c.govVolt mv).gb .GOV_STATUS GOV_STATUS.RECALBUSY = c.gb .GOV_STATUS GOV_STATUS.RECALBUSY := by
  unfold govVolt gb
  simp (disch := decide) only [gf_sf_field, gf_sf_other]

/-! ### The comparison (R45) -/

/-- A held voltage is not compared (R48, R51, R52). -/
theorem govCompare_held (c : Chip) (now idx : Nat) (h : c.govHeld = true) :
    ∃ g, c.govCompare now idx = { c with gov := g } := by
  unfold govCompare
  simp only []
  rw [if_pos (by exact h)]
  exact ⟨_, rfl⟩

/-- An index below FLOOR plus MARGIN raises the voltage by 5 mV, as far as 900 mV, where ATMAX shows (R45, R53). -/
theorem govCompare_raise (c : Chip) (now idx : Nat) (h : c.govHeld = false) (hi : idx < c.govFloor + c.govMargin)
    (hv : c.govCmd < 900) :
    (c.govCompare now idx).govCmd = c.govCmd + 5 ∧
      (c.govCompare now idx).gb .GOV_STATUS GOV_STATUS.ATMAX = decide (c.govCmd + 5 = 900) ∧
      (∀ f, (c.govCompare now idx).gf .GOV_INDEX f = c.gf .GOV_INDEX f) ∧ SameCore c (c.govCompare now idx) := by
  have raised : ∃ g, c.govCompare now idx = { c.govVolt (c.govCmd + 5) with gov := g } := by
    unfold govCompare
    simp only []
    rw [if_neg (by exact ne_true_of_eq_false h), if_pos ⟨hi, hv⟩]
    exact ⟨_, rfl⟩
  obtain ⟨g, hg⟩ := raised
  rw [hg]
  refine ⟨?_, ?_, fun f => ?_, (c.govVolt_sameCore _).trans (.gov _ g)⟩
  · rw [govCmd, gf_withGov, ← govCmd, govVolt_cmd _ (by omega)]
  · rw [gb_withGov, govVolt_atmax, Bool.beq_eq_decide_eq]
  · rw [gf_withGov, (c.govVolt_onlyRegs _).gf f (by decide)]

/-- A stretch that begins now has not lasted. -/
theorem since_none_young (now : Nat) (b : Bool) {n : Nat} (h : 0 < n) :
    (since none now b).any (fun t => decide (t + n ≤ now)) = false := by
  cases b with
  | false => rfl
  | true => simp [since, h.ne']

/-- An index at FLOOR plus MARGIN or above, with no stretch behind it, leaves the voltage (R45). -/
theorem govCompare_stay (c : Chip) (now idx : Nat) (hi : c.govFloor + c.govMargin ≤ idx) (ha : c.gov.aboveSince = none) :
    ∃ g, c.govCompare now idx = { c with gov := g } := by
  unfold govCompare
  simp only []
  split
  · exact ⟨_, rfl⟩
  · rw [if_neg fun h => Nat.not_lt.2 hi h.1, ha, since_none_young _ _ (by decide), Bool.false_and, if_neg Bool.false_ne_true]
    exact ⟨_, rfl⟩

theorem govCompare_eq (c : Chip) (now idx : Nat) :
    ∃ g, c.govCompare now idx = { c with gov := g } ∨ ∃ mv, c.govCompare now idx = { c.govVolt mv with gov := g } := by
  unfold govCompare
  simp only []
  split
  · exact ⟨_, .inl rfl⟩
  · split
    · exact ⟨_, .inr ⟨_, rfl⟩⟩
    · split
      · exact ⟨_, .inr ⟨_, rfl⟩⟩
      · exact ⟨_, .inl rfl⟩

end Chip
end Sys2Proof.Machine
end

section
/-! What readings, AVSBus transactions and a write of `GOV_FLOOR` do to the chip (R42, R45 to R51). -/
namespace Sys2Proof.Machine

variable {c : Chip}

namespace Chip

/-! ### Readings under the governor (R45, R51) -/

/-- What readings are compared with: the new readings in `GOV_MON` and, outside a recalibration, the index in `GOV_INDEX`. -/
def withReadings (c : Chip) (mons : List (BitVec 12)) (x : Nat × Nat) : Chip :=
  if c.gb .GOV_STATUS GOV_STATUS.RECALBUSY then c.noteMons mons else (c.noteMons mons).noteIndex x

theorem withReadings_onlyRegs (c : Chip) (mons : List (BitVec 12)) (x : Nat × Nat) :
    OnlyRegs c (c.withReadings mons x) readingRegs := by
  unfold withReadings
  split
  · exact c.noteMons_onlyRegs mons
  · exact (c.noteMons_onlyRegs mons).trans (noteIndex_onlyRegs _ x)

theorem withReadings_cmd (c : Chip) (mons : List (BitVec 12)) (x : Nat × Nat) : (c.withReadings mons x).govCmd = c.govCmd :=
  (c.withReadings_onlyRegs mons x).gf _ (by decide)

theorem withReadings_threshold (c : Chip) (mons : List (BitVec 12)) (x : Nat × Nat) :
    (c.withReadings mons x).govFloor + (c.withReadings mons x).govMargin = c.govFloor + c.govMargin :=
  congrArg₂ (· + ·) ((c.withReadings_onlyRegs mons x).gf _ (by decide)) ((c.withReadings_onlyRegs mons x).gf _ (by decide))

theorem withReadings_held (c : Chip) (mons : List (BitVec 12)) (x : Nat × Nat) :
    (c.withReadings mons x).govHeld = c.govHeld := by
  have r := c.withReadings_onlyRegs mons x
  rw [govHeld, r.gb _ (by decide), r.gb _ (by decide), r.gov, ← govHeld]

theorem withReadings_index (mons : List (BitVec 12)) {m idx : Nat} (h : c.govHeld = false) (hi : idx < 4096) (hm : m < 13) :
    (c.withReadings mons (m, idx)).gf .GOV_INDEX GOV_INDEX.INDEX = idx ∧
      (c.withReadings mons (m, idx)).gf .GOV_INDEX GOV_INDEX.MON = m := by
  have busy : c.gb .GOV_STATUS GOV_STATUS.RECALBUSY = false := by
    simp only [govHeld, Bool.or_eq_false_iff] at h
    exact h.1.2
  rw [withReadings, busy]
  exact ⟨noteIndex_index _ (m, idx) hi, noteIndex_mon _ (m, idx) hm⟩

theorem speedIndex_noteMons (c : Chip) (mons : List (BitVec 12)) : (c.noteMons mons).speedIndex mons = c.speedIndex mons :=
  speedIndex_congr ((c.noteMons_onlyRegs mons).2 _ (by decide)) mons

theorem govReadings_of_some (c : Chip) (now : Nat) {mons : List (BitVec 12)} {x : Nat × Nat} (h : c.speedIndex mons = some x) :
    c.govReadings now mons = (c.withReadings mons x).govCompare now x.2 := by
  simp only [govReadings, speedIndex_noteMons, h, withReadings]

theorem govReadings_of_none (c : Chip) (now : Nat) {mons : List (BitVec 12)} (h : c.speedIndex mons = none) :
    c.govReadings now mons = c.noteMons mons := by
  simp only [govReadings, speedIndex_noteMons, h]

/-- Readings while the voltage is held leave it, and leave everything but the governor's registers. -/
theorem govReadings_held (c : Chip) (now : Nat) (mons : List (BitVec 12)) (h : c.govHeld = true) :
    (c.govReadings now mons).govCmd = c.govCmd ∧ SameCore c (c.govReadings now mons) := by
  cases hs : c.speedIndex mons with
  | none =>
    rw [govReadings_of_none c now hs]
    exact ⟨(c.noteMons_onlyRegs mons).gf _ (by decide), (c.noteMons_onlyRegs mons).sameCore⟩
  | some x =>
    obtain ⟨g, hg⟩ := govCompare_held _ now x.2 ((c.withReadings_held mons x).trans h)
    rw [govReadings_of_some c now hs, hg]
    exact ⟨c.withReadings_cmd mons x, (c.withReadings_onlyRegs mons x).sameCore.trans (.gov _ g)⟩

/-- Readings change nothing of a recalibration and touch no core. -/
theorem govReadings_frame (c : Chip) (now : Nat) (mons : List (BitVec 12)) :
    (c.govReadings now mons).gb .GOV_STATUS GOV_STATUS.RECALBUSY = c.gb .GOV_STATUS GOV_STATUS.RECALBUSY ∧
      (c.govReadings now mons).gb .GOV_CTRL GOV_CTRL.RECAL = c.gb .GOV_CTRL GOV_CTRL.RECAL ∧
      SameCore c (c.govReadings now mons) := by
  cases hs : c.speedIndex mons with
  | none =>
    have r := c.noteMons_onlyRegs mons
    rw [govReadings_of_none c now hs]
    exact ⟨r.gb _ (by decide), r.gb _ (by decide), r.sameCore⟩
  | some x =>
    have r := c.withReadings_onlyRegs mons x
    rw [govReadings_of_some c now hs]
    obtain ⟨g, hg | ⟨mv, hg⟩⟩ := govCompare_eq (c.withReadings mons x) now x.2
    · rw [hg]
      exact ⟨r.gb _ (by decide), r.gb _ (by decide), r.sameCore.trans (.gov _ g)⟩
    · have v := govVolt_onlyRegs (c.withReadings mons x) mv
      rw [hg]
      exact ⟨(govVolt_recalbusy _ mv).trans (r.gb _ (by decide)), (v.gb _ (by decide)).trans (r.gb _ (by decide)),
        (r.sameCore.trans v.sameCore).trans (.gov _ g)⟩

/-! ### `GOV_FLOOR` (R7, R49) -/

/-- The addresses that a report of source 18 writes: the collector's and `CFG_SYND`. -/
abbrev CfgFltAddr (a : Nat) : Prop := FltAddr a ∨ a = RegName.CFG_SYND.addr

theorem cfgReport_frame (c : Chip) (now code typ addr : Nat) :
    RegFrame CfgFltAddr c (c.cfgReport now code typ addr) ∧ SameCore c (c.cfgReport now code typ addr) := by
  have put : ∀ (c : Chip) (f : Fld) (n : Nat), RegFrame CfgFltAddr c (c.sf .CFG_SYND f n) := fun c f n => .sf c f n (.inr rfl)
  have noted := ((put c CFG_SYND.CODE code).trans (put _ CFG_SYND.TYPE typ)).trans (put _ CFG_SYND.ADDR addr)
  have core := ((SameCore.sf c .CFG_SYND CFG_SYND.CODE code).trans (.sf _ .CFG_SYND CFG_SYND.TYPE typ)).trans
    (.sf _ .CFG_SYND CFG_SYND.ADDR addr)
  unfold cfgReport
  exact ⟨noted.trans ((corrected_unitFrame _ now 18).toRegFrame.mono fun _ => .inl), core.trans (corrected_sameCore _ now 18)⟩

theorem lockedTry_frame (c : Chip) (now : Nat) (r : RegName) (v : DWord) :
    RegFrame CfgFltAddr c (c.lockedTry now r v) ∧ SameCore c (c.lockedTry now r v) := by
  unfold lockedTry
  split
  · exact c.cfgReport_frame now 0x01 0 r.addr
  · exact ⟨.refl _ c, .refl c⟩

theorem govFloorWrite_in_range (now : Nat) (v : DWord) (hb : c.gf .GOV_FLOOR GOV_FLOOR.BASE ≤ GOV_FLOOR.FLOOR.get v)
    (hm : GOV_FLOOR.FLOOR.get v ≤ 2400) :
    (c.govFloorWrite now v).govFloor = GOV_FLOOR.FLOOR.get v ∧ SameCore c (c.govFloorWrite now v) := by
  obtain ⟨frame, core⟩ := c.lockedTry_frame now .GOV_FLOOR v
  unfold govFloorWrite
  simp only []
  rw [if_pos ⟨(frame.gf _ (by decide)).trans_le hb, hm⟩]
  refine ⟨?_, core.trans (.sf _ _ _ _)⟩
  rw [govFloor, gf_sf_same _ _ _ _ (by decide) (by decide)]
  exact Nat.mod_eq_of_lt (Nat.lt_of_le_of_lt hm (by decide))

theorem govFloorWrite_out_of_range (now : Nat) (v : DWord)
    (h : GOV_FLOOR.FLOOR.get v < c.gf .GOV_FLOOR GOV_FLOOR.BASE ∨ 2400 < GOV_FLOOR.FLOOR.get v) :
    (c.govFloorWrite now v).govFloor = c.govFloor ∧ (c.govFloorWrite now v).stands 19 0 ∧
      SameCore c (c.govFloorWrite now v) := by
  obtain ⟨frame, core⟩ := c.lockedTry_frame now .GOV_FLOOR v
  have out : ¬ ((c.lockedTry now .GOV_FLOOR v).gf .GOV_FLOOR GOV_FLOOR.BASE ≤ GOV_FLOOR.FLOOR.get v ∧
      GOV_FLOOR.FLOOR.get v ≤ 2400) := by
    rw [frame.gf _ (by decide)]
    omega
  unfold govFloorWrite
  simp only []
  rw [if_neg out]
  exact ⟨((corrected_unitFrame _ now 19).gf _ (by decide)).trans (frame.gf _ (by decide)),
    corrected_stands _ now (by decide), core.trans (corrected_sameCore _ now 19)⟩

/-! ### AVSBus (R48) and the monitors (R42, R47) -/

theorem avsAck_meas (c : Chip) (meas : BitVec 10) : (c.avsAck meas).gf .GOV_VOLT GOV_VOLT.MEAS = meas.toNat :=
  (gf_sf_same _ _ _ _ (by decide) (by decide)).trans (Nat.mod_eq_of_lt meas.isLt)

/-- The third transaction in a row that is not acknowledged. -/
theorem avsNack_third (now : Nat) (h : c.gov.nacks = 2) :
    (c.avsNack now).gov.retryAt = some (now + 1000000) ∧ (c.avsNack now).gb .GOV_STATUS GOV_STATUS.AVSERR = true ∧
      (c.avsNack now).stands 19 1 ∧ (c.avsNack now).mem = c.mem := by
  unfold avsNack
  simp only [h]
  rw [if_pos trivial]
  have frame := contained_unitFrame (({ c with gov := { c.gov with nacks := 2 + 1, retryAt := some (now + 1000000) } } : Chip).sf
    .GOV_STATUS GOV_STATUS.AVSERR 1) now (src := 19) (by decide) none none
  exact ⟨congrArg Gov.retryAt frame.gov, (frame.gb _ (by decide)).trans (gb_sf_same _ _ 2 true (by decide)),
    contained_stands _ now (by decide) _ _, frame.mem⟩

/-- A contained fault of source 19 with the status bit of its cause. -/
theorem contained_noted (c : Chip) (now : Nat) (r : RegName) (i : Nat) (hr : ¬ FltAddr r.addr) (hi : i < 64) :
    ((c.sf r ⟨i, i⟩ 1).contained now 19 none none).gb r ⟨i, i⟩ = true ∧
      ((c.sf r ⟨i, i⟩ 1).contained now 19 none none).stands 19 1 ∧
      ((c.sf r ⟨i, i⟩ 1).contained now 19 none none).mem = c.mem := by
  have frame := contained_unitFrame (c.sf r ⟨i, i⟩ 1) now (src := 19) (by decide) none none
  exact ⟨(frame.gb _ hr).trans (gb_sf_same _ _ i true hi), contained_stands _ now (by decide) _ _, frame.mem⟩

theorem floorMissed_due {t now : Nat} (hs : c.gov.belowSince = some t) (ht : t + 20000 ≤ now)
    (hm : c.gb .GOV_STATUS GOV_STATUS.FLOORMISS = false) :
    c.floorMissed now = (c.sf .GOV_STATUS GOV_STATUS.FLOORMISS 1).contained now 19 none none := by
  unfold floorMissed
  rw [if_pos]
  simp [hs, hm, ht]

theorem floorMissed_of_none (now : Nat) (hs : c.gov.belowSince = none) : c.floorMissed now = c := by
  unfold floorMissed
  rw [if_neg]
  simp [hs]

end Chip
end Sys2Proof.Machine
end

section
/-! The commands of the governor and of the reference clock (R42, R45 to R51), each said once as the chip that it answers. -/
namespace Sys2Proof.Machine

variable {s : State}

theorem exec_governorTick (mons : List (BitVec 12)) (h : s.chip.off = false) :
    exec (.governorTick mons) s = .next { s with chip := s.chip.govReadings s.now.toNat mons } := by
  change execGovernorTick mons s = _
  simp [execGovernorTick, State.act, h]

theorem exec_avsbusTransactionEnd (ack : Bool) (meas : BitVec 10) (h : s.chip.off = false) (hr : s.chip.gov.retryAt = none) :
    exec (.avsbusTransactionEnd ack meas) s =
      .next { s with chip := if ack then s.chip.avsAck meas else s.chip.avsNack s.now.toNat } := by
  change execAvsbusTransactionEnd ack meas s = _
  simp [execAvsbusTransactionEnd, State.act, h, hr]

theorem exec_avsbusRetry_due (ack : Bool) (meas : BitVec 10) {t : Nat} (h : s.chip.off = false)
    (hr : s.chip.gov.retryAt = some t) (ht : t ≤ s.now.toNat) :
    exec (.avsbusRetry ack meas) s = .next { s with chip := if ack then s.chip.avsAck meas else
      { s.chip with gov := { s.chip.gov with retryAt := some (s.now.toNat + 1000000) } } } := by
  change execAvsbusRetry ack meas s = _
  simp only [execAvsbusRetry, State.act, hr, h, Bool.false_or, decide_eq_true_eq, if_neg (Nat.not_lt.2 ht)]

theorem exec_avsbusRetry_early (ack : Bool) (meas : BitVec 10) {t : Nat} (hr : s.chip.gov.retryAt = some t)
    (ht : s.now.toNat < t) : exec (.avsbusRetry ack meas) s = .next s := by
  change execAvsbusRetry ack meas s = _
  simp [execAvsbusRetry, State.act, hr, ht]

theorem exec_floormiss {mons : List (BitVec 12)} {x : Nat × Nat} (h : s.chip.off = false)
    (hx : s.chip.speedIndex mons = some x) (hl : x.2 < s.chip.govFloor) (hv : s.chip.govCmd = 900) :
    exec (.floormiss mons) s = .next { s with chip := s.chip.floorMissed s.now.toNat } := by
  change execFloormiss mons s = _
  simp [execFloormiss, State.act, h, hx, hl, hv]

theorem exec_floormiss_of_none (mons : List (BitVec 12)) (hb : s.chip.gov.belowSince = none) :
    exec (.floormiss mons) s = .next s := by
  change execFloormiss mons s = _
  cases hx : s.chip.speedIndex mons with
  | none => simp [execFloormiss, State.act, hx]
  | some x => simp [execFloormiss, State.act, hx, Chip.floorMissed_of_none _ hb]

theorem exec_underv (h : s.chip.off = false) :
    exec .underv s = .next { s with chip := (s.chip.sf .GOV_STATUS GOV_STATUS.UNDERV 1).fatal s.now.toNat 19 } := by
  change execUnderv s = _
  simp [execUnderv, State.act, h]

theorem exec_refclkLoss (h : s.chip.off = false) :
    exec .refclkLoss s = .next { s with chip :=
      ((s.chip.sf .TIM_STATUS TIM_STATUS.LOSS 1).sf .TIM_STATUS TIM_STATUS.LOCK 0).fatal s.now.toNat 19 } := by
  change execRefclkLoss s = _
  simp [execRefclkLoss, State.act, h]

theorem exec_refclkDrift (h : s.chip.off = false) :
    exec .refclkDrift s = .next { s with chip :=
      (s.chip.sf .TIM_STATUS TIM_STATUS.DRIFT 1).contained s.now.toNat 19 none none } := by
  change execRefclkDrift s = _
  simp [execRefclkDrift, State.act, h]

theorem exec_recal (ag : Agent) (h : s.chip.off = false) :
    exec (.recal ag) s = .next { s with chip := if s.chip.mayWrite ag .GOV_CTRL then s.chip.recalStart else s.chip } := by
  change execRecal ag s = _
  simp [execRecal, State.act, h]

theorem exec_recalibrationEnd (mons : List (BitVec 12)) :
    exec (.recalibrationEnd mons) s = .next { s with chip := s.chip.recalEnd s.now.toNat mons } := rfl

theorem exec_govFloorWrite (ag : Agent) (v : BitVec 64) (h : s.chip.off = false) :
    exec (.govFloorWrite ag v) s = .next { s with
      chip := if s.chip.mayWrite ag .GOV_FLOOR then s.chip.govFloorWrite s.now.toNat v else s.chip } := by
  change execGovFloorWrite ag v s = _
  simp [execGovFloorWrite, State.act, h]

namespace Chip
variable {c : Chip}

/-- Readings below FLOOR plus MARGIN (R45). -/
theorem govReadings_below (now : Nat) {mons : List (BitVec 12)} {m idx : Nat} (hs : c.speedIndex mons = some (m, idx))
    (hh : c.govHeld = false) (hi : idx < c.govFloor + c.govMargin) (hv : c.govCmd < 900) :
    (c.govReadings now mons).govCmd = c.govCmd + 5 ∧ (c.govReadings now mons).gf .GOV_INDEX GOV_INDEX.INDEX = idx ∧
      (c.govReadings now mons).gf .GOV_INDEX GOV_INDEX.MON = m ∧
      (c.govReadings now mons).gb .GOV_STATUS GOV_STATUS.ATMAX = decide (c.govCmd + 5 = 900) ∧
      SameCore c (c.govReadings now mons) := by
  obtain ⟨hm, hx⟩ := speedIndex_lt hs
  obtain ⟨index, mon⟩ := withReadings_index mons hh hx hm
  have r := c.withReadings_onlyRegs mons (m, idx)
  obtain ⟨cmd, atmax, kept, core⟩ := govCompare_raise (c.withReadings mons (m, idx)) now idx
    ((c.withReadings_held mons _).trans hh) (by rwa [withReadings_threshold]) (by rwa [withReadings_cmd])
  rw [withReadings_cmd] at cmd atmax
  rw [govReadings_of_some c now hs]
  exact ⟨cmd, (kept _).trans index, (kept _).trans mon, atmax, r.sameCore.trans core⟩

/-- Readings at FLOOR plus MARGIN or above with no stretch behind them (R45). -/
theorem govReadings_above (now : Nat) {mons : List (BitVec 12)} {m idx : Nat} (hs : c.speedIndex mons = some (m, idx))
    (hh : c.govHeld = false) (hi : c.govFloor + c.govMargin ≤ idx) (ha : c.gov.aboveSince = none) :
    (c.govReadings now mons).govCmd = c.govCmd ∧ (c.govReadings now mons).gf .GOV_INDEX GOV_INDEX.INDEX = idx ∧
      SameCore c (c.govReadings now mons) := by
  obtain ⟨hm, hx⟩ := speedIndex_lt hs
  obtain ⟨index, -⟩ := withReadings_index mons hh hx hm
  have r := c.withReadings_onlyRegs mons (m, idx)
  obtain ⟨g, hg⟩ := govCompare_stay (c.withReadings mons (m, idx)) now idx (by rwa [withReadings_threshold])
    (r.gov ▸ ha)
  rw [govReadings_of_some c now hs, hg]
  exact ⟨c.withReadings_cmd mons _, index, r.sameCore.trans (.gov _ g)⟩

theorem recalStart_sets (h : c.gb .GOV_STATUS GOV_STATUS.RECALBUSY = false) :
    c.recalStart.gb .GOV_STATUS GOV_STATUS.RECALBUSY = true ∧ c.recalStart.gb .GOV_CTRL GOV_CTRL.RECAL = true ∧
      OnlyRegs c c.recalStart [.GOV_STATUS, .GOV_CTRL] := by
  have ctrl : OnlyRegs (c.sf .GOV_STATUS GOV_STATUS.RECALBUSY 1)
    ((c.sf .GOV_STATUS GOV_STATUS.RECALBUSY 1).sf .GOV_CTRL GOV_CTRL.RECAL 1) [.GOV_CTRL] := .sf _ _ _ (by simp)
  rw [recalStart, h]
  exact ⟨(ctrl.gb _ (by decide)).trans (gb_sf_same _ _ 4 true (by decide)), gb_sf_same _ _ 0 true (by decide),
    .trans (.sf _ _ _ (by simp)) (.sf _ _ _ (by simp))⟩

theorem recalEnd_clears (now : Nat) (mons : List (BitVec 12)) (h : c.gb .GOV_STATUS GOV_STATUS.RECALBUSY = true) :
    (c.recalEnd now mons).gb .GOV_STATUS GOV_STATUS.RECALBUSY = false ∧
      (c.recalEnd now mons).gb .GOV_CTRL GOV_CTRL.RECAL = false ∧ SameCore c (c.recalEnd now mons) := by
  have ctrl : OnlyRegs (c.sf .GOV_STATUS GOV_STATUS.RECALBUSY 0)
    ((c.sf .GOV_STATUS GOV_STATUS.RECALBUSY 0).sf .GOV_CTRL GOV_CTRL.RECAL 0) [.GOV_CTRL] := .sf _ _ _ (by simp)
  obtain ⟨busy, recal, core⟩ := govReadings_frame
    ((c.sf .GOV_STATUS GOV_STATUS.RECALBUSY 0).sf .GOV_CTRL GOV_CTRL.RECAL 0) now mons
  rw [recalEnd, h]
  exact ⟨busy.trans ((ctrl.gb _ (by decide)).trans (gb_sf_same _ _ 4 false (by decide))),
    recal.trans (gb_sf_same _ _ 0 false (by decide)), (SameCore.trans (.sf c _ _ _) (.sf _ _ _ _)).trans core⟩

end Chip

end Sys2Proof.Machine

open Sys2Proof Sys2Proof.Machine

/-- Settles O37: each command answers the chip that its law above names, and the governor's laws say what that chip holds. -/
theorem governorRules : Obligations.GovernorRules := by
  unfold Obligations.GovernorRules
  intro s mons m idx t meas ag v c now fl cmd n off
  have tick := exec_governorTick mons off
  refine ⟨fun hs hh => ⟨fun hi hv => ?below, fun hi ha => ?above⟩, fun hh => ?held, fun hr => ⟨?ack, fun hn => ?nack⟩,
    fun hr ht => ⟨?retryAck, ?retryNack⟩, fun hr ht b => exec_avsbusRetry_early b meas hr ht, fun hs hl hv hb ht hm => ?missed,
    fun hb => exec_floormiss_of_none mons hb, fun hb => ⟨?underv, ?loss⟩, ?drift, fun hw hb => ?recal, fun hb => ?recalEnd,
    fun hw => ⟨fun hl hu => ?inRange, fun hl => ?outOfRange⟩, fun hw => ?noRecal, fun hw => ?noFloor⟩
  case below => exact ⟨_, tick, Chip.govReadings_below now hs hh hi hv⟩
  case above => exact ⟨_, tick, Chip.govReadings_above now hs hh hi ha⟩
  case held => exact ⟨_, tick, c.govReadings_held now mons hh⟩
  case ack =>
    exact ⟨_, exec_avsbusTransactionEnd true meas off hr, rfl, c.avsAck_meas meas, .trans (.gov c _) (.sf _ _ _ _)⟩
  case nack => exact ⟨_, exec_avsbusTransactionEnd false meas off hr, Chip.avsNack_third now hn⟩
  case retryAck =>
    exact ⟨_, exec_avsbusRetry_due true meas off hr ht, rfl, c.avsAck_meas meas, .trans (.gov c _) (.sf _ _ _ _)⟩
  case retryNack => exact ⟨_, exec_avsbusRetry_due false meas off hr ht, rfl, rfl, .gov c _⟩
  case missed =>
    have due := Chip.floorMissed_due hb ht hm
    exact ⟨_, exec_floormiss off hs hl hv, by rw [due]; exact c.contained_noted now .GOV_STATUS 1 (by decide) (by decide)⟩
  case underv =>
    obtain ⟨stands, braked, frame⟩ := (c.sf .GOV_STATUS GOV_STATUS.UNDERV 1).fatal_sets now (src := 19) (by decide) hb off
    exact ⟨_, exec_underv off, (frame.gb _ (by decide)).trans (Chip.gb_sf_same _ _ 3 true (by decide)), stands, braked, frame.mem⟩
  case loss =>
    obtain ⟨stands, braked, frame⟩ := ((c.sf .TIM_STATUS TIM_STATUS.LOSS 1).sf .TIM_STATUS TIM_STATUS.LOCK 0).fatal_sets now
      (src := 19) (by decide) hb off
    have lost : ((c.sf .TIM_STATUS TIM_STATUS.LOSS 1).sf .TIM_STATUS TIM_STATUS.LOCK 0).gb .TIM_STATUS TIM_STATUS.LOSS = true := by
      rw [Chip.gb, Chip.gf_sf_field _ _ _ _ _ (by decide) (by decide) (by decide)]
      exact Chip.gb_sf_same _ _ 1 true (by decide)
    exact ⟨_, exec_refclkLoss off, (frame.gb _ (by decide)).trans lost,
      (frame.gb _ (by decide)).trans (Chip.gb_sf_same _ _ 0 false (by decide)), stands, braked, frame.mem⟩
  case drift => exact ⟨_, exec_refclkDrift off, c.contained_noted now .TIM_STATUS 2 (by decide) (by decide)⟩
  case recal => exact ⟨_, (exec_recal ag off).trans (by rw [if_pos hw]), Chip.recalStart_sets hb⟩
  case recalEnd => exact ⟨_, exec_recalibrationEnd mons, Chip.recalEnd_clears now mons hb⟩
  case inRange => exact ⟨_, (exec_govFloorWrite ag v off).trans (by rw [if_pos hw]), Chip.govFloorWrite_in_range now v hl hu⟩
  case outOfRange =>
    exact ⟨_, (exec_govFloorWrite ag v off).trans (by rw [if_pos hw]), Chip.govFloorWrite_out_of_range now v hl⟩
  case noRecal => exact (exec_recal ag off).trans (by rw [if_neg (ne_true_of_eq_false hw)])
  case noFloor => exact (exec_govFloorWrite ag v off).trans (by rw [if_neg (ne_true_of_eq_false hw)])
end

section
/-! Local errors of a lane and of a control store (R57 to R61, R145, R162): what a retry, a repair and a failed core do. -/
namespace Sys2Proof.Machine

namespace Chip
variable {c : Chip}

/-! ### Counting and restoring -/

/-- A saturating count reads one more, as far as its field holds. -/
theorem gf_inc_same (c : Chip) (r : RegName) (f : Fld) (h : f.lo ≤ f.hi) (hn : f.hi < 64) :
    (c.inc r f).gf r f = min (c.gf r f + 1) f.max := by
  have room : f.max < 2 ^ (f.hi + 1 - f.lo) := Nat.sub_lt (Nat.two_pow_pos _) Nat.one_pos
  rw [inc, gf_sf_same _ _ _ _ h hn]
  exact Nat.mod_eq_of_lt ((Nat.min_le_right _ _).trans_lt room)

theorem csNote_lastaddr (c : Chip) (core : Nat) (a : BitVec 13) :
    (c.csNote core a.toNat).gf (.CLU_CSSTAT core) CLU_CSSTAT.LASTADDR = a.toNat :=
  (gf_sf_same _ _ _ _ (by decide) (by decide)).trans (Nat.mod_eq_of_lt a.isLt)

/-- The registers of a core's control store share no address with those of a triad. -/
theorem csstat_ne_tcount (core t : Nat) : (RegName.CLU_CSSTAT core).addr ≠ (RegName.CLU_TCOUNT t).addr := by
  simp only [RegName.addr]; omega

theorem csstat_ne_tcfg (core t : Nat) : (RegName.CLU_CSSTAT core).addr ≠ (RegName.CLU_TCFG t).addr := by
  simp only [RegName.addr]; omega

theorem csstat_ne_dramCfg (core : Nat) : (RegName.CLU_CSSTAT core).addr ≠ (RegName.DRM_CFG 0).addr := by
  simp only [RegName.addr]; omega

theorem not_triadFltAddr_csstat (core t : Nat) : ¬ TriadFltAddr t (RegName.CLU_CSSTAT core).addr := by
  simp only [TriadFltAddr, FltAddr, RegName.addr]; omega

theorem not_triadFltAddr_tcount (t u : Nat) : ¬ TriadFltAddr t (RegName.CLU_TCOUNT u).addr := by
  simp only [TriadFltAddr, FltAddr, RegName.addr]; omega

theorem not_triadFltAddr_tcfg (t u : Nat) : ¬ TriadFltAddr t (RegName.CLU_TCFG u).addr := by
  simp only [TriadFltAddr, FltAddr, RegName.addr]; omega

/-! ### Retries (R145, R162) -/

/-- The addresses that a retry writes: the collector's, and the syndrome and the counts of the triad. -/
abbrev RetryAddr (t a : Nat) : Prop := TriadFltAddr t a ∨ a = (RegName.CLU_TCOUNT t).addr

theorem retryNote_unitFrame (c : Chip) (t i : Nat) : UnitFrame (RetryAddr t) c (c.retryNote t i) := by
  have counted : UnitFrame (RetryAddr t) c (c.inc (.CLU_TCOUNT t) CLU_TCOUNT.RETRIES) := .sf c _ _ (.inr rfl)
  exact counted.trans (.bookInc _ _)

theorem retryNote_retries (c : Chip) (t i : Nat) : (c.retryNote t i).gf (.CLU_TCOUNT t) CLU_TCOUNT.RETRIES =
    min (c.gf (.CLU_TCOUNT t) CLU_TCOUNT.RETRIES + 1) CLU_TCOUNT.RETRIES.max :=
  (gf_bookInc _ _ _ _).trans (gf_inc_same c _ _ (by decide) (by decide))

/-- A retry that is counted and reported with its code. -/
structure RetryReport (c d : Chip) (t code : Nat) : Prop extends UnitFrame (RetryAddr t) c d where
  stands : d.stands (t / 4) 0
  code : d.gf (.CLU_FSYND t) CLU_FSYND.CODE = code
  retries : d.gf (.CLU_TCOUNT t) CLU_TCOUNT.RETRIES =
    min (c.gf (.CLU_TCOUNT t) CLU_TCOUNT.RETRIES + 1) CLU_TCOUNT.RETRIES.max

theorem retryNote_report (c : Chip) (now i : Nat) {t code : Nat} (ht : t < 32) (h : code < 256) :
    RetryReport c ((c.retryNote t i).triadCorrected now t code) t code := by
  have r := (c.retryNote t i).triadCorrected_report now ht h
  exact ⟨(c.retryNote_unitFrame t i).trans (r.toUnitFrame.mono fun _ => .inl), r.stands, r.code,
    (r.gf _ (not_triadFltAddr_tcount t t)).trans (c.retryNote_retries t i)⟩

theorem retried_report (c : Chip) (now i : Nat) {t : Nat} (ht : t < 32) : RetryReport c (c.retried now t i) t 1 :=
  c.retryNote_report now i ht (by decide)

theorem not_retryAddr_csstat (core t : Nat) : ¬ RetryAddr t (RegName.CLU_CSSTAT core).addr := by
  rintro (h | h)
  · exact not_triadFltAddr_csstat core t h
  · exact csstat_ne_tcount core t h

theorem not_retryAddr_tcfg (t u : Nat) : ¬ RetryAddr t (RegName.CLU_TCFG u).addr := by
  simp only [RetryAddr, TriadFltAddr, FltAddr, RegName.addr]; omega

/-! ### The control store (R57 to R61) -/

theorem not_mem_without {α : Type} [DecidableEq α] (l : List α) (x : α) : x ∉ without l x := by simp [without]

/-- A restored word is no longer bad; the store's registers keep the address of the last failing word. -/
theorem csRepaired_store (c : Chip) (core w : Nat) :
    w ∉ ((c.csRepaired core w).cstore core).badWords ∧ w ∉ ((c.csRepaired core w).cstore core).wrongWords := by
  have stored : (c.csRepaired core w).cstore core =
      { c.cstore core with badWords := without (c.cstore core).badWords w
                           wrongWords := without (c.cstore core).wrongWords w } := by
    unfold csRepaired inc
    rw [cstore_bookInc, cstore_sf, cstore_setStore_same]
  rw [stored]
  exact ⟨not_mem_without _ w, not_mem_without _ w⟩

theorem csRepaired_lastaddr (c : Chip) (core w : Nat) :
    (c.csRepaired core w).gf (.CLU_CSSTAT core) CLU_CSSTAT.LASTADDR = c.gf (.CLU_CSSTAT core) CLU_CSSTAT.LASTADDR := by
  unfold csRepaired inc
  rw [gf_bookInc, gf_sf_field _ _ _ _ _ (by decide) (by decide) (by decide), gf_setStore]

/-- A control store whose core is failed (R58 step 4). -/
def failStore (c : Chip) (core : Nat) : Chip :=
  (c.sf (.CLU_CSSTAT core) CLU_CSSTAT.FAILED 1).setStore core { (c.cstore core) with failed := true }

theorem failStore_failed (c : Chip) (core : Nat) : ((c.failStore core).cstore core).failed = true := by
  rw [failStore, cstore_setStore_same]

theorem failStore_status (c : Chip) (core : Nat) :
    (c.failStore core).gb (.CLU_CSSTAT core) CLU_CSSTAT.FAILED = true := by
  rw [failStore, gb_setStore, gb, gf_sf_same _ _ _ _ (by decide) (by decide)]
  rfl

theorem failStore_mem (c : Chip) (core : Nat) : (c.failStore core).mem = c.mem := by
  rw [failStore, setStore_mem, sf_mem]

theorem failStore_split (c : Chip) (core t : Nat) : (c.failStore core).split t = c.split t := by
  rw [failStore, split, gb_setStore, gb, gf_sf_other _ _ _ _ (csstat_ne_tcfg core t).symm, ← gb, ← split]

/-- The lane whose core has failed repairs nothing more, and the failure is reported (R58 step 4). -/
def failLane (c : Chip) (now t i : Nat) : Chip :=
  (c.updLane (3 * t + i) (fun l => { l with repairing := none })).triadContained now t 0x03

/-- A SPLIT lane halts, and its halt is reported (R130). -/
def haltSplit (c : Chip) (now t i : Nat) : Chip :=
  (c.updLane (3 * t + i) (fun l => { l with halted := true, waiting := none })).triadContained now t 0x0F

/-- What the halt of a SPLIT lane does. -/
theorem haltSplit_report (c : Chip) (now i : Nat) {t : Nat} (ht : t < 32) :
    ((c.haltSplit now t i).lane (3 * t + i)).halted = true ∧ (c.haltSplit now t i).stores = c.stores ∧
      (c.haltSplit now t i).stands (t / 4) 1 ∧ (c.haltSplit now t i).gf (.CLU_FSYND t) CLU_FSYND.CODE = 0x0F ∧
      RegFrame (TriadFltAddr t) c (c.haltSplit now t i) := by
  have halted : RegFrame (TriadFltAddr t) c (c.updLane (3 * t + i) (fun l => { l with halted := true, waiting := none })) :=
    .of_eq rfl rfl
  have r := (c.updLane (3 * t + i) (fun l => { l with halted := true, waiting := none })).triadContained_report now ht
    (code := 0x0F) (by decide)
  refine ⟨?_, r.stores, r.stands, r.code, halted.trans r.toRegFrame⟩
  rw [haltSplit, r.lane, updLane_eq, lane_setLane_same]

/-- What the report of a failed lane leaves alone. -/
theorem failLane_frame (c : Chip) (now i : Nat) {t : Nat} (ht : t < 32) :
    (c.failLane now t i).stores = c.stores ∧ RegFrame (TriadFltAddr t) c (c.failLane now t i) := by
  have ended : RegFrame (TriadFltAddr t) c (c.updLane (3 * t + i) (fun l => { l with repairing := none })) := .of_eq rfl rfl
  have r := (c.updLane (3 * t + i) (fun l => { l with repairing := none })).triadContained_report now ht
    (code := 0x03) (by decide)
  exact ⟨r.stores, ended.trans r.toRegFrame⟩

theorem coreFailed_eq (now i : Nat) {t : Nat} (ht : t < 32) (hs : c.split t = true) :
    c.coreFailed now t i = ((c.failStore (c.coreOf t i)).failLane now t i).haltSplit now t i := by
  have split : ((c.failStore (c.coreOf t i)).failLane now t i).split t = true := by
    rw [Chip.split, (failLane_frame _ now i ht).2.gb _ (not_triadFltAddr_tcfg t t), ← Chip.split, failStore_split, hs]
  unfold failLane failStore at split
  unfold coreFailed haltSplit failLane failStore
  simp only []
  rw [if_pos split]

/-- The core of a SPLIT lane whose repair failed: its store is failed, the lane is halted (R58 step 4, R130). -/
theorem coreFailed_split (now i : Nat) {t : Nat} (ht : t < 32) (hs : c.split t = true) :
    ((c.coreFailed now t i).cstore (c.coreOf t i)).failed = true ∧ ((c.coreFailed now t i).lane (3 * t + i)).halted = true ∧
      (c.coreFailed now t i).gb (.CLU_CSSTAT (c.coreOf t i)) CLU_CSSTAT.FAILED = true ∧
      (c.coreFailed now t i).stands (t / 4) 1 ∧ (c.coreFailed now t i).mem = c.mem := by
  rw [coreFailed_eq now i ht hs]
  obtain ⟨stored, failed⟩ := (c.failStore (c.coreOf t i)).failLane_frame now i ht
  obtain ⟨halted, kept, stands, -, frame⟩ := ((c.failStore (c.coreOf t i)).failLane now t i).haltSplit_report now i ht
  have all := failed.trans frame
  refine ⟨?_, halted, ?_, stands, all.mem.trans (c.failStore_mem _)⟩
  · rw [cstore, kept, stored, ← cstore, failStore_failed]
  · rw [all.gb _ (not_triadFltAddr_csstat _ t), failStore_status]

end Chip
end Sys2Proof.Machine
end

section
/-! Retries, repairs and scrubs as the chips that their commands answer (R57 to R61, R145). -/
namespace Sys2Proof.Machine
namespace Chip
variable {c : Chip}

/-! ### Local errors before an instruction retires (R58, R145) -/

/-- A retry of a lane in which nothing but lanes, stores and the control store's registers has changed before. -/
theorem retried_after {d : Chip} (now i : Nat) {t : Nat} (ht : t < 32) (hm : d.mem = c.mem)
    (hr : d.gf (.CLU_TCOUNT t) CLU_TCOUNT.RETRIES = c.gf (.CLU_TCOUNT t) CLU_TCOUNT.RETRIES) :
    (d.retried now t i).stands (t / 4) 0 ∧ (d.retried now t i).gf (.CLU_FSYND t) CLU_FSYND.CODE = 1 ∧
      (d.retried now t i).mem = c.mem ∧ (d.retried now t i).gf (.CLU_TCOUNT t) CLU_TCOUNT.RETRIES =
        min (c.gf (.CLU_TCOUNT t) CLU_TCOUNT.RETRIES + 1) CLU_TCOUNT.RETRIES.max := by
  have r := d.retried_report now i ht
  exact ⟨r.stands, r.code, r.mem.trans hm, r.retries.trans (by rw [hr])⟩

/-- A line of a first-level cache with a parity error is dropped (R58, R61). -/
theorem localError_l1 (c : Chip) (now : Nat) (l : LaneId) (ic : Bool) (line : BitVec 34) :
    c.localError now l (.l1 ic line) = (c.setLane (laneKey l) ((c.lane (laneKey l)).setSel ic
      (((c.lane (laneKey l)).sel ic).drop line.toNat))).retried now l.t l.i := rfl

theorem localError_registerFile_once (c : Chip) (now : Nat) (l : LaneId) :
    c.localError now l (.registerFile false) = c.retried now l.t l.i := rfl

/-- A register file of a SPLIT lane that fails again halts the lane (R130, R145). -/
theorem localError_registerFile_again (now : Nat) (l : LaneId) (hs : c.split l.t = true) :
    c.localError now l (.registerFile true) = (c.retried now l.t l.i).haltSplit now l.t l.i := by
  have split : (c.retried now l.t l.i).split l.t = true := by
    rw [Chip.split, (c.retried_report now l.i l.t.isLt).gb _ (not_retryAddr_tcfg _ _), ← Chip.split, hs]
  unfold localError haltSplit
  simp only []
  rw [if_pos split]
  rfl

/-- The word that failed parity is noted, and its retry is counted with the store's other retries (R58, R61). -/
def csRetry (c : Chip) (core addr : Nat) : Chip := (c.csNote core addr).inc (.CLU_CSSTAT core) CLU_CSSTAT.RETRIES

theorem localError_controlStore_once (c : Chip) (now : Nat) (l : LaneId) (a : BitVec 13) :
    c.localError now l (.controlStore a false) = (c.csRetry (c.coreOf l.t l.i) a.toNat).retried now l.t l.i := rfl

theorem csRetry_lastaddr (c : Chip) (core : Nat) (a : BitVec 13) :
    (c.csRetry core a.toNat).gf (.CLU_CSSTAT core) CLU_CSSTAT.LASTADDR = a.toNat :=
  (gf_sf_field _ _ _ _ _ (by decide) (by decide) (by decide)).trans (c.csNote_lastaddr core a)

theorem csRetry_tcount (c : Chip) (core addr t : Nat) (f : Fld) :
    (c.csRetry core addr).gf (.CLU_TCOUNT t) f = c.gf (.CLU_TCOUNT t) f := by
  unfold csRetry csNote inc
  rw [gf_sf_other _ _ _ _ (csstat_ne_tcount core t).symm, gf_sf_other _ _ _ _ (csstat_ne_tcount core t).symm]

theorem csRetry_mem (c : Chip) (core addr : Nat) : (c.csRetry core addr).mem = c.mem := by
  unfold csRetry csNote inc
  rw [sf_mem, sf_mem]

theorem csRetry_lanes (c : Chip) (core addr : Nat) : (c.csRetry core addr).lanes = c.lanes := by
  unfold csRetry csNote inc
  rw [sf_lanes, sf_lanes]

/-- The lane is held while the word `addr` of its core's control store is fetched from DRAM (R58 step 2). -/
def beginRepair (c : Chip) (core k addr : Nat) : Chip :=
  ((c.csNote core addr).setStore core { (c.cstore core) with badWords := addNew (c.cstore core).badWords addr }).updLane k
    (fun x => { x with repairing := some addr })

theorem localError_controlStore_again (now : Nat) (l : LaneId) (a : BitVec 13)
    (hp : c.gb (.DRM_CFG 0) DRM_CFG.PRESENT = true) :
    c.localError now l (.controlStore a true) = c.beginRepair (c.coreOf l.t l.i) (laneKey l) a.toNat := by
  have present : (c.csNote (c.coreOf l.t l.i) a.toNat).gb (.DRM_CFG 0) DRM_CFG.PRESENT = true := by
    rw [csNote, gb, gf_sf_other _ _ _ _ (csstat_ne_dramCfg _).symm, ← gb, hp]
  unfold localError beginRepair
  simp only []
  rw [if_pos present]
  rfl

theorem beginRepair_lane (c : Chip) (core k addr : Nat) :
    (c.beginRepair core k addr).lane k = { c.lane k with repairing := some addr } := by
  rw [beginRepair, updLane_eq, lane_setLane_same, lane_setStore, csNote, lane_sf]

theorem beginRepair_lastaddr (c : Chip) (core k : Nat) (a : BitVec 13) :
    (c.beginRepair core k a.toNat).gf (.CLU_CSSTAT core) CLU_CSSTAT.LASTADDR = a.toNat := by
  rw [beginRepair, updLane_eq, gf_setLane, gf_setStore, csNote_lastaddr]

theorem beginRepair_mem (c : Chip) (core k addr : Nat) : (c.beginRepair core k addr).mem = c.mem := by
  rw [beginRepair, updLane_eq, setLane_mem, setStore_mem, csNote, sf_mem]

/-! ### The end of a repair and a scrub (R57, R60) -/

theorem csRepaired_mem (c : Chip) (core w : Nat) : (c.csRepaired core w).mem = c.mem := by
  unfold csRepaired inc
  simp

theorem csRepaired_lanes (c : Chip) (core w : Nat) : (c.csRepaired core w).lanes = c.lanes := by
  unfold csRepaired inc
  simp

/-- The lane no longer waits for a word of its core's control store. -/
def freeRepair (c : Chip) (k : Nat) : Chip := c.updLane k (fun x => { x with repairing := none })

theorem freeRepair_lane (c : Chip) (k : Nat) : (c.freeRepair k).lane k = { c.lane k with repairing := none } := by
  rw [freeRepair, updLane_eq, lane_setLane_same]

theorem coreOf_updLane (c : Chip) (k : Nat) (f : Lane → Lane) (t i : Nat) : (c.updLane k f).coreOf t i = c.coreOf t i := by
  rw [coreOf, updLane_eq, gf_setLane, ← coreOf]

theorem freeRepair_mem (c : Chip) (k : Nat) : (c.freeRepair k).mem = c.mem := c.setLane_mem k _

/-- The repair of a word that a lane waited for has succeeded (R58 step 3). -/
def endRepair (c : Chip) (now : Nat) (l : LaneId) (w : Nat) : Chip :=
  (((c.freeRepair (laneKey l)).csRepaired (c.coreOf l.t l.i) w).retryNote l.t l.i).triadCorrected now l.t 0x02

theorem endRepair_sets (c : Chip) (now : Nat) (l : LaneId) (w : Nat) :
    (c.endRepair now l w).lane (laneKey l) = { c.lane (laneKey l) with repairing := none } ∧
      w ∉ ((c.endRepair now l w).cstore (c.coreOf l.t l.i)).badWords ∧
      w ∉ ((c.endRepair now l w).cstore (c.coreOf l.t l.i)).wrongWords ∧ (c.endRepair now l w).stands (l.t / 4) 0 ∧
      (c.endRepair now l w).gf (.CLU_FSYND l.t) CLU_FSYND.CODE = 2 ∧ (c.endRepair now l w).mem = c.mem := by
  have r := ((c.freeRepair (laneKey l)).csRepaired (c.coreOf l.t l.i) w).retryNote_report now l.i l.t.isLt (code := 0x02)
    (by decide)
  obtain ⟨bad, wrong⟩ := (c.freeRepair (laneKey l)).csRepaired_store (c.coreOf l.t l.i) w
  refine ⟨?_, ?_, ?_, r.stands, r.code, r.mem.trans ((csRepaired_mem _ _ _).trans (c.freeRepair_mem _))⟩
  · rw [endRepair, r.lane, Chip.lane, csRepaired_lanes, ← Chip.lane, freeRepair_lane]
  · rw [endRepair, r.cstore]; exact bad
  · rw [endRepair, r.cstore]; exact wrong

/-- A scrubbed word has been restored from its DRAM copy (R60). -/
def scrubWord (c : Chip) (core a : Nat) : Chip := (c.csNote core a).csRepaired core a

theorem scrubWord_sets (c : Chip) (core : Nat) (a : BitVec 13) :
    a.toNat ∉ ((c.scrubWord core a.toNat).cstore core).badWords ∧
      (c.scrubWord core a.toNat).gf (.CLU_CSSTAT core) CLU_CSSTAT.LASTADDR = a.toNat ∧
      (c.scrubWord core a.toNat).lanes = c.lanes ∧ (c.scrubWord core a.toNat).mem = c.mem := by
  obtain ⟨bad, -⟩ := (c.csNote core a.toNat).csRepaired_store core a.toNat
  exact ⟨bad, (csRepaired_lastaddr _ _ _).trans (c.csNote_lastaddr core a), csRepaired_lanes _ _ _, csRepaired_mem _ _ _⟩

/-- The lane of the cluster that a core serves, by its number in the cluster (R16, R149). -/
def scrubUser (c : Chip) (core : Nat) : Option Nat :=
  (List.range 12).find? (fun j => c.coreOf (4 * (core / 13) + j / 3) (j % 3) == core)

theorem scrubUser_lt (c : Chip) (core : Nat) : ∀ j ∈ c.scrubUser core, j < 12 :=
  fun _ hj => List.mem_range.1 (List.mem_of_find?_eq_some hj)

/-- The report of a scrub: by the triad that the core serves, else in the cluster's source (R60, R402). -/
def scrubReport (c : Chip) (now cl : Nat) : Option Nat → Chip
  | some j => c.triadCorrected now (4 * cl + j / 3) 0x02
  | none => c.corrected now cl

theorem scrubReport_sets (c : Chip) (now : Nat) {cl : Nat} (hc : cl < 8) {user : Option Nat} (hu : ∀ j ∈ user, j < 12) :
    (c.scrubReport now cl user).stands cl 0 ∧
      ∃ A, UnitFrame A c (c.scrubReport now cl user) ∧ ∀ core, ¬ A (RegName.CLU_CSSTAT core).addr := by
  cases user with
  | none =>
    refine ⟨c.corrected_stands now (by omega), _, c.corrected_unitFrame now cl, fun core h => ?_⟩
    exact not_triadFltAddr_csstat core 0 (.inl h)
  | some j =>
    have hj := hu j rfl
    have r := c.triadCorrected_report now (t := 4 * cl + j / 3) (code := 0x02) (by omega) (by decide)
    have stands := r.stands
    rw [show (4 * cl + j / 3) / 4 = cl by omega] at stands
    exact ⟨stands, _, r.toUnitFrame, fun core => not_triadFltAddr_csstat core _⟩

end Chip

variable {s : State}

/-! ### The commands -/

theorem exec_instructionRetry {l : LaneId} (e : LocalError) (h : s.chip.laneFree l = true) :
    exec (.instructionRetry l e) s = .next { s with chip := s.chip.localError s.now.toNat l e } := by
  change execInstructionRetry l e s = _
  simp [execInstructionRetry, State.act, h]

theorem exec_instructionRetry_of_not_free {l : LaneId} (e : LocalError) (h : s.chip.laneFree l = false) :
    exec (.instructionRetry l e) s = .next s := by
  change execInstructionRetry l e s = _
  simp [execInstructionRetry, State.act, h]

theorem exec_controlStoreRepairEnd_restored {l : LaneId} {w : Nat} (h : (s.chip.lane (laneKey l)).repairing = some w) :
    exec (.controlStoreRepairEnd l true) s = .next { s with chip := s.chip.endRepair s.now.toNat l w } := by
  change execControlStoreRepairEnd l true s = _
  simp only [execControlStoreRepairEnd, State.act, h, if_true, Chip.endRepair, Chip.freeRepair, Chip.coreOf_updLane]

theorem exec_controlStoreRepairEnd_failed {l : LaneId} {w : Nat} (h : (s.chip.lane (laneKey l)).repairing = some w) :
    exec (.controlStoreRepairEnd l false) s = .next { s with chip := s.chip.coreFailed s.now.toNat l.t l.i } := by
  change execControlStoreRepairEnd l false s = _
  simp only [execControlStoreRepairEnd, State.act, h, Bool.false_eq_true, if_false]

theorem exec_controlStoreRepairEnd_of_none {l : LaneId} (ok : Bool) (h : (s.chip.lane (laneKey l)).repairing = none) :
    exec (.controlStoreRepairEnd l ok) s = .next s := by
  change execControlStoreRepairEnd l ok s = _
  simp only [execControlStoreRepairEnd, State.act, h]

theorem exec_controlStoreScrub {core : Fin 104} {a : BitVec 13} (hd : s.chip.domainOn (1 + core.val / 13) = true)
    (hb : a.toNat ∈ (s.chip.cstore core).badWords) (hp : s.chip.gb (.DRM_CFG 0) DRM_CFG.PRESENT = true) :
    exec (.controlStoreScrub core a) s = .next { s with
      chip := (s.chip.scrubWord core a.toNat).scrubReport s.now.toNat (core.val / 13)
        ((s.chip.csNote core a.toNat).scrubUser core) } := by
  have present : (s.chip.csNote core a.toNat).gb (.DRM_CFG 0) DRM_CFG.PRESENT = true := by
    rw [Chip.csNote, Chip.gb, Chip.gf_sf_other _ _ _ _ (Chip.csstat_ne_dramCfg _).symm, ← Chip.gb, hp]
  change execControlStoreScrub core a s = _
  simp only [execControlStoreScrub, State.act, hd, List.contains_iff_mem.2 hb, present, Bool.not_true, Bool.or_self,
    Bool.false_eq_true, if_false, if_true, Chip.scrubUser]
  generalize (List.range 12).find? _ = user
  cases user with
  | none => rfl
  | some j => rfl

theorem exec_controlStoreScrub_of_good {core : Fin 104} {a : BitVec 13} (hb : a.toNat ∉ (s.chip.cstore core).badWords) :
    exec (.controlStoreScrub core a) s = .next s := by
  change execControlStoreScrub core a s = _
  simp [execControlStoreScrub, State.act, hb]

end Sys2Proof.Machine

open Sys2Proof Sys2Proof.Machine

/-- Settles O21: each command answers the chip that its law above names; the reports leave lanes, stores and the control
store's registers alone. -/
theorem localErrors : Obligations.LocalErrors := by
  unfold Obligations.LocalErrors
  intro s l line a core c t k me retried
  have ht : t < 32 := l.t.isLt
  have once := (c.csRetry me a.toNat).retried_report s.now.toNat l.i ht
  refine ⟨fun free _ => ⟨?data, ?instr, ?register, ?store, fun hs => ?registerAgain, fun hp => ?storeAgain⟩,
    fun busy e => exec_instructionRetry_of_not_free e busy, fun w hw _ => ⟨?repaired, fun hs => ?failed⟩,
    fun h ok => exec_controlStoreRepairEnd_of_none ok h, fun hd hb hp => ?scrubbed, exec_controlStoreScrub_of_good⟩
  case data =>
    have law := exec_instructionRetry (.l1 false line) free
    rw [Chip.localError_l1] at law
    exact ⟨_, law, Chip.retried_after _ _ ht (c.setLane_mem k _) (c.gf_setLane k _ _ _),
      ((Chip.retried_report _ _ _ ht).lane k).trans (c.lane_setLane_same k _)⟩
  case instr =>
    have law := exec_instructionRetry (.l1 true line) free
    rw [Chip.localError_l1] at law
    exact ⟨_, law, Chip.retried_after _ _ ht (c.setLane_mem k _) (c.gf_setLane k _ _ _),
      ((Chip.retried_report _ _ _ ht).lane k).trans (c.lane_setLane_same k _)⟩
  case register =>
    have law := exec_instructionRetry (.registerFile false) free
    rw [Chip.localError_registerFile_once] at law
    exact ⟨_, law, Chip.retried_after _ _ ht rfl rfl, (Chip.retried_report _ _ _ ht).lanes⟩
  case store =>
    have law := exec_instructionRetry (.controlStore a false) free
    rw [Chip.localError_controlStore_once] at law
    exact ⟨_, law, Chip.retried_after _ _ ht (c.csRetry_mem me _) (c.csRetry_tcount me _ t _),
      once.lanes.trans (c.csRetry_lanes me _), (once.gf _ (Chip.not_retryAddr_csstat me t)).trans (c.csRetry_lastaddr me a)⟩
  case registerAgain =>
    obtain ⟨halted, -, stands, code, frame⟩ := (c.retried s.now.toNat t l.i).haltSplit_report s.now.toNat l.i ht
    exact ⟨_, (exec_instructionRetry _ free).trans (by rw [Chip.localError_registerFile_again _ l hs]), halted, stands, code,
      frame.mem.trans (c.retried_report _ _ ht).mem⟩
  case storeAgain =>
    have lane := c.beginRepair_lane me k a.toNat
    exact ⟨_, (exec_instructionRetry _ free).trans (by rw [Chip.localError_controlStore_again _ l a hp]),
      by rw [lane], by rw [lane], c.beginRepair_lastaddr me k a, c.beginRepair_mem me k _⟩
  case repaired =>
    obtain ⟨lane, bad, wrong, stands, code, mem⟩ := c.endRepair_sets s.now.toNat l w
    exact ⟨_, exec_controlStoreRepairEnd_restored hw, by rw [lane], bad, wrong, stands, code, by rw [lane], mem⟩
  case failed => exact ⟨_, exec_controlStoreRepairEnd_failed hw, Chip.coreFailed_split _ _ ht hs⟩
  case scrubbed =>
    obtain ⟨restored, last, lanes, mem⟩ := c.scrubWord_sets core a
    obtain ⟨stands, A, frame, away⟩ := (c.scrubWord core a.toNat).scrubReport_sets s.now.toNat (cl := core.val / 13)
      (by omega) ((c.csNote core a.toNat).scrubUser_lt core)
    have good : a.toNat ∉ (((c.scrubWord core a.toNat).scrubReport s.now.toNat (core.val / 13)
        ((c.csNote core a.toNat).scrubUser core)).cstore core).badWords := by rwa [frame.cstore]
    exact ⟨_, exec_controlStoreScrub hd hb hp, good, stands, (frame.gf _ (away core)).trans last,
      frame.lanes.trans lanes, frame.mem.trans mem⟩
end

section
/-! Multiplication and division (R64, R115, R116): the steps and the results of each instruction, special cases included. -/
namespace Sys2Proof.Machine

/-! ### Steps (R34, R126) -/

theorem divStepsOf_bounds (n : Nat) : 4 ≤ divStepsOf n ∧ divStepsOf n ≤ 18 := by
  induction n with
  | zero => decide
  | succ n ih =>
    have free : Config.divSteps n % 15 < 15 := Nat.mod_lt _ (by decide)
    rw [divStepsOf]
    omega

/-- A special case takes 4 steps, and 36 in constant-time mode (R116, R126). -/
theorem divSteps_special {special : Bool} (h : special = true) (dividend : Nat) (v : Arch) :
    divSteps special dividend v = if v.st SR.CT = 1 then 36 else 4 := by
  simp [divSteps, ct, h]

/-- What R34 and R126 say of the steps of any division. -/
structure DivSteps (v : Arch) (n : Nat) : Prop where
  low : 4 ≤ n
  high : n ≤ 36
  timed : v.st SR.CT = 1 → n = 36
  normal : v.st SR.CT ≠ 1 → n ≤ 18

theorem divSteps_bounds (special : Bool) (dividend : Nat) (v : Arch) : DivSteps v (divSteps special dividend v) := by
  obtain ⟨low, high⟩ := divStepsOf_bounds (Nat.log2 dividend + 1)
  by_cases timed : v.st SR.CT = 1
  · have : divSteps special dividend v = 36 := by simp [divSteps, ct, timed]
    constructor <;> omega
  · have : divSteps special dividend v = if special then 4 else divStepsOf (Nat.log2 dividend + 1) := by
      simp [divSteps, ct, timed]
    constructor <;> (try split at this) <;> omega

/-! ### Results (R115, R116) -/

theorem divSpecialS_iff (a b : Word) : divSpecialS a b = true ↔ b = 0 ∨ (a = 0x80000000 ∧ b = 0xFFFFFFFF) := by
  simp [divSpecialS]

section
variable {a b : Word}

theorem divS_zero (h : b = 0) : divS a b = if a.toInt < 0 then 0x80000000 else 0x7FFFFFFF := if_pos h
theorem remS_zero (h : b = 0) : remS a b = a := if_pos h
theorem divU_zero (h : b = 0) : divU a b = 0xFFFFFFFF := if_pos h
theorem remU_zero (h : b = 0) : remU a b = a := if_pos h

theorem divS_overflow (ha : a = 0x80000000) (hb : b = 0xFFFFFFFF) : divS a b = 0x7FFFFFFF := by
  subst ha hb; decide

theorem remS_overflow (ha : a = 0x80000000) (hb : b = 0xFFFFFFFF) : remS a b = 0 := by
  subst ha hb; decide

theorem divS_of_ordinary (h : ¬ (b = 0 ∨ (a = 0x80000000 ∧ b = 0xFFFFFFFF))) :
    divS a b = BitVec.ofInt 32 (a.toInt.tdiv b.toInt) := by
  obtain ⟨zero, overflow⟩ := not_or.1 h
  rw [divS, if_neg zero, if_neg overflow]

theorem remS_of_ordinary (h : ¬ (b = 0 ∨ (a = 0x80000000 ∧ b = 0xFFFFFFFF))) :
    remS a b = BitVec.ofInt 32 (a.toInt.tmod b.toInt) := by
  obtain ⟨zero, overflow⟩ := not_or.1 h
  rw [remS, if_neg zero, if_neg overflow]

theorem divU_of_ne_zero (h : b ≠ 0) : divU a b = BitVec.ofNat 32 (a.toNat / b.toNat) := if_neg h
theorem remU_of_ne_zero (h : b ≠ 0) : remU a b = BitVec.ofNat 32 (a.toNat % b.toNat) := if_neg h

end

/-- The low word of a product is the product of the words modulo 2^32, signed or not. -/
theorem mul_eq_ofNat (a b : Word) : a * b = BitVec.ofNat 32 (a.toNat * b.toNat) := by
  rw [BitVec.ofNat_mul, BitVec.ofNat_toNat, BitVec.ofNat_toNat, BitVec.setWidth_eq, BitVec.setWidth_eq]

theorem oddReg_iff (n : Reg) : oddReg n = true ↔ n.toNat % 2 = 1 := beq_iff_eq

theorem setDestPair_even {d : Reg} (i : Instr) (r : DWord) (h : d.toNat % 2 = 0) :
    setDestPair i d r = .ok (fun x => x.setPair d r) := if_neg (by simp [oddReg_iff, h])

theorem setDestPair_odd {d : Reg} (i : Instr) (r : DWord) (h : d.toNat % 2 = 1) :
    setDestPair i d r = .exc (illegal (instrBits i)) := if_pos ((oddReg_iff d).2 h)

/-! ### The instructions -/

variable {s : State} {l : LaneId} {d : Reg} {i : Instr} {steps : Arch → Nat}

/-- A register instruction whose result, at the registers it reads, is the word `w`. -/
theorem regInstr_word {len : Word} {r : Arch → Word} {n : Nat} {w : Word}
    (he : exec i s = s.act (fun now c => c.regInstr now l i len steps (fun v => setDest d (r v))))
    (hs : steps (s.lane l).view = n) (hr : r (s.lane l).view = w) (h : Runs s l i) :
    Retires s l len n (fun z => z.setG d w) (exec i s) := by
  rw [he]
  exact regInstr_retires_eq h rfl hs (fun z => by rw [hr])

/-- A register instruction whose result, at the registers it reads, is the pair `w` (R64). -/
theorem regInstr_pair {r : Arch → DWord} {n : Nat} {w : DWord}
    (he : exec i s = s.act (fun now c => c.regInstr now l i 4 steps (fun v => setDestPair i d (r v))))
    (hs : steps (s.lane l).view = n) (hr : r (s.lane l).view = w) :
    (d.toNat % 2 = 0 → Runs s l i → Retires s l 4 n (fun z => z.setPair d w) (exec i s)) ∧
    (d.toNat % 2 = 1 → MayEnter s l → Runs s l i → Raises s l ⟨0x01, 3, instrBits i⟩ false 0 (exec i s)) := by
  rw [he]
  exact ⟨fun even h => regInstr_retires_eq h (setDestPair_even i _ even) hs (fun z => by rw [hr]),
    fun odd enter h => regInstr_raises h enter (setDestPair_odd i _ odd) (show 0x01 < 256 by decide) (show 3 < 4 by decide)⟩

end Sys2Proof.Machine

open Sys2Proof Sys2Proof.Machine

/-- Settles O4: each instruction retires with the steps and the result of its function; the table of special cases and the
ordinary quotients are that function's cases. -/
theorem multiplyDivide : Obligations.MultiplyDivide := by
  unfold Obligations.MultiplyDivide
  intro s l d a b v x y gives pair sprod uprod special ds
  refine ⟨regInstr_word rfl rfl (mul_eq_ofNat x y), regInstr_word rfl rfl rfl, regInstr_word rfl rfl rfl,
    regInstr_pair rfl rfl rfl, regInstr_pair rfl rfl rfl, fun zero => ?zero, fun least minusOne => ?overflow,
    fun ordinary => ?signed, fun nonzero => ?unsigned⟩
  case zero =>
    have signed (n : Nat) : divSteps (divSpecialS x y) n v = ds := divSteps_special ((divSpecialS_iff x y).2 (.inl zero)) n v
    have unsigned (n : Nat) : divSteps (y == 0) n v = ds := divSteps_special (beq_iff_eq.2 zero) n v
    exact ⟨regInstr_word rfl (signed _) (divS_zero zero), regInstr_word rfl (unsigned _) (divU_zero zero),
      regInstr_word rfl (signed _) (remS_zero zero), regInstr_word rfl (unsigned _) (remU_zero zero)⟩
  case overflow =>
    have steps (n : Nat) : divSteps (divSpecialS x y) n v = ds :=
      divSteps_special ((divSpecialS_iff x y).2 (.inr ⟨least, minusOne⟩)) n v
    exact ⟨regInstr_word rfl (steps _) (divS_overflow least minusOne),
      regInstr_word rfl (steps _) (remS_overflow least minusOne)⟩
  case signed =>
    obtain ⟨low, high, timed, normal⟩ := divSteps_bounds (divSpecialS x y) x.toInt.natAbs v
    exact ⟨_, low, high, timed, normal, regInstr_word rfl rfl (divS_of_ordinary ordinary),
      regInstr_word rfl rfl (remS_of_ordinary ordinary)⟩
  case unsigned =>
    obtain ⟨low, high, timed, normal⟩ := divSteps_bounds (y == 0) x.toNat v
    exact ⟨_, low, high, timed, normal, regInstr_word rfl rfl (divU_of_ne_zero nonzero),
      regInstr_word rfl rfl (remU_of_ne_zero nonzero)⟩
end

section
/-! Chips that are a state's but for one lane, instructions that raise an exception, and loads (R64, R73, R96): a load that
the store buffer or the data cache answers touches its lane's data cache at most. -/
namespace Sys2Proof.Machine
variable {s : State} {l : LaneId} {c : Chip} {x y : Lane}

/-! ### Chips that differ from a state's in one lane -/

/-- `c` is the chip of `s` with the lane `y` for `l`, as far as a further write of the lane can tell. -/
structure OnlyLane (s : State) (l : LaneId) (c : Chip) (y : Lane) : Prop where
  lane : c.lane (laneKey l) = y
  set : ∀ z, c.setLane (laneKey l) z = s.chip.setLane (laneKey l) z

namespace OnlyLane

theorem refl (s : State) (l : LaneId) : OnlyLane s l s.chip (s.lane l) := ⟨rfl, fun _ => rfl⟩

theorem setLane (s : State) (l : LaneId) (y : Lane) : OnlyLane s l (s.chip.setLane (laneKey l) y) y :=
  ⟨Chip.lane_setLane_same .., fun _ => Chip.setLane_setLane ..⟩

/-- What holds after the lane has been written once more. -/
theorem of_withLane (h : OnlyLane (s.withLane l x) l c y) : OnlyLane s l c y :=
  ⟨h.lane, fun z => (h.set z).trans (Chip.setLane_setLane ..)⟩

theorem retire (h : OnlyLane s l c y) (len : Word) (steps : Nat) (upd : Arch → Arch) (ld : Option LoadDelay) :
    c.retire (laneKey l) len steps upd ld = (s.chip.setLane (laneKey l) y).retire (laneKey l) len steps upd ld := by
  rw [Chip.retire, Chip.retire, Chip.updLane_eq, Chip.updLane_eq, h.lane, h.set, Chip.lane_setLane_same,
    Chip.setLane_setLane]

end OnlyLane

/-- An access of a lane whose registers and data TLB are as they were goes where it went. -/
theorem Reaches.withLane {va size a : Nat} {kd : Kind} (h : Reaches s l va size kd a) (ha : x.arch = (s.lane l).arch)
    (ht : x.dtlb = (s.lane l).dtlb) : Reaches (s.withLane l x) l va size kd a := by
  obtain ⟨aligned, e, r, hit, permitted, place, mem⟩ := h
  have lane : (s.withLane l x).lane l = x := Chip.lane_setLane_same ..
  refine ⟨aligned, e, r, ?_, ?_, place, mem⟩
  · rw [lane, ha, ht]; exact hit
  · rw [lane, ha]; exact permitted

section
variable {i : Instr} {body : Nat → Chip → Chip}

/-- What a lane's instruction does, at a calm boundary. -/
theorem exec_of_runs (he : exec i s = s.act (fun now c => c.instr l i (body now))) (h : Runs s l i) :
    exec i s = .next { s with chip := body s.now.toNat s.chip } := by
  rw [he, State.act, Chip.instr_of_runs i _ h]

/-- An instruction whose body raises a synchronous exception. -/
theorem instr_raises {code kind eval : Nat} (he : exec i s = s.act (fun now c => c.instr l i (body now))) (h : Runs s l i)
    (hm : MayEnter s l) (hb : body s.now.toNat s.chip = s.chip.raise s.now.toNat (laneKey l) ⟨code, kind, eval⟩)
    (hc : code < 256 := by decide) (hk : kind < 4 := by decide) : Raises s l ⟨code, kind, eval⟩ false 0 (exec i s) := by
  rw [exec_of_runs he h, hb]
  exact raises_of_mayEnter hm _ false hc hk

/-- An instruction that is illegal raises it with its bits (R79). -/
theorem illegal_raises (he : exec i s = s.act (fun now c => c.instr l i (body now))) (h : Runs s l i) (hm : MayEnter s l)
    (hb : body s.now.toNat s.chip = s.chip.raise s.now.toNat (laneKey l) (illegal (instrBits i))) :
    Raises s l ⟨0x01, 3, instrBits i⟩ false 0 (exec i s) :=
  instr_raises he h hm hb

end

/-! ### Loads -/

namespace Chip

/-- A hit touches the data cache and nothing else. -/
theorem hitLine_eq (c : Chip) (k line : Nat) (tx : Bool) :
    ∃ q, c.hitLine k line tx = c.setLane k { c.lane k with dcache := q } := by
  rw [hitLine, updLane_eq]
  dsimp only
  split
  · exact ⟨_, rfl⟩
  · exact ⟨_, rfl⟩

/-- A load of bytes that the store buffer or the data cache holds answers them; at most the data cache is touched. -/
theorem loadMem_val {a size v : Nat} (hz : 0 < size) (h : Forwarded (s.lane l) a size v ∨ CacheHit s l a size v) :
    ∃ c q, s.chip.loadMem (laneKey l) a size = (c, .val v) ∧ OnlyLane s l c { s.lane l with dcache := q } := by
  rcases h with forwarded | hit
  · exact ⟨_, _, loadMem_forwarded _ _ forwarded, OnlyLane.refl s l⟩
  · obtain ⟨q, touched⟩ := s.chip.hitLine_eq (laneKey l) (lineOf a) false
    exact ⟨_, q, loadMem_cacheHit hz hit, touched ▸ OnlyLane.setLane s l _⟩

variable {i : Instr} {va size : Nat} {done : Nat → Chip → Chip}

/-- A load at its first attempt that reaches memory: what its answer does there. -/
theorem loadAt_mem {now a v : Nat} (hu : Unbegun (s.lane l)) (hr : Reaches s l va size .load a)
    (hm : s.chip.loadMem (laneKey l) a size = (c, .val v)) : s.chip.loadAt now l i va size done = done v c := by
  obtain ⟨devLoad, areq, -⟩ := hu
  simp only [loadAt, devLoad, areq, dataPlace_reaches (by decide) hr, hm]

theorem loadAt_misaligned {now : Nat} (hu : Unbegun (s.lane l)) (h : va % size ≠ 0) :
    s.chip.loadAt now l i va size done = s.chip.raise now (laneKey l) ⟨0x08, 1, va⟩ := by
  obtain ⟨devLoad, areq, -⟩ := hu
  simp only [loadAt, devLoad, areq, dataPlace_misaligned h]
  rfl

end Chip

section
variable {i : Instr} {len : Word} {va size pa v : Nat}

/-- The lane's load reads `v` at its first attempt, from the store buffer or from the data cache. -/
abbrev Reads (s : State) (l : LaneId) (va size pa v : Nat) : Prop :=
  Unbegun (s.lane l) ∧ Reaches s l va size .load pa ∧ (Forwarded (s.lane l) pa size v ∨ CacheHit s l pa size v)

/-- A load instruction retires with the value that it reads. -/
theorem load_retires {steps : Nat} {upd : Nat → Arch → Arch} {ld : Nat → Option LoadDelay} {body : Nat → Chip → Chip}
    (he : exec i s = s.act (fun now c => c.instr l i (body now)))
    (hb : body s.now.toNat s.chip = s.chip.loadAt s.now.toNat l i va size
      (fun v c => c.retire (laneKey l) len steps (upd v) (ld v)))
    (hz : 0 < size) (h : Runs s l i) (hr : Reads s l va size pa v) :
    Loads s l len steps (upd v) (ld v) (exec i s) := by
  obtain ⟨unbegun, reaches, value⟩ := hr
  obtain ⟨c, q, read, only⟩ := Chip.loadMem_val hz value
  rw [exec_of_runs he h, hb, Chip.loadAt_mem unbegun reaches read, only.retire]
  exact loads_of_val h.2 rfl rfl rfl rfl rfl rfl rfl rfl rfl rfl rfl rfl rfl rfl

/-- A load instruction at a misaligned address raises `LOAD_MISALIGNED` (R80). -/
theorem load_raises {body : Nat → Chip → Chip} {done : Nat → Chip → Chip}
    (he : exec i s = s.act (fun now c => c.instr l i (body now)))
    (hb : body s.now.toNat s.chip = s.chip.loadAt s.now.toNat l i va size done)
    (h : Runs s l i) (hu : Unbegun (s.lane l)) (hm : MayEnter s l) (ha : va % size ≠ 0) :
    Raises s l ⟨0x08, 1, va⟩ false 0 (exec i s) :=
  instr_raises he h hm (hb.trans (Chip.loadAt_misaligned hu ha))

/-- A delayed load holds for its register what its form makes of the value (R73). -/
theorem delayedLoad_law {a : Reg} {off : BitVec 13} {reg : RegId} {conv : Nat → Word} {w : Word}
    (he : exec i s = s.act (fun now c => c.delayedLoad now l i len a off size reg conv)) (hz : 0 < size)
    (hva : (effAddr (s.lane l).view a off).toNat = va) (hw : conv v = w) :
    (Runs s l i → Reads s l va size pa v → Loads s l len 2 id (some ⟨reg, w⟩) (exec i s)) ∧
    (Runs s l i → Unbegun (s.lane l) → MayEnter s l → va % size ≠ 0 → Raises s l ⟨0x08, 1, va⟩ false 0 (exec i s)) := by
  subst hva hw
  exact ⟨load_retires (upd := fun _ => id) (ld := fun v => some ⟨reg, conv v⟩) he rfl hz, load_raises he rfl⟩

variable {d a : Reg} {off : BitVec 13}

/-- `LD.D` is a load where its destination starts a pair (R64). -/
theorem exec_ldD_even (h : d.toNat % 2 = 0) :
    exec (.ldD l d a off) s = s.act (fun now c => c.instr l (.ldD l d a off) (fun c =>
      c.loadAt now l (.ldD l d a off) (effAddr (c.lane (laneKey l)).view a off).toNat 8
        (fun v c => c.retire (laneKey l) 4 3 (fun z => z.setPair d (BitVec.ofNat 64 v))))) := by
  have even : ¬ oddReg d = true := by simp [oddReg_iff, h]
  change execLdD l d a off s = _
  simp only [execLdD, if_neg even]

/-- Any other `LD.D` is illegal (R64). -/
theorem exec_ldD_odd (h : d.toNat % 2 = 1) :
    exec (.ldD l d a off) s = s.act (fun now c => c.instr l (.ldD l d a off) (fun c =>
      c.raise now (laneKey l) (illegal (instrBits (.ldD l d a off))))) := by
  change execLdD l d a off s = _
  simp only [execLdD, if_pos ((oddReg_iff d).2 h)]

end
end Sys2Proof.Machine

open Sys2Proof Sys2Proof.Machine

/-- Settles O8: every delayed load obeys one law; `LD.D` is a load of its own where its destination is even. -/
theorem loadResults : Obligations.LoadResults := by
  unfold Obligations.LoadResults
  intro s l d a off pa v va reads delayed
  refine ⟨delayedLoad_law rfl (by decide) rfl rfl, delayedLoad_law rfl (by decide) rfl rfl,
    delayedLoad_law rfl (by decide) rfl rfl, delayedLoad_law rfl (by decide) rfl rfl,
    delayedLoad_law rfl (by decide) rfl rfl, fun f => delayedLoad_law rfl (by decide) rfl rfl,
    fun even => ?pair, fun even => load_raises (exec_ldD_even even) rfl,
    fun odd h hm => illegal_raises (exec_ldD_odd odd) h hm rfl⟩
  case pair =>
    exact load_retires (upd := fun v z => z.setPair d (BitVec.ofNat 64 v)) (ld := fun _ => none)
      (exec_ldD_even even) rfl (by decide)
end

section
/-! Stores (R96, R132, R235): the lane that a store leaves, with one record more in its buffer, and what follows. -/
namespace Sys2Proof.Machine
variable {s : State} {l : LaneId}

/-- The number that a register pair holds, low word first (R64). -/
theorem Arch.toNat_pair (x : Arch) (n : Reg) : (x.pair n).toNat = (x.gr n).toNat + 2 ^ 32 * (x.gr (n + 1)).toNat := by
  rw [pair, BitVec.toNat_append, Nat.shiftLeft_eq, Nat.mul_comm, ← Nat.two_pow_add_eq_or_of_lt (x.gr n).isLt,
    Nat.add_comm]

/-- The lane `y` is `x` with the records `rs` added to its store buffer, youngest last; its data cache and the account of
an open transaction may have changed. -/
structure Buffered (x y : Lane) (rs : List StoreRec) : Prop where
  sb : y.sb = x.sb ++ rs.map (fun r => { item := .store r })
  storeSeq : y.storeSeq = x.storeSeq + rs.length
  arch : y.arch = x.arch
  retired : y.retired = x.retired
  steps : y.steps = x.steps
  ldPend : y.ldPend = x.ldPend
  replay : y.replay = x.replay
  readSeq : y.readSeq = x.readSeq
  save : y.save = x.save
  txNo : y.txNo = x.txNo
  icache : y.icache = x.icache
  itlb : y.itlb = x.itlb
  dtlb : y.dtlb = x.dtlb
  walkc : y.walkc = x.walkc
  halted : y.halted = x.halted

namespace Buffered
variable {x y z : Lane} {rs rs' : List StoreRec}

theorem refl (x : Lane) : Buffered x x [] := by constructor <;> simp

theorem trans (h : Buffered x y rs) (k : Buffered y z rs') : Buffered x z (rs ++ rs') where
  sb := by rw [k.sb, h.sb, List.map_append, List.append_assoc]
  storeSeq := by rw [k.storeSeq, h.storeSeq, List.length_append, Nat.add_assoc]
  arch := k.arch.trans h.arch
  retired := k.retired.trans h.retired
  steps := k.steps.trans h.steps
  ldPend := k.ldPend.trans h.ldPend
  replay := k.replay.trans h.replay
  readSeq := k.readSeq.trans h.readSeq
  save := k.save.trans h.save
  txNo := k.txNo.trans h.txNo
  icache := k.icache.trans h.icache
  itlb := k.itlb.trans h.itlb
  dtlb := k.dtlb.trans h.dtlb
  walkc := k.walkc.trans h.walkc
  halted := k.halted.trans h.halted

/-- The progress of a `CALLM` is no part of what its pushes leave. -/
theorem withProgress (h : Buffered x y rs) (n : Nat) : Buffered x { y with progress := n } rs :=
  ⟨h.sb, h.storeSeq, h.arch, h.retired, h.steps, h.ldPend, h.replay, h.readSeq, h.save, h.txNo, h.icache, h.itlb, h.dtlb,
    h.walkc, h.halted⟩

theorem landed (h : Buffered x y rs) : y.landed = x.landed := by simp only [Lane.landed, h.arch, h.ldPend]

/-- A retirement after stores is one of the lane before them. -/
theorem retiredLane (h : Buffered x y rs) (len : Word) (steps : Nat) (upd : Arch → Arch) :
    RetiredLane x (y.retire len steps upd none) len steps upd none where
  arch := by rw [← h.landed]; rfl
  retired := congrArg (· + 1) h.retired
  steps := congrArg (· + steps) h.steps
  ldPend := rfl
  feed := rfl
  waiting := rfl

/-- At a calm boundary the retirement that ends stores keeps their records. -/
theorem retire {c : Chip} (h : Buffered (s.lane l) y rs) (hc : Calm s l) (ho : OnlyLane s l c y) (len : Word) (steps : Nat)
    (upd : Arch → Arch) : ∃ z, c.retire (laneKey l) len steps upd = s.chip.setLane (laneKey l) z ∧
      RetiredLane (s.lane l) z len steps upd none ∧ LaneFrame y z := by
  refine ⟨s.chip.settled l.t (y.retire len steps upd none), ?_, Chip.settled_retired _ _ _ (h.retiredLane ..),
    Chip.settled_frame _ _ _ (Lane.retire_frame ..)⟩
  rw [ho.retire, Chip.retire, Chip.updLane_eq, Chip.lane_setLane_same, Chip.setLane_setLane]
  exact Chip.afterRetire_calm hc _ h.replay

end Buffered

namespace Chip

/-- The record of a store to memory by the lane `x` (R132). -/
def memRecord (c : Chip) (x : Lane) (a size v : Nat) : StoreRec where
  seq := x.storeSeq
  data := BitVec.ofNat 64 (v % 2 ^ (8 * size) * 2 ^ (8 * (a % 8)))
  addr := BitVec.ofNat 40 a
  be := BitVec.ofNat 8 (beOf a size)
  txn := x.save.isSome
  bankAlias := aliasOf (c.region a)

theorem memRecord_isRecord (c : Chip) (x : Lane) (a size v : Nat) :
    IsRecord (c.memRecord x a size v) x.storeSeq a size v x.save.isSome := ⟨rfl, rfl, rfl, rfl, rfl, rfl, rfl⟩

/-- The record of a store to memory enters the buffer of its lane. -/
theorem putStore_buffered (c : Chip) (k a size v : Nat) :
    ∃ y, c.putStore k a size v false = c.setLane k y ∧ Buffered (c.lane k) y [c.memRecord (c.lane k) a size v] := by
  refine ⟨_, rfl, ?_⟩
  split
  · constructor <;> rfl
  · constructor <;> rfl

variable {va size a : Nat}

/-- There is room for a store at `a`: in the buffer, and in the write set of an open transaction (R254). -/
abbrev StoreRoom (x : Lane) (a : Nat) : Prop :=
  x.sb.length < 8 ∧ (x.save ≠ none → lineOf a ∈ x.txLines ∨ x.txLines.length < 128)

theorem storeAt_room (hr : Reaches s l va size .store a) (room : StoreRoom (s.lane l) a) (now v : Nat) :
    s.chip.storeAt now (laneKey l) va size v = (s.chip.putStore (laneKey l) a size v false, .ok) := by
  obtain ⟨buffer, lines⟩ := room
  have fits : ¬ ((s.lane l).save.isSome && !(s.lane l).txLines.contains (lineOf a) &&
      decide (128 ≤ (s.lane l).txLines.length)) = true := by
    cases save : (s.lane l).save with
    | none => simp
    | some b =>
      rcases lines (by simp [save]) with mem | short
      · simp [mem]
      · simp [short]
  simp only [storeAt, dataPlace_reaches (by decide) hr, if_neg fits, if_neg (Nat.not_le.2 buffer)]

theorem storeAt_full (hr : Reaches s l va size .store a) (hs : (s.lane l).save = none) (full : 8 ≤ (s.lane l).sb.length)
    (now v : Nat) : s.chip.storeAt now (laneKey l) va size v = (s.chip, .wait) := by
  have outside : ¬ ((s.lane l).save.isSome && !(s.lane l).txLines.contains (lineOf a) &&
      decide (128 ≤ (s.lane l).txLines.length)) = true := by simp [hs]
  simp only [storeAt, dataPlace_reaches (by decide) hr, if_neg outside, if_pos full]

/-- A store with room adds one record. -/
theorem storeAt_buffered (hr : Reaches s l va size .store a) (room : StoreRoom (s.lane l) a) (now v : Nat) :
    ∃ y r, s.chip.storeAt now (laneKey l) va size v = (s.chip.setLane (laneKey l) y, .ok) ∧
      Buffered (s.lane l) y [r] ∧ IsRecord r (s.lane l).storeSeq a size v (s.lane l).save.isSome := by
  obtain ⟨y, put, buffered⟩ := s.chip.putStore_buffered (laneKey l) a size v
  exact ⟨y, _, (storeAt_room hr room now v).trans (by rw [put]), buffered, s.chip.memRecord_isRecord ..⟩

end Chip

section
variable {i : Instr} {len : Word} {steps va size pa v : Nat}

/-- The rule of a store: with room it retires into the buffer, with a full buffer it waits, misaligned it raises. -/
abbrev StoreLaw (s : State) (l : LaneId) (i : Instr) (len : Word) (steps va size pa v : Nat) : Prop :=
  (Runs s l i → Reaches s l va size .store pa → Chip.StoreRoom (s.lane l) pa →
    Stores s l len steps pa size v (exec i s)) ∧
  (Runs s l i → Reaches s l va size .store pa → (s.lane l).save = none → 8 ≤ (s.lane l).sb.length →
    Waits s l i (exec i s)) ∧
  (Runs s l i → MayEnter s l → va % size ≠ 0 → Raises s l ⟨0x0B, 2, va⟩ false 0 (exec i s))

/-- An instruction that is a store obeys the rule. -/
theorem store_law {body : Nat → Chip → Chip} (he : exec i s = s.act (fun now c => c.instr l i (body now)))
    (hb : body s.now.toNat s.chip = s.chip.storeInstr s.now.toNat l i len steps va size v) :
    StoreLaw s l i len steps va size pa v := by
  refine ⟨fun h hr room => ?_, fun h hr outside full => ?_, fun h hm ha => ?_⟩
  · obtain ⟨y, r, stored, buffered, record⟩ := Chip.storeAt_buffered hr room s.now.toNat v
    obtain ⟨z, retires, retired, frame⟩ := buffered.retire h.2 (OnlyLane.setLane s l y) len steps id
    refine ⟨z, r, ?_, retired, record, frame.sb.trans buffered.sb, frame.storeSeq.trans buffered.storeSeq,
      frame.readSeq.trans buffered.readSeq, frame.save.trans buffered.save, frame.txNo.trans buffered.txNo,
      frame.icache.trans buffered.icache, frame.itlb.trans buffered.itlb, frame.dtlb.trans buffered.dtlb,
      frame.walkc.trans buffered.walkc, frame.halted.trans buffered.halted⟩
    rw [exec_of_runs he h, hb]
    simp only [Chip.storeInstr, stored, retires]
  · rw [exec_of_runs he h, hb]
    simp only [Chip.storeInstr, Chip.storeAt_full hr outside full]
    rfl
  · refine instr_raises he h hm (hb.trans ?_)
    simp only [Chip.storeInstr, Chip.storeAt, Chip.dataPlace_misaligned ha]
    rfl

theorem wordStore_law {a : Reg} {off : BitVec 13} {val : Arch → Word}
    (he : exec i s = s.act (fun now c => c.wordStore now l i len a off size val))
    (hva : (effAddr (s.lane l).view a off).toNat = va) (hv : (val (s.lane l).view).toNat = v) :
    StoreLaw s l i len 2 va size pa v := by
  subst hva hv
  exact store_law he rfl

variable {b a : Reg} {off : BitVec 13}

/-- `ST.D` is a store where its source starts a pair (R64). -/
theorem exec_stD_even (h : b.toNat % 2 = 0) :
    exec (.stD l b a off) s = s.act (fun now c => c.instr l (.stD l b a off) (fun c =>
      c.storeInstr now l (.stD l b a off) 4 3 (effAddr (c.lane (laneKey l)).view a off).toNat 8
        ((c.lane (laneKey l)).view.pair b).toNat)) := by
  have even : ¬ oddReg b = true := by simp [oddReg_iff, h]
  change execStD l b a off s = _
  simp only [execStD, if_neg even]

/-- Any other `ST.D` is illegal (R64). -/
theorem exec_stD_odd (h : b.toNat % 2 = 1) :
    exec (.stD l b a off) s = s.act (fun now c => c.instr l (.stD l b a off) (fun c =>
      c.raise now (laneKey l) (illegal (instrBits (.stD l b a off))))) := by
  change execStD l b a off s = _
  simp only [execStD, if_pos ((oddReg_iff b).2 h)]

end
end Sys2Proof.Machine

open Sys2Proof Sys2Proof.Machine

/-- Settles O9: every store obeys one law; `ST.D` is a store where its source is even. -/
theorem storeResults : Obligations.StoreResults := by
  unfold Obligations.StoreResults
  intro s l b a off pa v va room puts
  refine ⟨wordStore_law rfl rfl rfl, wordStore_law rfl rfl rfl, wordStore_law rfl rfl rfl,
    fun f => wordStore_law rfl rfl rfl, fun even => ?pair, fun odd h hm => illegal_raises (exec_stD_odd odd) h hm rfl⟩
  case pair =>
    rw [← Arch.toNat_pair]
    exact store_law (exec_stD_even even) rfl
end

section
/-! `CALLM` and `RETM` (R77, R78): their pushes one after the other, their loads from the store buffer. -/
namespace Sys2Proof.Machine
variable {s : State} {l : LaneId}

/-! ### The pushes of `CALLM` -/

namespace Chip

/-- The pushes of a `CALLM` that all reach memory and find room end with one record for each, in order. -/
theorem callmPush_buffered (now : Nat) (i : Instr) (fin : Chip → Chip) (ps : List (Word × Word)) (n : Nat)
    (pa : Nat → Nat) (hs : (s.lane l).save = none)
    (hr : ∀ k p, ps[k]? = some p → Reaches s l p.1.toNat 4 .store (pa k))
    (room : (s.lane l).sb.length + ps.length ≤ 8) :
    ∃ c y rs, s.chip.callmPush now l i fin n ps = fin c ∧ OnlyLane s l c y ∧ Buffered (s.lane l) y rs ∧
      rs.length = ps.length ∧ ∀ k r p, rs[k]? = some r → ps[k]? = some p →
        IsRecord r ((s.lane l).storeSeq + k) (pa k) 4 p.2.toNat false := by
  induction ps generalizing s n pa with
  | nil => exact ⟨s.chip, s.lane l, [], rfl, OnlyLane.refl s l, Buffered.refl _, rfl, by simp⟩
  | cons p ps ih =>
    rw [List.length_cons] at room
    have fits : StoreRoom (s.lane l) (pa 0) := ⟨by omega, fun inTx => absurd hs inTx⟩
    obtain ⟨x, r, stored, first, record⟩ := storeAt_buffered (hr 0 p rfl) fits now p.2.toNat
    have pushed := first.withProgress (n + 1)
    have lane : (s.withLane l { x with progress := n + 1 }).lane l = { x with progress := n + 1 } :=
      lane_setLane_same ..
    obtain ⟨c, y, rs, rest, only, more, length, records⟩ :=
      ih (s := s.withLane l { x with progress := n + 1 }) (n + 1) (fun k => pa (k + 1))
        (by rw [lane, pushed.save, hs]) (fun k q hq => (hr (k + 1) q hq).withLane pushed.arch pushed.dtlb)
        (by rw [lane, pushed.sb, List.length_append, List.length_map, List.length_singleton]; omega)
    rw [lane] at more records
    refine ⟨c, y, r :: rs, ?_, only.of_withLane, pushed.trans more, congrArg (· + 1) length, fun k q p' hq hp => ?_⟩
    · rw [callmPush, stored]
      simpa only [updLane_eq, lane_setLane_same, setLane_setLane] using rest
    · cases k with
      | zero =>
        obtain ⟨rfl, rfl⟩ : r = q ∧ p = p' := by simpa using And.intro hq hp
        rw [hs] at record
        exact record
      | succ k =>
        have later := records k q p' hq hp
        rwa [pushed.storeSeq, List.length_singleton, Nat.add_assoc, Nat.add_comm 1 k] at later

end Chip

theorem Lane.view_pc (x : Lane) : x.view.pc = x.arch.pc := by
  have writeReg_pc (a : Arch) (r : RegId) (v : Word) : (a.writeReg r v).pc = a.pc := by
    cases r with
    | g n => rw [Arch.writeReg, Arch.setG]; split <;> rfl
    | f n => rfl
  rw [Lane.view]
  split
  · exact writeReg_pc ..
  · rfl

/-- The words that `CALLM` pushes, in order (R77). -/
def pushVals (v : Arch) (m : BitVec 16) : List Word := (v.pc + 4) :: (maskRegs m).reverse.map v.gr

theorem pushVals_view (x : Lane) (m : BitVec 16) : pushVals x.view m = (x.arch.pc + 4) ::
    (((List.range 14).reverse.filter (fun k => m.getLsbD k)).map (fun k => BitVec.ofNat 5 (16 + k))).map x.view.gr := by
  rw [pushVals, x.view_pc, maskRegs, List.filter_reverse, List.map_reverse, List.map_reverse, List.map_reverse]

theorem pushes_length (v : Arch) (m : BitVec 16) : (pushes v m).length = (pushVals v m).length := by
  simp [pushes, pushVals]

/-- Push `k` writes word `k` below `sp` (R77). -/
theorem pushes_get (v : Arch) (m : BitVec 16) (k : Nat) : (pushes v m)[k]? =
    (pushVals v m)[k]?.map (fun w => (v.gr 30 - BitVec.ofNat 32 (4 * (k + 1)), w)) := by
  simp only [pushes, pushVals, List.getElem?_map, List.getElem?_zipIdx, Nat.zero_add, Option.map_map]
  rfl

section
variable {t : Reg} {mask : BitVec 16} {v : Arch} {vals : List Word}

/-- The registers after a `CALLM` of `n` pushes with the return address `lk` (R77). -/
def callmUpd (v : Arch) (t : Reg) (lk : Word) (n : Nat) (z : Arch) : Arch :=
  { (z.setG 30 (v.gr 30 - BitVec.ofNat 32 (4 * n))).setG 31 lk with pc := v.gr t }

/-- The retirement of a `CALLM` of `n` pushes: a step for each (R34). -/
def callmEnd (l : LaneId) (v : Arch) (t : Reg) (lk : Word) (n : Nat) (c : Chip) : Chip :=
  c.retire (laneKey l) 4 (3 + n) (callmUpd v t lk n)

/-- `CALLM` past its checks makes its pushes. -/
theorem exec_callm_pushes (h : Runs s l (.callm l t mask)) (hv : (s.lane l).view = v) (even : (v.gr t).toNat % 2 = 0)
    (low : mask.toNat < 2 ^ 14) (aligned : (v.gr 30).toNat % 4 = 0) (fresh : (s.lane l).progress = 0) :
    exec (.callm l t mask) s = .next { s with
      chip := s.chip.callmPush s.now.toNat l (.callm l t mask) (callmEnd l v t (v.pc + 4) (pushes v mask).length) 0
        (pushes v mask) } := by
  subst hv
  refine (exec_of_runs (i := .callm l t mask) (execCallm.eq_def ..) h).trans ?_
  simp only [even, aligned, fresh, if_neg (Nat.not_le.2 low), List.drop_zero]
  rfl

/-- The pushes of a `CALLM` with room for all of them, and the retirement that follows (R77, R78). -/
theorem callm_retires (pa : Nat → Nat) (h : Runs s l (.callm l t mask)) (hv : (s.lane l).view = v)
    (hvals : pushVals v mask = vals) {lk : Word} (hlk : v.pc + 4 = lk) (even : (v.gr t).toNat % 2 = 0)
    (low : mask.toNat < 2 ^ 14) (aligned : (v.gr 30).toNat % 4 = 0) (fresh : (s.lane l).progress = 0)
    (hs : (s.lane l).save = none)
    (hr : ∀ k < vals.length, Reaches s l (v.gr 30 - BitVec.ofNat 32 (4 * (k + 1))).toNat 4 .store (pa k))
    (room : (s.lane l).sb.length + vals.length ≤ 8) :
    ∃ (y : Lane) (rs : List StoreRec), exec (.callm l t mask) s = .next (s.withLane l y) ∧
      RetiredLane (s.lane l) y 4 (3 + vals.length) (callmUpd v t lk vals.length) none ∧
      y.sb = (s.lane l).sb ++ rs.map (fun r => { item := .store r }) ∧ rs.length = vals.length ∧
      y.storeSeq = (s.lane l).storeSeq + vals.length ∧
      ∀ k r w, rs[k]? = some r → vals[k]? = some w → IsRecord r ((s.lane l).storeSeq + k) (pa k) 4 w.toNat false := by
  subst hvals hlk
  have reaches (k : Nat) (p : Word × Word) (hp : (pushes v mask)[k]? = some p) : Reaches s l p.1.toNat 4 .store (pa k) := by
    rw [pushes_get, Option.map_eq_some_iff] at hp
    obtain ⟨w, hw, rfl⟩ := hp
    exact hr k (List.getElem?_eq_some_iff.1 hw).1
  rw [← pushes_length] at room ⊢
  obtain ⟨c, y, rs, pushed, only, buffered, length, records⟩ := Chip.callmPush_buffered s.now.toNat (.callm l t mask)
    (callmEnd l v t (v.pc + 4) (pushes v mask).length) (pushes v mask) 0 pa hs reaches room
  obtain ⟨z, retires, retired, frame⟩ := buffered.retire h.2 only 4 (3 + (pushes v mask).length)
    (callmUpd v t (v.pc + 4) (pushes v mask).length)
  refine ⟨z, rs, ?_, retired, frame.sb.trans buffered.sb, length, ?_, fun k r w hk hw => ?_⟩
  · rw [exec_callm_pushes h hv even low aligned fresh, pushed, callmEnd, retires]
  · rw [frame.storeSeq, buffered.storeSeq, length]
  · exact records k r _ hk (by rw [pushes_get, hw]; rfl)

end

/-! ### The loads of `RETM` -/

/-- The words that hold the first `n` of the values loaded. -/
def loadedWords (vals : Nat → Nat) (n : Nat) : List Word := (List.range n).map (fun k => BitVec.ofNat 32 (vals k))

section
variable (vals : Nat → Nat) (n : Nat)

@[simp] theorem loadedWords_length : (loadedWords vals n).length = n := by simp [loadedWords]

theorem loadedWords_succ :
    loadedWords vals (n + 1) = BitVec.ofNat 32 (vals 0) :: loadedWords (fun k => vals (k + 1)) n := by
  rw [loadedWords, List.range_succ_eq_map, List.map_cons, List.map_map]
  rfl

@[simp] theorem loadedWords_getLastD : (loadedWords vals (n + 1)).getLastD 0 = BitVec.ofNat 32 (vals n) := by
  simp [loadedWords, List.range_succ]

end

/-- Loads of `RETM` that the store buffer answers in full change nothing (R235). -/
theorem Chip.retmLoads_forwarded (now n : Nat) (a : Word) (pa vals : Nat → Nat)
    (h : ∀ k < n, Reaches s l (a + BitVec.ofNat 32 (4 * k)).toNat 4 .load (pa k) ∧ Forwarded (s.lane l) (pa k) 4 (vals k)) :
    s.chip.retmLoads now (laneKey l) n a = (s.chip, .val 0, loadedWords vals n) := by
  induction n generalizing a pa vals with
  | zero => rfl
  | succ n ih =>
    obtain ⟨reaches, forwarded⟩ := h 0 (Nat.succ_pos n)
    rw [Nat.mul_zero, BitVec.add_zero] at reaches
    have next (k : Nat) : a + 4 + BitVec.ofNat 32 (4 * k) = a + BitVec.ofNat 32 (4 * (k + 1)) := by
      rw [Nat.mul_succ, Nat.add_comm, BitVec.ofNat_add, BitVec.add_assoc]
      rfl
    have rest := ih (a + 4) (fun k => pa (k + 1)) (fun k => vals (k + 1)) fun k hk => by
      rw [next]
      exact h (k + 1) (by omega)
    simp only [retmLoads, dataPlace_reaches (by decide) reaches, loadMem_forwarded _ _ forwarded, rest, loadedWords_succ]

section
variable {mask : BitVec 16}

/-- The registers that `RETM` loads are those of its mask, each with its own word; the last word is for `lk` (R77). -/
theorem retmUpd_loadedWords (vals : Nat → Nat) (sp lk : Word) (x : Arch) :
    retmUpd mask (loadedWords vals ((maskRegs mask).length + 1)) sp lk x =
      let z := (maskRegs mask).zipIdx.foldl (fun z e => z.setG e.1 (BitVec.ofNat 32 (vals e.2))) x
      { (z.setG 30 (sp + BitVec.ofNat 32 (4 * ((maskRegs mask).length + 1)))).setG 31 lk with pc := lk } := by
  have loaded : (maskRegs mask).zip (loadedWords vals ((maskRegs mask).length + 1)) =
      (maskRegs mask).zipIdx.map (Prod.map id (fun k => BitVec.ofNat 32 (vals k))) := by
    rw [loadedWords, List.zip_map_right, List.zipIdx_eq_zip_range', ← List.range_eq_range', List.zip_eq_zip_take_min]
    simp [List.take_range]
  rw [retmUpd, loaded, List.foldl_map, loadedWords_length]
  rfl

/-- `RETM` past its checks, with every word in the store buffer: the registers of the mask and `lk` are loaded, or an odd
`lk` is raised and no register has changed (R77, R78). -/
theorem retm_loaded (pa : Nat → Nat) {vals : Nat → Nat} (h : Runs s l (.retm l mask)) {sp lk : Word}
    (hsp : (s.lane l).view.gr 30 = sp) (low : mask.toNat < 2 ^ 14) (aligned : sp.toNat % 4 = 0)
    (hr : ∀ k < (maskRegs mask).length + 1, Reaches s l (sp + BitVec.ofNat 32 (4 * k)).toNat 4 .load (pa k) ∧
      Forwarded (s.lane l) (pa k) 4 (vals k)) (hlk : BitVec.ofNat 32 (vals (maskRegs mask).length) = lk) :
    (lk.toNat % 2 = 0 → Retires s l 4 (4 + (maskRegs mask).length) (fun z =>
      let z := (maskRegs mask).zipIdx.foldl (fun z e => z.setG e.1 (BitVec.ofNat 32 (vals e.2))) z
      { (z.setG 30 (sp + BitVec.ofNat 32 (4 * ((maskRegs mask).length + 1)))).setG 31 lk with pc := lk })
      (exec (.retm l mask) s)) ∧
    (lk.toNat % 2 = 1 → MayEnter s l → Raises s l ⟨0x05, 3, lk.toNat⟩ false 0 (exec (.retm l mask) s)) := by
  have loaded : exec (.retm l mask) s = .next { s with
      chip := if lk.toNat % 2 = 1 then s.chip.raise s.now.toNat (laneKey l) ⟨0x05, 3, lk.toNat⟩
        else s.chip.retire (laneKey l) 4 (4 + (maskRegs mask).length)
          (retmUpd mask (loadedWords vals ((maskRegs mask).length + 1)) sp lk) } := by
    have steps : 3 + ((maskRegs mask).length + 1) = 4 + (maskRegs mask).length := by omega
    subst hsp hlk
    refine (exec_of_runs (i := .retm l mask) (execRetm.eq_def ..) h).trans ?_
    simp only [aligned, if_neg (Nat.not_le.2 low), Chip.retmLoads_forwarded _ _ _ pa vals hr, loadedWords_getLastD,
      loadedWords_length, steps]
    rfl
  rw [loaded]
  refine ⟨fun even => ?_, fun odd hm => ?_⟩
  · rw [if_neg (Nat.mod_two_ne_one.2 even), funext (retmUpd_loadedWords vals sp lk)]
    exact retires_of_calm h.2 ..
  · rw [if_pos odd]
    exact raises_of_mayEnter hm _ false (show 0x05 < 256 by decide) (show 3 < 4 by decide)

end
end Sys2Proof.Machine

open Sys2Proof Sys2Proof.Machine

/-- Settles O10: each check of `CALLM` and `RETM` is a branch of its meaning; past them the pushes fill the store buffer one
by one, and the loads find their words there. -/
theorem callmAndRetm : Obligations.CallmAndRetm := by
  unfold Obligations.CallmAndRetm
  refine ⟨fun s l t mask pa => ?callm, fun s l mask pa vals => ?retm⟩
  case callm =>
    intro v sp i saved vals at_ h
    have checks := execCallm.eq_def l t mask s
    refine ⟨fun odd hm => instr_raises checks h hm (if_pos odd), fun even high hm => ?high,
      fun even low crooked hm => ?crooked, fun even low aligned unbegun hs hr room => ?pushes⟩
    case high => exact illegal_raises checks h hm ((if_neg (Nat.mod_two_ne_one.2 even)).trans (if_pos high))
    case crooked =>
      exact instr_raises checks h hm
        ((if_neg (Nat.mod_two_ne_one.2 even)).trans ((if_neg (Nat.not_le.2 low)).trans (if_pos crooked)))
    case pushes =>
      obtain ⟨-, -, fresh⟩ := unbegun
      have lk : v.pc + 4 = (s.lane l).arch.pc + 4 := congrArg (· + 4) (s.lane l).view_pc
      exact callm_retires pa h rfl (pushVals_view _ mask) lk even low aligned fresh hs hr room
  case retm =>
    intro sp i regs n lk h
    have checks := execRetm.eq_def l mask s
    refine ⟨fun high hm => illegal_raises checks h hm (if_pos high),
      fun low crooked hm => instr_raises checks h hm ((if_neg (Nat.not_le.2 low)).trans (if_pos crooked)),
      fun low aligned hr => retm_loaded pa h rfl low aligned (fun k hk => hr k (Nat.le_of_lt_succ hk)) rfl⟩
end

section
/-! `ADDC` and `SUBC` (R114): the word and the carry of each, and the update that writes both at once. -/
namespace Sys2Proof.Machine

/-! ### Sums and differences with a carry -/

section
variable (x y : Word) {cy : Nat}

/-- Two words and a carry stay below 2^33, so the carry out is all of the sum above its low word. -/
theorem bit_addCarry (h : cy < 2) : bit (addCarry x y cy).2 = (x.toNat + y.toNat + cy) / 2 ^ 32 := by
  have one : (x.toNat + y.toNat + cy) / 2 ^ 32 < 2 := by omega
  rw [addCarry, Nat.mod_eq_of_lt one]
  obtain zero | carry := (Nat.le_one_iff_eq_zero_or_eq_one).1 (Nat.le_of_lt_succ one)
  · rw [zero]; rfl
  · rw [carry]; rfl

/-- The difference is the low word of the one of 33 bits, which is never below 0 where 2^33 is added. -/
theorem subCarry_word (h : cy < 2) : (subCarry x y cy).1 = BitVec.ofNat 32 (2 ^ 33 + x.toNat - y.toNat - cy) := by
  apply BitVec.eq_of_toNat_eq
  simp only [subCarry, BitVec.toNat_sub, BitVec.toNat_ofNat]
  omega

theorem bit_subCarry : bit (subCarry x y cy).2 = if x.toNat < y.toNat + cy then 1 else 0 := by
  simp only [subCarry, bit, decide_eq_true_eq]

end

/-- CY is one bit. -/
theorem SR.CY_get_lt (w : Word) : SR.CY.get w < 2 := Fld.get_lt SR.CY w

/-! ### The instructions -/

variable {s : State} {l : LaneId} {d : Reg} {i : Instr}

/-- A register instruction whose result, at the registers it reads, is the low word of `n` with the carry `k`: the register
and CY change together, CY for `g0` too (R114). -/
theorem regInstr_carry {r : Arch → Word × Bool} {n k : Nat}
    (he : exec i s = s.act (fun now c => c.regInstr now l i 4 (fun _ => 2) (fun v => .ok (setCarry d (r v)))))
    (hn : (r (s.lane l).view).1 = BitVec.ofNat 32 n) (hk : bit (r (s.lane l).view).2 = k) (h : Runs s l i) :
    Retires s l 4 2 (fun z => (z.setG d (BitVec.ofNat 32 n)).setSt SR.CY k) (exec i s) := by
  rw [he]
  exact regInstr_retires_eq h rfl rfl (fun z => by rw [setCarry, hn, hk])

end Sys2Proof.Machine

open Sys2Proof Sys2Proof.Machine

/-- Settles O3: the old CY is one bit, so the model's sum and difference with their carries are those of 33 bits. -/
theorem carryArithmetic : Obligations.CarryArithmetic := by
  unfold Obligations.CarryArithmetic
  intro s l d a b v x y cy sum upd
  have carry : cy < 2 := SR.CY_get_lt v.status
  exact ⟨regInstr_carry rfl rfl (bit_addCarry _ _ carry),
    regInstr_carry rfl (subCarry_word _ _ carry) (bit_subCarry _ _)⟩
end

section
/-! What the lanes of a triad vote and run by (R142): the fields of `CLU_TSTATE`, the three lanes taken in turn, and the
decisions that its rounds are asked for (R170). -/
namespace Sys2Proof.Machine

namespace Chip
variable {c d : Chip}

/-! ### `CLU_TSTATE` -/

theorem tstate_congr {t : Nat} (h : d.rd (.CLU_TSTATE t) = c.rd (.CLU_TSTATE t)) : d.tstate t = c.tstate t := by
  rw [tstate, gf_eq, h, ← gf_eq, ← tstate]

theorem votes_congr {t : Nat} (h : d.rd (.CLU_TSTATE t) = c.rd (.CLU_TSTATE t)) (i : Nat) : d.votes t i = c.votes t i := by
  rw [votes, gf_eq, h, ← gf_eq, ← votes]

theorem voting_congr {t : Nat} (h : d.rd (.CLU_TSTATE t) = c.rd (.CLU_TSTATE t)) : d.voting t = c.voting t := by
  rw [voting, funext (votes_congr h), ← voting]

theorem votes_of_voting {t i : Nat} (h : i ∈ c.voting t) : c.votes t i = true := (List.mem_filter.1 h).2

theorem tstate_setT (c : Chip) (t : Nat) {st : Nat} (h : st < 8) : (c.setT t st).tstate t = st :=
  (gf_sf_same c _ _ _ (by decide) (by decide)).trans (Nat.mod_eq_of_lt h)

theorem votes_setT (c : Chip) (t st i : Nat) : (c.setT t st).votes t i = c.votes t i := by
  rw [votes, setT, gf_sf_field _ _ _ _ _ (by decide) (by decide) (by decide), ← votes]

theorem voting_setT (c : Chip) (t st : Nat) : (c.setT t st).voting t = c.voting t := by
  rw [voting, funext (c.votes_setT t st), ← voting]

theorem tstate_setVote (c : Chip) (t : Nat) (l : List Nat) : (c.setVote t l).tstate t = c.tstate t :=
  gf_sf_field _ _ _ _ _ (by decide) (by decide) (by decide)

theorem testBit_foldl_setBit (l : List Nat) (v i : Nat) :
    (l.foldl (fun v i => setBit v i) v).testBit i = (v.testBit i || decide (i ∈ l)) := by
  induction l generalizing v with
  | nil => simp
  | cons j r ih =>
    rw [List.foldl_cons, ih, setBit, Nat.testBit_or, Nat.testBit_two_pow]
    simp [Bool.or_assoc, eq_comm]

theorem votes_setVote (c : Chip) (t : Nat) (l : List Nat) {i : Nat} (h : i < 3) :
    (c.setVote t l).votes t i = decide (i ∈ l) := by
  rw [votes, setVote, gf_sf_same _ _ _ _ (by decide) (by decide), Nat.testBit_mod_two_pow, testBit_foldl_setBit]
  simp [CLU_TSTATE.VOTE, h]

theorem voting_setVote (c : Chip) (t : Nat) (l : List Nat) : (c.setVote t l).voting t = [0, 1, 2].filter (· ∈ l) := by
  refine List.filter_congr fun i hi => votes_setVote c t l ?_
  fin_cases hi <;> decide

/-! ### The three lanes in turn -/

/-- An operation done for each lane of a triad, which changes that lane alone, does to each what it does to it. What it
needs of the chip besides (`Q`) it keeps; what is of interest of the lane is `π`. -/
theorem lane_foldl_three {β : Type} {f : Chip → Nat → Chip} {t : Nat} (π : Lane → β) (g : Nat → Lane → β)
    (Q : Chip → Prop) (kept : ∀ c i, Q c → Q (f c i))
    (own : ∀ c i, Q c → π ((f c i).lane (3 * t + i)) = g i (c.lane (3 * t + i)))
    (away : ∀ c i k, k ≠ 3 * t + i → (f c i).lane k = c.lane k) (h : Q c) :
    ∀ i < 3, π (([0, 1, 2].foldl f c).lane (3 * t + i)) = g i (c.lane (3 * t + i)) := by
  intro i hi
  simp only [List.foldl_cons, List.foldl_nil]
  obtain rfl | rfl | rfl : i = 0 ∨ i = 1 ∨ i = 2 := by omega
  · rw [away _ 2 _ (by omega), away _ 1 _ (by omega), own _ 0 h]
  · rw [away _ 2 _ (by omega), own _ 1 (kept _ 0 h), away _ 0 _ (by omega)]
  · rw [own _ 2 (kept _ 1 (kept _ 0 h)), away _ 1 _ (by omega), away _ 0 _ (by omega)]

theorem lane_foldl_three_other {f : Chip → Nat → Chip} {t : Nat}
    (away : ∀ c i k, k ≠ 3 * t + i → (f c i).lane k = c.lane k) (c : Chip) {k : Nat} (h : k / 3 ≠ t) :
    ([0, 1, 2].foldl f c).lane k = c.lane k := by
  simp only [List.foldl_cons, List.foldl_nil]
  rw [away _ 2 _ (by omega), away _ 1 _ (by omega), away _ 0 _ (by omega)]

/-! ### Rounds -/

theorem mem_addNew {α : Type} [DecidableEq α] (l : List α) (x : α) : x ∈ addNew l x := by
  unfold addNew
  split
  · assumption
  · simp

theorem want_eq (c : Chip) (t : Nat) (w : Decision) : ∃ x, c.want t w = { c with triads := x } := by
  unfold want
  split
  · exact ⟨_, rfl⟩
  · obtain ⟨x, h⟩ := (c.updTriad t (fun x => { x with wants := addNew x.wants w })).openRound_eq t
    exact ⟨x, h⟩

/-- A decision that stays inside the device is wanted whatever the device's role; a round may be opened for it. -/
theorem triad_want_own (c : Chip) (t : Nat) {w : Decision} (h : ownDecision w = true) :
    ∃ r, (c.want t w).triad t = { c.triad t with wants := addNew (c.triad t).wants w, round := r } := by
  unfold want openRound
  rw [if_neg (by simp [h])]
  simp only [updTriad_eq, triad_setTriad_same, setTriad_setTriad]
  split
  · rw [triad_setTriad_same]
    split
    · exact ⟨_, rfl⟩
    · exact ⟨_, rfl⟩
  · rw [triad_setTriad_same]
    exact ⟨_, rfl⟩

end Chip
end Sys2Proof.Machine
end

section
/-! The commands of a debugger (R157 to R160), each said once as the chip that it answers. -/
namespace Sys2Proof.Machine
namespace Chip
variable {c : Chip} {t : Nat}

/-! ### Register writes (R159) -/

theorem setG_bargroup (a : Arch) (n : Reg) (v : Word) : (a.setG n v).bargroup = a.bargroup := by
  unfold Arch.setG
  split
  · rfl
  · rfl

theorem debugSet_g (c : Chip) (t i : Nat) (n : Reg) (v : Word) :
    c.debugSet t i (.g n) v = c.updLane (3 * t + i) (fun l => { l with arch := l.arch.setG n v }) :=
  if_pos (setG_bargroup _ n v).symm

theorem debugSet_f (c : Chip) (t i : Nat) (n : Reg) (v : Word) :
    c.debugSet t i (.f n) v = c.updLane (3 * t + i) (fun l => { l with arch := l.arch.setF n v }) := if_pos rfl

theorem debugSet_pc (c : Chip) (t i : Nat) (v : Word) :
    c.debugSet t i .pc v = c.updLane (3 * t + i) (fun l => { l with arch := { l.arch with pc := v &&& 0xFFFFFFFE } }) :=
  if_pos rfl

/-- A register write that is no write of a control register changes that register in the three lanes. -/
theorem debugSet_three {r : DebugReg} {v : Word} {f : Arch → Arch}
    (h : ∀ c i, debugSet c t i r v = c.updLane (3 * t + i) (fun l => { l with arch := f l.arch })) (c : Chip) :
    (∀ i < 3, ([0, 1, 2].foldl (fun c i => c.debugSet t i r v) c).lane (3 * t + i) =
        { c.lane (3 * t + i) with arch := f (c.lane (3 * t + i)).arch }) ∧
      (∀ k : Nat, k / 3 ≠ t → ([0, 1, 2].foldl (fun c i => c.debugSet t i r v) c).lane k = c.lane k) ∧
      ([0, 1, 2].foldl (fun c i => c.debugSet t i r v) c).mem = c.mem ∧
      ([0, 1, 2].foldl (fun c i => c.debugSet t i r v) c).regs = c.regs := by
  simp only [h]
  have away : ∀ (c : Chip) (i k : Nat), k ≠ 3 * t + i →
      (c.updLane (3 * t + i) (fun l => { l with arch := f l.arch })).lane k = c.lane k :=
    fun c i k hk => c.lane_setLane_other _ _ _ hk
  exact ⟨lane_foldl_three id (fun _ l => { l with arch := f l.arch }) (fun _ => True) (fun _ _ _ => trivial)
    (fun c i _ => c.lane_setLane_same _ _) away trivial, fun k hk => lane_foldl_three_other away c hk, rfl, rfl⟩

theorem stopped_of_not_debugOk (h : c.debugOk t = false) : c.stopped t = false := by simp [stopped, h]

end Chip

theorem Region.not_isDev_of_isMem {r : Region} (h : r.isMem = true) : r.isDev = false := by
  cases r with
  | dram | bank => rfl
  | _ => exact absurd h Bool.false_ne_true

variable {s : State} {t : Fin 32}

/-! ### The commands -/

theorem exec_debug_of_not_debugOk (h : s.chip.debugOk t = false) (n : Reg) (v : BitVec 32) (addr : BitVec 40) (be : BitVec 8)
    (w : BitVec 64) : ∀ i ∈ [Instr.debugHalt t, .debugSingleStep t, .debugRegisterWrite t (.g n) v,
      .debugMemoryWrite t addr be w, .debugRelease t], exec i s = .next s := by
  have stopped := Chip.stopped_of_not_debugOk h
  simp only [List.forall_mem_cons]
  refine ⟨?_, ?_, ?_, ?_, ?_, by simp⟩
  · change execDebugHalt t s = _
    simp [execDebugHalt, State.act, h]
  · change execDebugSingleStep t s = _
    simp [execDebugSingleStep, State.act, stopped]
  · change execDebugRegisterWrite t _ v s = _
    simp [execDebugRegisterWrite, State.act, stopped]
  · change execDebugMemoryWrite t addr be w s = _
    simp [execDebugMemoryWrite, State.act, stopped]
  · change execDebugRelease t s = _
    simp [execDebugRelease, State.act, h]

theorem exec_debugHalt_of_running (h : s.chip.debugOk t = true)
    (hs : s.chip.tstate t = tVoting ∨ s.chip.tstate t = tDegraded) :
    exec (.debugHalt t) s = .next { s with chip := s.chip.want t .halt } := by
  change execDebugHalt t s = _
  simp [execDebugHalt, State.act, h, hs]

theorem exec_debugHalt_of_recovering (h : s.chip.debugOk t = true)
    (hs : s.chip.tstate t = tRebuild ∨ s.chip.tstate t = tRestart) :
    exec (.debugHalt t) s = .next { s with chip := s.chip.updTriad t (fun x => { x with haltReq := true }) } := by
  have waits : ¬ (s.chip.tstate t = tVoting ∨ s.chip.tstate t = tDegraded) := by
    rcases hs with hs | hs
    · rw [hs]; decide
    · rw [hs]; decide
  change execDebugHalt t s = _
  simp [execDebugHalt, State.act, h, waits]

theorem exec_debugSingleStep (h : s.chip.stopped t = true) : exec (.debugSingleStep t) s =
    .next { s with chip := s.chip.updTriad t (fun x => { x with holdAt := x.holdAt.map (· + 1) }) } := by
  change execDebugSingleStep t s = _
  simp [execDebugSingleStep, State.act, h]

theorem exec_debugRegisterWrite (h : s.chip.stopped t = true) (r : DebugReg) (v : BitVec 32) :
    exec (.debugRegisterWrite t r v) s =
      .next { s with chip := [0, 1, 2].foldl (fun c i => c.debugSet t i r v) s.chip } := by
  change execDebugRegisterWrite t r v s = _
  simp only [execDebugRegisterWrite, State.act, h, if_true]

/-- A debugger's write of memory is a store record of its own, marked and unvoted (R159). -/
theorem exec_debugMemoryWrite (h : s.chip.stopped t = true) {addr : BitVec 40} (hm : (s.chip.region addr.toNat).isMem = true)
    (be : BitVec 8) (w : BitVec 64) : exec (.debugMemoryWrite t addr be w) s =
      .next { s with chip := s.chip.updPort (3 * t) (fun p => { p with outq := p.outq ++
        [{ seq := 0, data := w, addr := addr, be := be, dbg := true
           bankAlias := Chip.aliasOf (s.chip.region addr.toNat) }] }) } := by
  change execDebugMemoryWrite t addr be w s = _
  simp only [execDebugMemoryWrite, State.act, h, hm, Region.not_isDev_of_isMem hm, Bool.true_and, Bool.true_or, if_true]

theorem exec_debugMemoryWrite_unmapped {addr : BitVec 40} (hu : s.chip.region addr.toNat = .unmapped) (be : BitVec 8)
    (w : BitVec 64) : exec (.debugMemoryWrite t addr be w) s = .next s := by
  change execDebugMemoryWrite t addr be w s = _
  simp [execDebugMemoryWrite, State.act, hu, Region.isMem, Region.isDev]

theorem exec_debugRelease (h : s.chip.debugOk t = true) (hh : s.chip.gb (.CLU_TSTATE t) CLU_TSTATE.DBGHOLD = true) :
    exec (.debugRelease t) s = .next { s with chip := ((s.chip.updTriad t (fun x => { x with
      holdAt := none, releasing := true })).sf (.CLU_TSTATE t) CLU_TSTATE.DBGHOLD 0).want t .digest } := by
  change execDebugRelease t s = _
  simp [execDebugRelease, State.act, h, hh]

end Sys2Proof.Machine

open Sys2Proof Sys2Proof.Machine

/-- Settles O24: each command answers the chip that its law above names; a halt and a digest are decisions that a triad
takes whatever the device's role. -/
theorem debugCommands : Obligations.DebugCommands := by
  unfold Obligations.DebugCommands
  intro s t n v addr be w c x write
  have writes : ∀ (r : DebugReg) (f : Arch → Arch),
      (∀ (c : Chip) (i : Nat), c.debugSet t i r v = c.updLane (3 * t + i) (fun l => { l with arch := f l.arch })) →
      c.stopped t = true → write r f :=
    fun r f h stopped => ⟨_, exec_debugRegisterWrite stopped r v, Chip.debugSet_three h c⟩
  have general := writes (.g n) (·.setG n v) fun c i => c.debugSet_g t i n v
  have float := writes (.f n) (·.setF n v) fun c i => c.debugSet_f t i n v
  have pc := writes .pc (fun a => { a with pc := v &&& 0xFFFFFFFE }) fun c i => c.debugSet_pc t i v
  refine ⟨fun h => exec_debug_of_not_debugOk h n v addr be w, fun h hs => ?halt, fun h hs => ?wait,
    fun stopped => ⟨fun m hm => ?step, general stopped, float stopped, pc stopped, fun hm => ?memory,
      fun hu => exec_debugMemoryWrite_unmapped hu be w⟩, fun h hh => ?release⟩
  case halt =>
    obtain ⟨y, wanted⟩ := c.want_eq t .halt
    obtain ⟨r, triad⟩ := c.triad_want_own t (w := .halt) rfl
    exact ⟨_, exec_debugHalt_of_running h hs, by rw [triad]; exact Chip.mem_addNew _ _,
      by rw [wanted], by rw [wanted]; exact .refl c⟩
  case wait =>
    have triad : (c.updTriad t (fun x => { x with haltReq := true })).triad t = { x with haltReq := true } :=
      c.triad_setTriad_same t _
    exact ⟨_, exec_debugHalt_of_recovering h hs, by rw [triad], by rw [triad], rfl, .refl c⟩
  case step =>
    have triad : (c.updTriad t (fun x => { x with holdAt := x.holdAt.map (· + 1) })).triad t =
      { x with holdAt := x.holdAt.map (· + 1) } := c.triad_setTriad_same t _
    exact ⟨_, exec_debugSingleStep stopped, by rw [triad, hm, Option.map_some], rfl, .refl c⟩
  case memory =>
    exact ⟨_, exec_debugMemoryWrite stopped hm be w,
      ⟨_, congrArg Port.outq (c.port_setPort_same _ _), rfl, rfl, rfl, rfl, rfl, rfl⟩, rfl, rfl, rfl⟩
  case release =>
    let d := (c.updTriad t (fun x => { x with holdAt := none, releasing := true })).sf (.CLU_TSTATE t) CLU_TSTATE.DBGHOLD 0
    have ended : d.triad t = { x with holdAt := none, releasing := true } := c.triad_setTriad_same t _
    have freed : d.gb (.CLU_TSTATE t) CLU_TSTATE.DBGHOLD = false := Chip.gb_sf_same _ _ 8 false (by decide)
    have held : OnlyRegs c (c.sf (.CLU_TSTATE t) CLU_TSTATE.DBGHOLD 0) [.CLU_TSTATE t] := .sf c _ _ (by simp)
    obtain ⟨y, wanted⟩ := d.want_eq t .digest
    obtain ⟨r, triad⟩ := d.triad_want_own t (w := .digest) rfl
    refine ⟨_, exec_debugRelease h hh, ?_, ?_, ?_, ?_, ?_⟩
    · rw [wanted]; exact freed
    · rw [triad, ended]
    · rw [triad, ended]
    · rw [triad]; exact Chip.mem_addNew _ _
    · rw [wanted]; exact held
end

section
/-! A lane out of the vote of its triad, its rebuild on its own core (R147), and a sluice left with nothing to decide. -/
namespace Sys2Proof.Machine

/-- The triad is as it was but for the round it is in and what it asks of the next. -/
def RoundsOnly (x y : Triad) : Prop := ∃ h w r, y = { x with haltReq := h, wants := w, round := r }

theorem RoundsOnly.refl (x : Triad) : RoundsOnly x x := ⟨_, _, _, rfl⟩

theorem RoundsOnly.trans {x y z : Triad} (h : RoundsOnly x y) (k : RoundsOnly y z) : RoundsOnly x z := by
  obtain ⟨_, _, _, rfl⟩ := h
  obtain ⟨_, _, _, rfl⟩ := k
  exact ⟨_, _, _, rfl⟩

namespace Chip
variable {c d e : Chip}

/-! ### What an operation leaves of a triad -/

theorem triad_of_triads_eq (h : d.triads = c.triads) (t : Nat) : d.triad t = c.triad t := by rw [triad, h, ← triad]

theorem rounds_of_triads_eq (h : d.triads = c.triads) (t : Nat) : RoundsOnly (c.triad t) (d.triad t) := by
  rw [triad_of_triads_eq h]
  exact .refl _

theorem rd_of_regs_eq (h : d.regs = c.regs) (r : RegName) : d.rd r = c.rd r := by rw [rd, h, ← rd]

theorem fsynd_triads (c : Chip) (now t code cls : Nat) : (c.fsynd now t code cls).triads = c.triads := by
  simp only [fsynd, sf_triads]

theorem triadCorrected_triads (c : Chip) (now t code : Nat) : (c.triadCorrected now t code).triads = c.triads := by
  obtain ⟨f, h⟩ := (c.fsynd now t code 0).corrected_eq now (t / 4)
  simp only [triadCorrected, h, setSticky, wr_triads, fsynd_triads]

/-! ### Lanes out of the vote -/

/-- Lane `i` of triad `t` votes no longer, the triad is in state `st` with the rebuild `r`; records and digests that wait for
a decision came with the triad. Memory and the registers outside `A` are as they were. -/
structure Fenced (A : Nat → Prop) (c d : Chip) (t i st : Nat) (r : Option Rebuild) : Prop extends RegFrame A c d where
  state : d.tstate t = st
  votes : d.votes t i = false
  rebuild : (d.triad t).rebuild = r
  recs : (c.triad t).recs = [] → (d.triad t).recs = []
  digs : (c.triad t).digs = [] → (d.triad t).digs = []

namespace Fenced
variable {A B : Nat → Prop} {t i st : Nat} {r : Option Rebuild}

/-- What follows may write registers of `A` other than `CLU_TSTATE`, and ask for rounds. -/
theorem andThen (h : Fenced A c d t i st r) (k : RegFrame A d e) (x : RoundsOnly (d.triad t) (e.triad t))
    (hs : e.rd (.CLU_TSTATE t) = d.rd (.CLU_TSTATE t)) : Fenced A c e t i st r := by
  obtain ⟨_, _, _, x⟩ := x
  exact ⟨h.toRegFrame.trans k, (tstate_congr hs).trans h.state, (votes_congr hs i).trans h.votes,
    by rw [x]; exact h.rebuild, fun hr => by rw [x]; exact h.recs hr, fun hd => by rw [x]; exact h.digs hd⟩

/-- What follows leaves memory, the registers and the triads alone. -/
theorem andThen_of_eq (h : Fenced A c d t i st r) (hm : e.mem = d.mem) (hr : e.regs = d.regs) (ht : e.triads = d.triads) :
    Fenced A c e t i st r :=
  h.andThen (.of_eq hm hr) (rounds_of_triads_eq ht t) (rd_of_regs_eq hr _)

theorem setStore (h : Fenced A c d t i st r) (k : Nat) (x : CStore) : Fenced A c (d.setStore k x) t i st r :=
  h.andThen_of_eq (setStore_mem d k x) (setStore_regs d k x) (setStore_triads d k x)

theorem setT (h : Fenced A c d t i st r) {st' : Nat} (hs : st' < 8) (ht : A (RegName.CLU_TSTATE t).addr) :
    Fenced A c (d.setT t st') t i st' r :=
  ⟨h.toRegFrame.trans (.sf d _ _ ht), tstate_setT d t hs, (votes_setT d t st' i).trans h.votes, h.rebuild,
    h.recs, h.digs⟩

theorem updTriad (h : Fenced A c d t i st r) (f : Triad → Triad) {r' : Option Rebuild} (hb : (f (d.triad t)).rebuild = r')
    (hr : (f (d.triad t)).recs = (d.triad t).recs) (hd : (f (d.triad t)).digs = (d.triad t).digs) :
    Fenced A c (d.updTriad t f) t i st r' := by
  have x : (d.updTriad t f).triad t = f (d.triad t) := triad_setTriad_same _ _ _
  exact ⟨h.toRegFrame.trans (.of_eq rfl rfl), h.state, h.votes, by rw [x, hb], fun k => by rw [x, hr]; exact h.recs k,
    fun k => by rw [x, hd]; exact h.digs k⟩

theorem want (h : Fenced A c d t i st r) {w : Decision} (hw : ownDecision w = true) : Fenced A c (d.want t w) t i st r := by
  obtain ⟨_, x⟩ := triad_want_own d t hw
  exact h.andThen (.of_eq (want_mem _ _ _) (want_regs _ _ _)) ⟨_, _, _, x⟩ (rd_of_regs_eq (want_regs _ _ _) _)

/-- Recoveries begun after an operation that left the triad's records and digests alone. -/
theorem after (h : Fenced A d e t i st r) (k : RegFrame A c d) (hr : (d.triad t).recs = (c.triad t).recs)
    (hd : (d.triad t).digs = (c.triad t).digs) : Fenced A c e t i st r :=
  ⟨k.trans h.toRegFrame, h.state, h.votes, h.rebuild, fun x => h.recs (hr.trans x), fun x => h.digs (hd.trans x)⟩

theorem mono (h : Fenced A c d t i st r) (hAB : ∀ a, A a → B a) : Fenced B c d t i st r :=
  ⟨h.toRegFrame.mono hAB, h.state, h.votes, h.rebuild, h.recs, h.digs⟩

end Fenced

theorem votes_voteOff (c : Chip) (t i : Nat) : (c.voteOff t i).votes t i = false := by
  rw [votes, voteOff, setVote, gf_sf_same _ _ _ _ (by decide) (by decide), Nat.testBit_mod_two_pow, testBit_foldl_setBit]
  simp [not_mem_without]

theorem triad_fenceLane (c : Chip) (t i : Nat) : ∃ a b s, (c.fenceLane t i).triad t = { c.triad t with
    recs := (c.triad t).recs.filter (fun e => e.1 ≠ i), digs := (c.triad t).digs.filter (fun e => e.1 ≠ i)
    areqs := a, ares := s, bin := b } := ⟨_, _, _, triad_setTriad_same _ _ _⟩

theorem fenceLane_lane_other (c : Chip) (t i : Nat) {k : Nat} (h : k ≠ 3 * t + i) : (c.fenceLane t i).lane k = c.lane k :=
  lane_setLane_other (c.voteOff t i) _ _ _ h

theorem fenceLane_fenced {A : Nat → Prop} (c : Chip) (t i : Nat) (h : A (RegName.CLU_TSTATE t).addr) :
    Fenced A c (c.fenceLane t i) t i (c.tstate t) (c.triad t).rebuild := by
  obtain ⟨_, _, _, x⟩ := c.triad_fenceLane t i
  have off : RegFrame A c (c.voteOff t i) := .sf c _ _ h
  exact ⟨off.trans (.of_eq rfl rfl), tstate_setVote c t _, votes_voteOff c t i, by rw [x], fun hr => by rw [x, hr]; rfl,
    fun hd => by rw [x, hd]; rfl⟩

/-! ### The rebuild of a lane on its own core (R147) -/

theorem startRebuild_fenced (c : Chip) (t i : Nat) (asked : Bool) : Fenced (· = (RegName.CLU_TSTATE t).addr) c
    (c.startRebuild t i asked) t i tRebuild (some { lane := i, swap := false, asked := asked }) := by
  have fenced := (fenceLane_fenced (A := (· = (RegName.CLU_TSTATE t).addr)) c t i rfl).setT (st' := tRebuild)
    (by decide) rfl
  exact ((fenced.setStore (c.coreOf t i) _).updTriad (fun x => { x with
    rebuild := some { lane := i, swap := false, asked := asked } }) rfl rfl rfl).want rfl

theorem startRebuild_lane_other (c : Chip) (t i : Nat) (asked : Bool) {k : Nat} (h : k ≠ 3 * t + i) :
    (c.startRebuild t i asked).lane k = c.lane k := by
  obtain ⟨x, wanted⟩ := ((((c.fenceLane t i).setT t tRebuild).storeRewrite (c.coreOf t i)).updTriad t
    (fun x => { x with rebuild := some { lane := i, swap := false, asked := asked } })).want_eq t .digest
  rw [startRebuild, wanted]
  exact c.fenceLane_lane_other t i h

/-! ### A sluice with nothing to decide -/

theorem pump_of_no_recs {t : Nat} (h : (c.triad t).recs = []) (now n : Nat) : c.pump now t n = c := by
  cases n with
  | zero => rfl
  | succ n => simp [pump, h, decideVote]

theorem digPump_of_no_digs {t : Nat} (h : (c.triad t).digs = []) (now n : Nat) : c.digPump now t n = c := by
  cases n with
  | zero => rfl
  | succ n => simp [digPump, h, decideVote]

theorem sbDrain_eq (c : Chip) (key : Nat) : ∃ x, c.sbDrain key = { c with lanes := x } := by
  unfold sbDrain
  simp only []
  generalize c.lanesOf key = ks
  induction ks using List.reverseRecOn with
  | nil => exact ⟨_, rfl⟩
  | append_singleton ks k ih =>
    obtain ⟨x, h⟩ := ih
    rw [List.foldl_append, h]
    exact ⟨_, rfl⟩

/-- With no record and no digest waiting the sluice decides nothing; the store buffers may give up what it has. -/
theorem resettle_of_empty {t : Nat} (now : Nat) (hr : (c.triad t).recs = []) (hd : (c.triad t).digs = []) :
    ∃ x, c.resettle now t = { c with lanes := x } := by
  unfold resettle
  split
  · exact ⟨_, rfl⟩
  · rw [pump_of_no_recs hr, digPump_of_no_digs hd]
    exact c.sbDrain_eq _

end Chip
end Sys2Proof.Machine
end

section
/-! The commands of `CLU_TCTL` (R131, R153, R156, R163): what a restart, a reset of SPLIT cores and a refusal do. -/
namespace Sys2Proof.Machine
namespace Chip
variable {c d : Chip}

/-! ### Refusals (R163) -/

/-- A command of `CLU_TCTL` is refused: a corrected fault with code 0x0D. -/
theorem refuseTriad_sets (c : Chip) (now : Nat) {t : Nat} (ht : t < 32) :
    (c.refuseTriad now t).stands (t / 4) 0 ∧ (c.refuseTriad now t).gf (.CLU_FSYND t) CLU_FSYND.CODE = 0x0D ∧
      (c.refuseTriad now t).lanes = c.lanes ∧ (c.refuseTriad now t).triads = c.triads ∧
      (c.refuseTriad now t).mem = c.mem := by
  have r := c.triadCorrected_report now ht (code := 0x0D) (by decide)
  exact ⟨r.stands, r.code, r.lanes, c.triadCorrected_triads now t _, r.mem⟩

/-! ### Field lanes that follow their engines again (R335) -/

theorem fieldBack_onlyRegs (c : Chip) {n : Nat} {rs : List RegName} (h : .FLD_STAT n ∈ rs) :
    OnlyRegs c (c.fieldBack n) rs := by
  unfold fieldBack
  simp only []
  split
  · exact .sf c _ _ h
  · exact .refl c rs

theorem fieldsBack_onlyRegs (c : Chip) (t : Nat) : OnlyRegs c (c.fieldsBack t) ((List.range 64).map .FLD_STAT) :=
  .foldl c fun c n hn => by
    split
    · exact c.fieldBack_onlyRegs (List.mem_map_of_mem hn)
    · exact .refl c _

theorem fldStat_ne_tstate (n t : Nat) : (RegName.FLD_STAT n).addr ≠ (RegName.CLU_TSTATE t).addr := by
  simp only [RegName.addr]; omega

theorem rd_fieldsBack_tstate (c : Chip) (t u : Nat) : (c.fieldsBack t).rd (.CLU_TSTATE u) = c.rd (.CLU_TSTATE u) := by
  refine (c.fieldsBack_onlyRegs t).2 _ fun h => ?_
  simp only [List.mem_map, List.mem_range] at h
  obtain ⟨-, ⟨n, -, rfl⟩, h⟩ := h
  exact fldStat_ne_tstate n u h

/-! ### The restart of a whole triad (R152, R153) -/

theorem txDiscard_eq (c : Chip) (key : Nat) : ∃ p, c.txDiscard key = { c with ports := p } := by
  unfold txDiscard
  split
  · exact ⟨_, rfl⟩
  · exact ⟨_, rfl⟩

/-- A lane is halted, reset and given the restart point, and its control store is compared (R152). -/
def giveRestart (x : Triad) (t : Nat) (c : Chip) (i : Nat) : Chip :=
  (c.setLane (3 * t + i) { (x.restart.getD {}).resume t i with replay := x.elog }).storeRewrite (c.coreOf t i)

theorem giveRestart_lane (x : Triad) (t : Nat) (c : Chip) (i : Nat) : (giveRestart x t c i).lane (3 * t + i) =
    { (x.restart.getD {}).resume t i with replay := x.elog } := lane_setLane_same c _ _

theorem giveRestart_lane_other (x : Triad) (t : Nat) (c : Chip) (i k : Nat) (h : k ≠ 3 * t + i) :
    (giveRestart x t c i).lane k = c.lane k := lane_setLane_other c _ _ _ h

/-- The lanes of a triad have the restart point, and none of them votes (R152 steps 1 to 3). -/
def restarted (c : Chip) (t : Nat) : Chip :=
  (([0, 1, 2].foldl (giveRestart (c.triad t) t) c).setVote t []).setT t tRestart

theorem restartTriad_eq (c : Chip) (t : Nat) :
    ∃ y : Triad, c.restartTriad t = ((c.txDiscard (3 * t)).restarted t).setTriad t y ∧ y.restarting = true :=
  ⟨_, rfl, rfl⟩

theorem restarted_lane (c : Chip) (t : Nat) : ∀ i < 3, (c.restarted t).lane (3 * t + i) =
    { ((c.triad t).restart.getD {}).resume t i with replay := (c.triad t).elog } :=
  lane_foldl_three id (fun i _ => { ((c.triad t).restart.getD {}).resume t i with replay := (c.triad t).elog })
    (fun _ => True) (fun _ _ _ => trivial) (fun d i _ => giveRestart_lane _ t d i) (giveRestart_lane_other _ t) trivial

theorem restarted_state (c : Chip) (t : Nat) : (c.restarted t).tstate t = tRestart ∧ (c.restarted t).voting t = [] :=
  ⟨tstate_setT _ t (by decide), (voting_setT _ t _).trans ((voting_setVote _ t []).trans (by simp))⟩

theorem restarted_mem (c : Chip) (t : Nat) : (c.restarted t).mem = c.mem := by
  rw [restarted, setT, setVote, sf_mem, sf_mem]
  exact foldl_mem c _ (fun d i => by rw [giveRestart, storeRewrite, setStore_mem, setLane_mem]) _

theorem restartTriad_sets (c : Chip) (t : Nat) :
    (c.restartTriad t).tstate t = tRestart ∧ (c.restartTriad t).voting t = [] ∧
      ((c.restartTriad t).triad t).restarting = true ∧
      (∀ i < 3, (c.restartTriad t).lane (3 * t + i) =
        { ((c.triad t).restart.getD {}).resume t i with replay := (c.triad t).elog }) ∧
      (c.restartTriad t).mem = c.mem := by
  obtain ⟨y, h, restarting⟩ := c.restartTriad_eq t
  obtain ⟨p, hp⟩ := c.txDiscard_eq (3 * t)
  have triad : (c.txDiscard (3 * t)).triad t = c.triad t := triad_of_triads_eq (by rw [hp]) t
  obtain ⟨state, voting⟩ := (c.txDiscard (3 * t)).restarted_state t
  have lanes := (c.txDiscard (3 * t)).restarted_lane t
  have mem : ((c.txDiscard (3 * t)).restarted t).mem = c.mem := (restarted_mem _ t).trans (by rw [hp])
  rw [triad] at lanes
  rw [h, triad_setTriad_same]
  exact ⟨state, voting, restarting, lanes, mem⟩

/-! ### The reset of SPLIT cores (R131) -/

theorem prtCfg_ne_tstate (p t : Nat) : (RegName.PRT_CFG p).addr ≠ (RegName.CLU_TSTATE t).addr := by
  simp only [RegName.addr]; omega

theorem tcfg_ne_tstate (t u : Nat) : (RegName.CLU_TCFG t).addr ≠ (RegName.CLU_TSTATE u).addr := by
  simp only [RegName.addr]; omega

theorem prtMgr_ne_tstate (t : Nat) : RegName.PRT_MGR.addr ≠ (RegName.CLU_TSTATE t).addr := by
  simp only [RegName.addr]; omega

/-- The entry point of a triad's cores does not depend on the state of the triad. -/
theorem entryArchOf_congr {t : Nat} (h : ∀ q : RegName, q.addr ≠ (RegName.CLU_TSTATE t).addr → d.rd q = c.rd q)
    (hp : d.parts = c.parts) : d.entryArchOf t = c.entryArchOf t := by
  have field : ∀ q : RegName, q.addr ≠ (RegName.CLU_TSTATE t).addr →
      ∀ f, d.gb q f = c.gb q f ∧ d.gf q f = c.gf q f :=
    fun q hq f => by rw [gb, gf_eq, h q hq, ← gf_eq, ← gb]; exact ⟨rfl, rfl⟩
  have holder : d.partOf t = c.partOf t := by
    unfold partOf
    congr 1
    funext p
    rw [(field _ (prtCfg_ne_tstate p t) _).1, (field _ (prtCfg_ne_tstate p t) _).2]
  unfold entryArchOf isMgrPart split part
  simp only [holder, hp, (field _ (prtMgr_ne_tstate t) _).1, (field _ (tcfg_ne_tstate t t) _).1]

/-- A SPLIT core reset: its transaction is discarded, and it starts at the entry point (R131). -/
def resetCore (t : Nat) (c : Chip) (i : Nat) : Chip := (c.txDiscard (3 * t + i)).startCore t i true

theorem resetCore_lane (c : Chip) (t i : Nat) : ∃ dead, (resetCore t c i).lane (3 * t + i) =
    { arch := c.entryArchOf t, halted := dead, retired := (c.lane (3 * t + i)).retired
      storeSeq := (c.lane (3 * t + i)).storeSeq } := by
  obtain ⟨p, h⟩ := c.txDiscard_eq (3 * t + i)
  unfold resetCore
  rw [h]
  exact ⟨_, lane_setLane_same _ _ _⟩

theorem resetCore_lane_other (c : Chip) (t i : Nat) {k : Nat} (hk : k ≠ 3 * t + i) :
    (resetCore t c i).lane k = c.lane k := by
  obtain ⟨p, h⟩ := c.txDiscard_eq (3 * t + i)
  unfold resetCore
  rw [h]
  exact lane_setLane_other _ _ _ _ hk

theorem resetCore_frame (c : Chip) (t i : Nat) :
    (resetCore t c i).mem = c.mem ∧ (resetCore t c i).regs = c.regs ∧ (resetCore t c i).parts = c.parts := by
  obtain ⟨p, h⟩ := c.txDiscard_eq (3 * t + i)
  unfold resetCore
  rw [h]
  exact ⟨rfl, rfl, rfl⟩

/-- The three cores of a SPLIT triad reset, one after the other. -/
def resetCores (c : Chip) (t : Nat) : Chip :=
  [0, 1, 2].foldl (resetCore t) ((c.setT t tSplit).updTriad t (fun x => { x with braked := false }))

theorem resetCores_sets (c : Chip) (t : Nat) :
    (c.resetCores t).tstate t = tSplit ∧
      (∀ i < 3, ((c.resetCores t).lane (3 * t + i)).arch = c.entryArchOf t ∧ ((c.resetCores t).lane (3 * t + i)).sb = []) ∧
      (c.resetCores t).mem = c.mem := by
  let c₁ := (c.setT t tSplit).updTriad t (fun x => { x with braked := false })
  have entry : c₁.entryArchOf t = c.entryArchOf t := entryArchOf_congr (fun q hq => c.rd_sf_other _ _ hq) rfl
  have same : ∀ d i, d.regs = c₁.regs ∧ d.parts = c₁.parts →
      (resetCore t d i).regs = c₁.regs ∧ (resetCore t d i).parts = c₁.parts :=
    fun d i h => by
      obtain ⟨-, regs, parts⟩ := d.resetCore_frame t i
      exact ⟨regs.trans h.1, parts.trans h.2⟩
  have lanes := lane_foldl_three (fun l => (l.arch, l.sb)) (fun _ _ => (c.entryArchOf t, [])) (f := resetCore t) (t := t)
    (fun d => d.regs = c₁.regs ∧ d.parts = c₁.parts) same (fun d i h => by
      obtain ⟨dead, lane⟩ := d.resetCore_lane t i
      rw [lane, entryArchOf_congr (fun q _ => rd_of_regs_eq h.1 q) h.2, entry])
    (fun d i k hk => d.resetCore_lane_other t i hk) (c := c₁) ⟨rfl, rfl⟩
  have regs : (c.resetCores t).regs = c₁.regs := (same _ 2 (same _ 1 (same c₁ 0 ⟨rfl, rfl⟩))).1
  refine ⟨(tstate_congr (rd_of_regs_eq regs _)).trans (tstate_setT c t (by decide)), fun i hi => ?_,
    foldl_mem c₁ _ (fun d i => (d.resetCore_frame t i).1) _⟩
  exact Prod.mk.inj (lanes i hi)

/-! ### `CLU_TCTL.RESET` and `CLU_TCTL.REBUILD` -/

theorem resetTriad_of_covered {t : Nat} (now : Nat) (one : Option Nat) (h : c.covered t = true) :
    c.resetTriad now t one = c.refuseTriad now t := by simp [resetTriad, h]

theorem resetTriad_of_idle {t : Nat} (now : Nat) (hc : c.covered t = false) (hs : c.split t = false)
    (hi : c.tstate t = tIdle) :
    c.resetTriad now t none = c.refuseTriad now t := by simp [resetTriad, hc, hs, hi]

theorem resetTriad_of_triad {t : Nat} (now : Nat) (hc : c.covered t = false) (hs : c.split t = false)
    (hi : c.tstate t ≠ tIdle) (hu : c.tstate t ≠ tUnavailable) : c.resetTriad now t none =
      if (c.triad t).braked then (c.restartTriad t).fieldsBack t else c.restartTriad t := by
  simp [resetTriad, hc, hs, hi, hu]

theorem resetTriad_of_split {t : Nat} (now : Nat) (hc : c.covered t = false) (hs : c.split t = true)
    (hr : c.splitRuns t = true) : c.resetTriad now t none =
      if ((c.refuseTriad now t).triad t).braked then (c.resetCores t).fieldsBack t else c.resetCores t := by
  simp only [resetTriad, hc, hs, hr, Bool.false_eq_true, if_false, if_true, Bool.not_true]
  rfl

theorem resetTriad_one {t i : Nat} (now : Nat) (hc : c.covered t = false) (hs : c.split t = true) (hr : c.splitRuns t = true)
    (hi : i < 3) : c.resetTriad now t (some i) = resetCore t c i := by
  simp [resetTriad, hc, hs, hr, resetCore, hi.ne]

theorem resetTriad_one_refused {t i : Nat} (now : Nat) (hc : c.covered t = false) (h : c.split t = false ∨ i = 3) :
    c.resetTriad now t (some i) = c.refuseTriad now t := by
  simp only [resetTriad, hc, Bool.false_eq_true, if_false]
  rcases h with h | h
  · simp [h]
  · simp [h]

/-- What the field lanes do when a brake ends is of no concern to the triad. -/
theorem fieldsBack_keeps (c : Chip) (t u : Nat) :
    (c.fieldsBack t).tstate u = c.tstate u ∧ (c.fieldsBack t).voting u = c.voting u ∧
    (c.fieldsBack t).triads = c.triads ∧ (c.fieldsBack t).lanes = c.lanes ∧ (c.fieldsBack t).mem = c.mem := by
  have rd := c.rd_fieldsBack_tstate t u
  obtain ⟨only, -⟩ := c.fieldsBack_onlyRegs t
  exact ⟨tstate_congr rd, voting_congr rd, by rw [only], by rw [only], by rw [only]⟩

end Chip

variable {s : State} {ag : Agent} {t : Fin 32}

/-! ### The commands -/

theorem exec_triadReset (h : s.chip.tctlOk ag t = true) :
    exec (.triadReset ag t) s = .next { s with chip := s.chip.resetTriad s.now.toNat t none } := by
  change execTriadReset ag t s = _
  simp [execTriadReset, State.act, h]

theorem exec_splitCoreReset (h : s.chip.tctlOk ag t = true) (pos : BitVec 2) : exec (.splitCoreReset ag t pos) s =
    .next { s with chip := s.chip.resetTriad s.now.toNat t (some pos.toNat) } := by
  change execSplitCoreReset ag t pos s = _
  simp [execSplitCoreReset, State.act, h]

theorem exec_triadRebuild (h : s.chip.tctlOk ag t = true) (pos : BitVec 2) : exec (.triadRebuild ag t pos) s =
    .next { s with chip := s.chip.rebuildCmd s.now.toNat t pos.toNat } := by
  change execTriadRebuild ag t pos s = _
  simp [execTriadRebuild, State.act, h]

theorem exec_slurun (h : s.chip.tctlOk ag t = true) :
    exec (.slurun ag t) s = .next { s with chip := s.chip.sluCmd t } := by
  change execSlurun ag t s = _
  simp [execSlurun, State.act, h]

theorem exec_tctl_of_not_ok (h : s.chip.tctlOk ag t = false) (pos : BitVec 2) :
    ∀ i ∈ [Instr.triadReset ag t, .splitCoreReset ag t pos, .triadRebuild ag t pos, .slurun ag t], exec i s = .next s := by
  simp only [List.forall_mem_cons]
  refine ⟨?_, ?_, ?_, ?_, by simp⟩
  · change execTriadReset ag t s = _
    simp [execTriadReset, State.act, h]
  · change execSplitCoreReset ag t pos s = _
    simp [execSplitCoreReset, State.act, h]
  · change execTriadRebuild ag t pos s = _
    simp [execTriadRebuild, State.act, h]
  · change execSlurun ag t s = _
    simp [execSlurun, State.act, h]

theorem exec_sluiceTestPeriod (ho : s.chip.off = false) (hp : s.chip.gf (.CLU_TCFG t) CLU_TCFG.SLUPER ≠ 0)
    (hd : (s.chip.triad t).sluAt + 10000000 * s.chip.gf (.CLU_TCFG t) CLU_TCFG.SLUPER ≤ s.now.toNat) :
    exec (.sluiceTestPeriod t) s =
      .next { s with chip := s.chip.updTriad t (fun x => { x with sluReq := true, sluAt := s.now.toNat }) } := by
  change execSluiceTestPeriod t s = _
  simp [execSluiceTestPeriod, State.act, ho, hp, hd]

theorem exec_sluiceTestPeriod_of_zero (hp : s.chip.gf (.CLU_TCFG t) CLU_TCFG.SLUPER = 0) :
    exec (.sluiceTestPeriod t) s = .next s := by
  change execSluiceTestPeriod t s = _
  simp [execSluiceTestPeriod, State.act, hp]

theorem toNat_pos_eq_three_iff (pos : BitVec 2) : pos.toNat = 3 ↔ pos = 3 := by bv_omega

end Sys2Proof.Machine

open Sys2Proof Sys2Proof.Machine

/-- Settles O23: each command answers the chip that its law above names; field lanes that a reset frees are no part of the
triad. -/
theorem triadCommands : Obligations.TriadCommands := by
  unfold Obligations.TriadCommands
  intro s ag t pos c x refused
  let now := s.now.toNat
  have ht : t.val < 32 := t.isLt
  have refused_of : ∀ i : Instr, exec i s = .next { s with chip := c.refuseTriad now t } → refused i :=
    fun i he => ⟨_, he, c.refuseTriad_sets now ht⟩
  refine ⟨fun h => exec_tctl_of_not_ok h pos, fun ok => ⟨fun hc => ⟨?covered, ?coveredCore⟩, fun hc hs hi => ?idle,
    fun hc hs hi hu => ?restart, fun hc hs hr => ?cores, fun hc hs hr hp => ?core, fun hc h => ?noCore, fun hs hp => ?rebuild,
    fun h => ?noRebuild, ?test⟩, fun ho hp hd => ?period, exec_sluiceTestPeriod_of_zero⟩
  case covered => exact refused_of _ (by rw [exec_triadReset ok, Chip.resetTriad_of_covered now none hc])
  case coveredCore => exact refused_of _ (by rw [exec_splitCoreReset ok, Chip.resetTriad_of_covered now _ hc])
  case idle => exact refused_of _ (by rw [exec_triadReset ok, Chip.resetTriad_of_idle now hc hs hi])
  case noCore =>
    exact refused_of _ (by
      rw [exec_splitCoreReset ok, Chip.resetTriad_one_refused now hc (h.imp_right (toNat_pos_eq_three_iff pos).2)])
  case restart =>
    obtain ⟨state, voting, restarting, lanes, mem⟩ := c.restartTriad_sets t
    refine ⟨_, (exec_triadReset ok).trans (by rw [Chip.resetTriad_of_triad now hc hs hi hu]), ?_⟩
    split
    · obtain ⟨kState, kVoting, kTriads, kLanes, kMem⟩ := (c.restartTriad t).fieldsBack_keeps t t
      have lane : ∀ k, ((c.restartTriad t).fieldsBack t).lane k = (c.restartTriad t).lane k := fun k => by
        rw [Chip.lane, kLanes, ← Chip.lane]
      exact ⟨kState.trans state, kVoting.trans voting, by rw [Chip.triad_of_triads_eq kTriads, restarting],
        fun i hi => by rw [lane, lanes i hi]; exact ⟨rfl, rfl, rfl⟩, kMem.trans mem⟩
    · exact ⟨state, voting, restarting, fun i hi => by rw [lanes i hi]; exact ⟨rfl, rfl, rfl⟩, mem⟩
  case cores =>
    obtain ⟨state, lanes, mem⟩ := c.resetCores_sets t
    refine ⟨_, (exec_triadReset ok).trans (by rw [Chip.resetTriad_of_split now hc hs hr]), ?_⟩
    split
    · obtain ⟨kState, -, -, kLanes, kMem⟩ := (c.resetCores t).fieldsBack_keeps t t
      have lane : ∀ k, ((c.resetCores t).fieldsBack t).lane k = (c.resetCores t).lane k := fun k => by
        rw [Chip.lane, kLanes, ← Chip.lane]
      exact ⟨kState.trans state, fun i hi => by rw [lane]; exact lanes i hi, kMem.trans mem⟩
    · exact ⟨state, lanes, mem⟩
  case core =>
    obtain ⟨mem, regs, -⟩ := c.resetCore_frame t pos.toNat
    obtain ⟨dead, lane⟩ := c.resetCore_lane t pos.toNat
    exact ⟨_, (exec_splitCoreReset ok pos).trans (by rw [Chip.resetTriad_one now hc hs hr hp]), by rw [lane], by rw [lane],
      fun k hk => c.resetCore_lane_other t _ hk, regs, mem⟩
  case rebuild =>
    have running : ¬ (c.tstate t ≠ tVoting ∨ pos.toNat = 3) := by
      rw [toNat_pos_eq_three_iff]
      exact not_or.2 ⟨not_not.2 hs, hp⟩
    have fenced := c.startRebuild_fenced t pos.toNat true
    exact ⟨_, (exec_triadRebuild ok pos).trans (by rw [Chip.rebuildCmd, if_neg running]), fenced.state, fenced.votes,
      fenced.rebuild, fun k hk => c.startRebuild_lane_other t _ _ hk, fenced.mem⟩
  case noRebuild =>
    exact refused_of _ ((exec_triadRebuild ok pos).trans (by
      rw [Chip.rebuildCmd, if_pos (h.imp_right (toNat_pos_eq_three_iff pos).2)]))
  case test =>
    exact ⟨_, exec_slurun ok, congrArg Triad.sluReq (c.triad_setTriad_same t _), rfl, .refl c⟩
  case period =>
    exact ⟨_, exec_sluiceTestPeriod ho hp hd, congrArg Triad.sluReq (c.triad_setTriad_same t _),
      congrArg Triad.sluAt (c.triad_setTriad_same t _), rfl, .refl c⟩
end

section
/-! Store records at the sluice (R130, R133, R134, R151, R271): a decision, what a decided store does, a minority verdict. -/
namespace Sys2Proof.Machine

/-! ### Votes (R133) -/

section
variable {α : Type} [DecidableEq α]

/-- One record decides nothing. -/
theorem decideVote_single (n : Nat) (e : Nat × α) : decideVote n [e] = .wait := by simp [decideVote]

/-- Two equal records of two lanes decide, with no lane in the minority. -/
theorem decideVote_pair (n : Nat) {j i : Nat} (h : j ≠ i) (v : α) : decideVote n [(j, v), (i, v)] = .agree v [] := by
  simp [decideVote, h.symm]

end

namespace Chip
variable {c d : Chip} {t : Nat}

theorem pump_of_single {e : Nat × VRec} (h : (c.triad t).recs = [e]) (now n : Nat) : c.pump now t n = c := by
  cases n with
  | zero => rfl
  | succ n =>
    have waits : decideVote (c.voting t).length
        ((c.triad t).recs.filter (fun e => e.2.seq == (c.triad t).fwdSeq && c.votes t e.1)) = .wait := by
      simp only [h, List.filter_cons, List.filter_nil]
      split
      · exact decideVote_single _ e
      · simp [decideVote]
    simp [pump, waits]

/-- The second equal record of a point is forwarded, and the sluice goes on to the next (R133). -/
theorem pump_of_pair {j i : Nat} {v : VRec} (live : c.live t = true) (hr : (c.triad t).recs = [(j, v), (i, v)])
    (hj : c.votes t j = true) (hi : c.votes t i = true) (hij : j ≠ i) (hs : v.seq = (c.triad t).fwdSeq)
    (hh : c.holds t v = false) (now n : Nat) : ∃ fwd, c.pump now t (n + 1) =
      ((c.setTriad t { c.triad t with recs := [], fwdSeq := (c.triad t).fwdSeq + 1, fwd := fwd }).forward now t v
        ).pump now t n := by
  have agrees : decideVote (c.voting t).length
      ((c.triad t).recs.filter (fun e => e.2.seq == (c.triad t).fwdSeq && c.votes t e.1)) = .agree v [] := by
    rw [hr, ← hs]
    simp only [List.filter_cons, List.filter_nil, hj, hi, beq_self_eq_true, Bool.and_self, if_true]
    exact decideVote_pair _ hij v
  have decided : (c.triad t).recs.filter (fun e => e.2.seq != (c.triad t).fwdSeq) = [] := by simp [hr, hs]
  rw [pump]
  simp only [live, Bool.not_true, Bool.false_eq_true, if_false, agrees, hh, decided]
  exact ⟨_, rfl⟩

theorem resettle_of_single {e : Nat × VRec} (now : Nat) (hr : (c.triad t).recs = [e]) (hd : (c.triad t).digs = []) :
    ∃ x, c.resettle now t = { c with lanes := x } := by
  unfold resettle
  split
  · exact ⟨_, rfl⟩
  · rw [pump_of_single hr, digPump_of_no_digs hd]
    exact c.sbDrain_eq _

/-! ### A decided store (R134, R151, R236, R271) -/

theorem forward_store {r : StoreRec} (now : Nat) (hl : (c.triad t).slogLeft = []) (hd : (c.port (3 * t)).dropTo ≤ r.seq) :
    c.forward now t (.store r) =
      if r.txn then c.sendStore now (3 * t) r else (c.sendStore now (3 * t) r).logStore t r := by
  simp [forward, hl, Nat.not_lt.2 hd]

theorem sendStore_memory {k : Nat} {r : StoreRec} (now : Nat) (ht : r.txn = false) (hd : r.dev = false)
    (ho : (c.port k).outq = []) : c.sendStore now k r = c.setPort k { c.port k with outq := [r] } := by
  simp [sendStore, ht, updPort_eq, issueDev, ho, hd]

/-- A device-typed store at the head of the requester's stores is issued at once (R236, R237). -/
theorem sendStore_device {k : Nat} {r : StoreRec} (now : Nat) (ht : r.txn = false) (hd : r.dev = true)
    (ho : (c.port k).outq = []) (hl : (c.port k).devOut.length < 8) : c.sendStore now k r = c.setPort k
      { c.port k with outq := [], devOut := (c.port k).devOut ++ [⟨r.seq, r.addr, r.data, now⟩] } := by
  simp [sendStore, ht, updPort_eq, issueDev, ho, hd, hl]

/-- What is sent of a store outside a transaction by a requester with nothing else to send. -/
theorem sendStore_plain {k : Nat} {r : StoreRec} (now : Nat) (ht : r.txn = false) (ho : (c.port k).outq = [])
    (hl : (c.port k).devOut.length < 8) : ∃ p : Port, c.sendStore now k r = c.setPort k p ∧
      (r.dev = false → p.outq = [r] ∧ p.devOut = (c.port k).devOut) ∧
      (r.dev = true → p.outq = [] ∧ p.devOut = (c.port k).devOut ++ [⟨r.seq, r.addr, r.data, now⟩]) := by
  cases hd : r.dev
  · exact ⟨_, sendStore_memory now ht hd ho, fun _ => ⟨rfl, rfl⟩, fun h => absurd h Bool.false_ne_true⟩
  · exact ⟨_, sendStore_device now ht hd ho hl, fun h => absurd h.symm Bool.false_ne_true, fun _ => ⟨rfl, rfl⟩⟩

theorem sendStore_txn {k : Nat} {r : StoreRec} (now : Nat) (ht : r.txn = true) (he : (c.port k).tx.ended = false)
    (hf : (c.port k).tx.first ≤ r.seq) : c.sendStore now k r = c.setPort k { c.port k with
      tx := { (c.port k).tx with wset := mergeStore (c.port k).tx.wset r, recs := (c.port k).tx.recs ++ [r] } } := by
  simp [sendStore, ht, mergeTx, updPort_eq, he, Nat.not_lt.2 hf]

theorem setBytes_eq (c : Chip) (a : Nat) (l : List Byte) :
    ∃ m, c.setBytes a l = { c with mem := m } ∧ ∀ b < a, (c.setBytes a l).byte b = c.byte b := by
  induction l generalizing c a with
  | nil => exact ⟨_, rfl, fun _ _ => rfl⟩
  | cons v r ih =>
    obtain ⟨m, h, low⟩ := ih (c.setByte a v) (a + 1)
    exact ⟨m, h, fun b hb => (low b (by omega)).trans (c.byte_setByte_other v hb.ne)⟩

/-- Memory and its check bits alone have changed, and no byte below the journal store. -/
def AboveMemory (c d : Chip) : Prop := ∃ m e, d = { c with mem := m, ecc := e } ∧ ∀ a < journalBase, d.byte a = c.byte a

theorem AboveMemory.trans {e : Chip} (h : AboveMemory c d) (k : AboveMemory d e) : AboveMemory c e := by
  obtain ⟨_, _, rfl, low⟩ := h
  obtain ⟨_, _, rfl, low'⟩ := k
  exact ⟨_, _, rfl, fun a ha => (low' a ha).trans (low a ha)⟩

theorem storeWord_aboveMemory (c : Chip) {a : Nat} (h : journalBase ≤ a / 8 * 8) (w : DWord) :
    AboveMemory c (c.storeWord a w) := by
  obtain ⟨m, set, low⟩ := c.setBytes_eq (a / 8 * 8) (bytesLE 8 w.toNat)
  refine ⟨m, _, by rw [storeWord, set]; rfl, fun b hb => ?_⟩
  rw [storeWord, byte_setFlips, low b (hb.trans_le h)]

/-- A log at its limit asks for a digest and shows that it is full (R151). -/
theorem logLimit_cases (c : Chip) (t : Nat) : c.logLimit t = c ∨
    c.logLimit t = (c.sf (.CLU_TSTATE t) CLU_TSTATE.LOGFULL 1).want t .digest := by
  unfold logLimit
  simp only []
  split
  · split
    · exact .inl rfl
    · exact .inr rfl
  · exact .inl rfl

/-- The records of the triad, its rounds apart, its state and the requesters are as before, but for the log. -/
structure Logged (c d : Chip) (t : Nat) (r : StoreRec) : Prop where
  triad : RoundsOnly { c.triad t with slog := (c.triad t).slog ++ [r] } (d.triad t)
  state : d.tstate t = c.tstate t
  ports : d.ports = c.ports
  low : ∀ a < journalBase, d.byte a = c.byte a

theorem Logged.limit {r : StoreRec} (h : Logged c d t r) : Logged c (d.logLimit t) t r := by
  rcases d.logLimit_cases t with e | e
  · rw [e]; exact h
  · obtain ⟨x, wanted⟩ := (d.sf (.CLU_TSTATE t) CLU_TSTATE.LOGFULL 1).want_eq t .digest
    obtain ⟨_, asked⟩ := (d.sf (.CLU_TSTATE t) CLU_TSTATE.LOGFULL 1).triad_want_own t (w := .digest) rfl
    have state : (d.sf (.CLU_TSTATE t) CLU_TSTATE.LOGFULL 1).tstate t = d.tstate t :=
      gf_sf_field _ _ _ _ _ (by decide) (by decide) (by decide)
    refine ⟨h.triad.trans ⟨_, _, _, by rw [e, asked]; rfl⟩, ?_, ?_, fun a ha => ?_⟩
    · rw [e, wanted]; exact state.trans h.state
    · rw [e, wanted]; exact h.ports
    · rw [e, wanted]; exact h.low a ha

theorem AboveMemory.logged (h : AboveMemory c d) (t : Nat) (r : StoreRec) :
    Logged c ((d.updTriad t (fun x => { x with slog := x.slog ++ [r] })).logLimit t) t r := by
  obtain ⟨_, _, rfl, low⟩ := h
  refine Logged.limit ⟨?_, rfl, rfl, low⟩
  rw [updTriad_eq, triad_setTriad_same]
  exact .refl _

/-- A forwarded store enters the restart log, and the journal store above memory (R151, R271). -/
theorem logStore_logged (c : Chip) (t : Nat) (r : StoreRec) : Logged c (c.logStore t r) t r := by
  have base : journalBase ≤ (logArea t + 32 * ((c.triad t).slog.length % 64)) / 8 * 8 := by
    simp only [logArea, journalBase]; omega
  exact (((c.storeWord_aboveMemory base _).trans (storeWord_aboveMemory _ (by omega) _)).trans
    (storeWord_aboveMemory _ (by omega) _)).logged t r

theorem forward_plain {r : StoreRec} (now : Nat) (hl : (c.triad t).slogLeft = []) (hd : (c.port (3 * t)).dropTo ≤ r.seq)
    (ht : r.txn = false) (ho : (c.port (3 * t)).outq = []) (room : (c.port (3 * t)).devOut.length < 8) :
    ∃ p : Port, Logged (c.setPort (3 * t) p) (c.forward now t (.store r)) t r ∧
      (r.dev = false → p.outq = [r] ∧ p.devOut = (c.port (3 * t)).devOut) ∧
      (r.dev = true → p.outq = [] ∧ p.devOut = (c.port (3 * t)).devOut ++ [⟨r.seq, r.addr, r.data, now⟩]) := by
  obtain ⟨p, sent, memory, device⟩ := sendStore_plain now ht ho room
  refine ⟨p, ?_, memory, device⟩
  rw [forward_store now hl hd, ht, if_neg Bool.false_ne_true, sent]
  exact logStore_logged _ t r

theorem forward_txn {r : StoreRec} (now : Nat) (hl : (c.triad t).slogLeft = []) (hd : (c.port (3 * t)).dropTo ≤ r.seq)
    (ht : r.txn = true) (he : (c.port (3 * t)).tx.ended = false) (hf : (c.port (3 * t)).tx.first ≤ r.seq) :
    ∃ p : Port, c.forward now t (.store r) = c.setPort (3 * t) p ∧ p.outq = (c.port (3 * t)).outq ∧
      p.tx.wset = mergeStore (c.port (3 * t)).tx.wset r :=
  ⟨_, (forward_store now hl hd).trans ((if_pos ht).trans (sendStore_txn now ht he hf)), rfl, rfl⟩

/-- The second equal store record: the sluice decides it, forwards it and has nothing more to decide. -/
theorem resettle_of_pair {j i : Nat} {r : StoreRec} (now : Nat) (hs : c.split t = false) (live : c.live t = true)
    (hr : (c.triad t).recs = [(j, .store r), (i, .store r)]) (hd : (c.triad t).digs = []) (hj : c.votes t j = true)
    (hi : c.votes t i = true) (hij : j ≠ i) (hq : r.seq = (c.triad t).fwdSeq) (hh : c.holds t (.store r) = false)
    (kept : ∀ y : Triad, y.slogLeft = (c.triad t).slogLeft → y.digs = [] → y.recs = [] →
      (((c.setTriad t y).forward now t (.store r)).triad t).recs = [] ∧
        (((c.setTriad t y).forward now t (.store r)).triad t).digs = []) :
    ∃ fwd x, c.resettle now t = { (c.setTriad t { c.triad t with
      recs := [], fwdSeq := r.seq + 1, fwd := fwd }).forward now t (.store r) with
      lanes := x } := by
  obtain ⟨fwd, decided⟩ := pump_of_pair live hr hj hi hij hq hh now 69
  obtain ⟨recs, digs⟩ := kept { c.triad t with recs := [], fwdSeq := (c.triad t).fwdSeq + 1, fwd := fwd } rfl hd rfl
  refine ⟨fwd, ?_⟩
  rw [resettle, hs, if_neg Bool.false_ne_true, decided, pump_of_no_recs recs, digPump_of_no_digs digs, hq]
  exact sbDrain_eq _ _

/-! ### A record delivered (R133, R134, R141) -/

theorem delivered_eq (c : Chip) (now t i : Nat) (f : Triad → Triad) :
    ∃ m, c.delivered now t i f = c.setTriad t { f (c.triad t) with lastRec := m } := by
  unfold delivered
  simp only [updTriad_eq, triad_setTriad_same, setTriad_setTriad]
  exact ⟨_, rfl⟩

/-- A record that the sluice has not decided waits for its equals. -/
theorem deliver_new {i : Nat} {v : VRec} (now : Nat) (h : (c.triad t).fwdSeq ≤ v.seq) : ∃ m n, c.deliver now t i v =
    c.setTriad t { c.triad t with lastRec := m, nextSeq := n, recs := (c.triad t).recs ++ [(i, v)] } := by
  obtain ⟨m, noted⟩ := c.delivered_eq now t i (fun x => { x with nextSeq := x.nextSeq.set i (v.seq + 1) })
  unfold deliver
  simp only [noted, if_neg (Nat.not_lt.2 h), updTriad_eq, triad_setTriad_same, setTriad_setTriad]
  exact ⟨m, _, rfl⟩

/-- A record that differs from the decided one of its point is a minority verdict (R133). -/
theorem deliver_late {i : Nat} {v w : VRec} (now : Nat) (h : v.seq < (c.triad t).fwdSeq)
    (hw : (c.triad t).fwd.find? (fun u => u.seq == v.seq) = some w) (hne : w ≠ v) : ∃ m n, c.deliver now t i v =
      (c.setTriad t { c.triad t with lastRec := m, nextSeq := n }).minority now t i v.kind v.seq := by
  obtain ⟨m, noted⟩ := c.delivered_eq now t i (fun x => { x with nextSeq := x.nextSeq.set i (v.seq + 1) })
  unfold deliver
  simp only [noted, if_pos h, hw, if_neg hne]
  exact ⟨m, _, rfl⟩

/-- The first record of a point waits (R133). -/
theorem deliver_first {i : Nat} {r : StoreRec} (now : Nat) (hr : (c.triad t).recs = []) (hd : (c.triad t).digs = [])
    (hq : r.seq = (c.triad t).fwdSeq) : ∃ m n x, (c.deliver now t i (.store r)).resettle now t =
      { c.setTriad t { c.triad t with lastRec := m, nextSeq := n, recs := [(i, .store r)] } with lanes := x } := by
  obtain ⟨m, n, new⟩ := c.deliver_new (t := t) (i := i) (v := .store r) now hq.ge
  rw [hr] at new
  obtain ⟨x, idle⟩ := resettle_of_single (c := c.setTriad t { c.triad t with
    lastRec := m, nextSeq := n, recs := [(i, .store r)] }) (t := t) (e := (i, .store r)) now
    (by rw [triad_setTriad_same]) (by rw [triad_setTriad_same, hd])
  exact ⟨m, n, x, by rw [new]; exact idle⟩

/-- The second equal record of a point decides it: the store is forwarded, and the next point is awaited (R133). -/
theorem deliver_second {j i : Nat} {r : StoreRec} (now : Nat) (hs : c.split t = false) (live : c.live t = true)
    (hr : (c.triad t).recs = [(j, .store r)]) (hd : (c.triad t).digs = []) (hj : c.votes t j = true)
    (hi : c.votes t i = true) (hij : j ≠ i) (hq : r.seq = (c.triad t).fwdSeq)
    (hh : r.txn = true ∨ c.gb (.CLU_TSTATE t) CLU_TSTATE.LOGFULL = false)
    (kept : ∀ y : Triad, y.slogLeft = (c.triad t).slogLeft → y.digs = [] → y.recs = [] →
      (((c.setTriad t y).forward now t (.store r)).triad t).recs = [] ∧
        (((c.setTriad t y).forward now t (.store r)).triad t).digs = []) :
    ∃ m n fwd x, (c.deliver now t i (.store r)).resettle now t = { (c.setTriad t { c.triad t with
      lastRec := m, nextSeq := n, recs := [], fwdSeq := r.seq + 1, fwd := fwd }).forward now t (.store r) with
      lanes := x } := by
  obtain ⟨m, n, new⟩ := c.deliver_new (t := t) (i := i) (v := .store r) now hq.ge
  rw [hr] at new
  let d := c.setTriad t { c.triad t with lastRec := m, nextSeq := n, recs := [(j, .store r), (i, .store r)] }
  have triad : d.triad t = { c.triad t with lastRec := m, nextSeq := n, recs := [(j, .store r), (i, .store r)] } :=
    triad_setTriad_same _ _ _
  have free : d.holds t (.store r) = false := by
    have full : d.gb (.CLU_TSTATE t) CLU_TSTATE.LOGFULL = c.gb (.CLU_TSTATE t) CLU_TSTATE.LOGFULL := gb_setTriad _ _ _ _ _
    rw [holds, full]
    rcases hh with hh | hh
    · simp [hh]
    · simp [hh]
  obtain ⟨fwd, x, decided⟩ := resettle_of_pair (c := d) (t := t) (j := j) (i := i) (r := r) now hs live (by rw [triad])
    (by rw [triad, hd]) hj hi hij (by rw [triad, hq]) free (fun y hl h₁ h₂ => by
      rw [setTriad_setTriad]
      exact kept y (by rw [hl, triad]) h₁ h₂)
  rw [triad, setTriad_setTriad] at decided
  exact ⟨m, n, fwd, x, by rw [new]; exact decided⟩

/-! ### A minority verdict (R133, R146) -/

/-- The registers that count and show a verdict. -/
abbrev VerdictAddr (t a : Nat) : Prop := a = (RegName.CLU_TCOUNT t).addr ∨ a = (RegName.CLU_TSYND t).addr

theorem tsynd_frame (c : Chip) (t kind point : Nat) (minor : List Nat) :
    RegFrame (· = (RegName.CLU_TSYND t).addr) c (c.tsynd t kind point minor) := by
  have put : ∀ (c : Chip) (f : Fld) (n : Nat), RegFrame (· = (RegName.CLU_TSYND t).addr) c (c.sf (.CLU_TSYND t) f n) :=
    fun c f n => .sf c f n rfl
  exact (((put _ _ _).trans (put _ _ _)).trans (put _ _ _)).trans (put _ _ _)

theorem tsynd_triads (c : Chip) (t kind point : Nat) (minor : List Nat) :
    (c.tsynd t kind point minor).triads = c.triads := by
  simp only [tsynd, sf_triads]

/-- A verdict against lane `i` is counted and shown, in the registers and in the mill book. -/
def noteVerdict (c : Chip) (t i kind point : Nat) : Chip :=
  let c := (c.inc (.CLU_TCOUNT t) CLU_TCOUNT.MISMATCH).tsynd t kind point [i]
  c.bookInc (0x200 + 16 * c.coreOf t i)

theorem noteVerdict_frame (c : Chip) (t i kind point : Nat) : RegFrame (VerdictAddr t) c (c.noteVerdict t i kind point) := by
  have counted : RegFrame (VerdictAddr t) c (c.inc (.CLU_TCOUNT t) CLU_TCOUNT.MISMATCH) := .sf c _ _ (.inl rfl)
  have shown := (tsynd_frame (c.inc (.CLU_TCOUNT t) CLU_TCOUNT.MISMATCH) t kind point [i]).mono
    (B := VerdictAddr t) fun _ => .inr
  rw [noteVerdict]
  exact (counted.trans shown).trans (UnitFrame.bookInc _ _).toRegFrame

theorem noteVerdict_triads (c : Chip) (t i kind point : Nat) : (c.noteVerdict t i kind point).triads = c.triads := by
  simp only [noteVerdict, bookInc_triads, tsynd_triads, inc, sf_triads]

theorem tcount_ne_tsynd (t : Nat) : (RegName.CLU_TCOUNT t).addr ≠ (RegName.CLU_TSYND t).addr := by
  simp only [RegName.addr]; omega

theorem noteVerdict_mismatch (c : Chip) (t i kind point : Nat) :
    (c.noteVerdict t i kind point).gf (.CLU_TCOUNT t) CLU_TCOUNT.MISMATCH =
      min (c.gf (.CLU_TCOUNT t) CLU_TCOUNT.MISMATCH + 1) CLU_TCOUNT.MISMATCH.max := by
  rw [noteVerdict, gf_bookInc, (tsynd_frame _ t kind point [i]).gf _ (tcount_ne_tsynd t)]
  exact gf_inc_same c _ _ (by decide) (by decide)

theorem not_verdictAddr_tcfg (t u : Nat) : ¬ VerdictAddr t (RegName.CLU_TCFG u).addr := by
  simp only [VerdictAddr, RegName.addr]; omega

/-- The verdicts of the last hour, with one against lane `i` more (R146). -/
def hourVerdicts (x : Triad) (now i : Nat) : List (Nat × Nat) :=
  x.verdicts.filter (fun e => decide (now < e.2 + 3600000000000)) ++ [(i, now)]

theorem hourVerdicts_length (x : Triad) (now i : Nat) : ((hourVerdicts x now i).filter (fun e => e.1 == i)).length ≤
    (x.verdicts.filter (fun e => e.1 == i)).length + 1 := by
  rw [hourVerdicts, List.filter_append, List.length_append]
  refine Nat.add_le_add ?_ (List.length_filter_le _ _)
  exact (List.filter_sublist.filter _).length_le

/-- A verdict below the limit of R146: it is counted and reported, and the lane is rebuilt. -/
theorem minority_rebuilds {i : Nat} (now kind point : Nat) (hs : c.tstate t = tVoting)
    (hl : ((c.triad t).verdicts.filter (fun e => e.1 == i)).length < c.gf (.CLU_TCFG t) CLU_TCFG.REBUILDLIM) :
    c.minority now t i kind point = (((c.noteVerdict t i kind point).setTriad t { c.triad t with
      verdicts := hourVerdicts (c.triad t) now i }).triadCorrected now t 0x04).startRebuild t i false := by
  have few : ¬ (c.noteVerdict t i kind point).gf (.CLU_TCFG t) CLU_TCFG.REBUILDLIM <
      ((hourVerdicts (c.triad t) now i).filter (fun e => e.1 == i)).length := by
    have := hourVerdicts_length (c.triad t) now i
    rw [(c.noteVerdict_frame t i kind point).gf _ (not_verdictAddr_tcfg t t)]
    omega
  have same := triad_of_triads_eq (c.noteVerdict_triads t i kind point) t
  rw [minority, if_pos hs]
  unfold noteVerdict at few same ⊢
  simp only [same, hourVerdicts, gf_setTriad] at few ⊢
  rw [if_neg few]

/-- What a verdict below the limit does (R133, R146, R404). -/
theorem minority_sets {i : Nat} (now kind point : Nat) (ht : t < 32) (hs : c.tstate t = tVoting)
    (hl : ((c.triad t).verdicts.filter (fun e => e.1 == i)).length < c.gf (.CLU_TCFG t) CLU_TCFG.REBUILDLIM) :
    ∃ A, Fenced A c (c.minority now t i kind point) t i tRebuild (some { lane := i, swap := false }) ∧
      (c.minority now t i kind point).stands (t / 4) 0 ∧
      (c.minority now t i kind point).gf (.CLU_FSYND t) CLU_FSYND.CODE = 4 ∧
      (c.minority now t i kind point).gf (.CLU_TCOUNT t) CLU_TCOUNT.MISMATCH =
        min (c.gf (.CLU_TCOUNT t) CLU_TCOUNT.MISMATCH + 1) CLU_TCOUNT.MISMATCH.max := by
  let d := (c.noteVerdict t i kind point).setTriad t { c.triad t with verdicts := hourVerdicts (c.triad t) now i }
  have r := d.triadCorrected_report now ht (code := 0x04) (by decide)
  have fenced := (d.triadCorrected now t 0x04).startRebuild_fenced t i false
  have triad : (d.triadCorrected now t 0x04).triad t = { c.triad t with verdicts := hourVerdicts (c.triad t) now i } :=
    (triad_of_triads_eq (d.triadCorrected_triads now t 0x04) t).trans (triad_setTriad_same _ _ _)
  have status : RegName.FLT_STATUS.addr ≠ (RegName.CLU_TSTATE t).addr := by simp only [RegName.addr]; omega
  have syndrome : (RegName.CLU_FSYND t).addr ≠ (RegName.CLU_TSTATE t).addr := by simp only [RegName.addr]; omega
  have count : (RegName.CLU_TCOUNT t).addr ≠ (RegName.CLU_TSTATE t).addr := by simp only [RegName.addr]; omega
  have before : RegFrame (VerdictAddr t) c d := (c.noteVerdict_frame t i kind point).trans
    (.of_eq (setTriad_mem _ _ _) (setTriad_regs _ _ _))
  have mismatch := (gf_setTriad (c.noteVerdict t i kind point) t { c.triad t with
    verdicts := hourVerdicts (c.triad t) now i } (.CLU_TCOUNT t) CLU_TCOUNT.MISMATCH).trans
      (c.noteVerdict_mismatch t i kind point)
  rw [minority_rebuilds now kind point hs hl]
  refine ⟨fun _ => True, (fenced.mono fun _ _ => trivial).after ?_ (by rw [triad]) (by rw [triad]), ?_, ?_, ?_⟩
  · exact (before.mono fun _ _ => trivial).trans (r.toRegFrame.mono fun _ _ => trivial)
  · exact (sticky_congr (fenced.rd _ status) _ _).trans r.stands
  · exact (fenced.gf _ syndrome).trans r.code
  · exact (fenced.gf _ count).trans ((r.gf _ (not_triadFltAddr_tcount t t)).trans mismatch)

/-! ### A lane's oldest record goes to the sluice (R130, R133) -/

/-- The lane notes that the sluice has its oldest record. -/
def markRec (c : Chip) (k : Nat) : Chip := c.updLane k (fun x => { x with sb := markFirst x.sb })

end Chip

variable {s : State} {l : LaneId} {r : StoreRec}

theorem exec_storeRecord_voted (hr : (s.lane l).nextRec = some (.store r)) (ho : s.chip.off = false)
    (hs : s.chip.split l.t = false) (live : s.chip.live l.t = true) (votes : s.chip.votes l.t l.i = true)
    (room : ((s.chip.triad l.t).recs.filter (fun e => e.1 == l.i.val)).length < 64) :
    exec (.storeRecord l) s = .next { s with chip :=
      ((s.chip.markRec (laneKey l)).deliver s.now.toNat l.t l.i (.store r)).resettle s.now.toNat l.t } := by
  change execStoreRecord l s = _
  simp only [execStoreRecord, State.act, Chip.handRec, hr, ho, hs, live, votes, room, Chip.markRec]
  rfl

theorem exec_storeRecord_split (hr : (s.lane l).nextRec = some (.store r)) (ho : s.chip.off = false)
    (hs : s.chip.split l.t = true) (state : s.chip.tstate l.t = tSplit) (hd : (s.chip.port (laneKey l)).dropTo ≤ r.seq) :
    exec (.storeRecord l) s = .next { s with chip :=
      ((s.chip.markRec (laneKey l)).sendStore s.now.toNat (laneKey l) r).sbDrain (laneKey l) } := by
  change execStoreRecord l s = _
  have kept : ¬ r.seq < ((s.chip.markRec (laneKey l)).port (laneKey l)).dropTo := Nat.not_lt.2 hd
  simp only [execStoreRecord, State.act, Chip.handRec, hr, ho, hs, state, Chip.passSplit]
  exact congrArg (fun d : Chip => Host.Outcome.next { s with chip := d.sbDrain (laneKey l) }) (if_neg kept)

end Sys2Proof.Machine
end

section
/-! The votes of store records as the chips that `STORE_RECORD` answers (R130, R133, R134, R151). -/
namespace Sys2Proof.Machine
namespace Chip
variable {c : Chip} {t : Nat}

theorem live_of_voting (h : c.tstate t = tVoting) : c.live t = true := by simp [live, h, tVoting]

theorem votes_of_all (h : c.voting t = [0, 1, 2]) (i : Fin 3) : c.votes t i = true :=
  votes_of_voting (by rw [h]; fin_cases i <;> decide)

theorem port_of_ports_eq {d : Chip} (h : d.ports = c.ports) (k : Nat) : d.port k = c.port k := by rw [port, h, ← port]

/-- The first record of a point decides nothing (R133). -/
theorem first_waits {i : Nat} {r : StoreRec} (now : Nat) (hr : (c.triad t).recs = []) (hd : (c.triad t).digs = [])
    (hq : r.seq = (c.triad t).fwdSeq) :
    ∃ d : Chip, (c.deliver now t i (.store r)).resettle now t = d ∧ (d.triad t).recs = [(i, .store r)] ∧
      (d.triad t).fwdSeq = (c.triad t).fwdSeq ∧ d.ports = c.ports ∧ d.regs = c.regs ∧ d.mem = c.mem := by
  obtain ⟨m, n, x, waits⟩ := deliver_first (i := i) now hr hd hq
  have triad := triad_setTriad_same c t { c.triad t with lastRec := m, nextSeq := n, recs := [(i, .store r)] }
  exact ⟨_, waits, congrArg Triad.recs triad, (congrArg Triad.fwdSeq triad).trans rfl, rfl, rfl, rfl⟩

/-- The second of two equal store records outside a transaction: it is sent and logged (R133, R134, R151). -/
theorem second_plain {j i : Fin 3} {r : StoreRec} (now : Nat) (hs : c.split t = false) (hv : c.tstate t = tVoting)
    (all : c.voting t = [0, 1, 2]) (hr : (c.triad t).recs = [(j.val, .store r)]) (hd : (c.triad t).digs = []) (hij : j ≠ i)
    (hq : r.seq = (c.triad t).fwdSeq) (hl : (c.triad t).slogLeft = []) (hp : (c.port (3 * t)).dropTo ≤ r.seq)
    (full : c.gb (.CLU_TSTATE t) CLU_TSTATE.LOGFULL = false) (ht : r.txn = false) (ho : (c.port (3 * t)).outq = [])
    (room : (c.port (3 * t)).devOut.length < 8) :
    ∃ d : Chip, (c.deliver now t i (.store r)).resettle now t = d ∧ (d.triad t).recs = [] ∧ (d.triad t).fwdSeq = r.seq + 1 ∧
      (d.triad t).slog = (c.triad t).slog ++ [r] ∧ d.tstate t = tVoting ∧
      (r.dev = false → (d.port (3 * t)).outq = [r] ∧ (d.port (3 * t)).devOut = (c.port (3 * t)).devOut) ∧
      (r.dev = true → (d.port (3 * t)).outq = [] ∧
        (d.port (3 * t)).devOut = (c.port (3 * t)).devOut ++ [⟨r.seq, r.addr, r.data, now⟩]) ∧
      ∀ a, a < journalBase → d.byte a = c.byte a := by
  have sent : ∀ y : Triad, y.slogLeft = [] → _ := fun y hy =>
    forward_plain (c := c.setTriad t y) (t := t) now (by rw [triad_setTriad_same, hy]) hp ht ho room
  obtain ⟨m, n, fwd, x, decided⟩ := deliver_second now hs (live_of_voting hv) hr hd (votes_of_all all j) (votes_of_all all i)
    (Fin.val_ne_of_ne hij) hq (.inr full) fun y hy hyd hyr => by
      obtain ⟨p, logged, -⟩ := sent y (hy.trans hl)
      obtain ⟨_, _, _, triad⟩ := logged.triad
      rw [triad_setPort, triad_setTriad_same] at triad
      rw [triad]
      exact ⟨hyr, hyd⟩
  obtain ⟨p, logged, memory, device⟩ := sent { c.triad t with
    lastRec := m, nextSeq := n, recs := [], fwdSeq := r.seq + 1, fwd := fwd } hl
  obtain ⟨_, _, _, triad⟩ := logged.triad
  rw [triad_setPort, triad_setTriad_same] at triad
  have port := (port_of_ports_eq logged.ports (3 * t)).trans (port_setPort_same _ _ _)
  refine ⟨_, decided, congrArg Triad.recs triad, congrArg Triad.fwdSeq triad, congrArg Triad.slog triad,
    logged.state.trans hv, fun h => ?_, fun h => ?_, logged.low⟩
  · obtain ⟨outq, devOut⟩ := memory h
    exact ⟨(congrArg Port.outq port).trans outq, (congrArg Port.devOut port).trans devOut⟩
  · obtain ⟨outq, devOut⟩ := device h
    exact ⟨(congrArg Port.outq port).trans outq, (congrArg Port.devOut port).trans devOut⟩

/-- The second of two equal store records of a transaction: it enters the transaction buffer (R134, R254). -/
theorem second_txn {j i : Fin 3} {r : StoreRec} (now : Nat) (hs : c.split t = false) (hv : c.tstate t = tVoting)
    (all : c.voting t = [0, 1, 2]) (hr : (c.triad t).recs = [(j.val, .store r)]) (hd : (c.triad t).digs = []) (hij : j ≠ i)
    (hq : r.seq = (c.triad t).fwdSeq) (hl : (c.triad t).slogLeft = []) (hp : (c.port (3 * t)).dropTo ≤ r.seq)
    (ht : r.txn = true) (he : (c.port (3 * t)).tx.ended = false) (hf : (c.port (3 * t)).tx.first ≤ r.seq) :
    ∃ d : Chip, (c.deliver now t i (.store r)).resettle now t = d ∧ (d.triad t).fwdSeq = r.seq + 1 ∧
      (d.port (3 * t)).outq = (c.port (3 * t)).outq ∧
      (d.port (3 * t)).tx.wset = mergeStore (c.port (3 * t)).tx.wset r ∧ (d.triad t).slog = (c.triad t).slog ∧
      d.mem = c.mem := by
  have sent : ∀ y : Triad, y.slogLeft = [] → _ := fun y hy =>
    forward_txn (c := c.setTriad t y) (t := t) now (by rw [triad_setTriad_same, hy]) hp ht he hf
  obtain ⟨m, n, fwd, x, decided⟩ := deliver_second now hs (live_of_voting hv) hr hd (votes_of_all all j) (votes_of_all all i)
    (Fin.val_ne_of_ne hij) hq (.inl ht) fun y hy hyd hyr => by
      obtain ⟨p, buffered, -⟩ := sent y (hy.trans hl)
      rw [buffered, triad_setPort, triad_setTriad_same]
      exact ⟨hyr, hyd⟩
  obtain ⟨p, buffered, outq, wset⟩ := sent { c.triad t with
    lastRec := m, nextSeq := n, recs := [], fwdSeq := r.seq + 1, fwd := fwd } hl
  rw [buffered] at decided
  have triad := triad_setTriad_same c t { c.triad t with
    lastRec := m, nextSeq := n, recs := [], fwdSeq := r.seq + 1, fwd := fwd }
  have port := port_setPort_same (c.setTriad t { c.triad t with
    lastRec := m, nextSeq := n, recs := [], fwdSeq := r.seq + 1, fwd := fwd }) (3 * t) p
  exact ⟨_, decided, congrArg Triad.fwdSeq triad, (congrArg Port.outq port).trans outq,
    (congrArg (fun p : Port => p.tx.wset) port).trans wset, (congrArg Triad.slog triad).trans rfl, rfl⟩

/-- A record that differs from the decided one of its point: the lane is counted, fenced and rebuilt (R133, R146). -/
theorem third_differs {i : Nat} {r w : StoreRec} (now : Nat) (ht : t < 32) (hv : c.tstate t = tVoting)
    (hr : (c.triad t).recs = []) (hd : (c.triad t).digs = []) (hq : r.seq < (c.triad t).fwdSeq)
    (hw : (c.triad t).fwd.find? (fun v => v.seq == r.seq) = some (.store w)) (hne : w ≠ r)
    (hl : ((c.triad t).verdicts.filter (fun e => e.1 == i)).length < c.gf (.CLU_TCFG t) CLU_TCFG.REBUILDLIM) :
    ∃ d : Chip, (c.deliver now t i (.store r)).resettle now t = d ∧ d.tstate t = tRebuild ∧ d.votes t i = false ∧
      d.stands (t / 4) 0 ∧ (d.triad t).rebuild = some { lane := i, swap := false } ∧
      d.gf (.CLU_FSYND t) CLU_FSYND.CODE = 4 ∧ d.gf (.CLU_TCOUNT t) CLU_TCOUNT.MISMATCH =
        min (c.gf (.CLU_TCOUNT t) CLU_TCOUNT.MISMATCH + 1) CLU_TCOUNT.MISMATCH.max ∧ d.mem = c.mem := by
  obtain ⟨m, n, late⟩ := deliver_late (c := c) (t := t) (i := i) (v := .store r) now hq hw (by simpa using hne)
  have triad := triad_setTriad_same c t { c.triad t with lastRec := m, nextSeq := n }
  obtain ⟨A, fenced, stands, code, mismatch⟩ := minority_sets (c := c.setTriad t { c.triad t with lastRec := m, nextSeq := n })
    (i := i) now (VRec.store r).kind (VRec.store r).seq ht hv (by rw [triad]; exact hl)
  obtain ⟨x, idle⟩ := resettle_of_empty now (fenced.recs (by rw [triad, hr])) (fenced.digs (by rw [triad, hd]))
  have settled := (congrArg (·.resettle now t) late).trans idle
  exact ⟨_, settled, fenced.state, fenced.votes, stands, fenced.rebuild, code, mismatch, fenced.mem⟩

end Chip
end Sys2Proof.Machine

open Sys2Proof Sys2Proof.Machine

/-- Settles O19: the lane's mark on its own buffer is no concern of the vote, so the laws of the first, the second and a late
record apply to the chip that has it. -/
theorem storeRecordVotes : Obligations.StoreRecordVotes := by
  unfold Obligations.StoreRecordVotes
  intro s l j r c t x p ready second
  let now := s.now.toNat
  have ht : t < 32 := l.t.isLt
  have voted : ready → (x.recs.filter (fun e => e.1 == l.i.val)).length < 64 → exec (.storeRecord l) s =
      .next { s with chip := ((c.markRec (laneKey l)).deliver now t l.i (.store r)).resettle now t } := fun h room => by
    obtain ⟨off, split, state, all, rec, -⟩ := h
    exact exec_storeRecord_voted rec off split (Chip.live_of_voting state) (Chip.votes_of_all all l.i) room
  have alone : second → (x.recs.filter (fun e => e.1 == l.i.val)).length < 64 := fun h => by
    obtain ⟨-, -, -, recs, -⟩ := h
    rw [recs]
    exact (List.length_filter_le _ _).trans_lt (by simp)
  have empty : x.recs = [] → (x.recs.filter (fun e => e.1 == l.i.val)).length < 64 := fun hr => by simp [hr]
  refine ⟨fun h hq hr => ?first, fun h ht ho hl => ?second, fun h ht he hf => ?txn, fun w h hq hr hw hne hl => ?third,
    fun off split state rec ht hd hp ho => ?split⟩
  case first =>
    obtain ⟨-, -, -, -, -, hd⟩ := id h
    obtain ⟨d, waits, sets⟩ := Chip.first_waits (c := c.markRec (laneKey l)) (i := l.i) now hr hd hq
    exact ⟨d, (voted h (empty hr)).trans (by rw [waits]), sets⟩
  case second =>
    obtain ⟨⟨-, split, state, all, -, hd⟩, hq, hij, hr, left, drop, full⟩ := id h
    obtain ⟨d, decided, sets⟩ := Chip.second_plain (c := c.markRec (laneKey l)) now split state all hr hd hij hq left drop full
      ht ho hl
    exact ⟨d, (voted h.1 (alone h)).trans (by rw [decided]), sets⟩
  case txn =>
    obtain ⟨⟨-, split, state, all, -, hd⟩, hq, hij, hr, left, drop, -⟩ := id h
    obtain ⟨d, decided, sets⟩ := Chip.second_txn (c := c.markRec (laneKey l)) now split state all hr hd hij hq left drop
      ht he hf
    exact ⟨d, (voted h.1 (alone h)).trans (by rw [decided]), sets⟩
  case third =>
    obtain ⟨-, -, state, -, -, hd⟩ := id h
    obtain ⟨d, verdict, sets⟩ := Chip.third_differs (c := c.markRec (laneKey l)) (i := l.i) now ht state hr hd hq hw hne hl
    exact ⟨d, (voted h (empty hr)).trans (by rw [verdict]), sets⟩
  case split =>
    have sent := Chip.sendStore_memory (c := c.markRec (laneKey l)) now ht hd ho
    obtain ⟨y, drained⟩ := ((c.markRec (laneKey l)).sendStore now (laneKey l) r).sbDrain_eq (laneKey l)
    have law := exec_storeRecord_split rec off split state hp
    rw [drained, sent] at law
    exact ⟨_, law, congrArg Port.outq (Chip.port_setPort_same _ _ _), rfl, rfl, rfl⟩
end

section
/-! A restart whose digests all differ, of a triad that lists lanes it has not: no rule brakes it. -/
namespace Sys2Proof.Machine

/-- Triad 0 in a restart (R152), where the list of lanes that a working core serves names lanes 3 and 4. -/
def strayLanes : Chip :=
  ({ off := false, triads := [(0, { restarting := true, alive := [3, 4] })] } : Chip).setT 0 tRestart

theorem strayLanes_restarts : (strayLanes.triad 0).restarting = true ∧ strayLanes.tstate 0 = tRestart ∧
    strayLanes.off = false ∧ strayLanes.flt.deviceBrake = false := by decide

/-- The operand 7 names lanes 0 to 2: two of the listed lanes are left, and the triad goes on. -/
theorem strayLanes_goes_on : (strayLanes.restartDone 0 0 [0, 1, 2]).tstate 0 = tDegraded := by decide

theorem exec_restartDigest {s : State} {t : Fin 32} (h : (s.chip.triad t).restarting = true) (bad : BitVec 3) :
    exec (.restartDigest t bad) s =
      .next { s with chip := s.chip.restartDone s.now.toNat t ([0, 1, 2].filter (fun i => bad.getLsbD i)) } := by
  change execRestartDigest t bad s = _
  simp only [execRestartDigest, State.act, h, if_true]

end Sys2Proof.Machine

open Sys2Proof Sys2Proof.Machine

/-- Refutes O22: its clause for a restart with no two digests agreeing says which lanes differ (0 to 2) and leaves the
triad's list of lanes free. Where that list names lanes 3 and 4, which no triad has, two listed lanes are left that agree, and
the triad becomes DEGRADED; the clause has it braked. The missing premise is that the list is a part of 0 to 2. -/
theorem not_failureAndRecovery : ¬ Obligations.FailureAndRecovery := by
  unfold Obligations.FailureAndRecovery
  intro h
  let s : State := { now := 0, chip := strayLanes, pending := [] }
  obtain ⟨restarting, state, off, brake⟩ := strayLanes_restarts
  obtain ⟨-, -, -, -, -, -, -, braked, -⟩ := h s ⟨0, 0⟩ 0 { lane := 0, swap := false }
  obtain ⟨d, answer, claimed, -⟩ := braked restarting state off brake
  have goesOn : d = s.chip.restartDone s.now.toNat 0 [0, 1, 2] := by
    rw [exec_restartDigest restarting] at answer
    simpa using answer.symm
  rw [goesOn] at claimed
  exact absurd (claimed.symm.trans strayLanes_goes_on) (by decide)
end

section
/-! Invalidations (R172, R178, R183): what a store of another agent does at a triad and at SPLIT cores, and the round that the
triad's queue asks for. -/
namespace Sys2Proof.Machine

/-- A lane whose data cache has lost a line; a fill of it that is under way is marked stale (R178). -/
def Lane.withoutLine (x : Lane) (line : Nat) : Lane :=
  { x with
    dcache := x.dcache.drop line
    fills := x.fills.map (fun f => if f.line = line then { f with stale := true } else f) }

namespace Chip
variable {c : Chip} {t line : Nat}

/-- Lane `k` drops a line and marks its fills of it. -/
def dropLine (c : Chip) (line k : Nat) : Chip := c.updLane k (·.withoutLine line)

theorem foldl_dropLine_eq (c : Chip) (line : Nat) (ks : List Nat) :
    ∃ x, ks.foldl (fun c k => c.dropLine line k) c = { c with lanes := x } := by
  induction ks generalizing c with
  | nil => exact ⟨_, rfl⟩
  | cons k r ih => exact ih (c.dropLine line k)

theorem keysOf_triad (h : c.split t = false) : c.keysOf t = [3 * t] := by simp [keysOf, h]

theorem keysOf_split (h : c.split t = true) : c.keysOf t = [3 * t, 3 * t + 1, 3 * t + 2] := by simp [keysOf, h]

/-! ### A store meets one requester -/

/-- A SPLIT core whose transaction has not read the line drops it at once (R178, R183). -/
theorem snoop_split {k : Nat} (hs : c.split (k / 3) = true) (hr : line ∉ (c.port k).tx.rset) :
    c.snoop line k = c.dropLine line k := by
  have dropped : (c.dropD k line).updLane k (fun l => { l with
      fills := l.fills.map (fun f => if f.line = line then { f with stale := true } else f) }) = c.dropLine line k := by
    simp only [dropLine, dropD, updLane_eq, lane_setLane_same, setLane_setLane, Lane.withoutLine]
  simpa [snoop, hr, hs] using dropped

theorem foldl_snoop_split (ks : List Nat) (hs : ∀ k ∈ ks, c.split (k / 3) = true)
    (hr : ∀ k ∈ ks, line ∉ (c.port k).tx.rset) :
    ks.foldl (fun c k => c.snoop line k) c = ks.foldl (fun c k => c.dropLine line k) c := by
  induction ks generalizing c with
  | nil => rfl
  | cons k r ih =>
    rw [List.foldl_cons, List.foldl_cons, snoop_split (hs k (by simp)) (hr k (by simp))]
    exact ih (c := c.dropLine line k) (fun j hj => hs j (by simp [hj])) (fun j hj => hr j (by simp [hj]))

/-- A line that a lane of the triad holds enters the triad's queue, while there is room (R172). -/
theorem snoop_triad_held (hs : c.split t = false) (hr : line ∉ (c.port (3 * t)).tx.rset) (room : (c.triad t).invq.length < 64)
    {j : Nat} (hj : j < 3) (held : ((c.lane (3 * t + j)).dcache.find line).isSome) :
    c.snoop line (3 * t) = c.setTriad t { c.triad t with invq := (c.triad t).invq ++ [line] } := by
  have key : 3 * t / 3 = t := by omega
  have entered : c.enterInv t line = c.setTriad t { c.triad t with invq := (c.triad t).invq ++ [line] } := by
    simp [enterInv, Nat.not_le.2 room]
  have holder : [3 * t, 3 * t + 1, 3 * t + 2].any (fun k => ((c.lane k).dcache.find line).isSome ||
      (c.lane k).fills.any (fun f => f.line == line)) = true :=
    List.any_eq_true.2 ⟨3 * t + j, by simp; omega, by rw [held, Bool.true_or]⟩
  rw [← entered]
  unfold snoop
  simp only [key, List.contains_eq_mem, hr, decide_false, Bool.false_eq_true, if_false, hs, holder, Bool.true_or, if_true]

/-- A line that no lane of the triad, no fill and no snapshot of the bin holds (R183). -/
theorem snoop_triad_unheld (hs : c.split t = false) (hr : line ∉ (c.port (3 * t)).tx.rset) (hb : (c.triad t).bin = [])
    (unheld : ∀ j < 3, (c.lane (3 * t + j)).dcache.find line = none ∧ (c.lane (3 * t + j)).fills = []) :
    c.snoop line (3 * t) = c := by
  have key : 3 * t / 3 = t := by omega
  obtain ⟨first, fills0⟩ := unheld 0 (by decide)
  obtain ⟨second, fills1⟩ := unheld 1 (by decide)
  obtain ⟨third, fills2⟩ := unheld 2 (by decide)
  rw [Nat.add_zero] at first fills0
  simp [snoop, key, hs, hr, hb, first, second, third, fills0, fills1, fills2]

/-! ### The round of the queue (R172) -/

theorem openRound_of_none (hs : c.split t = false) (live : c.live t = true) (hf : c.following = false)
    (hn : (c.triad t).round = none) : c.openRound t = c.setTriad t { c.triad t with round := some {} } := by
  simp [openRound, updTriad_eq, hs, live, hf, hn]

end Chip

/-! ### The commands -/

variable {s : State} {t : Fin 32}

theorem exec_externalInvalidation (h : s.chip.off = false) (line : BitVec 34) : exec (.externalInvalidation t none line) s =
    .next { s with chip := (s.chip.keysOf t).foldl (fun c k => c.snoop line.toNat k) s.chip } := by
  change execExternalInvalidation t none line s = _
  simp [execExternalInvalidation, State.act, h]

theorem exec_externalInvalidation_of_off (h : s.chip.off = true) (line : BitVec 34) :
    exec (.externalInvalidation t none line) s = .next s := by
  change execExternalInvalidation t none line s = _
  simp [execExternalInvalidation, State.act, h]

theorem exec_externalInvalidation_triad (ho : s.chip.off = false) (hs : s.chip.split t = false) (line : BitVec 34) :
    exec (.externalInvalidation t none line) s = .next { s with chip := s.chip.snoop line.toNat (3 * t) } := by
  rw [exec_externalInvalidation ho, Chip.keysOf_triad hs, List.foldl_cons, List.foldl_nil]

theorem exec_externalInvalidation_split {line : BitVec 34} (ho : s.chip.off = false) (hs : s.chip.split t = true)
    (hr : ∀ j < 3, line.toNat ∉ (s.chip.port (3 * t + j)).tx.rset) : exec (.externalInvalidation t none line) s =
      .next { s with chip := (s.chip.keysOf t).foldl (fun c k => c.dropLine line.toNat k) s.chip } := by
  have core : ∀ k ∈ s.chip.keysOf t, ∃ j < 3, k = 3 * t + j := by
    rw [Chip.keysOf_split hs]
    intro k hk
    simp only [List.mem_cons, List.not_mem_nil, or_false] at hk
    exact ⟨k - 3 * t, by omega, by omega⟩
  rw [exec_externalInvalidation ho, Chip.foldl_snoop_split]
  · intro k hk
    obtain ⟨j, hj, rfl⟩ := core k hk
    rw [show (3 * t.val + j) / 3 = t by omega]
    exact hs
  · intro k hk
    obtain ⟨j, hj, rfl⟩ := core k hk
    exact hr j hj

theorem exec_invalidationRound (ho : s.chip.off = false) (hq : (s.chip.triad t).invq ≠ []) :
    exec (.invalidationRound t) s = .next { s with chip := s.chip.openRound t } := by
  change execInvalidationRound t s = _
  simp [execInvalidationRound, State.act, ho, hq]

theorem exec_invalidationRound_of_empty (hq : (s.chip.triad t).invq = []) (ha : (s.chip.triad t).invAll = false) :
    exec (.invalidationRound t) s = .next s := by
  change execInvalidationRound t s = _
  simp [execInvalidationRound, State.act, hq, ha]

end Sys2Proof.Machine

open Sys2Proof Sys2Proof.Machine

/-- Settles O26: a store meets the triad as one requester, whose queue takes the line or is left as it is, or its three SPLIT
cores one after the other, each of which drops the line from its own cache alone. That nothing changes where nothing is held
or queued is the model's reading of a trigger that does not hold (log 3). -/
theorem invalidations : Obligations.Invalidations := by
  unfold Obligations.Invalidations
  intro s t line c x i
  refine ⟨fun off split unread room held => ?queued, fun split unread bin unheld => ?unheld,
    fun off split unread => ?cores, fun off split live own closed waiting => ?round, exec_invalidationRound_of_empty⟩
  case queued =>
    obtain ⟨j, hj, held⟩ := held
    have queued := exec_externalInvalidation_triad off split line
    rw [Chip.snoop_triad_held split unread room hj held] at queued
    exact ⟨_, queued, congrArg Triad.invq (c.triad_setTriad_same t _), rfl, rfl, rfl, rfl, rfl⟩
  case unheld =>
    cases off : c.off
    · rw [exec_externalInvalidation_triad off split, Chip.snoop_triad_unheld split unread bin unheld]
    · exact exec_externalInvalidation_of_off off line
  case cores =>
    have dropped := Chip.lane_foldl_three (c := c) (t := t) (f := fun c i => c.dropLine line.toNat (3 * t + i)) id
      (fun _ y => y.withoutLine line.toNat) (fun _ => True) (fun _ _ _ => trivial)
      (fun c i _ => c.lane_setLane_same _ _) (fun c _ _ hk => c.lane_setLane_other _ _ _ hk) trivial
    obtain ⟨lanes, frame⟩ := c.foldl_dropLine_eq line.toNat (c.keysOf t)
    refine ⟨_, exec_externalInvalidation_split off split unread, fun j hj => ?_, ?_, ?_, ?_⟩
    · have lane : ((c.keysOf t).foldl (fun c k => c.dropLine line.toNat k) c).lane (3 * t + j) =
          (c.lane (3 * t + j)).withoutLine line.toNat := by
        rw [Chip.keysOf_split split]
        exact dropped j hj
      exact ⟨(congrArg Lane.dcache lane).trans rfl, (congrArg Lane.arch lane).trans rfl⟩
    all_goals rw [frame]
  case round =>
    have opened := exec_invalidationRound off waiting
    rw [Chip.openRound_of_none split live own closed] at opened
    exact ⟨_, opened, congrArg Triad.round (c.triad_setTriad_same t _), rfl, rfl, rfl, rfl, rfl⟩
end

section
/-! Agreed reads (R176, R177): the votes on a request, and a result that enters the result buffer and the logs. -/
namespace Sys2Proof.Machine
namespace Chip
variable {c d : Chip} {t : Nat} {r : AReq}

/-! ### Requests (R176) -/

/-- A lane that has presented its request to the vote. -/
def presentLane (c : Chip) (k : Nat) : Chip := c.setLane k { c.lane k with presented := true }

/-- A lane's request, noted: the lane has presented it, and the triad knows the lane's next one and when it delivered. -/
theorem presentedBy_eq (c : Chip) (now t i : Nat) (r : AReq) : ∃ m n, c.presentedBy now t i r =
    (c.presentLane (3 * t + i)).setTriad t { c.triad t with nextRead := n, lastRec := m } := by
  obtain ⟨m, noted⟩ := (c.presentLane (3 * t + i)).delivered_eq now t i
    (fun x => { x with nextRead := x.nextRead.set i (r.rseq + 1) })
  exact ⟨m, _, noted⟩

theorem votes_setTriad (c : Chip) (t : Nat) (y : Triad) (u i : Nat) : (c.setTriad t y).votes u i = c.votes u i := rfl

/-- One request decides nothing. -/
theorem voteRead_first {i : Nat} (now : Nat) (ha : (c.triad t).areqs = []) (hv : c.votes t i = true) :
    c.voteRead now t i r = c.setTriad t { c.triad t with areqs := [(i, r)] } := by
  simp [voteRead, updTriad_eq, votes_setTriad, ha, hv, decideVote_single]

/-- The second of two equal requests is agreed, and waits for its result; no restart has one for it (R152). -/
theorem voteRead_second {j i : Nat} (now : Nat) (ha : (c.triad t).areqs = [(j, r)]) (hj : c.votes t j = true)
    (hi : c.votes t i = true) (hij : j ≠ i) (hl : (c.triad t).rlogLeft = []) : c.voteRead now t i r =
      c.setTriad t { c.triad t with areqs := [], aready := (c.triad t).aready ++ [(r, now)] } := by
  simp [voteRead, updTriad_eq, votes_setTriad, ha, hj, hi, decideVote_pair _ hij, readAgreed, hl]

theorem first_request_waits {i : Nat} (now : Nat) (ha : (c.triad t).areqs = []) (hv : c.votes t i = true) :
    ∃ m n, (c.presentedBy now t i r).voteRead now t i r = (c.presentLane (3 * t + i)).setTriad t
      { c.triad t with nextRead := n, lastRec := m, areqs := [(i, r)] } := by
  obtain ⟨m, n, presented⟩ := c.presentedBy_eq now t i r
  have triad := congrArg (·.triad t) presented
  rw [triad_setTriad_same] at triad
  have waits := voteRead_first (r := r) now ((congrArg Triad.areqs triad).trans ha) ((congrArg (·.votes t i) presented).trans hv)
  rw [waits, presented, setTriad_setTriad, triad_setTriad_same]
  exact ⟨m, n, rfl⟩

theorem second_request_agreed {j i : Nat} (now : Nat) (ha : (c.triad t).areqs = [(j, r)]) (hj : c.votes t j = true)
    (hi : c.votes t i = true) (hij : j ≠ i) (hl : (c.triad t).rlogLeft = []) :
    ∃ m n, (c.presentedBy now t i r).voteRead now t i r = (c.presentLane (3 * t + i)).setTriad t
      { c.triad t with nextRead := n, lastRec := m, areqs := [], aready := (c.triad t).aready ++ [(r, now)] } := by
  obtain ⟨m, n, presented⟩ := c.presentedBy_eq now t i r
  have triad := congrArg (·.triad t) presented
  rw [triad_setTriad_same] at triad
  have agrees := voteRead_second (r := r) now ((congrArg Triad.areqs triad).trans ha)
    ((congrArg (·.votes t j) presented).trans hj) ((congrArg (·.votes t i) presented).trans hi) hij
    ((congrArg Triad.rlogLeft triad).trans hl)
  rw [agrees, presented, setTriad_setTriad, triad_setTriad_same]
  exact ⟨m, n, rfl⟩

/-! ### Results (R176, R177) -/

/-- The log of agreed reads in the journal store, at entry `i` (R271). -/
def logRead (c : Chip) (t : Nat) (r : AReq) (v : DWord) (i : Nat) : Chip :=
  let a := logArea t + 0x800 + 32 * (i % 16)
  ((c.storeWord a (BitVec.ofNat 64 r.rseq)).storeWord (a + 8) (BitVec.ofNat 64 (ARKind.addr r.kind))).storeWord (a + 16) v

theorem logRead_aboveMemory (c : Chip) (t : Nat) (r : AReq) (v : DWord) (i : Nat) : AboveMemory c (c.logRead t r v i) := by
  have above : ∀ n, journalBase ≤ (logArea t + 0x800 + 32 * (i % 16) + n) / 8 * 8 := fun n => by
    simp only [logArea, journalBase]; omega
  exact ((c.storeWord_aboveMemory (above 0) _).trans (storeWord_aboveMemory _ (above 8) _)).trans
    (storeWord_aboveMemory _ (above 16) _)

/-- The triad is `y` but for its rounds; the lanes and memory below the journal store are as before. -/
structure TriadLogged (c d : Chip) (t : Nat) (y : Triad) : Prop where
  triad : RoundsOnly y (d.triad t)
  lanes : d.lanes = c.lanes
  low : ∀ a < journalBase, d.byte a = c.byte a

namespace TriadLogged
variable {y : Triad}

theorem setTriad (c : Chip) (t : Nat) (y : Triad) : TriadLogged c (c.setTriad t y) t y :=
  ⟨by rw [triad_setTriad_same]; exact .refl y, rfl, fun _ _ => rfl⟩

theorem leatSend (h : TriadLogged c d t y) (m : LeatMsg) : TriadLogged c (d.leatSend m) t y := by
  unfold Chip.leatSend
  split
  · exact ⟨h.triad, h.lanes, h.low⟩
  · exact h

theorem tellInv (h : TriadLogged c d t y) (n : Nat) (invs : List Nat) (all : Bool) :
    TriadLogged c (d.tellInv t n invs all) t y := by
  unfold Chip.tellInv
  simp only []
  split
  · exact h.leatSend _
  · split
    · exact h
    · exact h.leatSend _

theorem aboveMemory {e : Chip} (h : TriadLogged c d t y) (k : AboveMemory d e) : TriadLogged c e t y := by
  obtain ⟨_, _, rfl, low⟩ := k
  exact ⟨h.triad, h.lanes, fun a ha => (low a ha).trans (h.low a ha)⟩

/-- A log at its limit asks for a round alone (R151). -/
theorem logLimit (h : TriadLogged c d t y) : TriadLogged c (d.logLimit t) t y := by
  rcases d.logLimit_cases t with e | e
  · rw [e]; exact h
  · let full := d.sf (.CLU_TSTATE t) CLU_TSTATE.LOGFULL 1
    obtain ⟨x, wanted⟩ := full.want_eq t .digest
    obtain ⟨_, asked⟩ := full.triad_want_own t (w := .digest) rfl
    rw [e]
    refine ⟨h.triad.trans ⟨_, _, _, asked⟩, ?_, fun a ha => ?_⟩
    · rw [wanted]; exact h.lanes
    · rw [wanted]; exact h.low a ha

end TriadLogged

/-- The result of a request, with the invalidations queued before the read (R172). -/
def agreedResult (c : Chip) (t : Nat) (r : AReq) (v : DWord) (err : Bool) : ARes :=
  { req := r, value := v, err := err, invs := if c.following then [] else (c.triad t).invq
    invAll := (c.triad t).invAll && !c.following }

/-- The triad with the result `e` of `r` in its result buffer, and in its log where no transaction is open (R151, R176). -/
def withResult (c : Chip) (t : Nat) (r : AReq) (e : ARes) : Triad :=
  { c.triad t with
    aready := (c.triad t).aready.filter (fun q => q.1.rseq != r.rseq), ares := (c.triad t).ares ++ [e]
    invq := if c.following then (c.triad t).invq else [], invAll := (c.triad t).invAll && c.following
    leatReads := (c.triad t).leatReads.filter (fun q => q.1 != r.rseq)
    rlog := if c.readInTx t r then (c.triad t).rlog else (c.triad t).rlog ++ [e] }

theorem readResult_logged (c : Chip) (t : Nat) (r : AReq) (v : DWord) (err : Bool) :
    TriadLogged c (c.readResult t r v err) t (c.withResult t r (c.agreedResult t r v err)) := by
  let e := c.agreedResult t r v err
  let n := ((c.voting t).map (fun i => (c.lane (3 * t + i)).retired)).foldl max 0
  let d := ((c.setTriad t (c.withResult t r e)).tellInv t n e.invs e.invAll).leatSend
    (.read t r.rseq v err (r.kind == .timebase))
  have entered : TriadLogged c d t (c.withResult t r e) := ((TriadLogged.setTriad c t _).tellInv _ _ _).leatSend _
  have entersOrLogs : c.readResult t r v err =
      if c.readInTx t r then d else (d.logRead t r v (c.triad t).rlog.length).logLimit t := rfl
  rw [entersOrLogs]
  split
  · exact entered
  · exact (entered.aboveMemory (d.logRead_aboveMemory t r v _)).logLimit

/-- A request for `TIMEBASE` is answered with the device time, never below the value returned last, which it becomes (R434). -/
theorem agreedNow_timebase {since : Nat} (now : Nat) (ho : c.off = false) (live : c.live t = true)
    (full : c.gb (.CLU_TSTATE t) CLU_TSTATE.LOGFULL = false) (hf : c.following = false) (hl : (c.triad t).leatReads = [])
    (hk : r.kind = .timebase) (ha : (c.triad t).aready = [(r, since)]) : c.agreedNow now t =
      (c.modPair (fun p => { p with timebase := BitVec.ofNat 64 (c.timebaseNow now) })).readResult t r
        (BitVec.ofNat 64 (c.timebaseNow now)) false := by
  simp [agreedNow, ha, ho, live, full, hl, hf, hk, readOnce]

end Chip

/-! ### The commands -/

variable {s : State} {l : LaneId} {r : AReq}

/-- A lane's request that is neither agreed nor answered yet goes to the vote. -/
theorem exec_agreedReadRequest_new (hr : (s.lane l).areq = some r) (ho : s.chip.off = false)
    (hp : (s.lane l).presented = false) (live : s.chip.live l.t = true) (votes : s.chip.votes l.t l.i = true)
    (hs : (s.chip.triad l.t).ares = []) (hw : (s.chip.triad l.t).aready = []) : exec (.agreedReadRequest l) s =
      .next { s with chip := (s.chip.presentedBy s.now.toNat l.t l.i r).voteRead s.now.toNat l.t l.i r } := by
  change execAgreedReadRequest l s = _
  have request : (s.chip.lane (laneKey l)).areq = some r := hr
  have fresh : (s.chip.lane (laneKey l)).presented = false := hp
  simp [execAgreedReadRequest, State.act, request, fresh, ho, live, votes, hs, hw]

theorem exec_agreedReadRequest_of_none (h : (s.lane l).areq = none) : exec (.agreedReadRequest l) s = .next s := by
  change execAgreedReadRequest l s = _
  have nothing : (s.chip.lane (laneKey l)).areq = none := h
  simp only [execAgreedReadRequest, State.act, nothing]

theorem exec_agreedReadResult (s : State) (t : Fin 32) :
    exec (.agreedReadResult t) s = .next { s with chip := s.chip.agreedNow s.now.toNat t } := rfl

theorem exec_agreedReadResult_of_empty {t : Fin 32} (h : (s.chip.triad t).aready = []) :
    exec (.agreedReadResult t) s = .next s := by
  rw [exec_agreedReadResult]
  simp only [Chip.agreedNow, h]

end Sys2Proof.Machine

open Sys2Proof Sys2Proof.Machine

/-- Settles O28: the vote sees the chip in which the lane has presented its request, where a first request waits and a second
is agreed; the answer to `TIMEBASE` enters the result buffer of the triad. That nothing changes without a request or an agreed
read is the model's reading of a trigger that does not hold (log 3), and the maximum with the value returned last on every
device is its choice too (log 13). -/
theorem agreedReadVotes : Obligations.AgreedReadVotes := by
  unfold Obligations.AgreedReadVotes
  intro s l j r since c t x ready asks
  let now := s.now.toNat
  have voted : asks → exec (.agreedReadRequest l) s =
      .next { s with chip := (c.presentedBy now t l.i r).voteRead now t l.i r } := fun h => by
    obtain ⟨⟨off, state, all⟩, request, fresh, noResult, noneAgreed⟩ := h
    exact exec_agreedReadRequest_new request off fresh (Chip.live_of_voting state) (Chip.votes_of_all all l.i) noResult
      noneAgreed
  have presented : ((c.presentLane (laneKey l)).lane (laneKey l)).presented = true :=
    congrArg Lane.presented (c.lane_setLane_same _ _)
  refine ⟨fun h noVote => ?first, fun h other one log => ?second, exec_agreedReadRequest_of_none,
    fun h full own noForwarded kind agreed => ?answer, exec_agreedReadResult_of_empty⟩
  case first =>
    have answered := voted h
    obtain ⟨⟨-, -, all⟩, -, -, -, noneAgreed⟩ := h
    obtain ⟨m, n, waits⟩ := Chip.first_request_waits (r := r) now noVote (Chip.votes_of_all all l.i)
    have triad := (c.presentLane (laneKey l)).triad_setTriad_same t
      { x with nextRead := n, lastRec := m, areqs := [(l.i.val, r)] }
    rw [waits] at answered
    exact ⟨_, answered, congrArg Triad.areqs triad, presented, (congrArg Triad.aready triad).trans noneAgreed, rfl, rfl⟩
  case second =>
    have answered := voted h
    obtain ⟨⟨-, -, all⟩, -, -, -, noneAgreed⟩ := h
    obtain ⟨m, n, agrees⟩ := Chip.second_request_agreed (r := r) now one (Chip.votes_of_all all j)
      (Chip.votes_of_all all l.i) (Fin.val_ne_of_ne other) log
    have triad := (c.presentLane (laneKey l)).triad_setTriad_same t
      { x with nextRead := n, lastRec := m, areqs := [], aready := x.aready ++ [(r, now)] }
    rw [agrees] at answered
    exact ⟨_, answered, congrArg Triad.areqs triad, (congrArg Triad.aready triad).trans (congrArg (· ++ _) noneAgreed),
      presented, rfl, rfl⟩
  case answer =>
    obtain ⟨off, state, -⟩ := h
    let v := BitVec.ofNat 64 (c.timebaseNow now)
    let b := c.modPair (fun p => { p with timebase := v })
    have logged := b.readResult_logged t r v false
    obtain ⟨_, _, _, after⟩ := logged.triad
    have answered := exec_agreedReadResult s l.t
    rw [Chip.agreedNow_timebase now off (Chip.live_of_voting state) full own noForwarded kind agreed] at answered
    refine ⟨_, answered, (congrArg Triad.aready after).trans ?_, ⟨b.agreedResult t r v false, congrArg Triad.ares after,
      rfl, rfl, rfl, rfl⟩, logged.lanes, logged.low⟩
    have one : (b.triad t).aready = [(r, since)] := agreed
    simp [Chip.withResult, one]
end

section
/-! The 72-bit code (R223 to R226): the syndrome as a sum of columns, and what it says of its weight. -/
namespace Sys2Proof.Machine

/-! ### Columns (R224) -/

theorem columns_xor (l : List (BitVec 8)) (x y : Nat) : columns l (x ^^^ y) = columns l x ^^^ columns l y := by
  induction l generalizing x y with
  | nil => exact BitVec.xor_self.symm
  | cons k r ih =>
    have split : (if (x ^^^ y) % 2 = 1 then k else 0) = (if x % 2 = 1 then k else 0) ^^^ (if y % 2 = 1 then k else 0) := by
      rw [Nat.xor_mod_two_eq]
      rcases Nat.mod_two_eq_zero_or_one x with hx | hx <;> rcases Nat.mod_two_eq_zero_or_one y with hy | hy <;>
        simp [Nat.add_mod, hx, hy]
    rw [columns, columns, columns, Nat.xor_div_two, ih, split]
    ac_rfl

@[simp] theorem columns_zero (l : List (BitVec 8)) : columns l 0 = 0 := by
  induction l with
  | nil => rfl
  | cons k r ih => simp [columns, ih]

theorem columns_two_pow (l : List (BitVec 8)) (j : Nat) : columns l (2 ^ j) = l.getD j 0 := by
  induction l generalizing j with
  | nil => rfl
  | cons k r ih =>
    cases j with
    | zero => simp [columns]
    | succ j =>
      have even : 2 ^ (j + 1) % 2 = 0 := by omega
      have half : 2 ^ (j + 1) / 2 = 2 ^ j := by omega
      simp [columns, even, half, ih]

/-- Bit `j` of the codeword: a data bit, or from 64 on a check bit. -/
def codewordBit (j : Nat) : DWord × BitVec 8 :=
  if j < 64 then (BitVec.ofNat 64 (2 ^ j), 0) else (0, BitVec.ofNat 8 (2 ^ (j - 64)))

/-- The column of a codeword bit: the syndrome that its flip gives. -/
def eccColumn (j : Nat) : BitVec 8 := if j < 64 then dcol.getD j 0 else BitVec.ofNat 8 (2 ^ (j - 64))

/-- The column of address bit `b`. -/
def addrColumn (b : Nat) : BitVec 8 := acol.getD (b - 3) 0

theorem eccCheck_xor_data (d e : DWord) (a : Nat) : eccCheck (d ^^^ e) a = eccCheck d a ^^^ eccCheck e 0 := by
  simp only [eccCheck, BitVec.toNat_xor, columns_xor, Nat.zero_div, Nat.zero_mod, columns_zero]
  ac_rfl

theorem eccCheck_xor_addr (d : DWord) (a : Nat) {b : Nat} (h3 : 3 ≤ b) (hb : b < 40) :
    eccCheck d (a ^^^ 2 ^ b) = eccCheck d a ^^^ addrColumn b := by
  have line : (a ^^^ 2 ^ b) / 8 % 2 ^ 37 = a / 8 % 2 ^ 37 ^^^ 2 ^ (b - 3) := by
    have low : 2 ^ b / 2 ^ 3 = 2 ^ (b - 3) := Nat.pow_div h3 (by decide)
    have high : 2 ^ (b - 3) % 2 ^ 37 = 2 ^ (b - 3) := Nat.mod_eq_of_lt (Nat.pow_lt_pow_right (by decide) (by omega))
    rw [show 8 = 2 ^ 3 from rfl, Nat.xor_div_two_pow, Nat.xor_mod_two_pow, low, high]
  simp only [eccCheck, line, columns_xor, columns_two_pow, addrColumn]
  ac_rfl

theorem eccCheck_codewordBit (j : Nat) : eccCheck (codewordBit j).1 0 ^^^ (codewordBit j).2 = eccColumn j := by
  unfold codewordBit eccColumn
  split
  next hj =>
    have bit : 2 ^ j % 2 ^ 64 = 2 ^ j := Nat.mod_eq_of_lt (Nat.pow_lt_pow_right (by decide) hj)
    simp only [eccCheck, BitVec.toNat_ofNat, bit, columns_two_pow, Nat.zero_div, Nat.zero_mod, columns_zero,
      BitVec.ofNat_eq_ofNat, BitVec.xor_zero]
  next => simp [eccCheck]

/-- Each flipped bit of the codeword adds its column to the syndrome. -/
theorem syndrome_flip (d : DWord) (x : BitVec 8) (a j : Nat) :
    (x ^^^ (codewordBit j).2) ^^^ eccCheck (d ^^^ (codewordBit j).1) a = (x ^^^ eccCheck d a) ^^^ eccColumn j := by
  rw [eccCheck_xor_data, ← eccCheck_codewordBit j]
  ac_rfl

/-! ### Decoding (R225) -/

theorem colIndex_eq_none_iff {l : List (BitVec 8)} {s : BitVec 8} : colIndex l s = none ↔ s ∉ l := by
  induction l with
  | nil => simp [colIndex]
  | cons k r ih =>
    by_cases h : k = s
    · simp [colIndex, h]
    · simp [colIndex, h, ih, Ne.symm h]

theorem colIndex_eccColumn_data : ∀ j < 64, colIndex dcol (eccColumn j) = some j := by decide

theorem colIndex_eccColumn_check : ∀ j < 72, 64 ≤ j → colIndex dcol (eccColumn j) = none := by decide

theorem eccColumn_ne_zero : ∀ j < 72, eccColumn j ≠ 0 := by decide

variable {d : DWord} {x : BitVec 8} {a : Nat}

theorem eccDecode_clean (h : x ^^^ eccCheck d a = 0) : eccDecode d x a = (d, .clean, 0) := by
  simp [eccDecode, h]

theorem eccDecode_corrected {j : Nat} (hj : j < 72) (h : x ^^^ eccCheck d a = eccColumn j) :
    eccDecode d x a = (d ^^^ (codewordBit j).1, .corrected, eccColumn j) := by
  simp only [eccDecode, h, eccColumn_ne_zero j hj, if_false]
  by_cases data : j < 64
  · simp [colIndex_eccColumn_data j data, codewordBit, data]
  · have check : (List.range 8).any (fun i => eccColumn j = BitVec.ofNat 8 (2 ^ i)) = true :=
      List.any_eq_true.2 ⟨j - 64, List.mem_range.2 (by omega), by simp [eccColumn, data]⟩
    simp only [colIndex_eccColumn_check j hj (by omega), check, if_true, codewordBit, data, if_false,
      BitVec.ofNat_eq_ofNat, BitVec.xor_zero]

/-- A flipped bit of a codeword is corrected (R226). -/
theorem eccDecode_flipped (d : DWord) (a : Nat) {j : Nat} (hj : j < 72) :
    eccDecode (d ^^^ (codewordBit j).1) (eccCheck d a ^^^ (codewordBit j).2) a = (d, .corrected, eccColumn j) := by
  have syndrome := syndrome_flip d (eccCheck d a) a j
  rw [BitVec.xor_self, BitVec.zero_xor] at syndrome
  rw [eccDecode_corrected hj syndrome, BitVec.xor_assoc, BitVec.xor_self, BitVec.xor_zero]

theorem eccDecode_uncorrectable (h0 : x ^^^ eccCheck d a ≠ 0) (h : ∀ j < 72, x ^^^ eccCheck d a ≠ eccColumn j) :
    eccDecode d x a = (d, .uncorrectable, x ^^^ eccCheck d a) := by
  have data : colIndex dcol (x ^^^ eccCheck d a) = none := by
    refine colIndex_eq_none_iff.2 fun mem => ?_
    obtain ⟨j, hj, e⟩ := List.mem_iff_getElem.1 mem
    have hj : j < 64 := hj
    exact h j (by omega) (by rw [eccColumn, if_pos hj, ← e]; exact (List.getD_eq_getElem dcol 0 hj).symm)
  have check : (List.range 8).any (fun i => x ^^^ eccCheck d a = BitVec.ofNat 8 (2 ^ i)) = false := by
    refine List.any_eq_false.2 fun i hi => ?_
    have hi := List.mem_range.1 hi
    have := h (64 + i) (by omega)
    simpa [eccColumn] using this
  simp only [eccDecode, h0, if_false, data, check]
  rfl

/-- A word is uncorrectable exactly where its syndrome is neither 0 nor the column of a codeword bit. -/
theorem eccDecode_uncorrectable_iff :
    (eccDecode d x a).2.1 = .uncorrectable ↔ x ^^^ eccCheck d a ≠ 0 ∧ ∀ j < 72, x ^^^ eccCheck d a ≠ eccColumn j := by
  refine ⟨fun u => ⟨fun h => ?_, fun j hj h => ?_⟩, fun ⟨h0, h⟩ => by rw [eccDecode_uncorrectable h0 h]⟩
  · rw [eccDecode_clean h] at u; cases u
  · rw [eccDecode_corrected hj h] at u; cases u

/-! ### Weights (R224, R226) -/

/-- An odd number of the bits of a syndrome is set. -/
def oddWeight (s : BitVec 8) : Bool := (List.range 8).foldr (fun i odd => s.getLsbD i ^^ odd) false

theorem oddWeight_xor (s t : BitVec 8) : oddWeight (s ^^^ t) = (oddWeight s ^^ oddWeight t) := by
  unfold oddWeight
  induction List.range 8 with
  | nil => rfl
  | cons i r ih =>
    rw [List.foldr_cons, ih, BitVec.getLsbD_xor]
    simp only [List.foldr_cons, Bool.xor_assoc, Bool.xor_left_comm]

theorem oddWeight_eccColumn : ∀ j < 72, oddWeight (eccColumn j) = true := by decide

theorem oddWeight_addrColumn : ∀ b < 40, oddWeight (addrColumn b) = false := by decide

theorem nodup_eccColumn : ((List.range 72).map eccColumn).Nodup := by decide

theorem nodup_addrColumn : ((List.range' 3 37).map addrColumn).Nodup := by decide

theorem addrColumn_ne_zero : ∀ b < 40, addrColumn b ≠ 0 := by decide

theorem eccColumn_ne {i j : Nat} (h : i < j) (hj : j < 72) : eccColumn i ≠ eccColumn j := fun e =>
  h.ne (List.inj_on_of_nodup_map nodup_eccColumn (List.mem_range.2 (h.trans hj)) (List.mem_range.2 hj) e)

theorem addrColumn_ne {b e : Nat} (h3 : 3 ≤ b) (h : b < e) (he : e < 40) : addrColumn b ≠ addrColumn e := fun eq =>
  h.ne (List.inj_on_of_nodup_map nodup_addrColumn (List.mem_range'_1.2 (by omega)) (List.mem_range'_1.2 (by omega)) eq)

/-- Every column of a codeword bit has odd weight: a syndrome of even weight is none of them (R226). -/
theorem eccDecode_even {s : BitVec 8} (h : x ^^^ eccCheck d a = s) (h0 : s ≠ 0) (even : oddWeight s = false) :
    (eccDecode d x a).2.1 = .uncorrectable := by
  subst h
  refine eccDecode_uncorrectable_iff.2 ⟨h0, fun j hj e => ?_⟩
  rw [e, oddWeight_eccColumn j hj] at even
  cases even

end Sys2Proof.Machine

open Sys2Proof Sys2Proof.Machine

/-- Settles O33: the syndrome is the sum of the columns of what was flipped. The columns of the codeword's bits are distinct
and of odd weight, those of the address bits are distinct and of even weight (R224), so two of a kind, or one of the address,
sum to a syndrome of even weight that is not 0, which R225 does not correct. -/
theorem eccCorrectsAndDetects : Obligations.EccCorrectsAndDetects := by
  unfold Obligations.EccCorrectsAndDetects
  intro d a _ k flip kind
  refine ⟨eccDecode_clean BitVec.xor_self, fun j hj => ⟨congrArg Prod.fst (eccDecode_flipped d a hj),
    congrArg (·.2.1) (eccDecode_flipped d a hj)⟩, fun i j hij hj => ?two, fun b h3 hb => ?addr,
    fun b e h3 hbe he => ?addrs, fun w x => ?iff⟩
  case two =>
    have syndrome : (k ^^^ (codewordBit i).2 ^^^ (codewordBit j).2) ^^^
        eccCheck (d ^^^ (codewordBit i).1 ^^^ (codewordBit j).1) a = eccColumn i ^^^ eccColumn j := by
      rw [syndrome_flip _ _ a j, syndrome_flip d k a i, BitVec.xor_self, BitVec.zero_xor]
    refine eccDecode_even syndrome (fun h => eccColumn_ne hij hj (BitVec.xor_eq_zero_iff.1 h)) ?_
    rw [oddWeight_xor, oddWeight_eccColumn i (hij.trans hj), oddWeight_eccColumn j hj]; rfl
  case addr =>
    have syndrome : k ^^^ eccCheck d (a ^^^ 2 ^ b) = addrColumn b := by
      rw [eccCheck_xor_addr d a h3 hb, ← BitVec.xor_assoc, BitVec.xor_self, BitVec.zero_xor]
    exact eccDecode_even syndrome (addrColumn_ne_zero b hb) (oddWeight_addrColumn b hb)
  case addrs =>
    have syndrome : k ^^^ eccCheck d (a ^^^ 2 ^ b ^^^ 2 ^ e) = addrColumn b ^^^ addrColumn e := by
      rw [eccCheck_xor_addr d _ (by omega) he, eccCheck_xor_addr d a h3 (hbe.trans he), BitVec.xor_assoc,
        ← BitVec.xor_assoc, BitVec.xor_self, BitVec.zero_xor]
    refine eccDecode_even syndrome (fun h => addrColumn_ne h3 hbe he (BitVec.xor_eq_zero_iff.1 h)) ?_
    rw [oddWeight_xor, oddWeight_addrColumn b (hbe.trans he), oddWeight_addrColumn e he]; rfl
  case iff =>
    refine eccDecode_uncorrectable_iff.trans (and_congr_right fun _ => forall₂_congr fun j _ => ?_)
    rw [← eccCheck_codewordBit j]
    rfl
end

section
/-! Words in memory (R211, R221 to R228): what a word's write leaves, what a read of a clean word and of one with a flipped bit
does, and the regions that a read does not fill. -/
namespace Sys2Proof.Machine
namespace Chip
variable {c d : Chip} {a : Nat}

/-! ### Bytes and words -/

/-- The data of the word at `a` as last written. -/
def word (c : Chip) (a : Nat) : DWord := BitVec.ofNat 64 (c.rawNat 8 a)

theorem length_bytesLE (n v : Nat) : (bytesLE n v).length = n := by
  induction n generalizing v with
  | zero => rfl
  | succ n ih => rw [bytesLE, List.length_cons, ih]

theorem rawNat_congr (h : ∀ b, d.byte b = c.byte b) (n a : Nat) : d.rawNat n a = c.rawNat n a := by
  induction n generalizing a with
  | zero => rfl
  | succ n ih => rw [rawNat, rawNat, h, ih]

theorem rawNat_lt (c : Chip) (n a : Nat) : c.rawNat n a < 256 ^ n := by
  induction n generalizing a with
  | zero => exact Nat.one_pos
  | succ n ih =>
    have low := (c.byte a).isLt
    have high := ih (a + 1)
    rw [rawNat, Nat.pow_succ]
    omega

theorem byte_setBytes_other (c : Chip) {b : Nat} {l : List Byte} (h : b < a ∨ a + l.length ≤ b) :
    (c.setBytes a l).byte b = c.byte b := by
  induction l generalizing c a with
  | nil => rfl
  | cons v r ih =>
    rw [List.length_cons] at h
    exact (ih (c.setByte a v) (a := a + 1) (by omega)).trans (c.byte_setByte_other v (by omega))

/-- The octets of a number read back as the number, as far as they hold it. -/
theorem rawNat_setBytes (c : Chip) (n a v : Nat) : (c.setBytes a (bytesLE n v)).rawNat n a = v % 256 ^ n := by
  induction n generalizing c a v with
  | zero => exact (Nat.mod_one v).symm
  | succ n ih =>
    have first : (c.setBytes a (bytesLE (n + 1) v)).byte a = BitVec.ofNat 8 v :=
      (byte_setBytes_other (c.setByte a (BitVec.ofNat 8 v)) (.inl (Nat.lt_succ_self a))).trans (c.byte_setByte_same a _)
    have rest : (c.setBytes a (bytesLE (n + 1) v)).rawNat n (a + 1) = v / 256 % 256 ^ n := ih _ _ _
    rw [rawNat, first, rest, BitVec.toNat_ofNat, Nat.pow_succ' (m := 256), show 2 ^ 8 = 256 from rfl, Nat.mod_mul]

/-- Writing octets as they stand changes no byte. -/
theorem byte_setBytes_rawNat (c : Chip) (n a b : Nat) : (c.setBytes a (bytesLE n (c.rawNat n a))).byte b = c.byte b := by
  induction n generalizing c a with
  | zero => rfl
  | succ n ih =>
    have low : BitVec.ofNat 8 (c.rawNat (n + 1) a) = c.byte a := by
      apply BitVec.eq_of_toNat_eq
      rw [BitVec.toNat_ofNat, rawNat, Nat.add_mul_mod_self_left, Nat.mod_eq_of_lt (c.byte a).isLt]
    have high : c.rawNat (n + 1) a / 256 = c.rawNat n (a + 1) := by
      have := (c.byte a).isLt
      rw [rawNat]; omega
    have same : ∀ b, (c.setByte a (c.byte a)).byte b = c.byte b := fun b => by
      by_cases h : b = a
      · rw [h, byte_setByte_same]
      · exact c.byte_setByte_other _ h
    have step := ih (c.setByte a (c.byte a)) (a + 1)
    rw [rawNat_congr same, same] at step
    rwa [bytesLE, low, high]

/-! ### A word written with its check bits (R228) -/

theorem storeWord_eq (c : Chip) (a : Nat) (w : DWord) :
    ∃ m, c.storeWord a w = { c with mem := m, ecc := c.ecc.erase (a / 8) } := by
  obtain ⟨m, h, -⟩ := c.setBytes_eq (a / 8 * 8) (bytesLE 8 w.toNat)
  exact ⟨m, by rw [storeWord, h]; rfl⟩

theorem byte_storeWord_other (c : Chip) (w : DWord) {b : Nat} (h : b / 8 ≠ a / 8) :
    (c.storeWord a w).byte b = c.byte b :=
  c.byte_setBytes_other (by rw [length_bytesLE]; omega)

theorem word_storeWord (c : Chip) (w : DWord) (h : a % 8 = 0) : (c.storeWord a w).word a = w := by
  have raw : (c.storeWord a w).rawNat 8 a = w.toNat := by
    have aligned : a / 8 * 8 = a := by omega
    rw [storeWord, aligned, rawNat_congr (byte_setFlips _ a 0), rawNat_setBytes]
    exact Nat.mod_eq_of_lt w.isLt
  rw [word, raw, BitVec.ofNat_toNat, BitVec.setWidth_eq]

theorem byte_storeWord_word (c : Chip) (h : a % 8 = 0) (b : Nat) : (c.storeWord a (c.word a)).byte b = c.byte b := by
  have aligned : a / 8 * 8 = a := by omega
  have raw : (c.word a).toNat = c.rawNat 8 a :=
    (BitVec.toNat_ofNat _ _).trans (Nat.mod_eq_of_lt (c.rawNat_lt 8 a))
  rw [storeWord, byte_setFlips, aligned, raw]
  exact c.byte_setBytes_rawNat 8 a b

/-! ### A word read (R225, R227) -/

theorem readCode_of_ecc_nil (h : c.ecc = []) (a : Nat) : c.readCode a = (c.word (a / 8 * 8), .clean, 0) := by
  have stored : c.stored a = (c.word (a / 8 * 8), eccCheck (c.word (a / 8 * 8)) a) := by
    simp [stored, flips, h, word]
  rw [readCode, stored]
  exact eccDecode_clean BitVec.xor_self

/-- The 72 bits of a single flip are the data and the check bits of the flipped bit. -/
theorem halves_of_codewordBit : ∀ j < 72,
    ((BitVec.ofNat 72 (2 ^ j)).setWidth 64, (BitVec.ofNat 72 (2 ^ j) >>> 64).setWidth 8) = codewordBit j := by decide

theorem readCode_of_flipped {j : Nat} (hj : j < 72) (h8 : a % 8 = 0) (h : c.ecc = [(a / 8, BitVec.ofNat 72 (2 ^ j))]) :
    c.readCode a = (c.word a, .corrected, eccColumn j) := by
  have aligned : a / 8 * 8 = a := by omega
  have bit := halves_of_codewordBit j hj
  have stored : c.stored a = (c.word a ^^^ (codewordBit j).1, eccCheck (c.word a) a ^^^ (codewordBit j).2) := by
    rw [← bit, stored, flips, h, aligned, Tab.get, if_pos rfl, word]
  rw [readCode, stored]
  exact eccDecode_flipped _ a hj

theorem readWord_of_ecc_nil (he : c.ecc = []) (h8 : a % 8 = 0) (hf : c.fillRegion a = c) (now : Nat) (who : Option Nat)
    (scrub : Bool) : c.readWord now a who scrub = (c, some (c.word a)) := by
  have aligned : a / 8 * 8 = a := by omega
  simp only [readWord, aligned, hf, readCode_of_ecc_nil he]

/-- A read that meets one flipped bit writes the word back and reports it. -/
theorem readWord_of_flipped {j : Nat} (hj : j < 72) (h8 : a % 8 = 0) (he : c.ecc = [(a / 8, BitVec.ofNat 72 (2 ^ j))])
    (hf : c.fillRegion a = c) (now : Nat) (who : Option Nat) (scrub : Bool) : c.readWord now a who scrub =
      ((c.storeWord a (c.word a)).eccReport now a 1 (eccColumn j) scrub who, some (c.word a)) := by
  have aligned : a / 8 * 8 = a := by omega
  simp only [readWord, aligned, hf, readCode_of_flipped hj h8 he]

/-! ### Regions (R17 to R19, R219, R221) -/

theorem region_dram_lt {p : Nat} (h : c.region a = .dram p) : a < 0x1000000000 := by
  by_contra above
  rw [region, if_neg (by omega), if_neg (by omega)] at h
  split_ifs at h

theorem region_bank_bounds {n : Nat} (h : c.region a = .bank n) : bankBase ≤ a ∧ a < bankBase + 0x2000000 := by
  unfold region at h
  split_ifs at h
  assumption

theorem region_bitSet_bounds {n : Nat} (h : c.region a = .bitSet n) : setBase ≤ a ∧ a < setBase + 0x2000000 := by
  unfold region at h
  split_ifs at h
  assumption

theorem region_bitClear_bounds {n : Nat} (h : c.region a = .bitClear n) :
    clearBase ≤ a ∧ a < clearBase + 0x2000000 := by
  unfold region at h
  split_ifs at h
  assumption

theorem dramSize_le (c : Chip) (p : Nat) : c.dramSize p ≤ 0x800000000 := by
  have dens : c.gf (.DRM_CFG p) DRM_CFG.DENS < 2 := DRM_CFG.DENS.get_lt _
  have ranks : c.gf (.DRM_CFG p) DRM_CFG.RANKS < 2 := DRM_CFG.RANKS.get_lt _
  unfold dramSize
  split
  · exact Nat.mul_le_mul (Nat.mul_le_mul_left _ (by omega : _ ≤ 2)) (by omega : _ ≤ 2)
  · exact Nat.zero_le _

theorem region_dramBase {p : Fin 2} {x : Nat} (h : x < c.dramSize p) : c.region (dramBase p + x) = .dram p := by
  have size := c.dramSize_le p
  obtain rfl | rfl : p = 0 ∨ p = 1 := by omega
  · simp [region, dramBase, show x < 0x800000000 by omega, show x < c.dramSize 0 from h]
  · simp [region, dramBase, show 0x800000000 + x < 0x1000000000 by omega, show x < c.dramSize 1 from h]

/-- A read above the DRAM fills no region. -/
theorem fillRegion_of_above (h : 0x1000000000 ≤ a) : c.fillRegion a = c := by
  unfold fillRegion
  split
  next p dram => exact absurd (region_dram_lt dram) (Nat.not_lt.2 h)
  next => rfl

theorem fillRegion_of_filled {p : Nat} (h : c.region a = .dram p)
    (filled : a % 0x800000000 / 0x100000 ∈ c.filled.get [] p) : c.fillRegion a = c := by
  simp [fillRegion, h, filled]

end Chip
end Sys2Proof.Machine
end

section
/-! Bank ownership (R212 to R216): what the start and the end of a handover write, and a store through the bit
aliases. -/
namespace Sys2Proof.Machine

theorem Tab.get_dropKeys {α : Type} (d : α) (t : Tab α) (p : Nat → Bool) (k : Nat) :
    Tab.get d (t.dropKeys p) k = if p k then d else Tab.get d t k := by
  induction t with
  | nil => simp [Tab.dropKeys]
  | cons e r ih =>
    obtain ⟨j, v⟩ := e
    unfold Tab.dropKeys at ih ⊢
    by_cases hj : p j = true
    · rw [List.filter_cons_of_neg (by simp [hj]), ih]
      by_cases hk : k = j
      · simp [hk, hj]
      · simp [Tab.get, hk]
    · rw [List.filter_cons_of_pos (by simpa using hj)]
      by_cases hk : k = j
      · simp [Tab.get, hk, hj]
      · simp [Tab.get, hk, ih]

namespace Chip
variable {c : Chip}

/-! ### Conflicts and snoops write no memory -/

theorem txConflict_eq (c : Chip) (key : Nat) (y : BitVec 8) :
    ∃ p x, c.txConflict key y = { c with ports := p, triads := x } := by
  unfold txConflict
  simp only []
  split
  · exact ⟨_, _, rfl⟩
  · split
    · exact ⟨_, _, rfl⟩
    · obtain ⟨x, wanted⟩ := want_eq (c.setPort key { c.port key with tx := { (c.port key).tx with pendAbort := some y } })
        (key / 3) .txAbort
      exact ⟨_, x, wanted⟩

theorem enterInv_eq (c : Chip) (t line : Nat) : ∃ r x, c.enterInv t line = { c with regs := r, triads := x } := by
  unfold enterInv
  simp only []
  split
  · exact ⟨_, _, rfl⟩
  · exact ⟨_, _, rfl⟩

/-- A store that meets a requester leaves memory and its check bits as they are. -/
theorem snoop_eq (c : Chip) (line key : Nat) :
    ∃ r l p x, c.snoop line key = { c with regs := r, lanes := l, ports := p, triads := x } := by
  have conflict : ∃ p x, (if (c.port key).tx.rset.contains line then c.txConflict key 0x02 else c) =
      { c with ports := p, triads := x } := by
    split
    · exact c.txConflict_eq key _
    · exact ⟨_, _, rfl⟩
  obtain ⟨p, x, h⟩ := conflict
  unfold snoop
  simp only [h]
  split
  · exact ⟨_, _, _, _, rfl⟩
  · split
    · obtain ⟨r, y, entered⟩ := enterInv_eq { c with ports := p, triads := x } (key / 3) line
      exact ⟨r, _, p, y, entered⟩
    · exact ⟨_, _, _, _, rfl⟩

theorem snoopAll_eq (c : Chip) (line : Nat) (src : Option Nat) :
    ∃ r l p x, c.snoopAll line src = { c with regs := r, lanes := l, ports := p, triads := x } := by
  refine List.foldlRecOn (motive := fun d : Chip => ∃ r l p x, d = { c with regs := r, lanes := l, ports := p, triads := x })
    _ _ ⟨c.regs, c.lanes, c.ports, c.triads, rfl⟩ ?_
  rintro _ ⟨r, l, p, x, rfl⟩ key -
  obtain ⟨r', l', p', x', h⟩ := snoop_eq { c with regs := r, lanes := l, ports := p, triads := x } line key
  exact ⟨r', l', p', x', h⟩

/-! ### Handovers (R213, R214) -/

theorem handovers_unitFrame (A : Nat → Prop) (c : Chip) (l : Tab (Nat × Nat × Bool)) :
    UnitFrame A c { c with handovers := l } := ⟨.of_eq rfl rfl, rfl, rfl, rfl⟩

theorem handoverAborts_unitFrame (A : Nat → Prop) (c : Chip) (n : Nat) : UnitFrame A c (c.handoverAborts n) := by
  refine List.foldlRecOn (motive := UnitFrame A c) _ _ (.refl A c) fun d hd key _ => ?_
  simp only []
  split
  · obtain ⟨p, x, aborted⟩ := d.txConflict_eq key 0x09
    rw [aborted]
    exact hd.trans ⟨.of_eq rfl rfl, rfl, rfl, rfl⟩
  · exact hd

/-- `BNK_OWNER` with BUSY set (R213 step 1). -/
def busyBank (c : Chip) (n : Nat) : Chip := c.sf (.BNK_OWNER n) BNK_OWNER.BUSY 1

theorem handoverStart_of_good {n : Nat} {v : DWord} (now : Nat) (h : c.handoverBad n v = false) :
    ∃ l, c.handoverStart now n v = { (c.handoverAborts n).busyBank n with handovers := l } :=
  ⟨_, if_neg (ne_true_of_eq_false h)⟩

theorem busyBank_fields (c : Chip) (n : Nat) : (c.busyBank n).gb (.BNK_OWNER n) BNK_OWNER.BUSY = true ∧
    (c.busyBank n).gf (.BNK_OWNER n) BNK_OWNER.TYPE = c.gf (.BNK_OWNER n) BNK_OWNER.TYPE ∧
    (c.busyBank n).gf (.BNK_OWNER n) BNK_OWNER.PART = c.gf (.BNK_OWNER n) BNK_OWNER.PART :=
  ⟨gb_sf_same c _ 16 true (by decide), gf_sf_field c _ _ _ _ (by decide) (by decide) (by decide),
    gf_sf_field c _ _ _ _ (by decide) (by decide) (by decide)⟩

/-- A handover that starts: the bank is busy, its owner stays, and no other register, memory or lane changes. -/
theorem handoverStart_sets {n : Nat} {v : DWord} (now : Nat) (h : c.handoverBad n v = false) :
    let d := c.handoverStart now n v
    d.gb (.BNK_OWNER n) BNK_OWNER.BUSY = true ∧
      d.gf (.BNK_OWNER n) BNK_OWNER.TYPE = c.gf (.BNK_OWNER n) BNK_OWNER.TYPE ∧
      d.gf (.BNK_OWNER n) BNK_OWNER.PART = c.gf (.BNK_OWNER n) BNK_OWNER.PART ∧
      RegsBut c d [.BNK_OWNER n] ∧ d.mem = c.mem ∧ d.lanes = c.lanes := by
  intro d
  obtain ⟨l, started⟩ := handoverStart_of_good now h
  let A (a : Nat) : Prop := a = (RegName.BNK_OWNER n).addr
  have before : UnitFrame (fun _ => False) c (c.handoverAborts n) := handoverAborts_unitFrame _ c n
  have written : UnitFrame A (c.handoverAborts n) ((c.handoverAborts n).busyBank n) := .sf _ _ _ rfl
  have after : UnitFrame (fun _ => False) ((c.handoverAborts n).busyBank n) d := by
    rw [show d = _ from started]
    exact handovers_unitFrame _ _ l
  have frame : UnitFrame A c d := ((before.mono fun _ => False.elim).trans written).trans (after.mono fun _ => False.elim)
  obtain ⟨busy, type, part⟩ := (c.handoverAborts n).busyBank_fields n
  exact ⟨(after.gb _ id).trans busy, (after.gf _ id).trans (type.trans (before.gf _ id)),
    (after.gf _ id).trans (part.trans (before.gf _ id)), fun q hq => frame.rd q fun ha => hq (List.mem_singleton.2 ha),
    frame.mem, frame.lanes⟩

theorem handoverStart_of_bad {n : Nat} {v : DWord} (now : Nat) (h : c.handoverBad n v = true) :
    c.handoverStart now n v = c.corrected now 8 := if_pos h

theorem byte_zeroBank (c : Chip) (n b : Nat) : (c.zeroBank n).byte b = if inBank n b then 0 else c.byte b :=
  Tab.get_dropKeys _ _ _ _

/-- `BNK_OWNER` with an owner installed and BUSY cleared (R213 step 5). -/
def installOwner (c : Chip) (n ty p : Nat) : Chip :=
  ((c.sf (.BNK_OWNER n) BNK_OWNER.TYPE ty).sf (.BNK_OWNER n) BNK_OWNER.PART p).sf (.BNK_OWNER n) BNK_OWNER.BUSY 0

theorem installOwner_onlyRegs (c : Chip) (n ty p : Nat) : OnlyRegs c (c.installOwner n ty p) [.BNK_OWNER n] :=
  have written (c : Chip) (f : Fld) (k : Nat) : OnlyRegs c (c.sf (.BNK_OWNER n) f k) [.BNK_OWNER n] :=
    .sf c f k (List.mem_singleton_self _)
  ((written c _ _).trans (written _ _ _)).trans (written _ _ _)

theorem installOwner_fields (c : Chip) (n : Nat) {ty p : Nat} (ht : ty < 8) (hp : p < 64) :
    (c.installOwner n ty p).gf (.BNK_OWNER n) BNK_OWNER.TYPE = ty ∧
      (c.installOwner n ty p).gf (.BNK_OWNER n) BNK_OWNER.PART = p ∧
      (c.installOwner n ty p).gb (.BNK_OWNER n) BNK_OWNER.BUSY = false := by
  refine ⟨?type, ?part, gb_sf_same _ _ 16 false (by decide)⟩
  case type =>
    rw [installOwner, gf_sf_field _ _ _ _ _ (by decide) (by decide) (by decide),
      gf_sf_field _ _ _ _ _ (by decide) (by decide) (by decide), gf_sf_same _ _ _ _ (by decide) (by decide)]
    exact Nat.mod_eq_of_lt ht
  case part =>
    rw [installOwner, gf_sf_field _ _ _ _ _ (by decide) (by decide) (by decide), gf_sf_same _ _ _ _ (by decide) (by decide)]
    exact Nat.mod_eq_of_lt hp

theorem handoverDone_eq {n ty p : Nat} {clr : Bool}
    (h : c.handovers.find? (fun e => e.1 == n) = some (n, ty, p, clr)) : c.handoverDone n =
      ({ (if clr then c.zeroBank n else c) with handovers := c.handovers.erase n } : Chip).installOwner n ty p := by
  rw [handoverDone, h]
  cases clr <;> rfl

/-- The end of a handover in memory: the bank is cleared where CLR was set. -/
theorem byte_handoverDone {n ty p : Nat} {clr : Bool}
    (h : c.handovers.find? (fun e => e.1 == n) = some (n, ty, p, clr)) (b : Nat) :
    (c.handoverDone n).byte b = if clr = true ∧ inBank n b = true then 0 else c.byte b := by
  rw [handoverDone_eq h]
  cases clr
  · simp [installOwner, byte]
  · simpa [installOwner, byte] using c.byte_zeroBank n b

/-! ### The bit aliases (R215, R216) -/

/-- The word that an address in the bit aliases stands for lies above the DRAM. -/
theorem above_storageAddr {a : Nat} (h : setBase ≤ a) : 0x1000000000 ≤ storageAddr a / 8 * 8 := by
  have storage : bankBase ≤ storageAddr a := by
    unfold storageAddr
    split
    · split
      · exact Nat.le_add_left _ _
      · exact Nat.le_add_left _ _
    · exact le_trans (by decide) h
  rw [bankBase] at storage
  omega

/-- What a store of `v` at the address `a` in the bit aliases makes of the word `x`. -/
def aliasWord (a : Nat) (x v : DWord) : DWord := if a < clearBase then x ||| v else x &&& ~~~v

/-- A store through the bit aliases of a word without a flip: the word's bits are set or cleared, and nothing else of memory
changes. -/
theorem aliasStore_word {a : Nat} (now : Nat) (v : DWord) (he : c.ecc = []) (ha : setBase ≤ a) :
    let w := storageAddr a / 8 * 8
    let d := (c.aliasStore now a v none).1
    d.word w = aliasWord a (c.word w) v ∧
      (∀ b, b / 8 ≠ w / 8 → d.byte b = c.byte b) ∧ d.ecc = [] := by
  intro w d
  have aligned : w % 8 = 0 := Nat.mul_mod_left _ _
  have stored : d = (c.storeWord w (aliasWord a (c.word w) v)).snoopAll (lineOf w) none := by
    simp only [d, aliasStore, readWord_of_ecc_nil he aligned (fillRegion_of_above (above_storageAddr ha)), aliasWord, w]
  obtain ⟨r, l, p, x, seen⟩ := snoopAll_eq (c.storeWord w (aliasWord a (c.word w) v))
    (lineOf w) none
  obtain ⟨m, written⟩ := c.storeWord_eq w (aliasWord a (c.word w) v)
  have byte : ∀ b, d.byte b = (c.storeWord w (aliasWord a (c.word w) v)).byte b := by
    rw [stored, seen]
    exact fun _ => rfl
  refine ⟨?_, fun b hb => (byte b).trans (c.byte_storeWord_other _ hb), ?_⟩
  · rw [word, rawNat_congr byte, ← word, word_storeWord _ _ aligned]
  · rw [stored, seen, written, he]; rfl

/-- The region among the bit aliases of bank `n` in which a store sets bits, or clears them. -/
abbrev aliasRegion (set : Bool) (n : Nat) : Region := if set then .bitSet n else .bitClear n

theorem aliasRegion_above {set : Bool} {n a : Nat} (h : c.region a = aliasRegion set n) : setBase ≤ a := by
  cases set
  · exact le_trans (by decide) (region_bitClear_bounds h).1
  · exact (region_bitSet_bounds h).1

theorem aliasWord_set {n a : Nat} (h : c.region a = .bitSet n) (x v : DWord) : aliasWord a x v = x ||| v :=
  if_pos ((region_bitSet_bounds h).2.trans_le (by decide))

theorem aliasWord_clear {n a : Nat} (h : c.region a = .bitClear n) (x v : DWord) : aliasWord a x v = x &&& ~~~v :=
  if_neg (Nat.not_lt.2 (region_bitClear_bounds h).1)

variable {ag : Agent} {addr : BitVec 40} {set : Bool} {n : Nat}

theorem aliasBy_of_owner (now : Nat) (v : DWord) (hr : c.region addr.toNat = aliasRegion set n) (ho : c.off = false)
    (hw : c.agentOwns ag n = true) (hd : c.domainOn (9 + n / 8) = true) :
    c.aliasBy now ag addr v set = (c.aliasStore now addr.toNat v none).1 := by
  cases set <;> simp [aliasBy, aliasRegion, hr, ho, hw, hd]

theorem aliasBy_of_stranger (now : Nat) (v : DWord) (hr : c.region addr.toNat = aliasRegion set n)
    (hw : c.agentOwns ag n = false) : c.aliasBy now ag addr v set = c := by
  cases set <;> simp [aliasBy, aliasRegion, hr, hw]

theorem aliasBy_elsewhere (now : Nat) (v : DWord) (hr : ∀ m, c.region addr.toNat ≠ aliasRegion set m) :
    c.aliasBy now ag addr v set = c := by
  unfold aliasBy
  simp only []
  split
  next m region => exact absurd region (hr m)
  next m region => exact absurd region (hr m)
  next => rfl

end Chip

/-! ### The commands -/

variable {s : State} {ag : Agent} {n : Fin 64}

theorem exec_bankHandover (ho : s.chip.off = false) (hw : s.chip.mayWrite ag (.BNK_OWNER n) = true) (v : DWord) :
    exec (.bankHandover ag n v) s = .next { s with chip := s.chip.handoverStart s.now.toNat n v } := by
  change execBankHandover ag n v s = _
  simp [execBankHandover, State.act, ho, hw]

theorem exec_bankHandover_of_denied (hw : s.chip.mayWrite ag (.BNK_OWNER n) = false) (v : DWord) :
    exec (.bankHandover ag n v) s = .next s := by
  change execBankHandover ag n v s = _
  simp [execBankHandover, State.act, hw]

theorem exec_bankHandoverEnd (hg : s.chip.bankGated n = false) :
    exec (.bankHandoverEnd n) s = .next { s with chip := s.chip.handoverDone n } := by
  change execBankHandoverEnd n s = _
  simp [execBankHandoverEnd, State.act, hg]

theorem exec_bankHandoverEnd_of_gated (hg : s.chip.bankGated n = true) : exec (.bankHandoverEnd n) s = .next s := by
  change execBankHandoverEnd n s = _
  simp [execBankHandoverEnd, State.act, hg]

theorem exec_bitSetAliasStore (s : State) (ag : Agent) (addr : BitVec 40) (v : DWord) :
    exec (.bitSetAliasStore ag addr v) s = .next { s with chip := s.chip.aliasBy s.now.toNat ag addr v true } := rfl

theorem exec_bitClearAliasStore (s : State) (ag : Agent) (addr : BitVec 40) (v : DWord) :
    exec (.bitClearAliasStore ag addr v) s = .next { s with chip := s.chip.aliasBy s.now.toNat ag addr v false } := rfl

end Sys2Proof.Machine

open Sys2Proof Sys2Proof.Machine

/-- Settles O34: the start of a handover writes BUSY alone besides what the aborted transactions hold, its end installs the
owner; a store through the bit aliases reads a clean word and writes it back. What makes a write of `BNK_OWNER` bad is the model's
reading (log 23), that a command without its right, its region or its trigger changes nothing is its choice (log 3), and that
a handover ends only after the stores accepted before it rests on its reading of acceptance (log 12). -/
theorem bankOwnership : Obligations.BankOwnership := by
  unfold Obligations.BankOwnership
  intro s ag n v addr ty p clr c r i w word aliased
  let now := s.now.toNat
  have aliasStore (set : Bool) (f : DWord → DWord) (i : Instr)
      (answer : exec i s = .next { s with chip := c.aliasBy now ag addr v set })
      (value : c.region addr.toNat = Chip.aliasRegion set n → ∀ x, Chip.aliasWord addr.toNat x v = f x) :
      aliased set f i := by
    refine ⟨fun region off owner on clean => ?_, fun stranger region => ?_, fun elsewhere => ?_⟩
    · rw [Chip.aliasBy_of_owner now v region off owner on] at answer
      obtain ⟨stored, others, unflipped⟩ := Chip.aliasStore_word now v clean (Chip.aliasRegion_above region)
      exact ⟨_, answer, stored.trans (value region _), others, unflipped⟩
    · rw [answer, Chip.aliasBy_of_stranger now v region stranger]
    · rw [answer, Chip.aliasBy_elsewhere now v elsewhere]
  have sets := aliasStore true (fun x => x ||| v) _ (exec_bitSetAliasStore s ag addr v) fun region x =>
    Chip.aliasWord_set region x v
  have clears := aliasStore false (fun x => x &&& ~~~v) _ (exec_bitClearAliasStore s ag addr v) fun region x =>
    Chip.aliasWord_clear region x v
  refine ⟨fun off writes good => ?start, fun off writes bad => ?bad, fun denied => exec_bankHandover_of_denied denied v,
    fun ended held hty hp => ?done, exec_bankHandoverEnd_of_gated, sets, clears⟩
  case start =>
    exact ⟨_, exec_bankHandover off writes v, Chip.handoverStart_sets now good⟩
  case bad =>
    have answer := exec_bankHandover off writes v
    rw [Chip.handoverStart_of_bad now bad] at answer
    have owner : ¬ Chip.FltAddr r.addr := by simp only [r, Chip.FltAddr, RegName.addr]; omega
    obtain ⟨f, reported⟩ := c.corrected_eq now 8
    exact ⟨_, answer, c.corrected_stands now (by decide), (c.corrected_unitFrame now 8).rd r owner, by rw [reported]; rfl,
      c.corrected_sameCore now 8⟩
  case done =>
    let zeroed : Chip := { (if clr then c.zeroBank n else c) with handovers := c.handovers.erase n }
    have installed : c.handoverDone n = zeroed.installOwner n ty p := Chip.handoverDone_eq held
    have before : zeroed.regs = c.regs ∧ zeroed.lanes = c.lanes := by cases clr <;> exact ⟨rfl, rfl⟩
    obtain ⟨regs, lanes⟩ := before
    obtain ⟨type, part, busy⟩ := zeroed.installOwner_fields n hty hp
    obtain ⟨frame, written⟩ := zeroed.installOwner_onlyRegs n ty p
    refine ⟨_, exec_bankHandoverEnd ended, ?_, ?_, ?_, Chip.byte_handoverDone held, fun q hq => ?_, ?_⟩
    · rw [installed]; exact type
    · rw [installed]; exact part
    · rw [installed]; exact busy
    · rw [installed, written q hq, Chip.rd_of_regs_eq regs]
    · rw [installed, frame]; exact lanes
end

section
/-! Scrubs, the background fill and the patrol (R218, R221, R222, R227). -/
namespace Sys2Proof.Machine
namespace Chip
variable {c : Chip} {a : Nat}

/-! ### Scrubs (R218, R225 to R227) -/

/-- A scrub that meets clean words alone leaves them. -/
theorem foldl_readWord_of_clean (now : Nat) (l : List Nat) (he : c.ecc = []) (h8 : a % 8 = 0)
    (hf : ∀ i ∈ l, c.fillRegion (a + 8 * i) = c) :
    l.foldl (fun c i => (c.readWord now (a + 8 * i) none true).1) c = c := by
  refine List.foldlRecOn (motive := (· = c)) l _ rfl fun d hd i hi => ?_
  rw [hd, readWord_of_ecc_nil he (by omega) (hf i hi)]

theorem scrubLine_of_clean (now a : Nat) (he : c.ecc = []) (hf : ∀ i < 8, c.fillRegion (a / 64 * 64 + 8 * i) = c) :
    c.scrubLine now a = c :=
  foldl_readWord_of_clean now (List.range 8) he (by omega) fun i hi => hf i (List.mem_range.1 hi)

theorem corrected_ecc (c : Chip) (now src : Nat) : (c.corrected now src).ecc = c.ecc := by
  obtain ⟨f, reported⟩ := c.corrected_eq now src
  simp only [reported, setSticky, wr_ecc]

/-- The error registers of a bank after a corrected word (R227). -/
def noteCorrected (c : Chip) (n off synd : Nat) : Chip :=
  let r := RegName.BNK_ECC n
  (((c.inc r BNK_ECC.CE).sf r BNK_ECC.SYND synd).sf r BNK_ECC.KIND 1).sf r BNK_ECC.WORD (off / 8)

theorem eccReport_bank_corrected {n : Nat} (now : Nat) (y : BitVec 8) (scrub : Bool) (who : Option Nat)
    (h : c.region a = .bank n) : c.eccReport now a 1 y scrub who =
      ((c.bookInc (0x880 + 4 * n)).noteCorrected n (a % 0x80000) y.toNat).corrected now 8 := by
  simp only [eccReport, memSource, eccNote, h, beq_self_eq_true, if_true, noteCorrected]

theorem noteCorrected_count (c : Chip) (n off synd : Nat) : (c.noteCorrected n off synd).gf (.BNK_ECC n) BNK_ECC.CE =
    min (c.gf (.BNK_ECC n) BNK_ECC.CE + 1) BNK_ECC.CE.max := by
  rw [noteCorrected, gf_sf_field _ _ _ _ _ (by decide) (by decide) (by decide),
    gf_sf_field _ _ _ _ _ (by decide) (by decide) (by decide), gf_sf_field _ _ _ _ _ (by decide) (by decide) (by decide)]
  exact gf_inc_same c _ _ (by decide) (by decide)

/-- The report of a corrected word of bank `n`: the fault of source 8, one more corrected error, and no change in memory. -/
theorem eccReport_bank_sets {n : Nat} (now : Nat) (y : BitVec 8) (scrub : Bool) (who : Option Nat)
    (h : c.region a = .bank n) :
    let d := c.eccReport now a 1 y scrub who
    d.stands 8 0 ∧ d.mem = c.mem ∧ d.ecc = c.ecc ∧
      d.gf (.BNK_ECC n) BNK_ECC.CE = min (c.gf (.BNK_ECC n) BNK_ECC.CE + 1) BNK_ECC.CE.max := by
  intro d
  let noted := (c.bookInc (0x880 + 4 * n)).noteCorrected n (a % 0x80000) y.toNat
  have reported : d = noted.corrected now 8 := eccReport_bank_corrected now y scrub who h
  have unflipped : noted.ecc = c.ecc := by simp only [noted, noteCorrected, inc, sf_ecc, bookInc_ecc]
  have count : noted.gf (.BNK_ECC n) BNK_ECC.CE = min (c.gf (.BNK_ECC n) BNK_ECC.CE + 1) BNK_ECC.CE.max := by
    rw [noteCorrected_count, gf_bookInc]
  have own : ¬ FltAddr (RegName.BNK_ECC n).addr := by simp only [FltAddr, RegName.addr]; omega
  refine ⟨?_, c.eccReport_mem _ _ _ _ _ _, ?_, ?_⟩
  · rw [reported]; exact noted.corrected_stands now (by decide)
  · rw [reported, corrected_ecc]; exact unflipped
  · rw [reported]; exact ((noted.corrected_unitFrame now 8).gf _ own).trans count

/-- A scrub that meets one flipped bit, in the first word of a bank's line, mends it. -/
theorem scrubLine_mends {n j : Nat} (now : Nat) (h : c.region a = .bank n) (hj : j < 72) (h64 : a % 64 = 0)
    (he : c.ecc = [(a / 8, BitVec.ofNat 72 (2 ^ j))]) :
    let d := c.scrubLine now a
    d.ecc = [] ∧ (∀ b, d.byte b = c.byte b) ∧ d.stands 8 0 ∧
      d.gf (.BNK_ECC n) BNK_ECC.CE = min (c.gf (.BNK_ECC n) BNK_ECC.CE + 1) BNK_ECC.CE.max := by
  intro d
  have above : 0x1000000000 ≤ a := le_trans (by decide) (region_bank_bounds h).1
  have line : a / 64 * 64 = a := by omega
  let rewritten := c.storeWord a (c.word a)
  let mended := rewritten.eccReport now a 1 (eccColumn j) true none
  obtain ⟨m, written⟩ := c.storeWord_eq a (c.word a)
  have rest : rewritten.region a = c.region a ∧ rewritten.regs = c.regs ∧ rewritten.ecc = [] := by
    rw [show rewritten = _ from written]
    exact ⟨rfl, rfl, by simp [he, Tab.erase]⟩
  obtain ⟨region, regs, unflipped⟩ := rest
  obtain ⟨stands, mem, ecc, count⟩ := eccReport_bank_sets now (eccColumn j) true none (region.trans h)
  have first : (c.readWord now (a + 8 * 0) none true).1 = mended :=
    congrArg Prod.fst (readWord_of_flipped hj (by omega) he (fillRegion_of_above above) now none true)
  have ends : d = mended := by
    simp only [d, scrubLine, line, show List.range 8 = 0 :: List.range' 1 7 from rfl, List.foldl_cons, first]
    exact foldl_readWord_of_clean now _ (ecc.trans unflipped) (by omega) fun i _ => fillRegion_of_above (by omega)
  rw [ends]
  refine ⟨ecc.trans unflipped, fun b => ?_, stands, count.trans ?_⟩
  · rw [byte, mem, ← byte]; exact c.byte_storeWord_word (by omega) b
  · rw [gf_eq, rd_of_regs_eq regs, ← gf_eq]

/-! ### The background fill (R221) -/

theorem fillRegion_marks {p : Nat} (h : c.region a = .dram p) :
    a % 0x800000000 / 0x100000 ∈ (c.fillRegion a).filled.get [] p ∧ SameCore c (c.fillRegion a) ∧
      RegsBut c (c.fillRegion a) [.DRM_INIT p] := by
  by_cases filled : a % 0x800000000 / 0x100000 ∈ c.filled.get [] p
  · rw [fillRegion_of_filled h filled]
    exact ⟨filled, .refl c, fun _ _ => rfl⟩
  · let l := c.filled.get [] p ++ [a % 0x800000000 / 0x100000]
    let marked : Chip := { c with filled := c.filled.set p l }
    have counted : OnlyRegs marked (c.fillRegion a) [.DRM_INIT p] := by
      have regs := OnlyRegs.sf (rs := [.DRM_INIT p]) marked DRM_INIT.REGIONS ((c.filled.get [] p).length + 1)
        (List.mem_singleton_self _)
      simp only [fillRegion, h, List.contains_eq_mem, filled, decide_false, Bool.false_eq_true, if_false]
      split
      · exact regs.trans (.sf _ _ _ (List.mem_singleton_self _))
      · exact regs
    obtain ⟨frame, others⟩ := counted
    refine ⟨?_, ?_, fun q hq => others q hq⟩
    · rw [frame]
      show _ ∈ Tab.get [] (c.filled.set p l) p
      rw [Tab.get_set_same]
      simp [l]
    · rw [frame]; exact ⟨rfl, rfl, rfl, rfl⟩

end Chip

/-! ### The commands -/

variable {s : State} {addr : BitVec 40} {port : Fin 2}

theorem exec_bankScrub {n : Nat} (hr : s.chip.region addr.toNat = .bank n) (ho : s.chip.off = false)
    (hd : s.chip.domainOn (9 + n / 8) = true) :
    exec (.bankScrub addr) s = .next { s with chip := s.chip.scrubLine s.now.toNat addr.toNat } := by
  change execBankScrub addr s = _
  simp [execBankScrub, State.act, hr, ho, hd]

theorem exec_dramRegionFill (ho : s.chip.off = false) (ht : s.chip.gb (.DRM_CFG port) DRM_CFG.TRAINED = true)
    (region : BitVec 15) : exec (.dramRegionFill port region) s =
      .next { s with chip := s.chip.fillRegion (dramBase port + 0x100000 * region.toNat) } := by
  change execDramRegionFill port region s = _
  simp [execDramRegionFill, State.act, ho, ht]

theorem exec_dramRegionFill_of_untrained (ht : s.chip.gb (.DRM_CFG port) DRM_CFG.TRAINED = false) (region : BitVec 15) :
    exec (.dramRegionFill port region) s = .next s := by
  change execDramRegionFill port region s = _
  simp [execDramRegionFill, State.act, ht]

theorem exec_patrolScrub_of_untrained (ht : s.chip.gb (.DRM_CFG port) DRM_CFG.TRAINED = false) (line : BitVec 29) :
    exec (.patrolScrub port line) s = .next s := by
  change execPatrolScrub port line s = _
  simp [execPatrolScrub, State.act, ht]

/-- The patrol reaches the last line of a port without a flipped bit: it counts a pass and does nothing else (R222). -/
theorem exec_patrolScrub_last {line : BitVec 29} (ho : s.chip.off = false)
    (ht : s.chip.gb (.DRM_CFG port) DRM_CFG.TRAINED = true) (hp : port.val = 0 ∨ s.chip.domainOn 28 = true)
    (he : s.chip.ecc = []) (last : 64 * (line.toNat + 1) = s.chip.dramSize port) : exec (.patrolScrub port line) s =
      .next { s with chip := s.chip.inc (.DRM_SCRUB port) DRM_SCRUB.PASSES } := by
  have below : 64 * line.toNat < s.chip.dramSize port := by omega
  have clean : (if (s.chip.filled.get [] port).contains (64 * line.toNat / 0x100000) then
      s.chip.scrubLine s.now.toNat (dramBase port + 64 * line.toNat) else s.chip) = s.chip := by
    split
    next filled =>
      refine Chip.scrubLine_of_clean _ _ he fun i hi => ?_
      have size := s.chip.dramSize_le port
      have base : dramBase port % 0x800000000 = 0 := Nat.mul_mod_right _ _
      have word : (dramBase port + 64 * line.toNat) / 64 * 64 + 8 * i = dramBase port + (64 * line.toNat + 8 * i) := by omega
      rw [word]
      refine Chip.fillRegion_of_filled (Chip.region_dramBase (by omega)) ?_
      rw [show (dramBase port + (64 * line.toNat + 8 * i)) % 0x800000000 / 0x100000 = 64 * line.toNat / 0x100000 by omega]
      simpa using filled
    next => rfl
  change execPatrolScrub port line s = _
  simp only [execPatrolScrub, State.act, ho, ht, Bool.not_false, Bool.true_and, clean, below, decide_true, Bool.and_true, last,
    if_true]
  rw [if_pos (by simpa using hp)]

end Sys2Proof.Machine

open Sys2Proof Sys2Proof.Machine

/-- Settles O35: a scrub reads the words of a line, of which each reads clean but the one that holds the flip; that one is
written back with its check bits and reported. The fill and the patrol write what R221 and R222 name. That a command on a
port that is not trained changes nothing is the model's choice (log 3). -/
theorem scrubsAndFills : Obligations.ScrubsAndFills := by
  unfold Obligations.ScrubsAndFills
  intro s addr n j port region line c a
  let now := s.now.toNat
  refine ⟨fun bank off on => ⟨fun clean => ?clean, fun bit first flip => ?mend⟩, fun off trained dram => ?fill,
    fun untrained => ⟨exec_dramRegionFill_of_untrained untrained region, exec_patrolScrub_of_untrained untrained line⟩,
    fun off trained on clean last => ?patrol⟩
  case clean =>
    have above : 0x1000000000 ≤ a / 64 * 64 := by
      have low : 0x4000000000 ≤ a := (Chip.region_bank_bounds bank).1
      omega
    rw [exec_bankScrub bank off on,
      Chip.scrubLine_of_clean now a clean fun i _ => Chip.fillRegion_of_above (Nat.le_add_right_of_le above)]
  case mend => exact ⟨_, exec_bankScrub bank off on, Chip.scrubLine_mends now bank bit first flip⟩
  case fill =>
    obtain ⟨marked, core, others⟩ := Chip.fillRegion_marks dram
    have base : dramBase port % 0x800000000 = 0 := Nat.mul_mod_right _ _
    have bound := region.isLt
    rw [show (dramBase port + 0x100000 * region.toNat) % 0x800000000 / 0x100000 = region.toNat by omega] at marked
    exact ⟨_, exec_dramRegionFill off trained region, marked, core, others⟩
  case patrol =>
    have regs := OnlyRegs.sf c DRM_SCRUB.PASSES (min (c.gf (.DRM_SCRUB port) DRM_SCRUB.PASSES + 1) DRM_SCRUB.PASSES.max)
      (List.mem_singleton_self (RegName.DRM_SCRUB port))
    exact ⟨_, exec_patrolScrub_last off trained on clean last, regs.sameCore, regs.2,
      Chip.gf_inc_same c _ _ (by decide) (by decide)⟩
end

section
/-! Fences and `BARWAIT` (R238, R239, R241 to R245): their conditions on a lane's earlier stores and device writes, and what an
instruction that waits for one does. -/
namespace Sys2Proof.Machine
variable {s : State} {l : LaneId} {i : Instr}

/-! ### The conditions -/

/-- The condition of `FENCE.SL` and `FENCE.I` (R238, R241): no earlier store outside a transaction is short of its target, and
no earlier device write is unanswered. -/
def StoresVisible (s : State) (l : LaneId) : Prop :=
  (∀ r ∈ (s.lane l).stores, r.txn = true) ∧
  (∀ r ∈ (s.chip.port (s.chip.portKey l.t l.i)).outq, r.txn = true ∨ (s.lane l).storeSeq ≤ r.seq) ∧
  (∀ w ∈ (s.chip.port (s.chip.portKey l.t l.i)).devOut, (s.lane l).storeSeq ≤ w.seq)

/-- The condition of `FENCE.D` (R238, R241): no earlier device write outside a transaction is unissued or unanswered. -/
def DeviceWritesAnswered (s : State) (l : LaneId) : Prop :=
  (∀ r ∈ (s.lane l).stores, r.txn = false → r.dev = false) ∧
  (∀ r ∈ (s.chip.port (s.chip.portKey l.t l.i)).outq, r.dev = true → (s.lane l).storeSeq ≤ r.seq) ∧
  (∀ w ∈ (s.chip.port (s.chip.portKey l.t l.i)).devOut, (s.lane l).storeSeq ≤ w.seq)

/-- With nothing of the lane under way both conditions hold. -/
theorem fenced_of_empty (hs : (s.lane l).stores = []) (hq : (s.chip.port (s.chip.portKey l.t l.i)).outq = [])
    (hd : (s.chip.port (s.chip.portKey l.t l.i)).devOut = []) : StoresVisible s l ∧ DeviceWritesAnswered s l := by
  simp [StoresVisible, DeviceWritesAnswered, hs, hq, hd]

namespace Chip

theorem fencedSl_iff : s.chip.fencedSl (laneKey l) = true ↔ StoresVisible s l := by
  simp [fencedSl, StoresVisible, Lane.pendingStores, laneKey_div, laneKey_mod, and_assoc]

theorem fencedD_iff : s.chip.fencedD (laneKey l) = true ↔ DeviceWritesAnswered s l := by
  simp [fencedD, DeviceWritesAnswered, Lane.pendingStores, laneKey_div, laneKey_mod, and_assoc, ← Bool.not_eq_true,
    imp_iff_not_or]

theorem fencedAll_iff : s.chip.fencedAll (laneKey l) = true ↔ StoresVisible s l ∧ DeviceWritesAnswered s l := by
  rw [fencedAll, Bool.and_eq_true, fencedSl_iff, fencedD_iff]

/-- At a calm boundary the retirement of a lane whose registers and counts are as they were keeps the rest of it. -/
theorem retire_setLane {y : Lane} (h : Calm s l) (len : Word) (steps : Nat) (upd : Arch → Arch)
    (arch : y.arch = (s.lane l).arch := by rfl) (ldPend : y.ldPend = (s.lane l).ldPend := by rfl)
    (retired : y.retired = (s.lane l).retired := by rfl) (counted : y.steps = (s.lane l).steps := by rfl)
    (replay : y.replay = (s.lane l).replay := by rfl) :
    ∃ z, (s.chip.setLane (laneKey l) y).retire (laneKey l) len steps upd = s.chip.setLane (laneKey l) z ∧
      RetiredLane (s.lane l) z len steps upd none ∧ LaneFrame y z := by
  have landed : y.landed = (s.lane l).landed := by rw [Lane.landed, Lane.landed, arch, ldPend]
  have done := Lane.retire_retired y len steps upd none
  refine ⟨s.chip.settled l.t (y.retire len steps upd none), ?_, settled_retired _ _ _ ?_,
    settled_frame _ _ _ (Lane.retire_frame ..)⟩
  · rw [retire, updLane_eq, lane_setLane_same, setLane_setLane]
    exact afterRetire_calm h _ replay
  · exact ⟨landed ▸ done.arch, retired ▸ done.retired, counted ▸ done.steps, done.ldPend, done.feed, done.waiting⟩

end Chip

/-! ### Fences -/

section
variable {ok : Chip → Nat → Bool} {upd : Lane → Lane} {P : Prop}

/-- A fence whose condition holds retires after its action on the lane, `upd`. -/
theorem fence_retires (he : exec i s = .next { s with chip := s.chip.fence l i ok upd }) (h : Calm s l)
    (hp : ok s.chip (laneKey l) = true) (arch : (upd (s.lane l)).arch = (s.lane l).arch := by rfl)
    (ldPend : (upd (s.lane l)).ldPend = (s.lane l).ldPend := by rfl)
    (retired : (upd (s.lane l)).retired = (s.lane l).retired := by rfl)
    (counted : (upd (s.lane l)).steps = (s.lane l).steps := by rfl)
    (replay : (upd (s.lane l)).replay = (s.lane l).replay := by rfl) :
    ∃ y, exec i s = .next (s.withLane l y) ∧ RetiredLane (s.lane l) y 4 2 id none ∧ LaneFrame (upd (s.lane l)) y := by
  obtain ⟨y, chip, lane, frame⟩ := Chip.retire_setLane h 4 2 id arch ldPend retired counted replay
  refine ⟨y, ?_, lane, frame⟩
  rw [he, State.withLane, ← chip, Chip.fence, if_pos hp, Chip.updLane_eq]

/-- A fence whose condition does not hold waits (R33). -/
theorem fence_waits (he : exec i s = .next { s with chip := s.chip.fence l i ok upd })
    (hp : ¬ ok s.chip (laneKey l) = true) : Waits s l i (exec i s) := by
  rw [he, Chip.fence, if_neg hp]
  rfl

/-- A fence that acts on nothing retires when its condition holds, and waits otherwise. -/
theorem fence_law (he : exec i s = s.act (fun _ c => c.instr l i (fun c => c.fence l i ok id)))
    (hp : ok s.chip (laneKey l) = true ↔ P) (h : Runs s l i) :
    (P → Retires s l 4 2 id (exec i s)) ∧ (¬ P → Waits s l i (exec i s)) :=
  have body := exec_of_runs he h
  ⟨fun holds => fence_retires body h.2 (hp.2 holds), fun fails => fence_waits body (mt hp.1 fails)⟩

end

/-- The action of `FENCE.I` on its lane (R239). -/
def Lane.dropCode (x : Lane) : Lane := { x with icache := x.icache.dropAll }

/-- Outside a transaction `FENCE.I` is a fence with the condition of `FENCE.SL` and an action of its own (R238, R239). -/
theorem exec_fenceI (h : Runs s l (.fenceI l)) (hs : (s.lane l).save = none) :
    exec (.fenceI l) s = .next { s with chip := s.chip.fence l (.fenceI l) Chip.fencedSl Lane.dropCode } := by
  change execFenceI l s = _
  simp only [execFenceI, State.act, Chip.instr_of_runs _ _ h, hs, Option.isSome_none, Bool.false_eq_true, if_false]
  rfl

theorem L1.find_dropAll (x : L1) (n : Nat) : x.dropAll.find n = none := by
  simp [L1.find, L1.way?, L1.at, L1.dropAll]

/-! ### `BARWAIT` -/

section
variable {g : BitVec 4}

/-- A lane whose arrival is recorded resumes at step 3 (R245). -/
theorem exec_barwait_of_arrived (h : Runs s l (.barwait l g)) (hi : g.toNat ∈ (s.lane l).barIn) :
    exec (.barwait l g) s = .next { s with chip := s.chip.barStep3 l g } := by
  change execBarwait l g s = _
  simp [execBarwait, State.act, Chip.instr_of_runs _ _ h, hi]

/-- Step 3 waits while the round is open (R242). -/
theorem barStep3_waits (c : Chip) (hd : g.toNat ∉ (c.lane (laneKey l)).barDone) :
    c.barStep3 l g = c.waitIn (laneKey l) (.barwait l g) := by
  simp [Chip.barStep3, hd]

/-- Step 3 ends with the round (R242): the arrival and the round's end are used up. -/
theorem barStep3_retires (h : Calm s l) (hd : g.toNat ∈ (s.lane l).barDone) :
    ∃ y, s.chip.barStep3 l g = s.chip.setLane (laneKey l) y ∧ RetiredLane (s.lane l) y 4 3 id none ∧
      LaneFrame { s.lane l with
        barDone := (s.lane l).barDone.erase g.toNat, barIn := without (s.lane l).barIn g.toNat } y := by
  simp only [Chip.barStep3, List.contains_iff_mem.2 hd, if_true]
  exact Chip.retire_setLane h 4 3 id

/-- `BARWAIT` of a group the lane is no member of, at step 1 (R71). -/
theorem barwait_raises (h : Runs s l (.barwait l g)) (hm : MayEnter s l) (hi : g.toNat ∉ (s.lane l).barIn)
    (ha : (s.lane l).areq = none) (hg : (s.lane l).arch.bargroup.getLsbD g.toNat = false) :
    Raises s l ⟨0x13, 3, g.toNat⟩ false 0 (exec (.barwait l g) s) := by
  have body : exec (.barwait l g) s =
      .next { s with chip := s.chip.raise s.now.toNat (laneKey l) ⟨0x13, 3, g.toNat⟩ } := by
    change execBarwait l g s = _
    simp [execBarwait, State.act, Chip.instr_of_runs _ _ h, hi, ha, hg]
  rw [body]
  exact raises_of_mayEnter hm _ false (by decide : 0x13 < 256) (by decide : 3 < 4)

/-- Step 1 waits as `FENCE.ALL` does (R242). -/
theorem barwait_waits_of_unfenced (h : Runs s l (.barwait l g)) (hs : (s.lane l).save = none)
    (hi : g.toNat ∉ (s.lane l).barIn) (hg : (s.lane l).arch.bargroup.getLsbD g.toNat = true)
    (hf : s.chip.fencedAll (laneKey l) = false) : Waits s l (.barwait l g) (exec (.barwait l g) s) := by
  rw [Waits]
  change execBarwait l g s = _
  simp [execBarwait, State.act, Chip.instr_of_runs _ _ h, Chip.waitIn, Chip.updLane_eq, hi, hg, hs, hf]

end
end Sys2Proof.Machine

open Sys2Proof Sys2Proof.Machine

/-- Settles O16: the three fences obey one law, each with its condition; `FENCE.I` is one whose retirement empties the
instruction cache. `BARWAIT` with an arrival recorded is at step 3 and without one at step 1 (R242). That the condition of
`FENCE.SL` asks for the response of a device write is the model's reading of its acceptance (log 12). -/
theorem fencesAndBarriers : Obligations.FencesAndBarriers := by
  unfold Obligations.FencesAndBarriers
  refine ⟨fun s l => ⟨fence_law rfl Chip.fencedSl_iff, fence_law rfl Chip.fencedD_iff, fence_law rfl Chip.fencedAll_iff,
    fenced_of_empty, fun h save => ⟨fun unseen => ?unseen, fun visible => ?visible⟩⟩,
    fun s l g h => ⟨fun alien absent unasked enters => barwait_raises h enters absent unasked alien,
      fun arrived running => ?roundOpen, fun arrived ended => ?roundEnded,
      fun member absent save _ unfenced => barwait_waits_of_unfenced h save absent member unfenced⟩⟩
  case unseen => exact fence_waits (exec_fenceI h save) (mt Chip.fencedSl_iff.1 unseen)
  case visible =>
    obtain ⟨y, retires, lane, frame⟩ := fence_retires (exec_fenceI h save) h.2 (Chip.fencedSl_iff.2 visible)
    exact ⟨y, retires, lane, fun n => by rw [frame.icache]; exact L1.find_dropAll _ n, frame.dcache, frame.sb, frame.itlb⟩
  case roundOpen =>
    rw [exec_barwait_of_arrived h arrived, barStep3_waits _ running]
    rfl
  case roundEnded =>
    obtain ⟨y, retires, lane, frame⟩ := barStep3_retires h.2 ended
    refine ⟨y, by rw [exec_barwait_of_arrived h arrived, retires], lane, ?_, frame.barDone, frame.sb, frame.dcache⟩
    rw [frame.barIn]
    simp [without]
end

section
/-! The channel state: what leaves it alone, what changes it alone, and an egress with nothing queued, which starts nothing. -/
namespace Sys2Proof.Machine

/-! ### Frames of the channel state -/

namespace SameCore

theorem setEg (c : Chip) (ln : Nat) (x : Egress) : SameCore c (c.setEg ln x) := ⟨rfl, rfl, rfl, rfl⟩

theorem setPth (c : Chip) (n : Nat) (x : PathS) : SameCore c (c.setPth n x) := ⟨rfl, rfl, rfl, rfl⟩

theorem modChan (c : Chip) (f : Chan → Chan) : SameCore c (c.modChan f) := ⟨rfl, rfl, rfl, rfl⟩

theorem inc (c : Chip) (r : RegName) (f : Fld) : SameCore c (c.inc r f) := .sf c r f _

theorem bookInc (c : Chip) (o : Nat) : SameCore c (c.bookInc o) := ⟨rfl, rfl, rfl, rfl⟩

theorem leatSend (c : Chip) (m : LeatMsg) : SameCore c (c.leatSend m) := by
  unfold Chip.leatSend
  split
  · exact ⟨rfl, rfl, rfl, rfl⟩
  · exact .refl c

end SameCore

theorem Egress.withQueue_nil {x : Egress} (h : x.queue = []) : { x with queue := [] } = x := by
  rw [← h]

namespace Chip
variable {c : Chip} {ln : Nat}

theorem leatSend_eq (c : Chip) (msg : LeatMsg) : ∃ l, c.leatSend msg = { c with leat := l } := by
  unfold leatSend
  split
  · exact ⟨_, rfl⟩
  · exact ⟨_, rfl⟩

theorem corrected_chan (c : Chip) (now src : Nat) : (c.corrected now src).chan = c.chan := by
  obtain ⟨f, reported⟩ := c.corrected_eq now src
  simp only [reported, setSticky, wr_chan]

theorem setAttr_chan (c : Chip) (src k : Nat) : (c.setAttr src k).chan = c.chan := by
  unfold setAttr
  split
  · rfl
  · rfl

theorem containedMark_chan (c : Chip) (src k : Nat) (triad : Option Nat) : (c.containedMark src k triad).chan = c.chan := by
  have marked : ((c.setSticky src 1).setAttr src k).chan = c.chan := setAttr_chan _ src k
  unfold containedMark
  split
  · split
    · exact marked
    · exact marked
  · exact marked

theorem contained_chan (c : Chip) (now src : Nat) (who triad : Option Nat) : (c.contained now src who triad).chan = c.chan := by
  obtain ⟨l, p, x, h, f, hd | hd⟩ := c.contained_eq now src who triad
  · rw [hd]; exact containedMark_chan _ src _ triad
  · rw [hd]; exact containedMark_chan _ src _ triad

/-! ### An egress with nothing queued -/

theorem purge_of_empty (now : Nat) (h : (c.eg ln).queue = []) : c.purge now ln = c.setEg ln (c.eg ln) := by
  simp only [purge, h, List.filter_nil, List.foldl_nil, Egress.withQueue_nil h]

/-- With no frame queued the lane starts none. -/
theorem kick_of_empty (now : Nat) (h : (c.eg ln).queue = []) : c.kick now ln = c.setEg ln (c.eg ln) := by
  have idle : nextFrame (c.setEg ln (c.eg ln)) (c.eg ln).queue = none := by rw [h]; rfl
  simp only [kick, kickLine, purge_of_empty now h, eg_setEg_same, idle, ite_self]

theorem downDrop_of_empty (now : Nat) (h : (c.eg ln).queue = []) : c.downDrop now ln = c.setEg ln (c.eg ln) := by
  simp only [downDrop, h, List.foldl_nil, Egress.withQueue_nil h]

/-- Besides an egress only device registers have changed. -/
theorem regsBut_setEg {d : Chip} {rs : List RegName} (h : OnlyRegs c d rs) (n : Nat) (x : Egress) :
    RegsBut c (d.setEg n x) rs ∧ SameCore c (d.setEg n x) :=
  ⟨fun q hq => (rd_setEg d n x q).trans (h.2 q hq), h.sameCore.trans (.setEg d n x)⟩

end Chip
end Sys2Proof.Machine
end

section
/-! Lanes (R284, R317, R322, R323, R326): what a reception, a link, a loop and a pause do to a lane's state and registers. -/
namespace Sys2Proof.Machine
namespace Chip
variable {c : Chip} {now ln k : Nat} {f : RxFrame} {b m : List Byte}

/-! ### Reception (R284, R317) -/

theorem frameIn_of_off (now ln : Nat) (f : RxFrame) (h : c.off = true) : c.frameIn now ln f = c := by
  rw [frameIn, if_pos h]

/-- A frame with a wrong FCS ends on its lane: it is counted and reported. -/
theorem frameIn_of_wrong_fcs (now : Nat) (ho : c.off = false) (hr : c.rxOpen ln = true)
    (hb : withFcs (b.take (b.length - 4)) ≠ b) :
    c.frameIn now ln (.eth b) = (c.inc (.LAN_CNT ln) LAN_CNT.FCSERR).corrected now 12 := by
  have serdes : ln < 0x40 := by
    simp only [rxOpen, Bool.and_eq_true, decide_eq_true_eq] at hr
    omega
  simp [frameIn, laneAccept, ethAccept, ho, hr, hb, serdes]

theorem frameIn_of_accepted (ho : c.off = false) (ha : c.laneAccept now ln f = (c, true)) :
    c.frameIn now ln f = if c.following then c.keepShadow now ln f else if c.muted then c else c.matchFrame now ln f := by
  simp only [frameIn, ho, ha, Bool.false_eq_true, if_false]

theorem matchFrame_of_no_path (now : Nat) (hd : c.domainOn 19 = true) (h : c.findPath ln f = none) :
    c.matchFrame now ln f = c.inc .CHN_STAT CHN_STAT.NOMATCH := by
  simp [matchFrame, hd, h]

theorem exportOf_withLeat (c : Chip) (l : List LeatMsg) (n : Nat) : ({ c with leat := l } : Chip).exportOf n = c.exportOf n := rfl

/-- A frame of a WCP path waits for its handling, after it has been forwarded (R427). -/
theorem matchFrame_of_wcp_path (now : Nat) (hd : c.domainOn 19 = true) (h : c.findPath ln (.eth b) = some (k, m))
    (hw : c.pWcp k = true) (he : c.exportOf k = none) (hp : ptpEvent b = none) :
    ∃ l, c.matchFrame now ln (.eth b) =
      ({ c with leat := l } : Chip).setPth k { c.pth k with rxq := (c.pth k).rxq ++ [(m, now)] } := by
  obtain ⟨l, sent⟩ := c.leatSend_eq (.input ln k (.eth b) now)
  have wcp : ({ c with leat := l } : Chip).pWcp k = true := hw
  refine ⟨l, ?_⟩
  simp only [matchFrame, hd, h, hw, sent, takeFrame, exportOf_withLeat, he, rxPtp, hp, pathInput, wcp, Bool.not_true, Bool.true_or,
    Option.isSome_none, Bool.false_eq_true, if_false, if_true]
  rfl

/-! ### Links (R322, R323) -/

theorem not_fltAddr_lanStat (n : Nat) : ¬ FltAddr (RegName.LAN_STAT n).addr := by
  simp only [FltAddr, RegName.addr]; omega

theorem not_fltAddr_lanCnt (n : Nat) : ¬ FltAddr (RegName.LAN_CNT n).addr := by
  simp only [FltAddr, RegName.addr]; omega

theorem not_fltAddr_lanCtl (n : Nat) : ¬ FltAddr (RegName.LAN_CTL n).addr := by
  simp only [FltAddr, RegName.addr]; omega

theorem lanCfg_ne_lanStat (n : Nat) : (RegName.LAN_CFG n).addr ≠ (RegName.LAN_STAT n).addr := by
  simp only [RegName.addr]; omega

/-- The link is down and trains, and the retrain is counted. -/
def trainLink (c : Chip) (ln : Nat) : Chip :=
  ((c.sf (.LAN_STAT ln) LAN_STAT.LINK 0).sf (.LAN_STAT ln) LAN_STAT.TRAINING 1).inc (.LAN_STAT ln) LAN_STAT.RETRAINS

theorem startRetrain_eq (c : Chip) (ln : Nat) : c.startRetrain ln = (c.trainLink ln).bookInc (0xA20 + 4 * ln) := rfl

theorem trainLink_onlyRegs (c : Chip) (ln : Nat) : OnlyRegs c (c.trainLink ln) [.LAN_STAT ln] :=
  ((OnlyRegs.sf c _ _ (by simp)).trans (.sf _ _ _ (by simp))).trans (.sf _ _ _ (by simp))

theorem trainLink_link (c : Chip) (ln : Nat) : (c.trainLink ln).gb (.LAN_STAT ln) LAN_STAT.LINK = false := by
  rw [trainLink, gb, inc, gf_sf_field _ _ _ _ _ (by decide) (by decide) (by decide),
    gf_sf_field _ _ _ _ _ (by decide) (by decide) (by decide)]
  exact gb_sf_same c _ 0 false (by decide)

theorem trainLink_training (c : Chip) (ln : Nat) : (c.trainLink ln).gb (.LAN_STAT ln) LAN_STAT.TRAINING = true := by
  rw [trainLink, gb, inc, gf_sf_field _ _ _ _ _ (by decide) (by decide) (by decide)]
  exact gb_sf_same (c.sf (.LAN_STAT ln) LAN_STAT.LINK 0) _ 1 true (by decide)

/-- What the start of a retrain does: the link is down and trains; one register and the mill book have changed. -/
structure Retrains (c d : Chip) (ln : Nat) : Prop where
  link : d.gb (.LAN_STAT ln) LAN_STAT.LINK = false
  training : d.gb (.LAN_STAT ln) LAN_STAT.TRAINING = true
  regs : RegsBut c d [.LAN_STAT ln]
  core : SameCore c d
  chan : d.chan = c.chan

theorem startRetrain_retrains (c : Chip) (ln : Nat) : Retrains c (c.startRetrain ln) ln := by
  obtain ⟨same, regs⟩ := c.trainLink_onlyRegs ln
  rw [startRetrain_eq]
  refine ⟨?_, ?_, fun q hq => (rd_bookInc _ _ q).trans (regs q hq), ?_, ?_⟩
  · rw [gb_bookInc, trainLink_link]
  · rw [gb_bookInc, trainLink_training]
  · exact (c.trainLink_onlyRegs ln).sameCore.trans (.bookInc _ _)
  · rw [bookInc_chan, same]

/-- A report after the start of a retrain leaves the link as the retrain has it. -/
theorem Retrains.reported {d e : Chip} (h : Retrains c d ln) (frame : UnitFrame FltAddr d e) (x : Egress) :
    (e.setEg ln x).gb (.LAN_STAT ln) LAN_STAT.LINK = false ∧ (e.setEg ln x).gb (.LAN_STAT ln) LAN_STAT.TRAINING = true := by
  rw [gb_setEg, gb_setEg, frame.gb _ (not_fltAddr_lanStat ln), frame.gb _ (not_fltAddr_lanStat ln)]
  exact ⟨h.link, h.training⟩

/-- Loss of a link that was up, with nothing queued: a retrain and the report that the lane's CRIT selects. -/
theorem linkLost_of_empty (now : Nat) (hn : ln < 20) (hl : c.gb (.LAN_STAT ln) LAN_STAT.LINK = true)
    (hq : (c.eg ln).queue = []) :
    let d := if c.gb (.LAN_CFG ln) LAN_CFG.CRIT then (c.startRetrain ln).contained now 12 ((c.startRetrain ln).lanParty ln) none
      else (c.startRetrain ln).corrected now 12
    c.linkLost now ln = d.setEg ln (c.eg ln) := by
  intro d
  have crit : (c.startRetrain ln).gb (.LAN_CFG ln) LAN_CFG.CRIT = c.gb (.LAN_CFG ln) LAN_CFG.CRIT := by
    rw [gb, gf_eq, (c.startRetrain_retrains ln).regs _ (by simpa using lanCfg_ne_lanStat ln), ← gf_eq, ← gb]
  have chan : d.chan = c.chan := by
    have trained := (c.startRetrain_retrains ln).chan
    simp only [d]
    split
    · exact (contained_chan _ _ _ _ _).trans trained
    · exact (corrected_chan _ _ _).trans trained
  have eg : d.eg ln = c.eg ln := by rw [Chip.eg, chan, ← Chip.eg]
  rw [← eg, ← downDrop_of_empty now (by rw [eg, hq])]
  simp only [linkLost, hl, crit, d, Bool.not_true, Bool.false_eq_true, or_false, if_neg (Nat.not_le.2 hn)]

/-- A lane that is not critical loses its link: it trains, with a corrected fault. -/
theorem linkLost_uncritical (now : Nat) (hn : ln < 20) (hl : c.gb (.LAN_STAT ln) LAN_STAT.LINK = true)
    (hq : (c.eg ln).queue = []) (hc : c.gb (.LAN_CFG ln) LAN_CFG.CRIT = false) :
    let d := c.linkLost now ln
    d.gb (.LAN_STAT ln) LAN_STAT.LINK = false ∧ d.gb (.LAN_STAT ln) LAN_STAT.TRAINING = true ∧ d.stands 12 0 ∧ SameCore c d := by
  intro d
  have trained := c.startRetrain_retrains ln
  have frame := (c.startRetrain ln).corrected_unitFrame now 12
  have lost : d = ((c.startRetrain ln).corrected now 12).setEg ln (c.eg ln) := by
    simp only [d, linkLost_of_empty now hn hl hq, hc, Bool.false_eq_true, if_false]
  obtain ⟨link, training⟩ := trained.reported frame (c.eg ln)
  rw [lost]
  exact ⟨link, training, (sticky_congr (rd_setEg _ _ _ _) _ _).trans (corrected_stands _ now (by decide)),
    (trained.core.trans (corrected_sameCore _ now 12)).trans (.setEg _ _ _)⟩

/-- A critical lane loses its link: it trains, with a contained fault of the lane's owner. -/
theorem linkLost_critical (now : Nat) (hn : ln < 20) (hl : c.gb (.LAN_STAT ln) LAN_STAT.LINK = true)
    (hq : (c.eg ln).queue = []) (hc : c.gb (.LAN_CFG ln) LAN_CFG.CRIT = true) :
    let d := c.linkLost now ln
    d.gb (.LAN_STAT ln) LAN_STAT.LINK = false ∧ d.gb (.LAN_STAT ln) LAN_STAT.TRAINING = true ∧ d.stands 12 1 ∧ d.mem = c.mem := by
  intro d
  have trained := c.startRetrain_retrains ln
  have frame := (c.startRetrain ln).contained_unitFrame now (src := 12) (by decide) ((c.startRetrain ln).lanParty ln) none
  have lost : d = ((c.startRetrain ln).contained now 12 ((c.startRetrain ln).lanParty ln) none).setEg ln (c.eg ln) := by
    simp only [d, linkLost_of_empty now hn hl hq, hc, if_true]
  obtain ⟨mem, -⟩ := trained.core
  obtain ⟨link, training⟩ := trained.reported frame (c.eg ln)
  rw [lost]
  exact ⟨link, training, (sticky_congr (rd_setEg _ _ _ _) _ _).trans (contained_stands _ now (by decide) _ _),
    (setEg_mem _ _ _).trans (frame.mem.trans mem)⟩

/-- A link that is down is not lost, and lanes 20 to 23 have none to lose here. -/
theorem linkLost_of_down (now : Nat) (h : 20 ≤ ln ∨ c.gb (.LAN_STAT ln) LAN_STAT.LINK = false) : c.linkLost now ln = c := by
  simp only [linkLost]
  rw [if_pos (h.imp_right fun down => by rw [down]; rfl)]

/-- A link that comes up with nothing queued. -/
theorem linkGood_sets (now : Nat) (hn : ln < 20) (he : c.gb (.LAN_CFG ln) LAN_CFG.EN = true)
    (hd : c.domainOn (20 + ln / 4) = true) (hr : c.gf (.LAN_QCFG (ln / 4)) LAN_QCFG.RATE ≠ 0) (ht : c.testsOn 4 ln = [])
    (hq : (c.eg ln).queue = []) :
    let d := c.linkGood now ln
    d.gb (.LAN_STAT ln) LAN_STAT.LINK = true ∧ d.gb (.LAN_STAT ln) LAN_STAT.TRAINING = false ∧ RegsBut c d [.LAN_STAT ln] ∧
      SameCore c d := by
  intro d
  let still := c.sf (.LAN_STAT ln) LAN_STAT.TRAINING 0
  have written : OnlyRegs c (still.sf (.LAN_STAT ln) LAN_STAT.LINK 1) [.LAN_STAT ln] :=
    .trans (.sf c _ _ (by simp)) (.sf still _ _ (by simp))
  have ready : ¬ (20 ≤ ln ∨ (!c.gb (.LAN_CFG ln) LAN_CFG.EN) = true ∨ (!c.domainOn (20 + ln / 4)) = true ∨
      c.gf (.LAN_QCFG (ln / 4)) LAN_QCFG.RATE = 0 ∨ (!(c.testsOn 4 ln).isEmpty) = true) := by
    simp [he, hd, hr, ht, hn]
  have up : d = (still.sf (.LAN_STAT ln) LAN_STAT.LINK 1).setEg ln (c.eg ln) := by
    simp only [d]
    rw [linkGood, if_neg (by omega), if_neg ready, kick_of_empty _ (by simpa using hq), eg_sf, eg_sf]
  rw [up]
  refine ⟨?_, ?_, regsBut_setEg written ln _⟩
  · rw [gb_setEg]
    exact still.gb_sf_same _ 0 true (by decide)
  · rw [gb_setEg, gb, gf_sf_field _ _ _ _ _ (by decide) (by decide) (by decide)]
    exact c.gb_sf_same _ 1 false (by decide)

theorem linkGood_of_disabled (now : Nat) (hn : ln < 20) (he : c.gb (.LAN_CFG ln) LAN_CFG.EN = false) :
    c.linkGood now ln = c := by
  rw [linkGood, if_neg (by omega), if_pos (.inr (.inl (by rw [he]; rfl)))]

/-- A retrain that software asks for, with nothing queued. -/
theorem retrainLane_sets (now : Nat) (hn : ln < 20) (he : c.gb (.LAN_CFG ln) LAN_CFG.EN = true)
    (ht : c.gb (.LAN_STAT ln) LAN_STAT.TRAINING = false) (hq : (c.eg ln).queue = []) :
    let d := c.retrainLane now ln
    d.gb (.LAN_STAT ln) LAN_STAT.LINK = false ∧ d.gb (.LAN_STAT ln) LAN_STAT.TRAINING = true ∧ RegsBut c d [.LAN_STAT ln] ∧
      SameCore c d := by
  intro d
  have trained := c.startRetrain_retrains ln
  have eg : (c.startRetrain ln).eg ln = c.eg ln := by rw [Chip.eg, trained.chan, ← Chip.eg]
  have ready : ¬ (20 ≤ ln ∨ (!c.gb (.LAN_CFG ln) LAN_CFG.EN) = true ∨ c.gb (.LAN_STAT ln) LAN_STAT.TRAINING = true) := by
    simp [he, ht, hn]
  have trains : d = (c.startRetrain ln).setEg ln (c.eg ln) := by
    simp only [d]
    rw [retrainLane, if_neg ready, downDrop_of_empty _ (by rw [eg, hq]), eg]
  rw [trains]
  refine ⟨?_, ?_, fun q hq => ?_, trained.core.trans (.setEg _ _ _)⟩
  · rw [gb_setEg, trained.link]
  · rw [gb_setEg, trained.training]
  · rw [rd_setEg, trained.regs q hq]

/-- A loop is refused and reported where an enabled path names the lane, and stored otherwise. -/
theorem loopLane_sets (now : Nat) (v : BitVec 2) :
    let d := c.loopLane now ln v.toNat
    SameCore c d ∧ (v ≠ 0 → c.pathNames ln = true → d.stands 12 0 ∧ d.rd (.LAN_CTL ln) = c.rd (.LAN_CTL ln)) ∧
      (v = 0 ∨ c.pathNames ln = false → d.gf (.LAN_CTL ln) LAN_CTL.LOOP = v.toNat ∧ OnlyRegs c d [.LAN_CTL ln]) := by
  intro d
  have zero : v.toNat = 0 ↔ v = 0 := BitVec.toNat_inj (y := 0)
  by_cases refused : v.toNat ≠ 0 ∧ c.pathNames ln = true
  · have reported : d = c.corrected now 12 := if_pos refused
    obtain ⟨hv, hp⟩ := refused
    rw [reported]
    refine ⟨c.corrected_sameCore now 12, fun _ _ => ⟨c.corrected_stands now (by decide),
      (c.corrected_unitFrame now 12).rd _ (not_fltAddr_lanCtl ln)⟩, fun free => ?_⟩
    rcases free with h | h
    · exact absurd (zero.2 h) hv
    · rw [h] at hp
      exact absurd hp Bool.false_ne_true
  · have stored : d = c.sf (.LAN_CTL ln) LAN_CTL.LOOP v.toNat := if_neg refused
    rw [stored]
    refine ⟨.sf c _ _ _, fun hv hp => absurd ⟨mt zero.1 hv, hp⟩ refused, fun _ => ⟨?_, .sf c _ _ (by simp)⟩⟩
    exact (c.gf_sf_same _ _ _ (by decide) (by decide)).trans (Nat.mod_eq_of_lt v.isLt)

/-! ### Pauses (R317) -/

/-- A pause with nothing queued; one of 0 quanta ends it. -/
theorem pauseLane_sets (now : Nat) (q : BitVec 16) (hp : c.gb (.LAN_CFG ln) LAN_CFG.PAUSEEN = true)
    (hq : (c.eg ln).queue = []) :
    let d := c.pauseLane now ln q.toNat
    (d.eg ln).pausedTill = now + q.toNat * 512 / c.laneRate ln ∧ d.gb (.LAN_STAT ln) LAN_STAT.PAUSED = (q != 0) ∧
      RegsBut c d [.LAN_STAT ln] ∧ SameCore c d := by
  intro d
  let x : Egress := { c.eg ln with pausedTill := now + q.toNat * 512 / c.laneRate ln }
  let shown := c.sf (.LAN_STAT ln) LAN_STAT.PAUSED (bit (q.toNat != 0))
  have queued : ((shown.setEg ln x).eg ln).queue = [] := by
    rw [eg_setEg_same]; exact hq
  have paused : d = shown.setEg ln x := by
    have kicked : d = (shown.setEg ln x).kick now ln := by
      simp only [d, pauseLane, hp, Bool.not_true, Bool.false_eq_true, if_false]
      rfl
    rw [kicked, kick_of_empty now queued, eg_setEg_same, setEg_setEg]
  have quanta : (q.toNat != 0) = (q != 0) := by simp [bne, ← BitVec.toNat_inj]
  rw [paused]
  refine ⟨by rw [eg_setEg_same], ?_, regsBut_setEg (.sf c _ _ (by simp)) ln x⟩
  rw [gb_setEg, ← quanta]
  exact c.gb_sf_same _ 2 _ (by decide)

theorem pauseLane_of_disabled (now quanta : Nat) (hp : c.gb (.LAN_CFG ln) LAN_CFG.PAUSEEN = false) :
    c.pauseLane now ln quanta = c := by
  simp [pauseLane, hp]

/-- The end of a pause with nothing queued. -/
theorem pauseEnd_sets (now : Nat) (hq : (c.eg ln).queue = []) :
    let d := (c.sf (.LAN_STAT ln) LAN_STAT.PAUSED 0).kick now ln
    d.gb (.LAN_STAT ln) LAN_STAT.PAUSED = false ∧ RegsBut c d [.LAN_STAT ln] ∧ SameCore c d := by
  intro d
  have kicked : d = (c.sf (.LAN_STAT ln) LAN_STAT.PAUSED 0).setEg ln (c.eg ln) := by
    simp only [d]
    rw [kick_of_empty now (by simpa using hq), eg_sf]
  rw [kicked]
  refine ⟨?_, regsBut_setEg (.sf c _ _ (by simp)) ln _⟩
  rw [gb_setEg]
  exact c.gb_sf_same _ 2 false (by decide)

/-! ### Writes of the lane's register -/

theorem lanWrite_of_permitted {ag : Agent} (g : Chip → Chip) (ho : c.off = false) (hd : c.domainOn (20 + ln / 4) = true)
    (hw : c.mayWrite ag (.LAN_CTL ln) = true) (hn : ln < 20) : c.lanWrite ag ln g = g c := by
  simp [lanWrite, ho, hd, hw, hn]

theorem lanWrite_of_denied {ag : Agent} (g : Chip → Chip) (hw : c.mayWrite ag (.LAN_CTL ln) = false) :
    c.lanWrite ag ln g = c := by
  simp [lanWrite, hw]

end Chip

variable {s : State} {n : Fin 24}

/-! ### The commands -/

theorem exec_frameReceived (s : State) (ln : BitVec 8) (f : RxFrame) :
    exec (.frameReceived ln f) s = .next { s with chip := s.chip.frameIn s.now.toNat ln.toNat f } := rfl

theorem exec_linkLoss (h : s.chip.off = false) :
    exec (.linkLoss n) s = .next { s with chip := s.chip.linkLost s.now.toNat n } := by
  change execLinkLoss n s = _
  simp [execLinkLoss, State.act, h]

theorem exec_linkLoss_of_down (h : 20 ≤ n.val ∨ s.chip.gb (.LAN_STAT n) LAN_STAT.LINK = false) :
    exec (.linkLoss n) s = .next s := by
  change execLinkLoss n s = _
  simp [execLinkLoss, State.act, Chip.linkLost_of_down _ h]

theorem exec_linkUp (h : s.chip.off = false) :
    exec (.linkUp n) s = .next { s with chip := s.chip.linkGood s.now.toNat n } := by
  change execLinkUp n s = _
  simp [execLinkUp, State.act, h]

theorem exec_linkUp_of_disabled (hn : n.val < 20) (he : s.chip.gb (.LAN_CFG n) LAN_CFG.EN = false) :
    exec (.linkUp n) s = .next s := by
  change execLinkUp n s = _
  simp [execLinkUp, State.act, Chip.linkGood_of_disabled _ hn he]

theorem exec_retrain (s : State) (ag : Agent) (n : Fin 24) : exec (.retrain ag n) s =
    .next { s with chip := s.chip.lanWrite ag n (fun c => c.retrainLane s.now.toNat n) } := rfl

theorem exec_loop (s : State) (ag : Agent) (n : Fin 24) (v : BitVec 2) : exec (.loop ag n v) s =
    .next { s with chip := s.chip.lanWrite ag n (fun c => c.loopLane s.now.toNat n v.toNat) } := rfl

theorem exec_pause (q : BitVec 16) (ho : s.chip.off = false) (hr : s.chip.rxOpen n = true) :
    exec (.pause n q) s = .next { s with chip := s.chip.pauseLane s.now.toNat n q.toNat } := by
  change execPause n q s = _
  simp [execPause, State.act, ho, hr]

theorem exec_pause_of_disabled (q : BitVec 16) (hp : s.chip.gb (.LAN_CFG n) LAN_CFG.PAUSEEN = false) :
    exec (.pause n q) s = .next s := by
  change execPause n q s = _
  simp [execPause, State.act, Chip.pauseLane_of_disabled _ _ hp]

theorem exec_pauseEnd (ho : s.chip.off = false) (ht : (s.chip.eg n).pausedTill ≤ s.now.toNat) :
    exec (.pauseEnd n) s =
      .next { s with chip := (s.chip.sf (.LAN_STAT n) LAN_STAT.PAUSED 0).kick s.now.toNat n } := by
  change execPauseEnd n s = _
  simp [execPauseEnd, State.act, ho, ht]

theorem exec_pauseEnd_of_early (ht : s.now.toNat < (s.chip.eg n).pausedTill) : exec (.pauseEnd n) s = .next s := by
  change execPauseEnd n s = _
  simp [execPauseEnd, State.act, ht]

theorem exec_txtsRead {ag : Agent} (ho : s.chip.off = false) (hd : s.chip.domainOn (20 + n / 4) = true)
    (hr : s.chip.mayRead ag (.LAN_TXTS n) = true) :
    exec (.txtsRead ag n) s = .next { s with chip := s.chip.txtsPop n } := by
  change execTxtsRead ag n s = _
  simp [execTxtsRead, State.act, ho, hd, hr]

theorem exec_txtsRead_of_denied {ag : Agent} (hr : s.chip.mayRead ag (.LAN_TXTS n) = false) :
    exec (.txtsRead ag n) s = .next s := by
  change execTxtsRead ag n s = _
  simp [execTxtsRead, State.act, hr]

end Sys2Proof.Machine

open Sys2Proof Sys2Proof.Machine

/-- Settles O45: nothing is queued at the lane, so that each command is the chip that its law above names. That a command
whose trigger does not hold changes nothing is the model's choice (log 3), as is what `LOOP` stores and where a frame that is
received goes (logs 28, 30). -/
theorem lanesAndLinks : Obligations.LanesAndLinks := by
  unfold Obligations.LanesAndLinks
  intro s ln b m n k ag v q c now f st x quiet link mine
  refine ⟨fun off opened wrong => ?wrongFcs, fun off serdes accepted => ⟨fun following => ?shadow, fun alone unmuted mill =>
      ⟨fun unmatched => ?noPath, fun matched wcp unexported plain => ?waits⟩⟩,
    fun off g => ?offReceived, fun ⟨off, unqueued⟩ small up => ⟨fun uncritical => ?corrected, fun critical => ?contained⟩,
    exec_linkLoss_of_down, fun ⟨off, unqueued⟩ small enabled on rate untested => ?comesUp, exec_linkUp_of_disabled,
    fun ⟨off, unqueued⟩ ⟨on, may, small⟩ enabled untrained => ?retrained, fun off ⟨on, may, small⟩ => ?looped,
    fun denied => ⟨?retrainDenied, ?loopDenied⟩, fun ⟨off, unqueued⟩ opened enabled => ?paused, exec_pause_of_disabled q,
    fun ⟨off, unqueued⟩ due => ?resumed, exec_pauseEnd_of_early, fun off on may => ?stamped, exec_txtsRead_of_denied⟩
  case wrongFcs =>
    have law := exec_frameReceived s ln f
    rw [Chip.frameIn_of_wrong_fcs _ off opened wrong] at law
    have frame := (c.inc (.LAN_CNT ln.toNat) LAN_CNT.FCSERR).corrected_unitFrame now 12
    exact ⟨_, law, Chip.corrected_stands _ now (by decide),
      (frame.gf _ (Chip.not_fltAddr_lanCnt _)).trans (c.gf_inc_same _ _ (by decide) (by decide)),
      .trans (.inc c _ _) (Chip.corrected_sameCore _ now 12)⟩
  case shadow =>
    have law := exec_frameReceived s ln f
    rw [Chip.frameIn_of_accepted off accepted, if_pos following] at law
    exact ⟨_, law, List.getLast?_concat, rfl, rfl, rfl, rfl, rfl⟩
  case noPath =>
    have law := exec_frameReceived s ln f
    rw [Chip.frameIn_of_accepted off accepted, alone, unmuted, if_neg Bool.false_ne_true, if_neg Bool.false_ne_true,
      Chip.matchFrame_of_no_path _ mill unmatched] at law
    exact ⟨_, law, .sf c _ _ (by simp), c.gf_inc_same _ _ (by decide) (by decide)⟩
  case waits =>
    have law := exec_frameReceived s ln f
    obtain ⟨l, taken⟩ := Chip.matchFrame_of_wcp_path now mill matched wcp unexported plain
    rw [Chip.frameIn_of_accepted off accepted, alone, unmuted, if_neg Bool.false_ne_true, if_neg Bool.false_ne_true,
      taken] at law
    exact ⟨_, law, congrArg PathS.rxq (Chip.pth_setPth_same _ _ _), rfl, rfl, rfl, rfl, rfl⟩
  case offReceived => rw [exec_frameReceived, Chip.frameIn_of_off _ _ _ off]
  case corrected => exact ⟨_, exec_linkLoss off, Chip.linkLost_uncritical now small up unqueued uncritical⟩
  case contained => exact ⟨_, exec_linkLoss off, Chip.linkLost_critical now small up unqueued critical⟩
  case comesUp => exact ⟨_, exec_linkUp off, Chip.linkGood_sets now small enabled on rate untested unqueued⟩
  case retrained =>
    have law := exec_retrain s ag n
    rw [Chip.lanWrite_of_permitted _ off on may small] at law
    exact ⟨_, law, Chip.retrainLane_sets now small enabled untrained unqueued⟩
  case looped =>
    have law := exec_loop s ag n v
    rw [Chip.lanWrite_of_permitted _ off on may small] at law
    exact ⟨_, law, Chip.loopLane_sets now v⟩
  case retrainDenied => rw [exec_retrain, Chip.lanWrite_of_denied _ denied]
  case loopDenied => rw [exec_loop, Chip.lanWrite_of_denied _ denied]
  case paused => exact ⟨_, exec_pause q off opened, Chip.pauseLane_sets now q enabled unqueued⟩
  case resumed => exact ⟨_, exec_pauseEnd off due, Chip.pauseEnd_sets now unqueued⟩
  case stamped =>
    exact ⟨_, exec_txtsRead off on may, congrArg Egress.txts (Chip.eg_setEg_same _ _ _), rfl, .setEg c n _⟩
end

section
/-! What an access of the millrace to memory leaves alone (R212, R225 to R228, R293, R398): the channel state and the registers
of queues and paths. -/
namespace Sys2Proof.Machine

/-- The registers of chapter 12: those of queues and paths, `CHN_TAGS`, `CHN_WCPCFG` and `CHN_STAT`. -/
abbrev MillAddr (a : Nat) : Prop := 0xF000100000 ≤ a ∧ a < 0xF000200000

/-- The channel state and the registers of chapter 12 are as they were. -/
structure MillFrame (c d : Chip) : Prop where
  chan : d.chan = c.chan
  rd : ∀ q : RegName, MillAddr q.addr → d.rd q = c.rd q

variable {c d e : Chip}

namespace MillFrame

theorem refl (c : Chip) : MillFrame c c := ⟨rfl, fun _ _ => rfl⟩

theorem trans (h : MillFrame c d) (k : MillFrame d e) : MillFrame c e :=
  ⟨k.chan.trans h.chan, fun q hq => (k.rd q hq).trans (h.rd q hq)⟩

theorem of_eq (hc : d.chan = c.chan) (hr : d.regs = c.regs) : MillFrame c d :=
  ⟨hc, fun q _ => Chip.rd_of_regs_eq hr q⟩

theorem of_regFrame {A : Nat → Prop} (h : RegFrame A c d) (hc : d.chan = c.chan) (hA : ∀ a, MillAddr a → ¬ A a) : MillFrame c d :=
  ⟨hc, fun q hq => h.rd q (hA _ hq)⟩

theorem sf (c : Chip) {r : RegName} (f : Fld) (n : Nat) (h : ¬ MillAddr r.addr) : MillFrame c (c.sf r f n) :=
  ⟨rfl, fun _ hq => c.rd_sf_other f n fun he => h (he ▸ hq)⟩

theorem inc (c : Chip) {r : RegName} (f : Fld) (h : ¬ MillAddr r.addr) : MillFrame c (c.inc r f) := sf c f _ h

theorem bookInc (c : Chip) (o : Nat) : MillFrame c (c.bookInc o) := of_eq rfl rfl

theorem setFlips (c : Chip) (a : Nat) (m : BitVec 72) : MillFrame c (c.setFlips a m) := of_eq rfl rfl

theorem setTriad (c : Chip) (t : Nat) (x : Triad) : MillFrame c (c.setTriad t x) := of_eq rfl rfl

theorem ite (b : Prop) [Decidable b] (h : MillFrame c d) (k : MillFrame c e) : MillFrame c (if b then d else e) := by
  split
  · exact h
  · exact k

theorem foldl {α : Type} {f : Chip → α → Chip} {l : List α} (c : Chip) (hf : ∀ c, ∀ x ∈ l, MillFrame c (f c x)) :
    MillFrame c (l.foldl f c) :=
  List.foldlRecOn (motive := MillFrame c) l f (.refl c) fun d hd x hx => hd.trans (hf d x hx)

theorem gf (h : MillFrame c d) {q : RegName} (f : Fld) (hq : MillAddr q.addr) : d.gf q f = c.gf q f := by
  rw [Chip.gf_eq, h.rd q hq, Chip.gf_eq]

theorem que (h : MillFrame c d) (q : Nat) : d.que q = c.que q := by rw [Chip.que, h.chan, ← Chip.que]

end MillFrame

namespace Chip
variable {a b q : Nat}

/-! ### Reports of the code (R227) -/

theorem corrected_millFrame (c : Chip) (now src : Nat) : MillFrame c (c.corrected now src) :=
  .of_regFrame (c.corrected_unitFrame now src).toRegFrame (c.corrected_chan now src) fun a hm hf => by omega

theorem contained_millFrame (c : Chip) (now : Nat) {src : Nat} (h : src < 20) (who triad : Option Nat) :
    MillFrame c (c.contained now src who triad) :=
  .of_regFrame (c.contained_unitFrame now h who triad).toRegFrame (c.contained_chan now src who triad) fun a hm hf => by omega

theorem region_dram_le_one {p : Nat} (h : c.region a = .dram p) : p ≤ 1 := by
  unfold region at h
  split_ifs at h <;> cases h <;> decide

theorem region_bank_lt {n : Nat} (h : c.region a = .bank n) : n < 64 := by
  obtain ⟨low, high⟩ := region_bank_bounds h
  have at_ : c.region a = .bank ((a - bankBase) / 0x80000) := by
    simp only [bankBase] at low high
    simp [region, bankBase, show ¬ a < 0x800000000 by omega, show ¬ a < 0x1000000000 by omega, low, high]
  rw [at_] at h
  cases h
  simp only [bankBase] at low high ⊢
  omega

theorem not_millAddr_bnkEcc {n : Nat} (h : n ≤ 64) : ¬ MillAddr (RegName.BNK_ECC n).addr := by
  simp only [MillAddr, RegName.addr]; omega

theorem not_millAddr_drmEcc {p k : Nat} (hp : p ≤ 1) (hk : k ≤ 1) : ¬ MillAddr (RegName.DRM_ECC p k).addr := by
  simp only [MillAddr, RegName.addr]; omega

theorem not_millAddr_drmEadr {p k : Nat} (hp : p ≤ 1) (hk : k ≤ 1) : ¬ MillAddr (RegName.DRM_EADR p k).addr := by
  simp only [MillAddr, RegName.addr]; omega

theorem not_millAddr_drmInit {p : Nat} (hp : p ≤ 1) : ¬ MillAddr (RegName.DRM_INIT p).addr := by
  simp only [MillAddr, RegName.addr]; omega

theorem rankOf_le_one (c : Chip) (p a : Nat) : c.rankOf p a ≤ 1 := by
  unfold rankOf
  split <;> decide

/-- The error registers of a bank, or of the journal store, after a report (R227). -/
theorem noteBank_millFrame (c : Chip) {n : Nat} (h : n ≤ 64) (kind synd word : Nat) :
    let r := RegName.BNK_ECC n
    let b := if kind == 1 then c.bookInc (0x880 + 4 * n) else c
    let b := if kind == 1 then b.inc r BNK_ECC.CE else b.inc r BNK_ECC.UE
    MillFrame c (((b.sf r BNK_ECC.SYND synd).sf r BNK_ECC.KIND kind).sf r BNK_ECC.WORD word) := by
  have away := not_millAddr_bnkEcc h
  have counted := MillFrame.ite (kind == 1) ((MillFrame.bookInc c (0x880 + 4 * n)).trans (.inc _ BNK_ECC.CE away)) (.inc c BNK_ECC.UE away)
  refine (((?_ : MillFrame c _).trans (.sf _ _ _ away)).trans (.sf _ _ _ away)).trans (.sf _ _ _ away)
  cases hk : kind == 1
  · simpa [hk] using counted
  · simpa [hk] using counted

theorem eccNote_millFrame (c : Chip) (a kind : Nat) (synd : BitVec 8) (scrub : Bool) :
    MillFrame c (c.eccNote a kind synd scrub) := by
  unfold eccNote
  simp only []
  split
  next p dram =>
    have ecc := not_millAddr_drmEcc (region_dram_le_one dram) (c.rankOf_le_one p a)
    have eadr := not_millAddr_drmEadr (region_dram_le_one dram) (c.rankOf_le_one p a)
    have booked := MillFrame.bookInc c (0xA00 + 8 * (2 * p + c.rankOf p a) + 4 * bit (kind != 1))
    have counted := MillFrame.ite (kind == 1) (booked.trans (.inc _ DRM_ECC.CE ecc)) (booked.trans (.inc _ DRM_ECC.UE ecc))
    exact (((counted.trans (.sf _ _ _ ecc)).trans (.sf _ _ _ ecc)).trans (.sf _ _ _ ecc)).trans (.sf _ _ _ eadr)
  next n bank => exact c.noteBank_millFrame (region_bank_lt bank).le kind synd.toNat _
  next => exact c.noteBank_millFrame (le_refl 64) kind synd.toNat _
  next => exact .refl c

theorem eccReport_millFrame (c : Chip) (now a kind : Nat) (synd : BitVec 8) (scrub : Bool) (who : Option Nat) :
    MillFrame c (c.eccReport now a kind synd scrub who) := by
  have noted := c.eccNote_millFrame a kind synd scrub
  have source : c.memSource a < 20 := by
    unfold memSource
    split <;> decide
  unfold eccReport
  exact .ite _ (noted.trans (corrected_millFrame _ now _)) (noted.trans (contained_millFrame _ now source _ none))

/-! ### Words (R221, R225, R228) -/

theorem fillRegion_millFrame (c : Chip) (a : Nat) : MillFrame c (c.fillRegion a) := by
  unfold fillRegion
  split
  next p dram =>
    have init := not_millAddr_drmInit (region_dram_le_one dram)
    simp only []
    have marked : ∀ l n, MillFrame c (({ c with filled := c.filled.set p l } : Chip).sf (.DRM_INIT p) DRM_INIT.REGIONS n) :=
      fun l n => .trans (d := { c with filled := c.filled.set p l }) (.of_eq rfl rfl) (.sf _ _ _ init)
    exact .ite _ (.refl c) (.ite _ ((marked _ _).trans (.sf _ _ _ init)) (marked _ _))
  next => exact .refl c

theorem storeWord_millFrame (c : Chip) (a : Nat) (w : DWord) : MillFrame c (c.storeWord a w) := by
  obtain ⟨m, stored⟩ := c.storeWord_eq a w
  rw [stored]
  exact .of_eq rfl rfl

theorem readWord_millFrame (c : Chip) (now a : Nat) (who : Option Nat) (scrub : Bool) :
    MillFrame c (c.readWord now a who scrub).1 := by
  have filled := c.fillRegion_millFrame (a / 8 * 8)
  unfold readWord
  simp only []
  split
  · exact filled
  · dsimp only
    exact (filled.trans (storeWord_millFrame ..)).trans (eccReport_millFrame ..)
  · dsimp only
    exact filled.trans (eccReport_millFrame ..)

theorem writeWord_millFrame (c : Chip) (now a be : Nat) (v : DWord) (who : Option Nat) :
    MillFrame c (c.writeWord now a be v who) := by
  have filled := c.fillRegion_millFrame (a / 8 * 8)
  have stored : ∀ w, MillFrame c ((c.fillRegion (a / 8 * 8)).storeWord (a / 8 * 8) w) :=
    fun w => filled.trans (storeWord_millFrame _ _ w)
  unfold writeWord
  simp only []
  split
  · exact stored v
  · split
    · exact stored _
    · exact (stored _).trans (eccReport_millFrame ..)
    · exact ((stored _).trans (.setFlips ..)).trans (eccReport_millFrame ..)

theorem readWords_millFrame (c : Chip) (now : Nat) (who : Option Nat) (n a : Nat) :
    MillFrame c (c.readWords now who n a).1 := by
  induction n generalizing c a with
  | zero => exact .refl c
  | succ n ih =>
    have read := (c.readWord_millFrame now a who false).trans (ih (c.readWord now a who).1 (a + 8))
    unfold readWords
    simp only []
    split
    · exact read
    · exact read

theorem readBytes_millFrame (c : Chip) (now : Nat) (who : Option Nat) (a n : Nat) :
    MillFrame c (c.readBytes now who a n).1 := by
  have read := c.readWords_millFrame now who ((a + n + 7) / 8 - a / 8) (a / 8 * 8)
  unfold readBytes
  simp only []
  split
  · exact read
  · exact read

/-! ### Coherence (R172, R183, R259) -/

theorem enterInv_millFrame (c : Chip) (t line : Nat) : MillFrame c (c.enterInv t line) := by
  have away : ¬ MillAddr (RegName.CLU_EVSTAT t).addr := by simp only [MillAddr, RegName.addr]; omega
  unfold enterInv
  exact .ite _ ((MillFrame.setTriad ..).trans (.sf _ _ _ away)) (.setTriad ..)

theorem snoop_millFrame (c : Chip) (line key : Nat) : MillFrame c (c.snoop line key) := by
  have conflict : MillFrame c (if (c.port key).tx.rset.contains line then c.txConflict key 0x02 else c) := by
    obtain ⟨p, x, aborted⟩ := c.txConflict_eq key 0x02
    rw [aborted]
    exact .ite _ (.of_eq rfl rfl) (.refl c)
  unfold snoop
  exact .ite _ (conflict.trans (.of_eq rfl rfl)) (.ite _ (conflict.trans (enterInv_millFrame ..)) conflict)

theorem snoopAll_millFrame (c : Chip) (line : Nat) (src : Option Nat) : MillFrame c (c.snoopAll line src) :=
  .foldl c fun c key _ => c.snoop_millFrame line key

theorem storeVisible_millFrame (c : Chip) (now a be : Nat) (v : DWord) (who src : Option Nat) :
    MillFrame c (c.storeVisible now a be v who src) :=
  (c.writeWord_millFrame now a be v who).trans (snoopAll_millFrame ..)

theorem writeBytes_millFrame (c : Chip) (now : Nat) (who : Option Nat) (fuel a : Nat) (l : List Byte) :
    MillFrame c (c.writeBytes now who fuel a l) := by
  induction fuel generalizing c a l with
  | zero => exact .refl c
  | succ n ih =>
    cases l with
    | nil => exact .refl c
    | cons b r => exact (storeVisible_millFrame ..).trans (ih ..)

/-! ### The engines (R212, R293, R398) -/

theorem engRead_millFrame (c : Chip) (now : Nat) (o : Option Nat) (a n : Nat) : MillFrame c (c.engRead now o a n).1 := by
  have read := c.readBytes_millFrame now o a n
  unfold engRead
  simp only []
  split
  · exact .refl c
  · split
    next h => rw [h] at read; exact read
    next h => rw [h] at read; exact read

theorem not_millAddr_prtLogctl {p : Nat} (h : p < 64) : ¬ MillAddr (RegName.PRT_LOGCTL p).addr := by
  simp only [MillAddr, RegName.addr]; omega

theorem logPage_millFrame (c : Chip) (now : Nat) {p : Nat} (h : p < 64) (page : Nat) : MillFrame c (c.logPage now p page) := by
  have read := c.readWord_millFrame now (c.logBuf p + (page - c.gf (.PRT_LOGCFG p) PRT_LOGCFG.FIRST) / 8) none false
  unfold logPage
  simp only []
  split
  · exact .sf c _ _ (not_millAddr_prtLogctl h)
  · split
    next word => rw [word] at read; exact (read.trans (storeWord_millFrame ..)).trans (snoopAll_millFrame ..)
    next word => rw [word] at read; exact read

theorem logWrite_millFrame (c : Chip) (now : Nat) {o : Option Nat} (h : ∀ p ∈ o, p < 64) (a n : Nat) :
    MillFrame c (c.logWrite now o a n) := by
  cases o with
  | none => exact .refl c
  | some p => exact .ite _ (.foldl c fun c i _ => c.logPage_millFrame now (h p rfl) _) (.refl c)

theorem engPut_millFrame (c : Chip) (now : Nat) {o : Option Nat} (h : ∀ p ∈ o, p < 64) (a : Nat) (l : List Byte) :
    MillFrame c (c.engPut now o a l) :=
  (c.logWrite_millFrame now h a l.length).trans (writeBytes_millFrame ..)

theorem queOwner_lt (c : Chip) (q : Nat) : ∀ p ∈ c.queOwner q, p < 64 := by
  intro p owner
  unfold queOwner at owner
  split at owner
  · cases owner
  · cases owner
    exact QUE_CFG.OWNER.get_lt _

/-! ### Ranges that cross no boundary of R17 and R19 -/

theorem dvd_dramSize (c : Chip) (p : Nat) : 0x80000 ∣ c.dramSize p := by
  have unit : 0x80000 ∣ 2 ^ 33 := by decide
  unfold dramSize
  split
  · exact (unit.mul_right _).mul_right _
  · exact Nat.dvd_zero _

theorem lt_dramSize_of_same_unit {x : Nat} (ha : a < c.dramSize x) (hab : a / 0x80000 = b / 0x80000) : b < c.dramSize x := by
  obtain ⟨k, size⟩ := c.dvd_dramSize x
  rw [size, Nat.mul_comm, ← Nat.div_lt_iff_lt_mul (by decide)] at ha ⊢
  rwa [← hab]

theorem region_dram_of_same_unit {p : Nat} (hr : c.region a = .dram p) (hab : a / 0x80000 = b / 0x80000) :
    c.region b = .dram p := by
  unfold region at hr ⊢
  split_ifs at hr with low fits high fits <;> rw [← hr]
  · rw [if_pos (by omega), if_pos (lt_dramSize_of_same_unit fits hab)]
  · have fits' := lt_dramSize_of_same_unit (b := b - 0x800000000) fits (by omega)
    rw [if_neg (by omega), if_pos (by omega), if_pos fits']

theorem region_of_bank_bounds (low : bankBase ≤ a) (high : a < bankBase + 0x2000000) :
    c.region a = .bank ((a - bankBase) / 0x80000) := by
  rw [region, if_neg, if_neg, if_pos ⟨low, high⟩]
  · simp only [bankBase] at low; omega
  · simp only [bankBase] at low; omega

theorem region_bank_of_same_unit {n : Nat} (hr : c.region a = .bank n) (hab : a / 0x80000 = b / 0x80000) :
    c.region b = .bank n := by
  obtain ⟨low, high⟩ := region_bank_bounds hr
  have bounds : bankBase ≤ b ∧ b < bankBase + 0x2000000 ∧ (b - bankBase) / 0x80000 = (a - bankBase) / 0x80000 := by
    simp only [bankBase] at low high ⊢
    omega
  obtain ⟨low', high', same⟩ := bounds
  rw [← hr, region_of_bank_bounds low high, region_of_bank_bounds low' high', same]

/-- What an owner may access it may access throughout the unit of 512 KiB. -/
theorem addrStatus_of_same_unit {o : Option Nat} (ha : c.addrStatus o a = 0) (hab : a / 0x80000 = b / 0x80000) :
    c.addrStatus o b = 0 := by
  unfold addrStatus at ha ⊢
  cases hr : c.region a with
  | dram p => rw [region_dram_of_same_unit hr hab]
  | bank n =>
    rw [hr] at ha
    rw [region_bank_of_same_unit hr hab]
    exact ha
  | _ => rw [hr] at ha; cases ha

/-- A range inside one unit of 512 KiB is checked at its start alone. -/
theorem rangeStatus_within (c : Chip) (o : Option Nat) {len : Nat} (hl : 0 < len) (h : a / 0x80000 = (a + len - 1) / 0x80000) :
    c.rangeStatus o a len = c.addrStatus o a := by
  have none : ((List.range (len / 0x80000 + 1)).map (fun i => (a / 0x80000 + 1 + i) * 0x80000)).filter
      (fun b => decide (b < a + len)) = [] := by
    rw [List.filter_eq_nil_iff]
    intro b hb
    obtain ⟨i, -, rfl⟩ := List.mem_map.1 hb
    simp only [decide_eq_true_eq]
    omega
  simp only [rangeStatus, if_neg hl.ne', none, List.map_cons, List.map_nil, List.find?_cons, List.find?_nil]
  cases hs : c.addrStatus o a == 0
  · simp [bne, hs]
  · simp [bne, eq_of_beq hs]

/-! ### The control area of a queue (R286) -/

theorem lineA_millFrame (c : Chip) (now q off : Nat) : MillFrame c (c.lineA now q off).1 := by
  have read := c.engRead_millFrame now (c.queOwner q) (c.ctla q + off) 2
  unfold lineA
  split
  next h => rw [h] at read; exact read
  next h => rw [h] at read; exact read

/-- Line B is written where the control area is the owner's. -/
theorem lineB_millFrame (now : Nat) (h : c.rangeStatus (c.queOwner q) (c.ctla q) 128 = 0) : MillFrame c (c.lineB now q) := by
  have own : c.rangeStatus (c.queOwner q) (c.ctla q + 64) 64 = 0 := by
    rw [rangeStatus_within c _ (by decide) (by rw [ctla]; omega)] at h
    rw [rangeStatus_within c _ (by decide) (by rw [ctla]; omega)]
    exact addrStatus_of_same_unit h (by rw [ctla]; omega)
  simp only [lineB, own, ne_eq, not_true_eq_false, if_false]
  exact c.engPut_millFrame now (c.queOwner_lt q) _ _

end Chip
end Sys2Proof.Machine
end

section
/-! Tags, the end of a transmission, aborts and the epoch reservation (R298, R299, R306, R311). -/
namespace Sys2Proof.Machine

namespace SameCore

theorem setQue (c : Chip) (q : Nat) (x : Que) : SameCore c (c.setQue q x) := ⟨rfl, rfl, rfl, rfl⟩

theorem flash (c : Chip) (t : Tab Byte) : SameCore c { c with flash := t } := ⟨rfl, rfl, rfl, rfl⟩

end SameCore

namespace OnlyRegs
variable {c d : Chip} {rs : List RegName}

theorem chan (h : OnlyRegs c d rs) : d.chan = c.chan := by
  obtain ⟨hd, -⟩ := h
  rw [hd]

theorem que (h : OnlyRegs c d rs) (q : Nat) : d.que q = c.que q := by rw [Chip.que, h.chan, ← Chip.que]

end OnlyRegs

namespace Chip
variable {c : Chip} {n q ln h : Nat} {p : Prog} {f : EFrame}

/-! ### Aborts (R311) -/

/-- The marks of a queue's abort: its DOORBELL, its state and its next generation. -/
def markAbort (c : Chip) (q door : Nat) : Chip :=
  let d := c.updQue q (fun x => { x with abort := some ⟨door⟩, door := door })
  (d.sf (.QUE_STAT q) QUE_STAT.STATE 4).sf (.QUE_GEN q) QUE_GEN.GEN ((d.queGen q + 1) % 65536)

theorem markAbort_que (c : Chip) (q door : Nat) :
    (c.markAbort q door).que q = { c.que q with abort := some ⟨door⟩, door := door } := by
  rw [markAbort, que_sf, que_sf, updQue_eq, que_setQue_same]

theorem markAbort_gen (c : Chip) (q door : Nat) : (c.markAbort q door).queGen q = (c.queGen q + 1) % 65536 := by
  rw [markAbort, queGen, gf_sf_same _ _ _ _ (by decide) (by decide), updQue_eq, queGen, gf_setQue]
  exact Nat.mod_mod _ _

theorem markAbort_state (c : Chip) (q door : Nat) : (c.markAbort q door).queState q = 4 := by
  have other : (RegName.QUE_STAT q).addr ≠ (RegName.QUE_GEN q).addr := by simp only [RegName.addr]; omega
  rw [markAbort, queState, gf_sf_other _ _ _ _ other]
  exact gf_sf_same _ _ _ 4 (by decide) (by decide)

/-- After the marks of its abort nothing of a queue changes: line B and the message for the partner follow. -/
theorem abortQueue_marks (now : Nat) (hm : c.millOn = true) (he : c.queEn q = true) (ha : (c.que q).abort = none) :
    ∃ door, MillFrame ((c.lineA now q 0).1.markAbort q door) (c.abortQueue now q) := by
  have told : ∀ (d : Chip) (m : LeatMsg), MillFrame d (if d.standby then d else d.leatSend m) := fun d m => by
    obtain ⟨l, sent⟩ := d.leatSend_eq m
    rw [sent]
    exact .ite _ (.refl d) (.of_eq rfl rfl)
  have shown : ∀ d : Chip, MillFrame d (if d.rangeStatus (d.queOwner q) (d.ctla q) 128 = 0 then d.lineB now q else d) :=
    fun d => by
      split
      next own => exact lineB_millFrame now own
      next => exact .refl d
  obtain ⟨⟨d, r⟩, read⟩ : ∃ x, c.lineA now q 0 = x := ⟨_, rfl⟩
  simp only [abortQueue, hm, he, ha, read, Bool.not_true, Bool.or_self, Option.isSome_none, Bool.false_eq_true, if_false]
  cases r with
  | ok door => exact ⟨door, (shown (d.markAbort q door)).trans (told _ _)⟩
  | error _ => exact ⟨(c.que q).door, (shown (d.markAbort q _)).trans (told _ _)⟩

theorem abortQueue_sets (now : Nat) (hq : q < 4096) (hm : c.millOn = true) (he : c.queEn q = true) (ha : (c.que q).abort = none) :
    let d := c.abortQueue now q
    (d.que q).abort.isSome = true ∧ d.queGen q = (c.queGen q + 1) % 65536 ∧ d.queState q = 4 ∧ (d.que q).prog = (c.que q).prog := by
  obtain ⟨door, rest⟩ := abortQueue_marks now hm he ha
  have read := c.lineA_millFrame now q 0
  have gen : MillAddr (RegName.QUE_GEN q).addr := by simp only [MillAddr, RegName.addr]; omega
  have stat : MillAddr (RegName.QUE_STAT q).addr := by simp only [MillAddr, RegName.addr]; omega
  refine ⟨?_, ?_, ?_, ?_⟩
  · rw [rest.que, markAbort_que]; rfl
  · rw [queGen, rest.gf _ gen, ← queGen, markAbort_gen, queGen, read.gf _ gen, ← queGen]
  · rw [queState, rest.gf _ stat, ← queState, markAbort_state]
  · rw [rest.que, markAbort_que, read.que]

theorem abortQueue_of_aborted (now : Nat) (ha : (c.que q).abort.isSome = true) : c.abortQueue now q = c := by
  simp [abortQueue, ha]

theorem abortPath_eq (hm : c.millOn = true) (he : c.pEn n = true) :
    c.abortPath n = c.setPth n { c.pth n with abort := true } := by
  simp [abortPath, hm, he, updPth_eq]

/-! ### Tags (R298, R299) -/

/-- A tag returns to the pool where the path keeps others: no `WAIT` of mode 2 ends (R294). -/
theorem dropTag_of_more (now : Nat) (h : 2 ≤ c.gf (.CHN_PATHSTAT n) CHN_PATHSTAT.UNACK) :
    OnlyRegs c (c.dropTag now n) [.CHN_TAGS, .CHN_PATHSTAT n] ∧
      (c.dropTag now n).gf (.CHN_PATHSTAT n) CHN_PATHSTAT.UNACK = c.gf (.CHN_PATHSTAT n) CHN_PATHSTAT.UNACK - 1 := by
  let freed := c.sf .CHN_TAGS CHN_TAGS.FREE (min (c.gf .CHN_TAGS CHN_TAGS.FREE + 1) 16384)
  let d := freed.sf (.CHN_PATHSTAT n) CHN_PATHSTAT.UNACK (c.gf (.CHN_PATHSTAT n) CHN_PATHSTAT.UNACK - 1)
  have held : c.gf (.CHN_PATHSTAT n) CHN_PATHSTAT.UNACK < 512 := CHN_PATHSTAT.UNACK.get_lt _
  have unack : d.gf (.CHN_PATHSTAT n) CHN_PATHSTAT.UNACK = c.gf (.CHN_PATHSTAT n) CHN_PATHSTAT.UNACK - 1 :=
    (gf_sf_same _ _ _ _ (by decide) (by decide)).trans (Nat.mod_eq_of_lt (Nat.lt_of_le_of_lt (Nat.sub_le _ _) held))
  have dropped : c.dropTag now n = d := by
    have waits : d.gf (.CHN_PATHSTAT n) CHN_PATHSTAT.UNACK ≠ 0 := by rw [unack]; omega
    have returns : c.dropTag now n = d.waitEnds now n := rfl
    rw [returns, waitEnds, if_pos waits]
  rw [dropped]
  exact ⟨.trans (.sf c _ _ (by simp)) (.sf freed _ _ (by simp)), unack⟩

theorem takeTag_sets (h : c.tagFree n = true) :
    OnlyRegs c (c.takeTag n) [.CHN_TAGS, .CHN_PATHSTAT n] ∧
      (c.takeTag n).gf (.CHN_PATHSTAT n) CHN_PATHSTAT.UNACK = c.gf (.CHN_PATHSTAT n) CHN_PATHSTAT.UNACK + 1 := by
  have quota : c.gf (.CHN_PATHCFG n) CHN_PATHCFG.QUOTA < 256 := CHN_PATHCFG.QUOTA.get_lt _
  have room : c.gf (.CHN_PATHSTAT n) CHN_PATHSTAT.UNACK < c.gf (.CHN_PATHCFG n) CHN_PATHCFG.QUOTA := by
    simp only [tagFree, Bool.and_eq_true, decide_eq_true_eq] at h
    obtain ⟨⟨-, room⟩, -⟩ := h
    exact room
  have fits : c.gf (.CHN_PATHSTAT n) CHN_PATHSTAT.UNACK + 1 < 2 ^ 9 :=
    Nat.lt_of_le_of_lt room (quota.trans (by decide))
  refine ⟨.trans (.sf c _ _ (by simp)) (.sf _ _ _ (by simp)), ?_⟩
  rw [takeTag, gf_sf_same _ _ _ _ (by decide) (by decide)]
  exact Nat.mod_eq_of_lt fits

theorem setProg_eq (c : Chip) (q : Nat) (p : Prog) : c.setProg q p = c.setQue q { c.que q with prog := some p } := rfl

theorem setQue_tagQ (c : Chip) (q : Nat) (x : Que) : (c.setQue q x).chan.tagQ = c.chan.tagQ := rfl

theorem que_freeCpu (c : Chip) (q k : Nat) : (c.freeCpu q).que k = c.que k := rfl

theorem freeCpu_tagQ (c : Chip) (q : Nat) : (c.freeCpu q).chan.tagQ = c.chan.tagQ := rfl

theorem syncQ_onlyRegs (c : Chip) (q : Nat) : OnlyRegs c (c.syncQ q) [.QUE_STAT q] := by
  unfold syncQ
  split
  · exact .refl c _
  · exact .sf c _ _ (by simp)

/-- Nothing is to post and no step to go on: the queue's state alone is settled. -/
theorem settleQ_of_waiting (now : Nat) (hx : (c.que q).posts = []) (hp : (c.que q).prog = some p)
    (hph : ∀ b, p.phase ≠ .posting b) : c.settleQ now q = c.syncQ q := by
  have once : c.settleOnce now q = c := by
    simp [settleOnce, hx, hp, hph, postAll]
  rw [settleQ, once, once]

/-- The `RECV` `p` of queue `q` has its tag and waits for a frame; its processor is free. -/
def awaitFrame (c : Chip) (now q : Nat) (p : Prog) : Chip :=
  ((c.takeTag (c.stepPath q p.cur)).setProg q { p with stage := none, phase := .recv now }).freeCpu q

/-- A `RECV` that its path allows takes its tag and waits for a frame. -/
theorem recvStep_of_free (now : Nat) (hs : p.cur.ssel = 0) (hb : (p.buffer p.cur.dsel).isSome = true)
    (hst : c.pathStatus q (c.stepPath q p.cur) = 0) (hq : c.gf (.CHN_PATHCFG (c.stepPath q p.cur)) CHN_PATHCFG.QUOTA ≠ 0)
    (hf : c.tagFree (c.stepPath q p.cur) = true) : c.recvStep now q p = (c.awaitFrame now q p).syncQ q := by
  have buffer : ¬ (p.cur.ssel ≠ 0 ∨ (p.buffer p.cur.dsel).isNone = true) := by
    simp [hs, ← Option.not_isSome, hb]
  simp only [recvStep, if_neg buffer, hst, hq, hf, ne_eq, not_true_eq_false, Bool.not_true, Bool.false_eq_true, if_false,
    park, Option.isSome_none, awaitFrame]

theorem awaitFrame_sets (now : Nat) (hf : c.tagFree (c.stepPath q p.cur) = true) :
    let d := c.awaitFrame now q p
    let n := c.stepPath q p.cur
    d.que q = { c.que q with prog := some { p with stage := none, phase := .recv now } } ∧ d.chan.tagQ = c.chan.tagQ ∧
      d.gf (.CHN_PATHSTAT n) CHN_PATHSTAT.UNACK = c.gf (.CHN_PATHSTAT n) CHN_PATHSTAT.UNACK + 1 ∧ SameCore c d := by
  intro d n
  obtain ⟨taken, unack⟩ := takeTag_sets hf
  have parked : d = ((c.takeTag n).setQue q { c.que q with
      prog := some { p with stage := none, phase := .recv now } }).freeCpu q := by
    rw [← taken.que q, ← setProg_eq]
    rfl
  rw [parked, que_freeCpu, que_setQue_same, freeCpu_tagQ, setQue_tagQ, taken.chan, freeCpu, gf_modChan, gf_setQue, unack]
  exact ⟨rfl, rfl, rfl, (taken.sameCore.trans (.setQue _ _ _)).trans (.modChan _ _)⟩

/-- A `RECV` that is served waits for a frame with its tag. -/
theorem tagServe_recv (now : Nat) (hp : (c.que q).prog = some p) (hop : p.cur.op = 2) (hs : p.cur.ssel = 0)
    (hb : (p.buffer p.cur.dsel).isSome = true) (hst : c.pathStatus q (c.stepPath q p.cur) = 0)
    (hq : c.gf (.CHN_PATHCFG (c.stepPath q p.cur)) CHN_PATHCFG.QUOTA ≠ 0) (hf : c.tagFree (c.stepPath q p.cur) = true)
    (hx : (c.que q).posts = []) :
    let d := c.tagServe now q
    let n := c.stepPath q p.cur
    (d.que q).prog = some { p with stage := none, phase := .recv now } ∧ q ∉ d.chan.tagQ ∧
      d.gf (.CHN_PATHSTAT n) CHN_PATHSTAT.UNACK = c.gf (.CHN_PATHSTAT n) CHN_PATHSTAT.UNACK + 1 ∧ SameCore c d := by
  intro d n
  let w := (c.unparkTag q).awaitFrame now q p
  obtain ⟨que, tagQ, unack, core⟩ : w.que q = _ ∧ w.chan.tagQ = _ ∧ _ := awaitFrame_sets (c := c.unparkTag q) now hf
  have synced : OnlyRegs w ((w.syncQ q).syncQ q) [.QUE_STAT q] := .trans (w.syncQ_onlyRegs q) (syncQ_onlyRegs _ q)
  have served : d = (w.syncQ q).syncQ q := by
    have received := recvStep_of_free (c := c.unparkTag q) now hs hb hst hq hf
    have waits : (w.syncQ q).que q = _ := ((w.syncQ_onlyRegs q).que q).trans que
    have settled := settleQ_of_waiting (c := w.syncQ q) now (by rw [waits]; exact hx) (by rw [waits]) (by simp)
    simp only [d, tagServe, hp, hop]
    rw [← settled, ← received]
    rfl
  have other : (RegName.CHN_PATHSTAT n).addr ∉ [RegName.QUE_STAT q].map RegName.addr := by
    simp only [List.map_cons, List.map_nil, List.mem_singleton, RegName.addr]; omega
  rw [served]
  refine ⟨by rw [synced.que, que], ?_, (synced.gf _ other).trans unack,
    ((SameCore.modChan c _).trans core).trans synced.sameCore⟩
  rw [synced.chan, tagQ]
  simp [unparkTag, modChan, without]

/-- `TAG_GRANT` of the step that comes first, which the primary tells the standby (R427). -/
theorem tagGrantTo_of_next (now : Nat) (hm : c.millOn = true) (hf : c.following = false) (hg : c.grantNext = some q) :
    ∃ l, c.tagGrantTo now q = ({ c with leat := l } : Chip).tagServe now q := by
  obtain ⟨l, sent⟩ := c.leatSend_eq (.chndec (.tagGrant (BitVec.ofNat 12 q)))
  exact ⟨l, by simp [tagGrantTo, hm, hf, hg, sent]⟩

theorem tagGrantTo_of_other (now : Nat) (hg : c.grantNext ≠ some q) : c.tagGrantTo now q = c := by
  simp [tagGrantTo, hg]

/-! ### The end of a transmission (R298) -/

/-- A SerDes lane's frame without an event message and without repetitions ends with nothing queued: it is on the wire, and
its tag returns. -/
theorem transmitEnd_sets (now : Nat) (hl : ln < 24) (hc : c.laneCut ln = false) (hu : c.linkUp ln = true)
    (hf : (c.eg ln).cur = some f) (hq : (c.eg ln).queue = []) (hp : ptpEvent f.bytes = none) (hr : f.reps = 0)
    (ht : f.tag = true) (h2 : 2 ≤ c.gf (.CHN_PATHSTAT f.path) CHN_PATHSTAT.UNACK) :
    let d := c.transmitEnd now ln
    (d.eg ln).cur = none ∧ (d.eg ln).queue = [] ∧ (d.eg ln).wire = f.bytes ∧
      d.gf (.CHN_PATHSTAT f.path) CHN_PATHSTAT.UNACK = c.gf (.CHN_PATHSTAT f.path) CHN_PATHSTAT.UNACK - 1 ∧ SameCore c d := by
  intro d
  have serdes : isField ln = false := by
    simp only [isField, decide_eq_false_iff_not]; omega
  let x : Egress := { c.eg ln with cur := none, de := false, wire := f.bytes }
  have left := dropTag_of_more (c := c.setEg ln x) (n := f.path) now h2
  obtain ⟨returned, unack⟩ := left
  have eg : ((c.setEg ln x).dropTag now f.path).eg ln = x := by
    rw [Chip.eg, returned.chan, ← Chip.eg, eg_setEg_same]
  have ended : d = ((c.setEg ln x).dropTag now f.path).setEg ln x := by
    have up : ∀ y, (c.setEg ln y).linkUp ln = true := fun _ => hu
    have kicked : d = ((c.setEg ln x).dropTag now f.path).kick now ln := by
      simp only [d, transmitEnd, hc, hf, serdes, up, frameSent, sentStamp, hp, hr, frameGone, ht, updEg_eq, eg_setEg_same, setEg_setEg,
        Bool.false_and, Bool.false_or, Bool.not_false, Bool.false_eq_true, ne_eq, not_true_eq_false, if_false, if_true]
      rfl
    rw [kicked, kick_of_empty now (by rw [eg]; exact hq), eg]
  rw [ended, eg_setEg_same, gf_setEg]
  exact ⟨rfl, hq, rfl, unack, ((SameCore.setEg c ln x).trans returned.sameCore).trans (.setEg _ _ _)⟩

/-! ### The epoch reservation (R306) -/

theorem flashWr_eq (c : Chip) (port off : Nat) (l : List Byte) : ∃ t, c.flashWr port off l = { c with flash := t } := by
  induction l generalizing c off with
  | nil => exact ⟨_, rfl⟩
  | cons b r ih =>
    obtain ⟨t, written⟩ := ih { c with flash := c.flash.put 0xFF (flashKey port off) b } (off + 1)
    exact ⟨t, written⟩

theorem resvAppend_eq (c : Chip) (port h : Nat) : ∃ t, c.resvAppend port h = { c with flash := t } := by
  unfold resvAppend
  simp only []
  split
  · exact c.flashWr_eq ..
  · obtain ⟨t, written⟩ := (c.flashErase port resvArea 0x10000).flashWr_eq port resvArea (resvRecord h)
    exact ⟨t, written⟩

/-- A reservation is written to flash and to EHIGH. -/
theorem resvWrite_eq (c : Chip) (h : Nat) :
    ∃ t, c.resvWrite h = ({ c with flash := t } : Chip).sf .CHN_WCPCFG CHN_WCPCFG.EHIGH h := by
  have stored : ∃ t, c.flashPorts.foldl (fun c p => c.resvAppend p h) c = { c with flash := t } := by
    refine List.foldlRecOn (motive := fun d : Chip => ∃ t, d = { c with flash := t }) _ _ ⟨c.flash, rfl⟩ ?_
    rintro _ ⟨t, rfl⟩ port -
    obtain ⟨t', appended⟩ := resvAppend_eq { c with flash := t } port h
    exact ⟨t', appended⟩
  obtain ⟨t, stored⟩ := stored
  exact ⟨t, by rw [resvWrite, stored]⟩

theorem resvBegin_eq (ho : c.off = false) (hr : c.chan.resv = none) (hl : c.resvLow = true) :
    c.resvBegin = c.modChan (fun x => { x with resv := some ((c.gf .CHN_WCPCFG CHN_WCPCFG.EHIGH + 64) % 65536) }) := by
  simp [resvBegin, ho, hr, hl]

/-- The end of the program where no path has a rise that waits. -/
theorem resvEnd_sets (now : Nat) (hr : c.chan.resv = some h) (hh : h < 65536) (hp : c.chan.paths = []) :
    let d := c.resvEnd now
    d.gf .CHN_WCPCFG CHN_WCPCFG.EHIGH = h ∧ d.chan.resv = none ∧ SameCore c d := by
  intro d
  let freed := c.modChan (fun x => { x with resv := none })
  obtain ⟨t, written⟩ := freed.resvWrite_eq h
  have ended : d = ({ freed with flash := t } : Chip).sf .CHN_WCPCFG CHN_WCPCFG.EHIGH h := by
    have paths : (freed.resvWrite h).chan.paths = [] := by rw [written, sf_chan]; exact hp
    have resumed : d = (freed.resvWrite h).resumeRises now := by
      simp only [d, freed, resvEnd, hr]
    rw [resumed, resumeRises, paths, Tab.keys, List.map_nil, List.foldl_nil, written]
  rw [ended]
  exact ⟨(gf_sf_same _ _ _ _ (by decide) (by decide)).trans (Nat.mod_eq_of_lt hh), congrArg Chan.resv (sf_chan _ _ _ _),
    ((SameCore.modChan c _).trans (.flash _ t)).trans (.sf _ _ _ _)⟩

end Chip

variable {s : State} {ag : Agent}

/-! ### The commands -/

theorem exec_tagGrant (s : State) (q : BitVec 12) :
    exec (.tagGrant q) s = .next { s with chip := s.chip.tagGrantTo s.now.toNat q.toNat } := rfl

theorem exec_egressTransmitEnd (ln : BitVec 8) (h : s.chip.off = false) :
    exec (.egressTransmitEnd ln) s = .next { s with chip := s.chip.transmitEnd s.now.toNat ln.toNat } := by
  change execEgressTransmitEnd ln s = _
  simp [execEgressTransmitEnd, State.act, h]

theorem exec_egressTransmitEnd_of_off (ln : BitVec 8) (h : s.chip.off = true) :
    exec (.egressTransmitEnd ln) s = .next s := by
  change execEgressTransmitEnd ln s = _
  simp [execEgressTransmitEnd, State.act, h]

theorem exec_queueAbort {q : BitVec 12} (h : s.chip.mayWrite ag (.QUE_CMD q.toNat) = true) :
    exec (.queueAbort ag q) s = .next { s with chip := s.chip.abortQueue s.now.toNat q.toNat } := by
  change execQueueAbort ag q s = _
  simp [execQueueAbort, State.act, h]

theorem exec_queueAbort_of_refused {q : BitVec 12}
    (h : s.chip.mayWrite ag (.QUE_CMD q.toNat) = false ∨ (s.chip.que q.toNat).abort.isSome = true) :
    exec (.queueAbort ag q) s = .next s := by
  change execQueueAbort ag q s = _
  rcases h with h | h
  · simp [execQueueAbort, State.act, h]
  · simp [execQueueAbort, State.act, Chip.abortQueue_of_aborted _ h]

theorem exec_pathAbort {n : BitVec 10} (h : s.chip.mayWrite ag (.CHN_PATHCTL n.toNat) = true) :
    exec (.pathAbort ag n) s = .next { s with chip := s.chip.abortPath n.toNat } := by
  change execPathAbort ag n s = _
  simp [execPathAbort, State.act, h]

theorem exec_pathAbort_of_denied {n : BitVec 10} (h : s.chip.mayWrite ag (.CHN_PATHCTL n.toNat) = false) :
    exec (.pathAbort ag n) s = .next s := by
  change execPathAbort ag n s = _
  simp [execPathAbort, State.act, h]

theorem exec_epochReservationProgram (s : State) :
    exec .epochReservationProgram s = .next { s with chip := s.chip.resvBegin } := rfl

theorem exec_epochReservationProgram_of_high (h : s.chip.resvLow = false) : exec .epochReservationProgram s = .next s := by
  change execEpochReservationProgram s = _
  simp [execEpochReservationProgram, State.act, Chip.resvBegin, h]

theorem exec_epochReservationEnd (s : State) :
    exec .epochReservationEnd s = .next { s with chip := s.chip.resvEnd s.now.toNat } := rfl

theorem exec_epochReservationEnd_of_none (h : s.chip.chan.resv = none) : exec .epochReservationEnd s = .next s := by
  change execEpochReservationEnd s = _
  simp [execEpochReservationEnd, State.act, Chip.resvEnd, h]

end Sys2Proof.Machine

open Sys2Proof Sys2Proof.Machine

/-- Settles O43: each command answers the chip that its law above names; the accesses of an abort to the control area leave
the registers of queues and paths alone. That a command whose trigger does not hold changes nothing is the model's choice
(log 3), as are the room of a tag and the reading of an abort's first steps (logs 27, 35). -/
theorem tagsEgressAborts : Obligations.TagsEgressAborts := by
  unfold Obligations.TagsEgressAborts
  intro s qq nn lane p f ag h c q n ln unack
  refine ⟨fun mill alone first prog op source buffer status free quota posts => ?granted, fun other => ?notNext,
    fun off serdes uncut up cur queue plain once tag more => ?ended, exec_egressTransmitEnd_of_off lane,
    fun mill may enabled unaborted => ?queueAborts, exec_queueAbort_of_refused,
    fun mill may enabled => ?pathAborts, exec_pathAbort_of_denied, fun off idle low => ?begun,
    exec_epochReservationProgram_of_high, fun under fits paths => ?held, exec_epochReservationEnd_of_none⟩
  case granted =>
    have law := exec_tagGrant s qq
    obtain ⟨l, granted⟩ := Chip.tagGrantTo_of_next s.now.toNat mill alone first
    rw [granted] at law
    exact ⟨_, law, Chip.tagServe_recv (c := { c with leat := l }) s.now.toNat prog op source buffer status quota free posts⟩
  case notNext => rw [exec_tagGrant, Chip.tagGrantTo_of_other _ other]
  case ended =>
    exact ⟨_, exec_egressTransmitEnd lane off, Chip.transmitEnd_sets _ serdes uncut up cur queue plain once tag more⟩
  case queueAborts => exact ⟨_, exec_queueAbort may, Chip.abortQueue_sets _ qq.isLt mill enabled unaborted⟩
  case pathAborts =>
    have law := exec_pathAbort may
    rw [Chip.abortPath_eq mill enabled] at law
    exact ⟨_, law, congrArg PathS.abort (Chip.pth_setPth_same _ _ _), rfl, .setPth c _ _⟩
  case begun =>
    have law := exec_epochReservationProgram s
    rw [Chip.resvBegin_eq off idle low] at law
    exact ⟨_, law, rfl, rfl, .modChan c _⟩
  case held => exact ⟨_, exec_epochReservationEnd s, Chip.resvEnd_sets _ under fits paths⟩
end

section
/-! Frames over the registers of the cipher engine (R341, R343): which registers an operation writes, that none of them decides
a right to memory (R212), and a word that an engine reads (R221, R225). -/
namespace Sys2Proof.Machine

/-- The cores are as they were, and so is each device register outside `rs`. -/
structure CoreFrame (rs : List RegName) (c d : Chip) : Prop where
  regs : RegsBut c d rs
  core : SameCore c d

namespace CoreFrame
variable {rs rs' : List RegName} {c d e : Chip} {r : RegName}

theorem refl (rs : List RegName) (c : Chip) : CoreFrame rs c c := ⟨fun _ _ => rfl, .refl c⟩

theorem trans (h : CoreFrame rs c d) (k : CoreFrame rs d e) : CoreFrame rs c e :=
  ⟨fun q hq => (k.regs q hq).trans (h.regs q hq), h.core.trans k.core⟩

theorem mono (h : CoreFrame rs c d) (sub : rs ⊆ rs') : CoreFrame rs' c d :=
  ⟨fun q hq => h.regs q fun hm => hq (List.map_subset _ sub hm), h.core⟩

theorem of_onlyRegs (h : OnlyRegs c d rs) : CoreFrame rs c d := ⟨h.2, h.sameCore⟩

theorem sf (c : Chip) (f : Fld) (n : Nat) (h : r ∈ rs) : CoreFrame rs c (c.sf r f n) := of_onlyRegs (.sf c f n h)

theorem inc (c : Chip) (f : Fld) (h : r ∈ rs) : CoreFrame rs c (c.inc r f) := sf c f _ h

theorem modChan (c : Chip) (f : Chan → Chan) : CoreFrame rs c (c.modChan f) := ⟨fun q _ => c.rd_modChan f q, .modChan c f⟩

/-- A corrected fault writes `FLT_STATUS` alone. -/
theorem corrected (c : Chip) (now src : Nat) (h : .FLT_STATUS ∈ rs) : CoreFrame rs c (c.corrected now src) := by
  obtain ⟨f, reported⟩ := c.corrected_eq now src
  refine ⟨fun q hq => ?_, c.corrected_sameCore now src⟩
  rw [reported]
  exact (OnlyRegs.wr c _ h).2 q hq

theorem gf (h : CoreFrame rs c d) {q : RegName} (f : Fld) (hq : q.addr ∉ rs.map RegName.addr) : d.gf q f = c.gf q f := by
  rw [Chip.gf_eq, h.regs q hq, Chip.gf_eq]

theorem gb (h : CoreFrame rs c d) {q : RegName} (f : Fld) (hq : q.addr ∉ rs.map RegName.addr) : d.gb q f = c.gb q f := by
  rw [Chip.gb, h.gf f hq, Chip.gb]

end CoreFrame

/-- The registers of the cipher engine (R341, R343). -/
abbrev CphAddr (a : Nat) : Prop := 0xF000080000 ≤ a ∧ a < 0xF000090000

namespace Chip
variable {c d : Chip} {a n p k : Nat}

theorem gb_congr {q : RegName} (h : d.rd q = c.rd q) (f : Fld) : d.gb q f = c.gb q f := by
  rw [gb, gf_eq, h, ← gf_eq, ← gb]

theorem gb_sf_zero (c : Chip) (r : RegName) {f : Fld} (h : f.lo ≤ f.hi) (hn : f.hi < 64) : (c.sf r f 0).gb r f = false := by
  rw [gb, gf_sf_same _ _ _ _ h hn, Nat.zero_mod]
  rfl

theorem gb_sf_one (c : Chip) (r : RegName) {f : Fld} (h : f.lo = f.hi) (hn : f.hi < 64) : (c.sf r f 1).gb r f = true := by
  rw [gb, gf_sf_same _ _ _ _ h.le hn, h]
  simp

@[simp] theorem modChan_chan (c : Chip) (f : Chan → Chan) : (c.modChan f).chan = f c.chan := rfl

/-! ### Addresses -/

/-- The registers that the end of a command writes: the block's status, the count of failures, `FLT_STATUS`. -/
abbrev resultRegs (p : Nat) : List RegName := [.CPH_UNWRAP_STAT p, .CPH_STAT, .FLT_STATUS]

/-- The registers of a partition's block that the start of a command writes. -/
abbrev commandRegs (p : Nat) : List RegName := [.CPH_UNWRAP_CMD p, .CPH_UNWRAP_STAT p]

theorem slot_not_resultRegs (n : Nat) (h : p < 64) : (RegName.CPH_SLOT n).addr ∉ (resultRegs p).map RegName.addr := by
  simp only [List.map_cons, List.map_nil, List.mem_cons, List.not_mem_nil, or_false, RegName.addr]; omega

theorem slot_not_commandRegs (n : Nat) (h : p < 64) : (RegName.CPH_SLOT n).addr ∉ (commandRegs p).map RegName.addr := by
  simp only [List.map_cons, List.map_nil, List.mem_cons, List.not_mem_nil, or_false, RegName.addr]; omega

theorem cphAddr_commandRegs (hp : p < 64) (hn : n < 4096) :
    ∀ a ∈ (.CPH_SLOT n :: commandRegs p).map RegName.addr, CphAddr a := by
  simp only [commandRegs, List.map_cons, List.map_nil, List.forall_mem_cons, CphAddr, RegName.addr]
  exact ⟨by omega, by omega, by omega, by simp⟩

theorem slot_not_core (n : Nat) (h : k < 16) : (RegName.CPH_SLOT n).addr ∉ [RegName.CPH_CORE k].map RegName.addr := by
  simp only [List.map_cons, List.map_nil, List.mem_cons, List.not_mem_nil, or_false, RegName.addr]; omega

theorem slot_not_drmInit (n : Nat) : (RegName.CPH_SLOT n).addr ∉ [RegName.DRM_INIT 0, .DRM_INIT 1].map RegName.addr := by
  simp only [List.map_cons, List.map_nil, List.mem_cons, List.not_mem_nil, or_false, RegName.addr]; omega

theorem stat_not_drmInit (p : Nat) :
    (RegName.CPH_UNWRAP_STAT p).addr ∉ [RegName.DRM_INIT 0, .DRM_INIT 1].map RegName.addr := by
  simp only [List.map_cons, List.map_nil, List.mem_cons, List.not_mem_nil, or_false, RegName.addr]; omega

theorem stat_ne_cmd (p : Nat) : (RegName.CPH_UNWRAP_STAT p).addr ≠ (RegName.CPH_UNWRAP_CMD p).addr := by
  simp only [RegName.addr]; omega

theorem stat_ne_slot (n : Nat) (h : p < 64) : (RegName.CPH_UNWRAP_STAT p).addr ≠ (RegName.CPH_SLOT n).addr := by
  simp only [RegName.addr]; omega

theorem stat_not_fltStatus (p : Nat) : (RegName.CPH_UNWRAP_STAT p).addr ∉ [RegName.FLT_STATUS].map RegName.addr := by
  simp only [List.map_cons, List.map_nil, List.mem_cons, List.not_mem_nil, or_false, RegName.addr]; omega

theorem stat_ne_counts (p : Nat) : (RegName.CPH_UNWRAP_STAT p).addr ≠ RegName.CPH_STAT.addr := by
  simp only [RegName.addr]; omega

/-! ### The right to an address (R212) -/

/-- No register of the cipher engine decides which region an address lies in or whom it answers. -/
theorem addrStatus_congr (h : ∀ q : RegName, ¬ CphAddr q.addr → d.rd q = c.rd q) (o : Option Nat) (a : Nat) :
    d.addrStatus o a = c.addrStatus o a := by
  have dram : ∀ x ≤ 1, d.dramSize x = c.dramSize x := fun x hx => by
    simp only [dramSize, gb, gf_eq, h (.DRM_CFG x) (by simp only [CphAddr, RegName.addr]; omega)]
  have region : d.region a = c.region a := by
    simp only [Chip.region, dram 0 (by decide), dram 1 (by decide)]
  have role : d.rd .PRT_MGR = c.rd .PRT_MGR := h _ (by decide)
  unfold addrStatus
  rw [region]
  split
  next => rfl
  next n bank =>
    have owner : d.rd (.BNK_OWNER n) = c.rd (.BNK_OWNER n) :=
      h _ (by have := region_bank_lt bank; simp only [CphAddr, RegName.addr]; omega)
    simp only [reaches, owns, hostOwns, isMgrPart, gb, gf_eq, owner, role]
  next => rfl

theorem rangeStatus_congr (h : ∀ q : RegName, ¬ CphAddr q.addr → d.rd q = c.rd q) (o : Option Nat) (a n : Nat) :
    d.rangeStatus o a n = c.rangeStatus o a n := by
  have same : d.addrStatus o = c.addrStatus o := funext fun a => addrStatus_congr h o a
  simp only [rangeStatus, same]

/-! ### A word read by an engine (R221, R225, R293) -/

/-- The fill before a read writes no register but the port's `DRM_INIT`. -/
theorem fillRegion_coreFrame (c : Chip) (a : Nat) : CoreFrame [.DRM_INIT 0, .DRM_INIT 1] c (c.fillRegion a) := by
  by_cases dram : ∃ p, c.region a = .dram p
  · obtain ⟨p, dram⟩ := dram
    obtain ⟨-, core, regs⟩ := fillRegion_marks dram
    refine CoreFrame.mono ⟨regs, core⟩ ?_
    obtain rfl | rfl : p = 0 ∨ p = 1 := by have := region_dram_le_one dram; omega
    · simp
    · simp
  · have filled : c.fillRegion a = c := by
      unfold fillRegion
      split
      next p hp => exact absurd ⟨p, hp⟩ dram
      next => rfl
    rw [filled]
    exact .refl _ c

theorem fillRegion_ecc (c : Chip) (a : Nat) : (c.fillRegion a).ecc = c.ecc := by
  unfold fillRegion
  split
  · simp only []
    split
    · rfl
    · split
      · simp only [sf_ecc]
      · simp only [sf_ecc]
  · rfl

theorem natLE_bytesLE (n v : Nat) : natLE (bytesLE n v) = v % 256 ^ n := by
  induction n generalizing v with
  | zero => exact (Nat.mod_one v).symm
  | succ n ih => rw [bytesLE, natLE, ih, BitVec.toNat_ofNat, Nat.pow_succ' (m := 256), Nat.mod_mul]

/-- An engine reads a word of memory without flipped bits: its octets as last written. -/
theorem engRead_word (now : Nat) {o : Option Nat} (he : c.ecc = []) (h8 : a % 8 = 0) (hr : c.rangeStatus o a 8 = 0) :
    ∃ l, c.engRead now o a 8 = (c.fillRegion a, .ok l) ∧ natLE l = c.rawNat 8 a := by
  have aligned : a / 8 * 8 = a := by omega
  have one : (a + 8 + 7) / 8 - a / 8 = 1 := by omega
  have clean := (c.fillRegion_ecc a).trans he
  have raw : (c.fillRegion a).rawNat 8 a = c.rawNat 8 a :=
    rawNat_congr (fun b => by rw [byte, fillRegion_mem, ← byte]) 8 a
  have small := c.rawNat_lt 8 a
  have word : ((c.fillRegion a).word a).toNat = c.rawNat 8 a := by
    rw [Chip.word, raw, BitVec.toNat_ofNat]
    exact Nat.mod_eq_of_lt small
  have read : c.readWord now a o = (c.fillRegion a, some ((c.fillRegion a).word a)) := by
    simp only [readWord, aligned, readCode_of_ecc_nil clean]
  refine ⟨bytesLE 8 (c.rawNat 8 a), ?_, (natLE_bytesLE _ _).trans (Nat.mod_eq_of_lt small)⟩
  simp [engRead, hr, readBytes, one, readWords, aligned, read, word, h8]

end Chip
end Sys2Proof.Machine
end

section
/-! Key slots and unwraps (R341 to R346, R391): what each of the cipher engine's operations does to a slot, to the command block
of a partition and to the channel state. -/
namespace Sys2Proof.Machine
namespace Chip
variable {c d : Chip} {p n k e use : Nat} {key : List Byte} {v : DWord} {j : Job} {u : Unwrap}

/-! ### Slots (R341, R342) -/

/-- A slot without a key: not valid, no use, no key held. -/
def SlotEmpty (c : Chip) (n : Nat) : Prop :=
  c.gb (.CPH_SLOT n) CPH_SLOT.VALID = false ∧ c.gf (.CPH_SLOT n) CPH_SLOT.USE = 0 ∧ c.chan.keys.get [] n = []

theorem SlotEmpty.congr (h : c.SlotEmpty n) (hr : d.rd (.CPH_SLOT n) = c.rd (.CPH_SLOT n)) (hk : d.chan.keys = c.chan.keys) :
    d.SlotEmpty n := by
  rw [SlotEmpty, gb_congr hr, gf_eq, hr, ← gf_eq, hk]
  exact h

/-- A write of a field beside VALID and USE leaves a slot empty. -/
theorem SlotEmpty.sf (h : c.SlotEmpty n) (f : Fld) (m : Nat) (hl : f.lo ≤ f.hi) (hv : f.hi < 63)
    (hu : f.hi < 56 ∨ 59 < f.lo) : (c.sf (.CPH_SLOT n) f m).SlotEmpty n := by
  have valid : f.hi < CPH_SLOT.VALID.lo := hv
  have use : CPH_SLOT.USE.hi < f.lo ∨ f.hi < CPH_SLOT.USE.lo := hu.symm
  have width : f.hi < 64 := by omega
  obtain ⟨hvalid, huse, hkey⟩ := h
  refine ⟨?_, ?_, by rw [sf_chan, hkey]⟩
  · rw [gb, gf_sf_field _ _ _ _ _ hl width (.inr valid), ← gb, hvalid]
  · rw [gf_sf_field _ _ _ _ _ hl width use, huse]

theorem zeroise_chan (c : Chip) (n : Nat) : (c.zeroise n).chan = { c.chan with keys := c.chan.keys.erase n } := by
  simp only [zeroise, modChan_chan, sf_chan]

theorem zeroise_empty (c : Chip) (n : Nat) : (c.zeroise n).SlotEmpty n := by
  refine ⟨?_, ?_, ?_⟩
  · rw [zeroise, gb_modChan, gb, gf_sf_field _ _ _ _ _ (by decide) (by decide) (by decide),
      gf_sf_field _ _ _ _ _ (by decide) (by decide) (by decide)]
    exact gb_sf_zero c _ (by decide) (by decide)
  · rw [zeroise, gf_modChan, gf_sf_same _ _ _ _ (by decide) (by decide), Nat.zero_mod]
  · rw [zeroise_chan]
    exact Tab.get_erase_same _ _ _

theorem zeroise_coreFrame (c : Chip) (n : Nat) : CoreFrame [.CPH_SLOT n] c (c.zeroise n) := by
  unfold zeroise
  exact .trans (.trans (.trans (.sf c _ _ (by simp)) (.sf _ _ _ (by simp))) (.sf _ _ _ (by simp))) (.modChan _ _)

/-- Zeroising keeps the fields of a slot below USE: its owner and its assignment. -/
theorem gf_zeroise (c : Chip) (n : Nat) {f : Fld} (h : f.hi < 56) :
    (c.zeroise n).gf (.CPH_SLOT n) f = c.gf (.CPH_SLOT n) f := by
  have use : f.hi < CPH_SLOT.USE.lo := h
  have klen : f.hi < CPH_SLOT.KLEN.lo := h.trans (by decide)
  have valid : f.hi < CPH_SLOT.VALID.lo := h.trans (by decide)
  rw [zeroise, gf_modChan, gf_sf_field _ _ _ _ _ (by decide) (by decide) (.inl use),
    gf_sf_field _ _ _ _ _ (by decide) (by decide) (.inl klen), gf_sf_field _ _ _ _ _ (by decide) (by decide) (.inl valid)]

/-- A key that has entered a slot (R345 step 5). -/
structure KeyLoaded (c d : Chip) (n use : Nat) (key : List Byte) : Prop where
  valid : d.gb (.CPH_SLOT n) CPH_SLOT.VALID = true
  use : d.gf (.CPH_SLOT n) CPH_SLOT.USE = use
  owner : d.gf (.CPH_SLOT n) CPH_SLOT.OWNER = c.gf (.CPH_SLOT n) CPH_SLOT.OWNER
  chan : d.chan = { c.chan with keys := c.chan.keys.set n key }
  frame : CoreFrame [.CPH_SLOT n] c d

theorem loadSlot_loads (c : Chip) (n : Nat) (h : use < 16) (key : List Byte) :
    KeyLoaded c (c.loadSlot n use key) n use key := by
  refine ⟨?_, ?_, ?_, ?_, ?_⟩
  · rw [loadSlot, gb_sf_one _ _ (by decide) (by decide)]
  · rw [loadSlot, gf_sf_field _ _ _ _ _ (by decide) (by decide) (by decide),
      gf_sf_field _ _ _ _ _ (by decide) (by decide) (by decide), gf_sf_same _ _ _ _ (by decide) (by decide)]
    exact Nat.mod_eq_of_lt h
  · rw [loadSlot]
    simp (disch := decide) only [gf_sf_field, gf_modChan]
  · simp only [loadSlot, sf_chan, modChan_chan]
  · unfold loadSlot
    exact .trans (.trans (.trans (.trans (.modChan c _) (.sf _ _ _ (by simp))) (.sf _ _ _ (by simp))) (.sf _ _ _ (by simp)))
      (.sf _ _ _ (by simp))

theorem clrSlot_of_free (h : c.gb (.CPH_SLOT n) CPH_SLOT.LOADING = false) : c.clrSlot n = c.zeroise n := by
  simp [clrSlot, h]

theorem clrSlot_of_loading (h : c.gb (.CPH_SLOT n) CPH_SLOT.LOADING = true) :
    c.clrSlot n = c.modChan (fun x => { x with clrs := addNew x.clrs n }) := by
  simp [clrSlot, h]

/-- The slot is assigned to another owner than the one that the manager's write names (R391). -/
def OwnerClash (c : Chip) (n : Nat) (v : DWord) : Prop :=
  c.gb (.CPH_SLOT n) CPH_SLOT.ASSIGNED = true ∧ v.getLsbD 49 = true ∧
    c.gf (.CPH_SLOT n) CPH_SLOT.OWNER ≠ CPH_SLOT.OWNER.get v

theorem slotWrite_of_clash (now : Nat) (h : c.OwnerClash n v) :
    c.slotWrite now n v = c.cfgReport now 0x06 0 (RegName.CPH_SLOT n).addr := by
  obtain ⟨assigned, keeps, other⟩ := h
  simp [slotWrite, assigned, keeps, other]

/-- An assignment without a clash: the slot is emptied and has its new owner. -/
theorem slotWrite_sets (now : Nat) (h : ¬ c.OwnerClash n v) :
    let d := c.slotWrite now n v
    d.SlotEmpty n ∧ d.gf (.CPH_SLOT n) CPH_SLOT.OWNER = CPH_SLOT.OWNER.get v ∧
      d.gb (.CPH_SLOT n) CPH_SLOT.ASSIGNED = v.getLsbD 49 ∧ CoreFrame [.CPH_SLOT n] c d := by
  intro d
  let owned := (c.zeroise n).sf (.CPH_SLOT n) CPH_SLOT.OWNER (CPH_SLOT.OWNER.get v)
  let assigned := owned.sf (.CPH_SLOT n) CPH_SLOT.ASSIGNED (bit (v.getLsbD 49))
  have allowed : ¬ (c.gb (.CPH_SLOT n) CPH_SLOT.ASSIGNED && v.getLsbD 49 &&
      c.gf (.CPH_SLOT n) CPH_SLOT.OWNER != CPH_SLOT.OWNER.get v) = true := by
    simpa [OwnerClash, and_assoc] using h
  obtain ⟨f, keeps, written⟩ : ∃ f : Chan → Chan, (∀ x, (f x).keys = x.keys) ∧ d = assigned.modChan f := by
    refine ⟨_, fun x => ?_, (if_neg allowed)⟩
    rfl
  have emptied : assigned.SlotEmpty n := ((c.zeroise_empty n).sf _ _ (by decide) (by decide) (by decide)).sf _ _ (by decide)
    (by decide) (by decide)
  rw [written]
  refine ⟨emptied.congr (rd_modChan _ _ _) (keeps _), ?_, ?_, ?_⟩
  · rw [gf_modChan, gf_sf_field _ _ _ _ _ (by decide) (by decide) (by decide), gf_sf_same _ _ _ _ (by decide) (by decide)]
    exact Nat.mod_eq_of_lt (CPH_SLOT.OWNER.get_lt v)
  · rw [gb_modChan]
    exact owned.gb_sf_same _ 49 _ (by decide)
  · exact (((c.zeroise_coreFrame n).trans (.sf _ _ _ (by simp))).trans (.sf owned _ _ (by simp))).trans (.modChan _ _)

/-! ### The end of a command (R345) -/

/-- The command of a partition's block has ended with result `e`. -/
structure CommandEnds (c d : Chip) (p e : Nat) : Prop where
  result : d.gf (.CPH_UNWRAP_STAT p) CPH_UNWRAP_STAT.RESULT = e
  busy : d.gb (.CPH_UNWRAP_STAT p) CPH_UNWRAP_STAT.BUSY = false
  stands : e ≠ 0 → d.stands 14 0
  chan : d.chan = c.chan
  frame : CoreFrame (resultRegs p) c d

theorem unwrapResult_ends (c : Chip) (now p : Nat) (h : e < 256) : CommandEnds c (c.unwrapResult now p e) p e := by
  let answered := c.sf (.CPH_UNWRAP_STAT p) CPH_UNWRAP_STAT.RESULT e
  let freed := answered.sf (.CPH_UNWRAP_STAT p) CPH_UNWRAP_STAT.BUSY 0
  have result : freed.gf (.CPH_UNWRAP_STAT p) CPH_UNWRAP_STAT.RESULT = e := by
    rw [gf_sf_field _ _ _ _ _ (by decide) (by decide) (by decide), gf_sf_same _ _ _ _ (by decide) (by decide)]
    exact Nat.mod_eq_of_lt h
  have busy : freed.gb (.CPH_UNWRAP_STAT p) CPH_UNWRAP_STAT.BUSY = false := answered.gb_sf_zero _ (by decide) (by decide)
  have frame : CoreFrame (resultRegs p) c freed := .trans (.sf c _ _ (by simp)) (.sf answered _ _ (by simp))
  have chan : freed.chan = c.chan := by simp only [freed, answered, sf_chan]
  by_cases he : e = 0
  · have ended : c.unwrapResult now p e = freed := if_pos he
    rw [ended]
    exact ⟨result, busy, fun failed => absurd he failed, chan, frame⟩
  · let counted := freed.inc .CPH_STAT CPH_STAT.UNWRAPFAIL
    have ended : c.unwrapResult now p e = counted.corrected now 14 := if_neg he
    have noted : CoreFrame [.FLT_STATUS] counted (counted.corrected now 14) := .corrected counted now 14 (by simp)
    rw [ended]
    refine ⟨?_, ?_, fun _ => counted.corrected_stands now (by decide), ?_, ?_⟩
    · rw [noted.gf _ (stat_not_fltStatus p)]
      exact (gf_sf_other _ _ _ _ (stat_ne_counts p)).trans result
    · rw [noted.gb _ (stat_not_fltStatus p)]
      exact (gb_congr (rd_sf_other _ _ _ (stat_ne_counts p)) _).trans busy
    · rw [corrected_chan, ← chan]
      exact sf_chan _ _ _ _
    · exact (frame.trans (.inc freed _ (by simp))).trans (noted.mono (by simp))

/-- A command whose slot is no longer loading, with no `CLR` and no unwrap that waited. -/
theorem slotLoaded_of_none (now n : Nat) (hc : c.chan.clrs = []) (hq : c.chan.unwrapQ = []) :
    c.slotLoaded now n = c.sf (.CPH_SLOT n) CPH_SLOT.LOADING 0 := by
  simp [slotLoaded, unwrapNext, hc, hq]

/-! ### The checks of a command (R345 step 1) -/

/-- The checks read slots alone. -/
theorem unwrapCheck_congr (h : ∀ m, d.rd (.CPH_SLOT m) = c.rd (.CPH_SLOT m)) (p : Nat) (mgr root : Bool) (kek tgt : Nat) :
    d.unwrapCheck p mgr root kek tgt = c.unwrapCheck p mgr root kek tgt := by
  simp only [unwrapCheck, slotServes, gb, gf_eq, h]

theorem unwrapCheck_lt (c : Chip) (p : Nat) (mgr root : Bool) (kek tgt : Nat) : c.unwrapCheck p mgr root kek tgt < 256 := by
  unfold unwrapCheck
  simp only []
  split_ifs <;> decide

/-! ### The start of a command (R343, R345) -/

/-- The word that `CPH_UNWRAP_CMD` holds after a write of `v`. -/
def commandWord (c : Chip) (p : Nat) (v : DWord) : DWord :=
  applyWrite (RegName.CPH_UNWRAP_CMD p).fields (c.rd (.CPH_UNWRAP_CMD p)) v

theorem commandWord_eq (c : Chip) (p : Nat) (v : DWord) : c.commandWord p v =
    CPH_UNWRAP_CMD.TARGET.put (CPH_UNWRAP_CMD.KEK.put (CPH_UNWRAP_CMD.CLASS.put (c.rd (.CPH_UNWRAP_CMD p))
      (CPH_UNWRAP_CMD.CLASS.get v)) (CPH_UNWRAP_CMD.KEK.get v)) (CPH_UNWRAP_CMD.TARGET.get v) := rfl

theorem target_commandWord (c : Chip) (p : Nat) (v : DWord) :
    CPH_UNWRAP_CMD.TARGET.get (c.commandWord p v) = CPH_UNWRAP_CMD.TARGET.get v := by
  rw [commandWord_eq, Fld.get_put_same _ _ _ (by decide) (by decide)]
  exact Nat.mod_eq_of_lt (CPH_UNWRAP_CMD.TARGET.get_lt v)

theorem kek_commandWord (c : Chip) (p : Nat) (v : DWord) :
    CPH_UNWRAP_CMD.KEK.get (c.commandWord p v) = CPH_UNWRAP_CMD.KEK.get v := by
  rw [commandWord_eq, Fld.get_put_other _ _ _ _ (by decide) (by decide) (by decide),
    Fld.get_put_same _ _ _ (by decide) (by decide)]
  exact Nat.mod_eq_of_lt (CPH_UNWRAP_CMD.KEK.get_lt v)

/-- The block has taken the command `v`: its word is stored with ROOT, and the status shows it under way. -/
def takeCommand (c : Chip) (p : Nat) (v : DWord) : Chip :=
  let stored := (c.wr (.CPH_UNWRAP_CMD p) (c.commandWord p v)).sf (.CPH_UNWRAP_CMD p) CPH_UNWRAP_CMD.ROOT (bit (v.getLsbD 62))
  (stored.sf (.CPH_UNWRAP_STAT p) CPH_UNWRAP_STAT.BUSY 1).sf (.CPH_UNWRAP_STAT p) CPH_UNWRAP_STAT.SLOT
    (CPH_UNWRAP_CMD.TARGET.get v)

/-- The command that a partition's block has under way. -/
structure CommandTaken (c d : Chip) (p : Nat) (v : DWord) : Prop where
  target : d.gf (.CPH_UNWRAP_CMD p) CPH_UNWRAP_CMD.TARGET = CPH_UNWRAP_CMD.TARGET.get v
  kek : d.gf (.CPH_UNWRAP_CMD p) CPH_UNWRAP_CMD.KEK = CPH_UNWRAP_CMD.KEK.get v
  root : d.gb (.CPH_UNWRAP_CMD p) CPH_UNWRAP_CMD.ROOT = v.getLsbD 62
  busy : d.gb (.CPH_UNWRAP_STAT p) CPH_UNWRAP_STAT.BUSY = true
  only : OnlyRegs c d (commandRegs p)

theorem takeCommand_taken (c : Chip) (p : Nat) (v : DWord) : CommandTaken c (c.takeCommand p v) p v := by
  have other := (stat_ne_cmd p).symm
  refine ⟨?_, ?_, ?_, ?_, ?_⟩
  · rw [takeCommand, gf_sf_other _ _ _ _ other, gf_sf_other _ _ _ _ other,
      gf_sf_field _ _ _ _ _ (by decide) (by decide) (by decide), gf_wr_same, target_commandWord]
  · rw [takeCommand, gf_sf_other _ _ _ _ other, gf_sf_other _ _ _ _ other,
      gf_sf_field _ _ _ _ _ (by decide) (by decide) (by decide), gf_wr_same, kek_commandWord]
  · rw [takeCommand, gb, gf_sf_other _ _ _ _ other, gf_sf_other _ _ _ _ other]
    exact gb_sf_same _ _ 62 _ (by decide)
  · rw [takeCommand, gb, gf_sf_field _ _ _ _ _ (by decide) (by decide) (by decide)]
    exact gb_sf_one _ _ (by decide) (by decide)
  · unfold takeCommand
    exact .trans (.trans (.trans (.wr c _ (by simp)) (.sf _ _ _ (by simp))) (.sf _ _ _ (by simp))) (.sf _ _ _ (by simp))

/-- The command word has no locked field. -/
theorem plainWrite_command (c : Chip) (now p : Nat) (v : DWord) :
    c.plainWrite now (.CPH_UNWRAP_CMD p) v = c.wr (.CPH_UNWRAP_CMD p) (c.commandWord p v) := rfl

theorem unwrapGo_of_busy (now : Nat) (mgr : Bool) (hg : v.getLsbD 63 = true)
    (hb : c.gb (.CPH_UNWRAP_STAT p) CPH_UNWRAP_STAT.BUSY = true) : c.unwrapGo now p mgr v = c.corrected now 14 := by
  simp [unwrapGo, hb, hg]

/-- A command whose target is not loading begins at once. -/
theorem unwrapGo_of_free (now : Nat) (mgr : Bool) (hp : p < 64) (hg : v.getLsbD 63 = true)
    (hb : c.gb (.CPH_UNWRAP_STAT p) CPH_UNWRAP_STAT.BUSY = false)
    (hl : c.gb (.CPH_SLOT (CPH_UNWRAP_CMD.TARGET.get v)) CPH_SLOT.LOADING = false) :
    c.unwrapGo now p mgr v = (c.takeCommand p v).unwrapBegin now p mgr := by
  have target : ((c.wr (.CPH_UNWRAP_CMD p) (c.commandWord p v)).sf (.CPH_UNWRAP_CMD p) CPH_UNWRAP_CMD.ROOT
      (bit (v.getLsbD 62))).gf (.CPH_UNWRAP_CMD p) CPH_UNWRAP_CMD.TARGET = CPH_UNWRAP_CMD.TARGET.get v := by
    rw [gf_sf_field _ _ _ _ _ (by decide) (by decide) (by decide), gf_wr_same, target_commandWord]
  have free := ((takeCommand_taken c p v).only.gb CPH_SLOT.LOADING (slot_not_commandRegs _ hp)).trans hl
  unfold takeCommand at free ⊢
  simp only [unwrapGo, plainWrite_command, hb, hg, target, free, Bool.false_and, Bool.not_true, Bool.false_eq_true, if_false]

/-- Step 1 refuses the command: it ends with the result of the check. -/
theorem unwrapGo_refused (now : Nat) (mgr : Bool) (hp : p < 64) (hg : v.getLsbD 63 = true)
    (hb : c.gb (.CPH_UNWRAP_STAT p) CPH_UNWRAP_STAT.BUSY = false)
    (hl : c.gb (.CPH_SLOT (CPH_UNWRAP_CMD.TARGET.get v)) CPH_SLOT.LOADING = false)
    (hc : c.unwrapCheck p mgr (v.getLsbD 62) (CPH_UNWRAP_CMD.KEK.get v) (CPH_UNWRAP_CMD.TARGET.get v) = e) (he : e ≠ 0) :
    let d := c.unwrapGo now p mgr v
    d.gf (.CPH_UNWRAP_STAT p) CPH_UNWRAP_STAT.RESULT = e ∧ d.gb (.CPH_UNWRAP_STAT p) CPH_UNWRAP_STAT.BUSY = false ∧
      d.chan = c.chan ∧ d.stands 14 0 ∧ (∀ m, d.rd (.CPH_SLOT m) = c.rd (.CPH_SLOT m)) ∧ SameCore c d := by
  intro d
  have taken := c.takeCommand_taken p v
  have slots : ∀ m, (c.takeCommand p v).rd (.CPH_SLOT m) = c.rd (.CPH_SLOT m) :=
    fun m => taken.only.2 _ (slot_not_commandRegs m hp)
  have checked := (unwrapCheck_congr slots p mgr (v.getLsbD 62) (CPH_UNWRAP_CMD.KEK.get v)
    (CPH_UNWRAP_CMD.TARGET.get v)).trans hc
  have ended : d = (c.takeCommand p v).unwrapResult now p e := by
    simp only [d, unwrapGo_of_free now mgr hp hg hb hl, unwrapBegin, taken.target, taken.kek, taken.root, checked, he, ne_eq,
      not_false_eq_true, if_true]
  have ends := (c.takeCommand p v).unwrapResult_ends now p (hc ▸ c.unwrapCheck_lt ..)
  rw [ended]
  exact ⟨ends.result, ends.busy, ends.chan.trans taken.only.chan, ends.stands he,
    fun m => (ends.frame.regs _ (slot_not_resultRegs m hp)).trans (slots m), taken.only.sameCore.trans ends.frame.core⟩

/-- The slot of a command that has passed step 1: zeroised and loading. -/
def reserveSlot (c : Chip) (n : Nat) : Chip := (c.zeroise n).sf (.CPH_SLOT n) CPH_SLOT.LOADING 1

theorem reserveSlot_empty (c : Chip) (n : Nat) : (c.reserveSlot n).SlotEmpty n :=
  (c.zeroise_empty n).sf _ _ (by decide) (by decide) (by decide)

theorem reserveSlot_loading (c : Chip) (n : Nat) : (c.reserveSlot n).gb (.CPH_SLOT n) CPH_SLOT.LOADING = true :=
  gb_sf_one _ _ (by decide) (by decide)

theorem reserveSlot_coreFrame (c : Chip) (n : Nat) : CoreFrame [.CPH_SLOT n] c (c.reserveSlot n) :=
  (c.zeroise_coreFrame n).trans (.sf _ _ _ (by simp))

/-- Whose memory the blob of a command is read from (R345 step 2). -/
def blobRights (c : Chip) (p : Nat) (mgr : Bool) : Option Nat :=
  if mgr then (if c.gb .PRT_MGR PRT_MGR.SITE then none else some 0) else some p

/-- Where the blob of a command begins. -/
def blobAddr (c : Chip) (p : Nat) : Nat := 8 * c.gf (.CPH_UNWRAP_ADDR p) CPH_UNWRAP_ADDR.ADDR

/-- A command that has passed step 1, with a header of a blob of 32 octets at its address, puts its job into the hopper. -/
theorem unwrapBegin_of_header {d : Chip} {l : List Byte} (now : Nat) (mgr : Bool)
    (hn : c.gf (.CPH_UNWRAP_CMD p) CPH_UNWRAP_CMD.TARGET = n)
    (hc : c.unwrapCheck p mgr (c.gb (.CPH_UNWRAP_CMD p) CPH_UNWRAP_CMD.ROOT)
      (c.gf (.CPH_UNWRAP_CMD p) CPH_UNWRAP_CMD.KEK) n = 0)
    (hr : (c.reserveSlot n).engRead now ((c.reserveSlot n).blobRights p mgr) ((c.reserveSlot n).blobAddr p) 8 = (d, .ok l))
    (tag : natLE l / 2 ^ 48 = 0x4B42) (version : natLE l / 2 ^ 40 % 256 = 1) (wlen : natLE l / 2 ^ 32 % 256 = 32) :
    ∃ u y, c.unwrapBegin now p mgr =
        d.modChan (fun x => { x with unwraps := x.unwraps.set p u, cjobs := x.cjobs ++ [y] }) ∧
      y.q = none ∧ y.part = p ∧ y.len = 32 := by
  unfold reserveSlot blobRights blobAddr at hr
  simp only [unwrapBegin, hn, hc, hr, tag, version, wlen, ne_eq, not_true_eq_false, if_false, false_and, or_self]
  exact ⟨_, _, rfl, rfl, rfl, rfl⟩

/-- The chip from which the blob of a command that has passed step 1 is read. -/
def prepareUnwrap (c : Chip) (p : Nat) (v : DWord) : Chip := (c.takeCommand p v).reserveSlot (CPH_UNWRAP_CMD.TARGET.get v)

theorem prepareUnwrap_coreFrame (c : Chip) (p : Nat) (v : DWord) :
    CoreFrame (.CPH_SLOT (CPH_UNWRAP_CMD.TARGET.get v) :: commandRegs p) c (c.prepareUnwrap p v) :=
  ((CoreFrame.of_onlyRegs (c.takeCommand_taken p v).only).mono (by simp)).trans
    ((reserveSlot_coreFrame _ _).mono (by simp))

theorem prepareUnwrap_ecc (c : Chip) (p : Nat) (v : DWord) : (c.prepareUnwrap p v).ecc = c.ecc := by
  simp only [prepareUnwrap, reserveSlot, zeroise, takeCommand, sf_ecc, modChan_ecc, wr_ecc]

/-- Where a command's blob lies, the right to it and its octets are as they were before the command. -/
theorem prepareUnwrap_reads (c : Chip) (v : DWord) (hp : p < 64) (mgr : Bool) :
    let d := c.prepareUnwrap p v
    d.blobRights p mgr = c.blobRights p mgr ∧ d.blobAddr p = c.blobAddr p ∧
      (∀ o a m, d.rangeStatus o a m = c.rangeStatus o a m) ∧ ∀ m a, d.rawNat m a = c.rawNat m a := by
  intro d
  have frame := c.prepareUnwrap_coreFrame p v
  have regs : ∀ q : RegName, ¬ CphAddr q.addr → d.rd q = c.rd q := fun q hq =>
    frame.regs q fun hm => hq (cphAddr_commandRegs hp (CPH_UNWRAP_CMD.TARGET.get_lt v) _ hm)
  have block : (RegName.CPH_UNWRAP_ADDR p).addr ∉
      (.CPH_SLOT (CPH_UNWRAP_CMD.TARGET.get v) :: commandRegs p).map RegName.addr := by
    simp only [commandRegs, List.map_cons, List.map_nil, List.mem_cons, List.not_mem_nil, or_false, RegName.addr]
    omega
  obtain ⟨mem, -⟩ := frame.core
  refine ⟨?_, ?_, rangeStatus_congr regs, rawNat_congr fun b => by rw [byte, mem, ← byte]⟩
  · simp only [blobRights, gb_congr (regs .PRT_MGR (by decide))]
  · rw [blobAddr, frame.gf _ block, ← blobAddr]

/-- The block `p` has a command under way whose slot `n` is reserved. -/
structure UnwrapPrepared (c d : Chip) (p n : Nat) : Prop where
  busy : d.gb (.CPH_UNWRAP_STAT p) CPH_UNWRAP_STAT.BUSY = true
  empty : d.SlotEmpty n
  loading : d.gb (.CPH_SLOT n) CPH_SLOT.LOADING = true
  cjobs : d.chan.cjobs = c.chan.cjobs
  mem : d.mem = c.mem

theorem prepareUnwrap_prepared (c : Chip) (v : DWord) (hp : p < 64) :
    UnwrapPrepared c (c.prepareUnwrap p v) p (CPH_UNWRAP_CMD.TARGET.get v) := by
  have taken := c.takeCommand_taken p v
  have reserved := (c.takeCommand p v).reserveSlot_coreFrame (CPH_UNWRAP_CMD.TARGET.get v)
  obtain ⟨mem, -⟩ := (c.prepareUnwrap_coreFrame p v).core
  refine ⟨?_, reserveSlot_empty _ _, reserveSlot_loading _ _, ?_, mem⟩
  · exact (reserved.gb _ (by simpa using stat_ne_slot _ hp)).trans taken.busy
  · rw [prepareUnwrap, reserveSlot, sf_chan, zeroise_chan, taken.only.chan]

/-- The fill before a read leaves the command block, the slots and the hopper. -/
theorem UnwrapPrepared.fillRegion (h : UnwrapPrepared c d p n) (a : Nat) : UnwrapPrepared c (d.fillRegion a) p n := by
  have fill := d.fillRegion_coreFrame a
  have chan : (d.fillRegion a).chan = d.chan := (d.fillRegion_millFrame a).chan
  have slot := fill.regs _ (slot_not_drmInit n)
  exact ⟨(fill.gb _ (stat_not_drmInit p)).trans h.busy, h.empty.congr slot (by rw [chan]), (gb_congr slot _).trans h.loading,
    by rw [chan, h.cjobs], (fillRegion_mem _ _).trans h.mem⟩

/-- A command that passes step 1 and finds a blob of 32 octets: its target is zeroised and loading, and its job waits. -/
theorem unwrapGo_starts (now : Nat) (mgr : Bool) (hp : p < 64) (hg : v.getLsbD 63 = true)
    (hb : c.gb (.CPH_UNWRAP_STAT p) CPH_UNWRAP_STAT.BUSY = false)
    (hl : c.gb (.CPH_SLOT (CPH_UNWRAP_CMD.TARGET.get v)) CPH_SLOT.LOADING = false)
    (hc : c.unwrapCheck p mgr (v.getLsbD 62) (CPH_UNWRAP_CMD.KEK.get v) (CPH_UNWRAP_CMD.TARGET.get v) = 0)
    (he : c.ecc = []) (hr : c.rangeStatus (c.blobRights p mgr) (c.blobAddr p) 8 = 0)
    (tag : c.rawNat 8 (c.blobAddr p) / 2 ^ 48 = 0x4B42) (version : c.rawNat 8 (c.blobAddr p) / 2 ^ 40 % 256 = 1)
    (wlen : c.rawNat 8 (c.blobAddr p) / 2 ^ 32 % 256 = 32) :
    let d := c.unwrapGo now p mgr v
    let n := CPH_UNWRAP_CMD.TARGET.get v
    d.gb (.CPH_UNWRAP_STAT p) CPH_UNWRAP_STAT.BUSY = true ∧ d.SlotEmpty n ∧ d.gb (.CPH_SLOT n) CPH_SLOT.LOADING = true ∧
      d.mem = c.mem ∧ ∃ y, d.chan.cjobs = c.chan.cjobs ++ [y] ∧ y.q = none ∧ y.part = p ∧ y.len = 32 := by
  intro d n
  have taken := c.takeCommand_taken p v
  have prepared := c.prepareUnwrap_prepared v hp
  have checked := (unwrapCheck_congr (fun m => taken.only.2 _ (slot_not_commandRegs m hp)) p mgr (v.getLsbD 62)
    (CPH_UNWRAP_CMD.KEK.get v) n).trans hc
  obtain ⟨rights, addr, range, raw⟩ := c.prepareUnwrap_reads v hp mgr
  obtain ⟨l, read, octets⟩ := engRead_word (a := c.blobAddr p) now ((c.prepareUnwrap_ecc p v).trans he)
    (Nat.mul_mod_right 8 _) ((range _ _ _).trans hr)
  rw [raw] at octets
  obtain ⟨w, y, begun, alone, part, len⟩ := unwrapBegin_of_header (c := c.takeCommand p v) now mgr taken.target
    (by rw [taken.root, taken.kek]; exact checked) (by rw [← prepareUnwrap, rights, addr]; exact read)
    (by rw [octets]; exact tag) (by rw [octets]; exact version) (by rw [octets]; exact wlen)
  have started : d = _ := (unwrapGo_of_free now mgr hp hg hb hl).trans begun
  have waits := prepared.fillRegion (c.blobAddr p)
  refine ⟨?_, ?_, ?_, ?_, y, ?_, alone, part, len⟩
  · rw [started, gb_modChan, waits.busy]
  · rw [started]
    exact waits.empty.congr (rd_modChan _ _ _) rfl
  · rw [started, gb_modChan, waits.loading]
  · rw [started, modChan_mem, waits.mem]
  · rw [started, modChan_chan, waits.cjobs]

/-! ### The end of an unwrap (R345 steps 3 to 5) -/

/-- The job of an unwrap leaves its core, and the unwrap is no longer under way. -/
def leaveCore (c : Chip) (p : Nat) (j : Job) : Chip :=
  (c.jobGone .cipher j).modChan (fun h => { h with unwraps := h.unwraps.erase p })

/-- The job of an unwrap has left core `k`: the keys and what waits for a slot are as they were. -/
structure CoreLeft (c d : Chip) (k : Nat) : Prop where
  keys : d.chan.keys = c.chan.keys
  clrs : d.chan.clrs = c.chan.clrs
  unwrapQ : d.chan.unwrapQ = c.chan.unwrapQ
  frame : CoreFrame [.CPH_CORE k] c d

theorem release_onlyRegs (c : Chip) (pool : Pool) (k : Nat) : OnlyRegs c (c.release pool k) [coreReg pool k] := by
  unfold release
  split
  · exact .refl c _
  · exact .sf c _ _ (by simp)

theorem leaveCore_left (p : Nat) (hq : j.q = none) (hk : j.core = some k) : CoreLeft c (c.leaveCore p j) k := by
  have gone : c.jobGone .cipher j = (c.setJobs .cipher ((c.jobs .cipher).filter (fun x => x ≠ j))).release .cipher k := by
    simp only [jobGone, hq, hk]
  have stored : CoreFrame [.CPH_CORE k] c (c.setJobs .cipher ((c.jobs .cipher).filter (fun x => x ≠ j))) := by
    unfold setJobs
    exact .modChan c _
  rw [leaveCore, gone]
  refine ⟨?_, ?_, ?_, (stored.trans (.of_onlyRegs (release_onlyRegs _ .cipher k))).trans (.modChan _ _)⟩
  · rw [modChan_chan, (release_onlyRegs _ .cipher k).chan]; rfl
  · rw [modChan_chan, (release_onlyRegs _ .cipher k).chan]; rfl
  · rw [modChan_chan, (release_onlyRegs _ .cipher k).chan]; rfl

/-- The unwrap of block `p` into slot `n` has ended with result `e`: the slot is as it was, but no longer loading. -/
structure UnwrapEnds (c d : Chip) (p n e : Nat) : Prop where
  result : d.gf (.CPH_UNWRAP_STAT p) CPH_UNWRAP_STAT.RESULT = e
  busy : d.gb (.CPH_UNWRAP_STAT p) CPH_UNWRAP_STAT.BUSY = false
  stands : e ≠ 0 → d.stands 14 0
  loading : d.gb (.CPH_SLOT n) CPH_SLOT.LOADING = false
  slot : ∀ f : Fld, f.hi < 62 ∨ 62 < f.lo → d.gf (.CPH_SLOT n) f = c.gf (.CPH_SLOT n) f
  chan : d.chan = c.chan
  core : SameCore c d

theorem slotLoaded_ends (now : Nat) (hp : p < 64) (h : e < 256) (hc : c.chan.clrs = []) (hq : c.chan.unwrapQ = []) :
    UnwrapEnds c ((c.unwrapResult now p e).slotLoaded now n) p n e := by
  have ends := c.unwrapResult_ends now p h
  have fltStatus : RegName.FLT_STATUS.addr ≠ (RegName.CPH_SLOT n).addr := by simp only [RegName.addr]; omega
  rw [slotLoaded_of_none now n (by rw [ends.chan, hc]) (by rw [ends.chan, hq])]
  refine ⟨?_, ?_, fun he => ?_, gb_sf_zero _ _ (by decide) (by decide), fun f hf => ?_,
    (sf_chan _ _ _ _).trans ends.chan, ends.frame.core.trans (.sf _ _ _ _)⟩
  · rw [gf_sf_other _ _ _ _ (stat_ne_slot n hp), ends.result]
  · rw [gb_congr (rd_sf_other _ _ _ (stat_ne_slot n hp)), ends.busy]
  · exact (sticky_congr (rd_sf_other _ _ _ fltStatus) _ _).trans (ends.stands he)
  · rw [gf_sf_field _ _ _ _ _ (by decide) (by decide) hf, ends.frame.gf _ (slot_not_resultRegs n hp)]

theorem unwrapEnd_of_key (now : Nat) (hj : j.bad = 0) (hu : u.bad = 0)
    (h : unwrapKey j.key j.data u.root ((c.leaveCore p j).gf (.CPH_SLOT u.slot) CPH_SLOT.OWNER) = .ok (use, key)) :
    c.unwrapEnd now p j u =
      (((c.leaveCore p j).loadSlot u.slot use key).unwrapResult now p 0).slotLoaded now u.slot := by
  unfold leaveCore at h ⊢
  simp only [unwrapEnd, hu, hj, h, ne_eq, not_true_eq_false, if_false]

theorem unwrapEnd_of_error (now : Nat) (hj : j.bad = 0) (hu : u.bad = 0)
    (h : unwrapKey j.key j.data u.root ((c.leaveCore p j).gf (.CPH_SLOT u.slot) CPH_SLOT.OWNER) = .error e) :
    c.unwrapEnd now p j u = (((c.leaveCore p j).zeroise u.slot).unwrapResult now p e).slotLoaded now u.slot := by
  unfold leaveCore at h ⊢
  simp only [unwrapEnd, hu, hj, h, ne_eq, not_true_eq_false, if_false]

/-- A key unwrapped under the binding of its slot's owner enters the slot. -/
theorem unwrapEnd_loads (now : Nat) (hp : p < 64) (hq : j.q = none) (hk : j.core = some k) (h16 : k < 16) (hj : j.bad = 0)
    (hu : u.bad = 0) (hn : u.slot = n) (hc : c.chan.clrs = []) (hw : c.chan.unwrapQ = [])
    (hkey : unwrapKey j.key j.data u.root (c.gf (.CPH_SLOT n) CPH_SLOT.OWNER) = .ok (use, key)) (huse : use < 16) :
    let d := c.unwrapEnd now p j u
    d.gb (.CPH_SLOT n) CPH_SLOT.VALID = true ∧ d.gf (.CPH_SLOT n) CPH_SLOT.USE = use ∧ d.chan.keys.get [] n = key ∧
      d.gb (.CPH_SLOT n) CPH_SLOT.LOADING = false ∧ d.gf (.CPH_UNWRAP_STAT p) CPH_UNWRAP_STAT.RESULT = 0 ∧
      d.gb (.CPH_UNWRAP_STAT p) CPH_UNWRAP_STAT.BUSY = false ∧
      d.gf (.CPH_SLOT n) CPH_SLOT.OWNER = c.gf (.CPH_SLOT n) CPH_SLOT.OWNER ∧ SameCore c d := by
  intro d
  subst hn
  have left : CoreLeft c (c.leaveCore p j) k := leaveCore_left p hq hk
  have loaded := (c.leaveCore p j).loadSlot_loads u.slot huse key
  have owner := left.frame.gf CPH_SLOT.OWNER (slot_not_core u.slot h16)
  have ended : d = _ := unwrapEnd_of_key now hj hu (owner.symm ▸ hkey)
  have ends := slotLoaded_ends (c := (c.leaveCore p j).loadSlot u.slot use key) (n := u.slot) (e := 0) now hp (by decide)
    (by rw [loaded.chan]; exact left.clrs.trans hc) (by rw [loaded.chan]; exact left.unwrapQ.trans hw)
  rw [ended]
  refine ⟨?_, (ends.slot _ (by decide)).trans loaded.use, ?_, ends.loading, ends.result, ends.busy,
    ((ends.slot _ (by decide)).trans loaded.owner).trans owner, (left.frame.core.trans loaded.frame.core).trans ends.core⟩
  · rw [gb, ends.slot _ (by decide), ← gb, loaded.valid]
  · rw [ends.chan, loaded.chan]
    exact Tab.get_set_same _ _ _ _

/-- An unwrap whose blob fails its checks leaves its slot empty. -/
theorem unwrapEnd_fails (now : Nat) (hp : p < 64) (hq : j.q = none) (hk : j.core = some k) (h16 : k < 16) (hj : j.bad = 0)
    (hu : u.bad = 0) (hn : u.slot = n) (hc : c.chan.clrs = []) (hw : c.chan.unwrapQ = [])
    (hkey : unwrapKey j.key j.data u.root (c.gf (.CPH_SLOT n) CPH_SLOT.OWNER) = .error e) (he : e = 4 ∨ e = 5) :
    let d := c.unwrapEnd now p j u
    d.SlotEmpty n ∧ d.gb (.CPH_SLOT n) CPH_SLOT.LOADING = false ∧ d.gf (.CPH_UNWRAP_STAT p) CPH_UNWRAP_STAT.RESULT = e ∧
      d.stands 14 0 ∧ SameCore c d := by
  intro d
  subst hn
  have left : CoreLeft c (c.leaveCore p j) k := leaveCore_left p hq hk
  have owner := left.frame.gf CPH_SLOT.OWNER (slot_not_core u.slot h16)
  have ended : d = _ := unwrapEnd_of_error now hj hu (owner.symm ▸ hkey)
  have ends := slotLoaded_ends (c := (c.leaveCore p j).zeroise u.slot) (n := u.slot) (e := e) now hp (by omega)
    (by rw [zeroise_chan]; exact left.clrs.trans hc) (by rw [zeroise_chan]; exact left.unwrapQ.trans hw)
  obtain ⟨valid, unused, key⟩ := (c.leaveCore p j).zeroise_empty u.slot
  rw [ended]
  refine ⟨⟨?_, (ends.slot _ (by decide)).trans unused, by rw [ends.chan]; exact key⟩, ends.loading, ends.result,
    ends.stands (by omega), (left.frame.core.trans (zeroise_coreFrame _ _).core).trans ends.core⟩
  rw [gb, ends.slot _ (by decide), ← gb, valid]

end Chip

/-! ### The commands -/

variable {s : State} {ag : Agent}

theorem exec_unwrap {p : BitVec 6} (v : BitVec 64) (hp : s.chip.poolOn .cipher = true)
    (hw : s.chip.mayWrite ag (.CPH_UNWRAP_CMD p.toNat) = true) : exec (.unwrap ag p v) s =
      .next { s with chip := s.chip.unwrapGo s.now.toNat p.toNat (ag == .manager || ag == .miller) v } := by
  change execUnwrap ag p v s = _
  simp [execUnwrap, State.act, hp, hw]

theorem exec_unwrap_of_denied {p : BitVec 6} (v : BitVec 64) (hw : s.chip.mayWrite ag (.CPH_UNWRAP_CMD p.toNat) = false) :
    exec (.unwrap ag p v) s = .next s := by
  change execUnwrap ag p v s = _
  simp [execUnwrap, State.act, hw]

/-- The end of the unwrap of a partition whose job is alone in the hopper. -/
theorem exec_unwrapEnd {p : BitVec 6} {j : Job} {u : Unwrap} {k : Nat} (hj : s.chip.chan.cjobs = [j]) (hq : j.q = none)
    (hp : j.part = p.toNat) (hk : j.core = some k)
    (hu : s.chip.chan.unwraps.find? (fun e => e.1 == p.toNat) = some (p.toNat, u)) :
    exec (.unwrapEnd p) s = .next { s with chip := s.chip.unwrapEnd s.now.toNat p.toNat j u } := by
  change execUnwrapEnd p s = _
  simp [execUnwrapEnd, State.act, Chip.jobs, hj, hq, hp, hk, hu]

theorem exec_unwrapEnd_of_none (p : BitVec 6) (hj : s.chip.chan.cjobs = []) : exec (.unwrapEnd p) s = .next s := by
  change execUnwrapEnd p s = _
  simp [execUnwrapEnd, State.act, Chip.jobs, hj]

theorem exec_clr {n : BitVec 12} (hp : s.chip.poolOn .cipher = true) (hw : s.chip.mayWrite ag (.CPH_SLOT n.toNat) = true) :
    exec (.clr ag n) s = .next { s with chip := s.chip.clrSlot n.toNat } := by
  change execClr ag n s = _
  simp [execClr, State.act, hp, hw]

theorem exec_clr_of_denied {n : BitVec 12} (hw : s.chip.mayWrite ag (.CPH_SLOT n.toNat) = false) :
    exec (.clr ag n) s = .next s := by
  change execClr ag n s = _
  simp [execClr, State.act, hw]

theorem exec_slotAssign (n : BitVec 12) (v : BitVec 64) (hp : s.chip.poolOn .cipher = true)
    (ha : ag = .manager ∨ ag = .miller) :
    exec (.slotAssign ag n v) s = .next { s with chip := s.chip.slotWrite s.now.toNat n.toNat v } := by
  have manager : s.chip.mayWrite .manager (.CPH_SLOT n.toNat) = true := rfl
  change execSlotAssign ag n v s = _
  rcases ha with rfl | rfl
  · simp [execSlotAssign, State.act, hp, manager]
  · simp [execSlotAssign, State.act, hp]

theorem exec_slotAssign_of_denied {n : BitVec 12} (v : BitVec 64) (hw : s.chip.mayWrite ag (.CPH_SLOT n.toNat) = false)
    (ha : ag ≠ .miller) : exec (.slotAssign ag n v) s = .next s := by
  change execSlotAssign ag n v s = _
  simp [execSlotAssign, State.act, hw, ha]

/-- A refused assignment leaves the slot and is reported (R391). -/
theorem Chip.cfgReport_slot (c : Chip) (now n : Nat) :
    let d := c.cfgReport now 0x06 0 (RegName.CPH_SLOT n).addr
    d.rd (.CPH_SLOT n) = c.rd (.CPH_SLOT n) ∧ d.chan = c.chan ∧ d.stands 18 0 ∧ d.gf .CFG_SYND CFG_SYND.CODE = 6 ∧
      SameCore c d := by
  obtain ⟨frame, core⟩ := c.cfgReport_frame now 0x06 0 (RegName.CPH_SLOT n).addr
  refine ⟨frame.rd _ (by simp only [CfgFltAddr, FltAddr, RegName.addr]; omega), ?_,
    corrected_stands _ now (by decide), ?_, core⟩
  · simp only [cfgReport, corrected_chan, sf_chan]
  · rw [cfgReport, (corrected_unitFrame _ now 18).gf _ (by decide), gf_sf_field _ _ _ _ _ (by decide) (by decide) (by decide),
      gf_sf_field _ _ _ _ _ (by decide) (by decide) (by decide), gf_sf_same _ _ _ _ (by decide) (by decide)]
    rfl

end Sys2Proof.Machine

open Sys2Proof Sys2Proof.Machine

/-- Settles O42: each command answers the chip that its law above names. A command that step 1 refuses writes the block's own
registers; one that passes reads a header word without flipped bits. That a command whose trigger does not hold changes nothing
is the model's choice (log 3), as are the order of the checks and the zeroising of the target after step 1 (log 34). -/
theorem keySlots : Obligations.KeySlots := by
  unfold Obligations.KeySlots
  intro s ag pp nn v j u k use e key c p n slot stat mgr root kek tgt empty go a h ends
  refine ⟨fun going busy => ?busy, fun going free unloaded check failed => ?refused,
    fun going free unloaded check clean range tag version wlen => ?starts, exec_unwrap_of_denied v,
    fun ending unwrapped small => ?loads, fun ending refused code => ?fails, exec_unwrapEnd_of_none pp,
    fun on may => ⟨fun free => ?clears, fun loading => ?waits⟩,
    fun denied other => ⟨exec_clr_of_denied denied, exec_slotAssign_of_denied v denied other⟩,
    fun on agent => ⟨fun allowed => ?assigns, fun clash => ?clashes⟩⟩
  case busy =>
    obtain ⟨on, may, asked⟩ := going
    have law := exec_unwrap v on may
    rw [Chip.unwrapGo_of_busy _ _ asked busy] at law
    have frame : CoreFrame [.FLT_STATUS] c (c.corrected s.now.toNat 14) := .corrected c _ 14 (by simp)
    exact ⟨_, law, Chip.corrected_stands c _ (by decide), Chip.corrected_chan c _ 14,
      frame.regs _ (Chip.stat_not_fltStatus p), frame.core⟩
  case refused =>
    obtain ⟨on, may, asked⟩ := going
    obtain ⟨result, idle, chan, stands, slots, core⟩ :=
      Chip.unwrapGo_refused s.now.toNat mgr pp.isLt asked free unloaded check failed
    exact ⟨_, exec_unwrap v on may, result, idle, chan, stands, fun m => slots m.toNat, core⟩
  case starts =>
    obtain ⟨on, may, asked⟩ := going
    exact ⟨_, exec_unwrap v on may,
      Chip.unwrapGo_starts s.now.toNat mgr pp.isLt asked free unloaded check clean range tag version wlen⟩
  case loads =>
    obtain ⟨alone, own, part, core, cores, good, kept, target, under, clrs, waiting⟩ := ending
    exact ⟨_, exec_unwrapEnd alone own part core under,
      Chip.unwrapEnd_loads _ pp.isLt own core cores good kept target clrs waiting unwrapped small⟩
  case fails =>
    obtain ⟨alone, own, part, core, cores, good, kept, target, under, clrs, waiting⟩ := ending
    exact ⟨_, exec_unwrapEnd alone own part core under,
      Chip.unwrapEnd_fails _ pp.isLt own core cores good kept target clrs waiting refused code⟩
  case clears =>
    have law := exec_clr on may
    rw [Chip.clrSlot_of_free free] at law
    have frame := c.zeroise_coreFrame n
    exact ⟨_, law, c.zeroise_empty n, c.gf_zeroise n (by decide), frame.regs, frame.core⟩
  case waits =>
    have law := exec_clr on may
    rw [Chip.clrSlot_of_loading loading] at law
    exact ⟨_, law, Chip.mem_addNew _ _, rfl, .modChan c _⟩
  case assigns =>
    obtain ⟨emptied, owner, assigned, frame⟩ := Chip.slotWrite_sets (c := c) (n := n) s.now.toNat allowed
    exact ⟨_, exec_slotAssign nn v on agent, emptied, owner, assigned, frame.regs, frame.core⟩
  case clashes =>
    have law := exec_slotAssign nn v on agent
    rw [Chip.slotWrite_of_clash _ clash] at law
    exact ⟨_, law, c.cfgReport_slot _ n⟩
end

section
/-! Shaft arbiters (R378 to R387): which request a decision grants, what losing leaves of a request and its port. -/
namespace Sys2Proof.Machine

theorem OnlyRegs.mono {c d : Chip} {rs rs' : List RegName} (h : OnlyRegs c d rs) (sub : rs ⊆ rs') : OnlyRegs c d rs' :=
  ⟨h.1, fun q hq => h.2 q fun hm => hq (List.map_subset _ sub hm)⟩

end Sys2Proof.Machine

namespace Sys2Proof.Machine.Chip
variable {c : Chip}

/-! ### Weighted round robin (R379) -/

/-- The credits of a level set port by port. -/
theorem get_foldl_credit (lvl : Nat) (w : Nat → Nat) (t : Tab Nat) {n p : Nat} (h : p < n) :
    ((List.range n).foldl (fun t i => t.set (128 * lvl + i) (w i)) t).get 0 (128 * lvl + p) = w p := by
  induction n with
  | zero => exact absurd h (Nat.not_lt_zero p)
  | succ n ih =>
    rw [List.range_succ, List.foldl_append, List.foldl_cons, List.foldl_nil]
    rcases Nat.lt_succ_iff_lt_or_eq.1 h with hp | rfl
    · rw [Tab.get_set_other _ _ _ (by omega), ih hp]
    · exact Tab.get_set_same _ _ _ _

/-- The pointer passes every port. -/
theorem rotation_mem (from_ : Nat) {p : Nat} (h : p < 128) : p ∈ (List.range 128).map (fun i => (from_ + i) % 128) :=
  List.mem_map.2 ⟨(p + 128 - from_ % 128) % 128, List.mem_range.2 (Nat.mod_lt _ (by decide)), by omega⟩

/-- A port alone at its level is granted: the level's credits are renewed where it has none left. -/
theorem wrr_lone (c : Chip) (lvl : Nat) {p : Nat} (x : Arb) (hp : p < 128) (hw : c.gf (.ARB_PORT p) ARB_PORT.WEIGHT ≠ 0) :
    ∃ y, c.wrr lvl [p] x = some (p, y) ∧ y.reqs = x.reqs ∧ y.last = x.last := by
  unfold wrr
  simp only [List.any_cons, List.any_nil, Bool.or_false]
  set fresh := (List.range 128).foldl (fun t p => t.set (128 * lvl + p) (c.gf (.ARB_PORT p) ARB_PORT.WEIGHT)) x.credit with hf
  set credit := if (x.credit.get 0 (128 * lvl + p) != 0) = true then x.credit else fresh with hc
  have has : (credit.get 0 (128 * lvl + p) != 0) = true := by
    rw [hc]
    split
    · assumption
    · rw [hf, get_foldl_credit lvl _ _ hp]
      exact bne_iff_ne.2 hw
  set found := ((List.range 128).map (fun i => (x.ptr.get 0 lvl + i) % 128)).find?
    (fun r => [p].contains r && (credit.get 0 (128 * lvl + r) != 0)) with hfound
  have some_found : found.isSome = true := List.find?_isSome.2 ⟨p, rotation_mem _ hp, by simp [has]⟩
  obtain ⟨r, hr⟩ := Option.isSome_iff_exists.1 some_found
  have only : r = p := by
    have := List.find?_some (hfound ▸ hr)
    simp only [List.contains_cons, List.contains_nil, Bool.or_false, Bool.and_eq_true, beq_iff_eq] at this
    exact this.1
  rw [hr, only]
  exact ⟨_, rfl, rfl, rfl⟩

/-! ### Decisions (R378 to R380) -/

theorem windows_keeps (c : Chip) (x : Arb) (g : Nat) : (c.windows x g).reqs = x.reqs ∧ (c.windows x g).last = x.last := by
  unfold windows
  simp only []
  split <;> split <;> exact ⟨rfl, rfl⟩

/-- A port alone at the top level among the admitted ones is granted. -/
theorem decision_of_top {a p k pr : Nat} {x : Arb} (ht : c.topLevel (c.admitted a x) = some (k, pr))
    (hl : (c.admitted a x).filter (fun p => c.reqRank p == (k, pr)) = [p]) (hp : p < 128)
    (hw : c.gf (.ARB_PORT p) ARB_PORT.WEIGHT ≠ 0) :
    ∃ y, c.decision a x = some (p, y) ∧ y.reqs = x.reqs.filter (fun r => r.port != p) ∧ y.last = x.last := by
  obtain ⟨y, hy, reqs, last⟩ := c.wrr_lone (8 * k + pr) x hp hw
  obtain ⟨wreqs, wlast⟩ := c.windows_keeps y k
  refine ⟨{ c.windows y k with reqs := (c.windows y k).reqs.filter (fun r => r.port != p) }, ?_, ?_, wlast.trans last⟩
  · simp only [decision, ht, hl, hy]
  · rw [← reqs, ← wreqs]

/-- The classes that R380 holds are held for a request of another class. -/
theorem admitted_lone (c : Chip) (a p : Nat) {x : Arb} (h : x.reqs.map (·.port) = [p]) : c.admitted a x = [p] := by
  unfold admitted
  simp only [h, List.any_cons, List.any_nil, Bool.or_false]
  refine List.filter_eq_self.2 fun q hq => ?_
  obtain rfl := List.mem_singleton.1 hq
  by_cases h1 : (c.reqRank q).1 = 1
  · simp [h1]
  · by_cases h2 : (c.reqRank q).1 = 2
    · simp [h2]
    · simp [h1, h2]

/-- A lone request is granted (R378). -/
theorem decision_lone (c : Chip) (a : Nat) {p : Nat} {x : Arb} (h : x.reqs.map (·.port) = [p]) (hp : p < 128)
    (hw : c.gf (.ARB_PORT p) ARB_PORT.WEIGHT ≠ 0) :
    ∃ y, c.decision a x = some (p, y) ∧ y.reqs = x.reqs.filter (fun r => r.port != p) ∧ y.last = x.last := by
  have lone := c.admitted_lone a p h
  have top : c.topLevel (c.admitted a x) = some ((c.reqRank p).1, (c.reqRank p).2) := by rw [lone]; rfl
  exact decision_of_top top (by simp [lone]) hp hw

/-- With no decision behind them the windows of R380 hold nothing: a reserve has four bits. -/
theorem admitted_of_no_wins (c : Chip) (a : Nat) {x : Arb} (h1 : x.win1 = []) (h2 : x.win2 = []) :
    c.admitted a x = x.reqs.map (·.port) := by
  have left : ∀ f : Fld, f.hi = f.lo + 3 → ((0 : Nat) == 16 - c.gf (.ARB_ARB a) f) = false := fun f hf => by
    have := Fld.get_lt f (c.rd (.ARB_ARB a))
    rw [hf, show f.lo + 3 + 1 - f.lo = 4 by omega, ← gf_eq] at this
    exact beq_eq_false_iff_ne.2 (by omega)
  unfold admitted
  simp only [h1, h2, List.countP_nil, left ARB_ARB.RSV2 rfl, left ARB_ARB.RSV3 rfl, Bool.and_false, Bool.false_and, Bool.not_false,
    Bool.and_self, List.filter_true]

/-- Of two requests in different classes the more urgent one is granted, though it came later (R378). -/
theorem decision_urgent (a : Nat) {p q : Nat} {x : Arb} (h : x.reqs.map (·.port) = [q, p]) (h1 : x.win1 = []) (h2 : x.win2 = [])
    (hp : p < 128) (hw : c.gf (.ARB_PORT p) ARB_PORT.WEIGHT ≠ 0) (hk : (c.reqRank p).1 < (c.reqRank q).1) :
    ∃ y, c.decision a x = some (p, y) ∧ y.reqs = x.reqs.filter (fun r => r.port != p) ∧ y.last = x.last := by
  have both : c.admitted a x = [q, p] := (c.admitted_of_no_wins a h1 h2).trans h
  have top : c.topLevel (c.admitted a x) = some ((c.reqRank p).1, (c.reqRank p).2) := by
    rw [both]
    simp [topLevel, hk]
  have other : c.reqRank q ≠ c.reqRank p := fun he => by rw [he] at hk; exact Nat.lt_irrefl _ hk
  exact decision_of_top top (by simp [both, other]) hp hw

/-! ### Counters and hints (R382 to R384, R387) -/

theorem arbGrant_onlyRegs (c : Chip) (now p : Nat) (lost : Bool) (since : Nat) :
    OnlyRegs c (c.arbGrant now p lost since) [.ARB_GRANTS p, .ARB_LONG p] := by
  unfold arbGrant
  simp only []
  split
  · exact .trans (.sf c _ _ (by simp)) (.sf _ _ _ (by simp))
  · exact .sf c _ _ (by simp)

theorem arbLose_onlyRegs (c : Chip) (q : Nat) : OnlyRegs c (c.arbLose q) [.ARB_WAITS q] := .sf c _ _ (by simp)

/-- The registers that count a grant to `p` and the first loss of `q` are no port's. -/
theorem arbPort_not_counted (r p q : Nat) (hr : r < 128) :
    (RegName.ARB_PORT r).addr ∉ ([.ARB_GRANTS p, .ARB_LONG p, .ARB_WAITS q] : List RegName).map RegName.addr := by
  simp only [List.map_cons, List.map_nil, List.mem_cons, List.not_mem_nil, or_false, RegName.addr]
  omega

/-- A request that loses for the first time gives its core's port the hint that no grant goes before its own, if it is alone. -/
theorem giveHint_lone (c : Chip) (a rem : Nat) {q : Nat} {x : Arb} {r : ArbReq} (hr : r.port = q) (hl : r.lost = false)
    (hx : x.reqs = [r]) (h2 : 2 ≤ q) (hq : q < 98) (hw : c.gf (.ARB_PORT q) ARB_PORT.WEIGHT ≠ 0) :
    ∃ h, ((c.giveHint a rem x r).port (q - 2)).hint = some h ∧ h.ahead = 0 := by
  obtain ⟨y, hy, -⟩ := c.decision_lone a (p := q) (x := x) (by rw [hx, List.map_singleton, hr]) (by omega) hw
  have none_ahead : c.grantsAhead a q 15 x = 0 := by rw [grantsAhead, hy]; exact if_pos rfl
  unfold giveHint
  rw [hr, if_neg (by omega)]
  simp only [updPort_eq, port_setPort_same, hl, none_ahead]
  exact ⟨_, rfl, rfl⟩

theorem giveHint_eq (c : Chip) (a rem : Nat) (x : Arb) (r : ArbReq) : ∃ p, c.giveHint a rem x r = { c with ports := p } := by
  unfold giveHint
  split
  · exact ⟨_, rfl⟩
  · exact ⟨_, rfl⟩

/-! ### An arbiter that had no request -/

/-- The arbiter at its first decision since it had no request. -/
def firstArb (c : Chip) (now a : Nat) (l : List Nat) : Arb :=
  { c.arb a with reqs := l.map (fun p => ({ port := p, since := now } : ArbReq)), last := some now }

theorem firstArb_ports (c : Chip) (now a : Nat) (l : List Nat) : (c.firstArb now a l).reqs.map (·.port) = l := by
  simp [firstArb, Function.comp_def]

/-- The chip whose counters show a grant to `p`. -/
def counted (c : Chip) (rem now p : Nat) : Chip := c.draw.2.arbGrant (now + (rem + 15) / 16) p false now

theorem arbDecide_first {now a p : Nat} {l : List Nat} {y : Arb} (h : (c.arb a).reqs = [])
    (hd : c.decision a (c.firstArb now a l) = some (p, y)) :
    ∃ rem, c.arbDecide now a l =
      (y.reqs.foldl (fun c r => c.giveHint a rem y r)
        (y.reqs.foldl (fun c r => if r.lost then c else c.arbLose r.port) (c.counted rem now p))).setArb a
          { y with reqs := y.reqs.map (fun r => { r with lost := true }) } := by
  have found : ((c.firstArb now a l).reqs.find? (fun r => r.port == p)).getD ⟨p, now, false⟩ = ⟨p, now, false⟩ := by
    cases hf : (c.firstArb now a l).reqs.find? (fun r => r.port == p) with
    | none => rfl
    | some r =>
      obtain ⟨q, -, rfl⟩ := List.mem_map.1 (List.mem_of_find?_eq_some hf)
      have := List.find?_some hf
      simp only [beq_iff_eq] at this
      rw [this, Option.getD_some]
  simp only [firstArb] at hd found
  unfold arbDecide
  simp only [h, List.isEmpty_nil, Bool.not_true, List.any_nil, Bool.not_false, List.filter_true, List.nil_append,
    Bool.false_eq_true, if_false, hd, found]
  exact ⟨(Config.freeValue c.free).toNat % (c.gf (.ARB_ARB a) ARB_ARB.MEANXFER + 1), rfl⟩

theorem arb_setArb_same (c : Chip) (a : Nat) (x : Arb) : (c.setArb a x).arb a = x := Tab.get_set_same _ _ _ _

/-- A lone request: the arbiter is left without one. -/
theorem arbDecide_lone {now a p : Nat} (h : (c.arb a).reqs = []) (hp : p < 128)
    (hw : c.gf (.ARB_PORT p) ARB_PORT.WEIGHT ≠ 0) :
    ((c.arbDecide now a [p]).arb a).reqs = [] ∧ ((c.arbDecide now a [p]).arb a).last = some now ∧
      (c.arbDecide now a [p]).mem = c.mem ∧ (c.arbDecide now a [p]).lanes = c.lanes := by
  obtain ⟨y, hy, reqs, last⟩ := c.decision_lone a (c.firstArb_ports now a [p]) hp hw
  have left : y.reqs = [] := by rw [reqs]; simp [firstArb]
  obtain ⟨rem, hd⟩ := arbDecide_first h hy
  have core := (c.draw.2.arbGrant_onlyRegs (now + (rem + 15) / 16) p false now).sameCore
  rw [hd, left, List.foldl_nil, List.foldl_nil, arb_setArb_same]
  exact ⟨rfl, last, core.1, core.2.1⟩

/-- Of two requests in different classes the less urgent one stays, marked, and a core's port gets its hint. -/
theorem arbDecide_urgent {now a p q : Nat} (h : (c.arb a).reqs = []) (h1 : (c.arb a).win1 = []) (h2 : (c.arb a).win2 = [])
    (hp : p < 128) (hq : q < 128) (hwp : c.gf (.ARB_PORT p) ARB_PORT.WEIGHT ≠ 0)
    (hwq : c.gf (.ARB_PORT q) ARB_PORT.WEIGHT ≠ 0) (hk : (c.reqRank p).1 < (c.reqRank q).1) :
    ((c.arbDecide now a [q, p]).arb a).reqs.map (fun e => (e.port, e.lost)) = [(q, true)] ∧
      (2 ≤ q → q < 98 → ∃ h, ((c.arbDecide now a [q, p]).port (q - 2)).hint = some h ∧ h.ahead = 0) ∧
      (c.arbDecide now a [q, p]).mem = c.mem ∧ (c.arbDecide now a [q, p]).lanes = c.lanes := by
  have other : q ≠ p := fun he => by rw [he] at hk; exact Nat.lt_irrefl _ hk
  obtain ⟨y, hy, reqs, last⟩ := decision_urgent a (c.firstArb_ports now a [q, p]) h1 h2 hp hwp hk
  have left : y.reqs = [⟨q, now, false⟩] := by rw [reqs]; simp [firstArb, other]
  obtain ⟨rem, hd⟩ := arbDecide_first h hy
  have lost : OnlyRegs c.draw.2 ((c.counted rem now p).arbLose q) [.ARB_GRANTS p, .ARB_LONG p, .ARB_WAITS q] :=
    ((c.draw.2.arbGrant_onlyRegs _ p false now).mono (by simp)).trans ((arbLose_onlyRegs _ q).mono (by simp))
  have weight : ((c.counted rem now p).arbLose q).gf (.ARB_PORT q) ARB_PORT.WEIGHT ≠ 0 := by
    rw [lost.gf _ (arbPort_not_counted q p q hq)]; exact hwq
  have core := lost.sameCore
  obtain ⟨ports, hint⟩ := ((c.counted rem now p).arbLose q).giveHint_eq a rem y ⟨q, now, false⟩
  rw [hd, left, arb_setArb_same]
  simp only [List.foldl_cons, List.foldl_nil]
  refine ⟨rfl, fun hl hu => giveHint_lone _ a rem rfl rfl left hl hu weight, ?_, ?_⟩
  · change (giveHint _ a rem y _).mem = _
    rw [if_neg Bool.false_ne_true, hint]; exact core.1
  · change (giveHint _ a rem y _).lanes = _
    rw [if_neg Bool.false_ne_true, hint]; exact core.2.1

/-! ### `ARB_PORT` (R385, R386) -/

/-- A port's register is neither the collector's nor `CFG_SYND`. -/
theorem arbPort_not_cfgFlt (n : Nat) : ¬ CfgFltAddr (RegName.ARB_PORT n).addr := by
  simp only [CfgFltAddr, FltAddr, RegName.addr]; omega

theorem arbPortWrite_sets (c : Chip) (now n : Nat) (v : DWord) :
    let d := c.arbPortWrite now n v
    let r := RegName.ARB_PORT n
    d.gf r ARB_PORT.PRIO = ARB_PORT.PRIO.get v ∧ d.gf r ARB_PORT.CLASS = c.gf r ARB_PORT.CLASS ∧
      (ARB_PORT.WEIGHT.get v ≠ 0 → d.gf r ARB_PORT.WEIGHT = ARB_PORT.WEIGHT.get v) ∧
      (ARB_PORT.WEIGHT.get v = 0 → d.gf r ARB_PORT.WEIGHT = c.gf r ARB_PORT.WEIGHT ∧ d.stands 10 0) ∧ SameCore c d := by
  intro d r
  obtain ⟨frame, core⟩ := c.lockedTry_frame now r v
  have kept : ∀ f, (c.lockedTry now r v).gf r f = c.gf r f := fun f => frame.gf f (arbPort_not_cfgFlt n)
  set e := (c.lockedTry now r v).sf r ARB_PORT.PRIO (ARB_PORT.PRIO.get v) with he
  have prio : e.gf r ARB_PORT.PRIO = ARB_PORT.PRIO.get v := by
    rw [he, gf_sf_same _ _ _ _ (by decide) (by decide)]
    exact Nat.mod_eq_of_lt (Fld.get_lt ARB_PORT.PRIO v)
  have others : ∀ f, f.hi < 7 ∨ 9 < f.lo → e.gf r f = c.gf r f := fun f hf => by
    rw [he, gf_sf_field _ _ _ _ _ (by decide) (by decide) hf, kept f]
  by_cases hw : ARB_PORT.WEIGHT.get v = 0
  · have hd : d = e.corrected now 10 := if_pos hw
    have note : ∀ f, d.gf r f = e.gf r f := fun f => by
      rw [hd, ((e.corrected_unitFrame now 10).gf f fun h => arbPort_not_cfgFlt n (.inl h))]
    exact ⟨(note _).trans prio, (note _).trans (others _ (by decide)), fun hn => absurd hw hn,
      fun _ => ⟨(note _).trans (others _ (by decide)), hd ▸ corrected_stands e now (by decide)⟩,
      hd ▸ (core.trans (.sf _ _ _ _)).trans (e.corrected_sameCore now 10)⟩
  · have hd : d = e.sf r ARB_PORT.WEIGHT (ARB_PORT.WEIGHT.get v) := if_neg hw
    have rest : ∀ f, f.hi < 0 ∨ 3 < f.lo → d.gf r f = e.gf r f := fun f hf => by
      rw [hd, gf_sf_field _ _ _ _ _ (by decide) (by decide) hf]
    refine ⟨(rest _ (by decide)).trans prio, (rest _ (by decide)).trans (others _ (by decide)), fun _ => ?_,
      fun h0 => absurd h0 hw, hd ▸ (core.trans (.sf _ _ _ _)).trans (.sf _ _ _ _)⟩
    rw [hd, gf_sf_same _ _ _ _ (by decide) (by decide)]
    exact Nat.mod_eq_of_lt (Fld.get_lt ARB_PORT.WEIGHT v)

end Sys2Proof.Machine.Chip

namespace Sys2Proof.Machine
variable {s : State}

/-! ### The commands -/

theorem exec_arbiterDecision (a : Fin 11) (l : List (BitVec 7)) (h : s.chip.off = false) :
    exec (.arbiterDecision a l) s = .next { s with
      chip := s.chip.arbDecide s.now.toNat a (l.foldl (fun l p => addNew l p.toNat) []) } := by
  change execArbiterDecision a l s = _
  simp [execArbiterDecision, State.act, h]

theorem exec_arbiterDecision_of_off (a : Fin 11) (l : List (BitVec 7)) (h : s.chip.off = true) :
    exec (.arbiterDecision a l) s = .next s := by
  change execArbiterDecision a l s = _
  simp [execArbiterDecision, State.act, h]

theorem exec_arbPortWrite (ag : Agent) (p : BitVec 7) (v : BitVec 64) :
    exec (.arbPortWrite ag p v) s = .next { s with
      chip := if !s.chip.off && s.chip.mayWrite ag (.ARB_PORT p.toNat) then s.chip.arbPortWrite s.now.toNat p.toNat v
        else s.chip } := rfl

theorem exec_longestClear (ag : Agent) (k : Fin 344) :
    exec (.longestClear ag k) s = .next { s with
      chip := if !s.chip.off && s.chip.mayWrite ag (.ARB_LONG k) then s.chip.sf (.ARB_LONG k) ARB_LONG.LONGEST 0
        else s.chip } := rfl

end Sys2Proof.Machine

open Sys2Proof Sys2Proof.Machine

/-- Settles O1: by the equation of `step` for a queue with a front. -/
theorem stepRunsFront : Obligations.StepRunsFront := by
  unfold Obligations.StepRunsFront
  intro c r s
  rfl

/-- Settles O36: the laws of a decision, of a write and of a clear above; a decision of a device that is OFF and a write that
R392 refuses change nothing (log 3), and what a mean and a round are is the model's choice (log 24). -/
theorem arbitration : Obligations.Arbitration := by
  unfold Obligations.Arbitration
  intro s a p q ag v k c r fresh
  refine ⟨fun ⟨off, reqs, _, _, _, weight⟩ => ?lone, fun ⟨off, reqs, _, win1, win2, weight⟩ class_ other => ?urgent,
    fun off l => exec_arbiterDecision_of_off a l off, fun off may => ?port, fun off may => ?clear, fun may => ?noPort,
    fun may => ?noClear⟩
  case lone => exact ⟨_, exec_arbiterDecision a [p] off, Chip.arbDecide_lone reqs p.isLt weight⟩
  case urgent =>
    have apart : p.toNat ≠ q.toNat := fun he => by rw [he] at class_; exact Nat.lt_irrefl _ class_
    have arrived : [q, p].foldl (fun l p => addNew l p.toNat) [] = [q.toNat, p.toNat] := by simp [addNew, apart]
    refine ⟨_, exec_arbiterDecision a [q, p] off, ?_⟩
    rw [arrived]
    exact Chip.arbDecide_urgent reqs win1 win2 p.isLt q.isLt weight other class_
  case port =>
    exact ⟨_, (exec_arbPortWrite ag p v).trans (by rw [if_pos (by simp [c, r, off, may])]), c.arbPortWrite_sets _ _ v⟩
  case clear =>
    refine ⟨_, (exec_longestClear ag k).trans (by rw [if_pos (by simp [c, off, may])]), ?_, .sf _ _ _ (by simp)⟩
    exact Chip.gf_sf_same _ _ _ _ (by decide) (by decide)
  case noPort => exact (exec_arbPortWrite ag p v).trans (by rw [if_neg (by simp [c, r, may])])
  case noClear => exact (exec_longestClear ag k).trans (by rw [if_neg (by simp [c, may])])
end

section
/-! What a report to the fault collector may change of the block, and what it leaves: the fields no report names (R407, R408). -/
namespace Sys2Proof.Machine.Chip

theorem setAttr_rest (c : Chip) (src k : Nat) : c.setAttr src k = { c with regs := (c.setAttr src k).regs } := by
  unfold setAttr
  split <;> rfl

theorem containedMark_rest (c : Chip) (src k : Nat) (triad : Option Nat) :
    c.containedMark src k triad = { c with regs := (c.containedMark src k triad).regs } := by
  have marked := (c.setSticky src 1).setAttr_rest src k
  unfold containedMark
  cases triad with
  | none => exact marked
  | some t =>
    simp only []
    split
    · rw [marked]; rfl
    · exact marked

/-- A contained fault writes registers, the leat, events and their rounds, the host's notices and the collector's own state. -/
theorem contained_rest (c : Chip) (now src : Nat) (who triad : Option Nat) :
    let d := c.contained now src who triad
    d = { c with regs := d.regs, leat := d.leat, ports := d.ports, triads := d.triads, host := d.host, flt := d.flt } := by
  intro d
  obtain ⟨l, p, x, h, f, hd⟩ := c.contained_eq now src who triad
  have marked := ({ c with leat := l } : Chip).containedMark_rest src (c.attrKey who) triad
  change d = _ ∨ d = _ at hd
  rcases hd with hd | hd
  · rw [hd, marked]
  · rw [hd, marked]; rfl

section
variable (c : Chip) (now src : Nat) (who triad : Option Nat)

@[simp] theorem contained_misc : (c.contained now src who triad).misc = c.misc := by
  rw [contained_rest]

@[simp] theorem contained_pair : (c.contained now src who triad).pair = c.pair := by
  rw [contained_rest]

@[simp] theorem contained_boot : (c.contained now src who triad).boot = c.boot := by
  rw [contained_rest]

@[simp] theorem contained_cas : (c.contained now src who triad).cas = c.cas := by
  rw [contained_rest]

end

end Sys2Proof.Machine.Chip
end

section
/-! The mill book (R495 to R498): the beginning and the end of a save, and the seconds with the supply up. -/
namespace Sys2Proof.Machine
variable {s : State}

theorem SameCore.modMisc (c : Chip) (f : Misc → Misc) : SameCore c (c.modMisc f) := ⟨rfl, rfl, rfl, rfl⟩

namespace Chip
variable {c : Chip} {now p slot : Nat}

/-! ### Saves (R497) -/

/-- A save that begins is under way, and shows it. -/
theorem saveBegin_begins (off : c.off = false) (idle : c.misc.save = none) :
    c.saveBegin.misc.save.isSome = true ∧ c.saveBegin.misc.saveAt = c.misc.saveAt ∧
      c.saveBegin.gb .BOK_STAT BOK_STAT.BUSY = true ∧ OnlyRegs c { c.saveBegin with misc := c.misc } [.BOK_STAT] := by
  have begun : ∃ x, c.saveBegin = ({ c with misc := { c.misc with save := some x } } : Chip).sf .BOK_STAT BOK_STAT.BUSY 1 := by
    unfold saveBegin
    rw [off, idle]
    exact ⟨_, rfl⟩
  obtain ⟨x, begun⟩ := begun
  rw [begun]
  refine ⟨rfl, rfl, gb_sf_one _ _ rfl (by decide), rfl, fun q hq => ?_⟩
  exact (OnlyRegs.sf (rs := [.BOK_STAT]) c BOK_STAT.BUSY 1 (by simp)).2 q hq

/-- The same where the interval is due: the due time is noted too. -/
theorem saveBegin_at_interval (off : c.off = false) (idle : c.misc.save = none) (now : Nat) :
    let d := ({ c with misc := { c.misc with saveAt := now } } : Chip).saveBegin
    (d.misc.save.isSome = true ∧ d.gb .BOK_STAT BOK_STAT.BUSY = true ∧ OnlyRegs c { d with misc := c.misc } [.BOK_STAT]) ∧
      d.misc.saveAt = now := by
  intro d
  obtain ⟨under, at_, busy, rest, regs⟩ := saveBegin_begins (c := { c with misc := { c.misc with saveAt := now } }) off idle
  exact ⟨⟨under, busy, congrArg (fun x : Chip => { x with misc := c.misc }) rest, regs⟩, at_⟩

theorem saveBegin_of_busy (busy : c.misc.save.isSome = true) : c.saveBegin = c := by
  unfold saveBegin
  rw [busy, Bool.or_true, if_pos rfl]

theorem flashErase_eq (c : Chip) (port off n : Nat) : ∃ t, c.flashErase port off n = { c with flash := t } := ⟨_, rfl⟩

/-- The save is over: none is under way, and BUSY is clear. -/
def saveOver (c : Chip) : Chip := (c.modMisc fun m => { m with save := none }).sf .BOK_STAT BOK_STAT.BUSY 0

theorem saveOver_idle (c : Chip) : c.saveOver.misc.save = none ∧ c.saveOver.gb .BOK_STAT BOK_STAT.BUSY = false :=
  ⟨rfl, gb_sf_zero _ _ (by decide) (by decide)⟩

theorem saveOver_sameCore (c : Chip) : SameCore c c.saveOver := (SameCore.modMisc c _).trans (.sf _ _ _ _)

theorem saveOver_book (c : Chip) : c.saveOver.book = c.book := by simp [saveOver]

/-- The chip whose flash holds the copy and whose book holds its time. -/
def saveWritten (c : Chip) (p slot n now : Nat) : Chip :=
  let img := c.saveImage n now
  let c := c.flashWr p (saveSlot slot) img
  { c with book := (c.book.put 0 0x18 now).put 0 0x20 (dw img 4) }

/-- `BOK_STAT` shows the sequence and the place of a save. -/
def saveShown (c : Chip) (p slot n : Nat) : Chip :=
  (((c.sf .BOK_STAT BOK_STAT.SAVESEQ n).sf .BOK_STAT BOK_STAT.SLOT slot).sf .BOK_STAT BOK_STAT.PORT p).saveOver

theorem saveShown_fields (c : Chip) {n : Nat} (hs : slot < 16) (hp : p < 2) (hn : n < 2 ^ 32) :
    let d := c.saveShown p slot n
    d.gf .BOK_STAT BOK_STAT.SLOT = slot ∧ d.gf .BOK_STAT BOK_STAT.PORT = p ∧ d.gf .BOK_STAT BOK_STAT.SAVESEQ = n := by
  intro d
  simp (disch := decide) only [d, saveShown, saveOver, gf_sf_field, gf_sf_same, gf_modMisc]
  exact ⟨Nat.mod_eq_of_lt hs, Nat.mod_eq_of_lt hp, Nat.mod_eq_of_lt (hn.trans_le (by decide))⟩

theorem saveShown_book (c : Chip) (p slot n : Nat) : (c.saveShown p slot n).book = c.book := by simp [saveShown, saveOver_book]

theorem saveShown_sameCore (c : Chip) (p slot n : Nat) : SameCore c (c.saveShown p slot n) :=
  (((SameCore.sf c _ _ _).trans (.sf _ _ _ _)).trans (.sf _ _ _ _)).trans (saveOver_sameCore _)

/-- The save goes on at the next position, for the last time. -/
def saveRetried (c : Chip) (p slot : Nat) : Chip :=
  c.modMisc fun m => { m with save := some ((c.nextSave p slot).1, (c.nextSave p slot).2, true) }

/-- A save's end after its slot has been erased, with the sequence as a number of its own. -/
theorem saveEnd_eq {again : Bool} {n : Nat} (h : c.misc.save = some (p, slot, again))
    (hn : (c.gf .BOK_STAT BOK_STAT.SAVESEQ + 1) % 2 ^ 32 = n) (now : Nat) (ok : Bool) :
    ∃ t, c.saveEnd now ok = if ok then (({ c with flash := t } : Chip).saveWritten p slot n now).saveShown p slot n
      else if again then (({ c with flash := t } : Chip).inc .BOK_STAT BOK_STAT.SAVEFAIL).saveOver.contained now 18 none none
      else (({ c with flash := t } : Chip).inc .BOK_STAT BOK_STAT.SAVEFAIL).saveRetried p slot := by
  obtain ⟨t, erased⟩ := c.flashErase_eq p (saveSlot slot) 0x10000
  refine ⟨t, ?_⟩
  simp only [← erased]
  unfold saveEnd
  rw [h]
  simp -zeta only [hn]
  generalize c.flashErase p (saveSlot slot) 0x10000 = e
  rfl

theorem saveWritten_sets (c : Chip) (p slot n now : Nat) :
    (c.saveWritten p slot n now).book.get 0 0x18 = now ∧ SameCore c (c.saveWritten p slot n now) := by
  obtain ⟨t, written⟩ := c.flashWr_eq p (saveSlot slot) (c.saveImage n now)
  simp only [saveWritten, written]
  exact ⟨by rw [Tab.get_put_other _ _ _ _ (by decide), Tab.get_put_same], ⟨rfl, rfl, rfl, rfl⟩⟩

/-- A verified save: its sequence is counted up, and its slot, port and time stand. -/
theorem saveEnd_verified {again : Bool} (h : c.misc.save = some (p, slot, again)) (hs : slot < 16) (hp : p < 2) (now : Nat) :
    let d := c.saveEnd now true
    (d.misc.save = none ∧ d.gb .BOK_STAT BOK_STAT.BUSY = false) ∧ d.gf .BOK_STAT BOK_STAT.SLOT = slot ∧
      d.gf .BOK_STAT BOK_STAT.PORT = p ∧
      d.gf .BOK_STAT BOK_STAT.SAVESEQ = (c.gf .BOK_STAT BOK_STAT.SAVESEQ + 1) % 2 ^ 32 ∧
      d.book.get 0 0x18 = now ∧ SameCore c d := by
  intro d
  generalize hn : (c.gf .BOK_STAT BOK_STAT.SAVESEQ + 1) % 2 ^ 32 = n
  obtain ⟨t, ended⟩ := saveEnd_eq h hn now true
  set e := ({ c with flash := t } : Chip).saveWritten p slot n now
  obtain ⟨time, core⟩ := ({ c with flash := t } : Chip).saveWritten_sets p slot n now
  obtain ⟨slot_, port_, seq⟩ := e.saveShown_fields hs hp (hn ▸ Nat.mod_lt _ (Nat.two_pow_pos 32))
  have hd : d = e.saveShown p slot n := ended
  rw [hd, saveShown_book]
  exact ⟨saveOver_idle _, slot_, port_, seq, time, SameCore.trans core (e.saveShown_sameCore p slot n)⟩

/-- A first failure: the save goes on at the next position. -/
theorem saveEnd_retried (h : c.misc.save = some (p, slot, false)) (now : Nat) :
    (c.saveEnd now false).misc.save = some ((c.nextSave p slot).1, (c.nextSave p slot).2, true) ∧
      SameCore c (c.saveEnd now false) := by
  obtain ⟨n, hn⟩ : ∃ n, (c.gf .BOK_STAT BOK_STAT.SAVESEQ + 1) % 2 ^ 32 = n := ⟨_, rfl⟩
  obtain ⟨t, ended⟩ := saveEnd_eq h hn now false
  have sel : (({ c with flash := t } : Chip).inc .BOK_STAT BOK_STAT.SAVEFAIL).bootSel = c.bootSel :=
    gf_sf_other _ _ _ _ (by decide)
  have next : (({ c with flash := t } : Chip).inc .BOK_STAT BOK_STAT.SAVEFAIL).nextSave p slot = c.nextSave p slot := by
    rw [nextSave, sel, ← nextSave]
  rw [if_neg Bool.false_ne_true, if_neg Bool.false_ne_true, saveRetried, next] at ended
  have failed : SameCore c (({ c with flash := t } : Chip).inc .BOK_STAT BOK_STAT.SAVEFAIL) :=
    SameCore.trans ⟨rfl, rfl, rfl, rfl⟩ (.inc { c with flash := t } _ _)
  rw [ended]
  exact ⟨rfl, failed.trans (.modMisc _ _)⟩

/-- A second failure: the save is over, and the fault is contained. -/
theorem saveEnd_given_up (h : c.misc.save = some (p, slot, true)) (now : Nat) :
    let d := c.saveEnd now false
    (d.misc.save = none ∧ d.gb .BOK_STAT BOK_STAT.BUSY = false) ∧ d.stands 18 1 ∧ d.mem = c.mem := by
  obtain ⟨n, hn⟩ : ∃ n, (c.gf .BOK_STAT BOK_STAT.SAVESEQ + 1) % 2 ^ 32 = n := ⟨_, rfl⟩
  obtain ⟨t, ended⟩ := saveEnd_eq h hn now false
  intro d
  set e := (({ c with flash := t } : Chip).inc .BOK_STAT BOK_STAT.SAVEFAIL).saveOver
  rw [if_neg Bool.false_ne_true, if_pos rfl] at ended
  have hd : d = e.contained now 18 none none := ended
  obtain ⟨none_, idle⟩ := (({ c with flash := t } : Chip).inc .BOK_STAT BOK_STAT.SAVEFAIL).saveOver_idle
  have frame := e.contained_unitFrame now (src := 18) (by decide) none none
  have failed : SameCore c (({ c with flash := t } : Chip).inc .BOK_STAT BOK_STAT.SAVEFAIL) :=
    SameCore.trans ⟨rfl, rfl, rfl, rfl⟩ (.inc { c with flash := t } _ _)
  obtain ⟨mem, -⟩ := failed.trans (saveOver_sameCore _)
  rw [hd, frame.gb _ (by decide)]
  exact ⟨⟨by rw [contained_misc, none_], idle⟩, e.contained_stands now (by decide) _ _,
    frame.mem.trans mem⟩

theorem saveEnd_of_idle (h : c.misc.save = none) (now : Nat) (ok : Bool) : c.saveEnd now ok = c := by
  simp only [saveEnd, h]

/-! ### Seconds (R495) -/

theorem book_bookInc8_other (c : Chip) {o q : Nat} (h : q ≠ o) : (c.bookInc8 o).book.get 0 q = c.book.get 0 q :=
  Tab.get_put_other _ _ _ _ h

theorem bookInc8_sameCore (c : Chip) (o : Nat) : SameCore c (c.bookInc8 o) := ⟨rfl, rfl, rfl, rfl⟩

/-- The seconds of the histograms stand beside the power-on seconds. -/
theorem powerSecond_counts (c : Chip) :
    c.powerSecond.book.get 0 0x40 = min (c.book.get 0 0x40 + 1) 0xFFFFFFFFFFFFFFFF ∧ c.powerSecond.regs = c.regs ∧
      SameCore c c.powerSecond := by
  unfold powerSecond
  simp only [bookInc8_regs]
  refine ⟨?_, trivial, ?_⟩
  · rw [book_bookInc8_other _ (by omega), book_bookInc8_other _ (by omega), book_bookInc8_other _ (by omega), bookInc8,
      Tab.get_put_same]
  · exact (((bookInc8_sameCore _ _).trans (bookInc8_sameCore _ _)).trans (bookInc8_sameCore _ _)).trans (bookInc8_sameCore _ _)

end Chip

/-! ### The commands -/

theorem exec_save (ag : Agent) :
    exec (.save ag) s = .next { s with chip := if s.chip.mayWrite ag .BOK_CTL then s.chip.saveBegin else s.chip } := rfl

theorem exec_bookSaveInterval :
    exec .bookSaveInterval s = .next { s with chip := if s.chip.saveDue s.now.toNat then
      ({ s.chip with misc := { s.chip.misc with saveAt := s.now.toNat } } : Chip).saveBegin else s.chip } := rfl

theorem exec_bookSaveEnd (ok : Bool) :
    exec (.bookSaveEnd ok) s = .next { s with chip := s.chip.saveEnd s.now.toNat ok } := rfl

theorem exec_powerOnSecond : exec .powerOnSecond s = .next { s with chip := s.chip.powerSecond } := rfl

end Sys2Proof.Machine

open Sys2Proof Sys2Proof.Machine

/-- Settles O38: the laws of a save's beginning and its ends; a save that is asked for while one runs, an interval that is not
due and an end with no save change nothing (log 3). -/
theorem millBook : Obligations.MillBook := by
  unfold Obligations.MillBook
  intro s ag p slot again c idle begun
  refine ⟨fun may off free => ?asked, fun refused => ?refused, fun due off free => ?due, fun early => ?early,
    fun under hs hp => ⟨?verified, fun first => ?retried, fun second => ?givenUp⟩, fun none_ ok => ?noSave, ?second⟩
  case asked =>
    obtain ⟨under, -, busy, rest⟩ := Chip.saveBegin_begins off free
    exact ⟨_, exec_save ag, by rw [if_pos may]; exact ⟨under, busy, rest⟩⟩
  case refused =>
    rw [exec_save]
    rcases refused with denied | busy
    · rw [if_neg (ne_true_of_eq_false denied)]
    · rw [Chip.saveBegin_of_busy busy, ite_self]
  case due =>
    have law := exec_bookSaveInterval (s := s)
    rw [if_pos due] at law
    exact ⟨_, law, Chip.saveBegin_at_interval off free s.now.toNat⟩
  case early => rw [exec_bookSaveInterval, if_neg (ne_true_of_eq_false early)]
  case verified => exact ⟨_, exec_bookSaveEnd true, Chip.saveEnd_verified under hs hp _⟩
  case retried => exact ⟨_, exec_bookSaveEnd false, Chip.saveEnd_retried (first ▸ under) _⟩
  case givenUp => exact ⟨_, exec_bookSaveEnd false, Chip.saveEnd_given_up (second ▸ under) _⟩
  case noSave => rw [exec_bookSaveEnd, Chip.saveEnd_of_idle none_]
  case second => exact ⟨_, exec_powerOnSecond, c.powerSecond_counts⟩
end

section
/-! What a brake stops (R411 to R414): the units it writes, the states of the triads after it, and the SAFE frames of partitions
whose paths have none. -/
namespace Sys2Proof.Machine

/-! ### What halting triads changes -/

/-- Lanes, triads, requesters, barrier groups, the messages for other devices and the registers of `A` apart, the chip is as
it was. -/
structure HaltFrame (A : Nat → Prop) (c d : Chip) : Prop extends RegFrame A c d where
  rest : d = { c with
    regs := d.regs, lanes := d.lanes, triads := d.triads, ports := d.ports, bars := d.bars, leat := d.leat, cas := d.cas }

namespace HaltFrame
variable {A B : Nat → Prop} {c d e : Chip}

theorem refl (A : Nat → Prop) (c : Chip) : HaltFrame A c c := ⟨.refl A c, rfl⟩

theorem trans (h : HaltFrame A c d) (k : HaltFrame A d e) : HaltFrame A c e :=
  ⟨h.toRegFrame.trans k.toRegFrame, k.rest.trans (congrArg (fun x : Chip => { x with
    regs := e.regs, lanes := e.lanes, triads := e.triads, ports := e.ports, bars := e.bars, leat := e.leat, cas := e.cas }) h.rest)⟩

theorem mono (h : HaltFrame A c d) (hAB : ∀ a, A a → B a) : HaltFrame B c d := ⟨h.toRegFrame.mono hAB, h.rest⟩

theorem sf {r : RegName} (c : Chip) (f : Fld) (n : Nat) (h : A r.addr) : HaltFrame A c (c.sf r f n) := ⟨.sf c f n h, rfl⟩

theorem foldl {α : Type} {f : Chip → α → Chip} {l : List α} (c : Chip) (hf : ∀ c, ∀ x ∈ l, HaltFrame A c (f c x)) :
    HaltFrame A c (l.foldl f c) := by
  induction l generalizing c with
  | nil => exact refl A c
  | cons x r ih => exact (hf c x (by simp)).trans (ih _ fun c y hy => hf c y (by simp [hy]))

theorem ite {p : Prop} [Decidable p] (h : HaltFrame A c d) (k : HaltFrame A c e) : HaltFrame A c (if p then d else e) := by
  split
  · exact h
  · exact k

theorem flt (h : HaltFrame A c d) : d.flt = c.flt := by rw [h.rest]
theorem chan (h : HaltFrame A c d) : d.chan = c.chan := by rw [h.rest]
theorem host (h : HaltFrame A c d) : d.host = c.host := by rw [h.rest]
theorem pair (h : HaltFrame A c d) : d.pair = c.pair := by rw [h.rest]
theorem mgt (h : HaltFrame A c d) : d.mgt = c.mgt := by rw [h.rest]
theorem off (h : HaltFrame A c d) : d.off = c.off := by rw [h.rest]

end HaltFrame

namespace Chip
variable {c d : Chip} {t u n p : Nat}

/-- The addresses of `SYS_BARSTAT`. -/
abbrev BarAddr (a : Nat) : Prop := 0xF000000200 ≤ a ∧ a < 0xF000000280

theorem barAddr_barstat {g : Nat} (h : g < 16) : BarAddr (RegName.SYS_BARSTAT g).addr := by
  simp only [BarAddr, RegName.addr]; omega

theorem want_rest (c : Chip) (t : Nat) (w : Decision) : ∃ x, c.want t w = { c with triads := x } := by
  unfold want
  split
  · exact ⟨_, rfl⟩
  · obtain ⟨x, h⟩ := (c.updTriad t (fun x => { x with wants := addNew x.wants w })).openRound_eq t
    exact ⟨x, h⟩

theorem barRelease_haltFrame (A : Nat → Prop) (c : Chip) (g key : Nat) : HaltFrame A c (c.barRelease g key) := by
  unfold barRelease
  split
  · exact ⟨.of_eq rfl rfl, rfl⟩
  · obtain ⟨x, h⟩ := c.want_rest (key / 3) (.barEnd g)
    rw [h]
    exact ⟨.of_eq rfl rfl, rfl⟩

theorem barSync_haltFrame (c : Chip) {g : Nat} (h : g < 16) : HaltFrame BarAddr c (c.barSync g) :=
  .trans (.sf c _ _ (barAddr_barstat h)) (.sf _ _ _ (barAddr_barstat h))

theorem barEnd_haltFrame (c : Chip) {g : Nat} (h : g < 16) : HaltFrame BarAddr c (c.barEnd g) := by
  have emptied : HaltFrame BarAddr c (c.setBar g { arrived := [] }) := ⟨.of_eq rfl rfl, rfl⟩
  have counted : HaltFrame BarAddr _ ((c.setBar g { arrived := [] }).inc (.SYS_BARSTAT g) SYS_BARSTAT.ROUNDS) :=
    .sf _ _ _ (barAddr_barstat h)
  exact ((emptied.trans counted).trans (.foldl _ fun c k _ => barRelease_haltFrame _ c g k)).trans (barSync_haltFrame _ h)

theorem casCheck_haltFrame (c : Chip) (m a : Nat) : HaltFrame BarAddr c (c.casCheck m a) := by
  have told : ∀ (c : Chip) (x : LeatMsg), HaltFrame BarAddr c (c.leatPut x) := fun c x => ⟨.of_eq rfl rfl, rfl⟩
  have tallied : ∀ x, HaltFrame BarAddr c { c with cas := x } := fun x => ⟨.of_eq rfl rfl, rfl⟩
  unfold casCheck
  split
  · exact (told c _).trans (barSync_haltFrame (g := 15) _ (by decide))
  · split
    · exact ((tallied _).trans (told _ _)).trans (barEnd_haltFrame (g := 15) _ (by decide))
    · exact barSync_haltFrame _ (by decide)

theorem barCheck_haltFrame (c : Chip) {g : Nat} (h : g < 16) : HaltFrame BarAddr c (c.barCheck g) := by
  unfold barCheck
  simp only []
  split
  · exact c.barSync_haltFrame h
  · split
    · exact c.casCheck_haltFrame _ _
    · split
      · exact c.barEnd_haltFrame h
      · exact c.barSync_haltFrame h

theorem barLeaveAll_haltFrame (c : Chip) (key : Nat) : HaltFrame BarAddr c (c.barLeaveAll key) := by
  have left : ∀ (c : Chip) (g : Nat), g < 16 → HaltFrame BarAddr c (c.barLeave key g) := fun c g h =>
    .trans (d := c.setBar g { arrived := without (c.bar g).arrived key }) ⟨.of_eq rfl rfl, rfl⟩ (barCheck_haltFrame _ h)
  unfold barLeaveAll
  refine .trans ?_ (.foldl _ fun c g hg => ?_)
  · exact .foldl c fun _ _ _ => ⟨.of_eq rfl rfl, rfl⟩
  · exact left c g (List.mem_range.1 (List.mem_filter.1 hg).1)

theorem txDiscard_haltFrame (A : Nat → Prop) (c : Chip) (key : Nat) : HaltFrame A c (c.txDiscard key) := by
  obtain ⟨x, h⟩ := c.txDiscard_eq key
  rw [h]
  exact ⟨.of_eq rfl rfl, rfl⟩

/-! ### The brake of a triad (R131, R144) -/

/-- The registers that the brake of triad `t` writes: those of barrier groups and of field lanes, and its own state. -/
abbrev TriadBrakeAddr (t a : Nat) : Prop :=
  BarAddr a ∨ a = (RegName.CLU_TSTATE t).addr ∨ ∃ n, a = (RegName.FLD_STAT n).addr

/-- The field lanes that a condition names take their safe levels. -/
def fieldsSafe (c : Chip) (p : Chip → Nat → Bool) : Chip :=
  (List.range 64).foldl (fun c n => if p c n then c.fieldSafe n else c) c

theorem fieldsSafe_haltFrame (c : Chip) (p : Chip → Nat → Bool) :
    HaltFrame (fun a => ∃ n, a = (RegName.FLD_STAT n).addr) c (c.fieldsSafe p) :=
  .foldl c fun c n _ => .ite (.sf c _ _ ⟨n, rfl⟩) (.refl _ c)

/-- The lanes of a braked triad have left their groups and hold nothing, and the triad knows of its brake. -/
def triadHalted (c : Chip) (t : Nat) : Chip :=
  let keys := if c.split t then [3 * t, 3 * t + 1, 3 * t + 2] else [3 * t]
  let c := keys.foldl (fun c k => (c.txDiscard k).barLeaveAll k) c
  let c := (List.range 3).foldl (fun c i => c.haltLane (3 * t + i)) c
  c.updTriad t (fun x => { x with
    recs := [], digs := [], areqs := [], aready := [], round := none, wants := []
    rebuild := none, restarting := false, braked := true })

theorem triadHalted_haltFrame (c : Chip) (t : Nat) : HaltFrame BarAddr c (c.triadHalted t) := by
  have left : ∀ (c : Chip) (l : List Nat), HaltFrame BarAddr c (l.foldl (fun c k => (c.txDiscard k).barLeaveAll k) c) :=
    fun c l => .foldl c fun c k _ => (c.txDiscard_haltFrame _ k).trans (barLeaveAll_haltFrame _ k)
  have halted : ∀ c : Chip, HaltFrame BarAddr c ((List.range 3).foldl (fun c i => c.haltLane (3 * t + i)) c) :=
    fun c => .foldl c fun _ _ _ => ⟨.of_eq rfl rfl, rfl⟩
  exact ((left c _).trans (halted _)).trans ⟨.of_eq rfl rfl, rfl⟩

theorem triadHalted_braked (c : Chip) (t : Nat) : ((c.triadHalted t).triad t).braked = true := by
  unfold triadHalted
  simp only [updTriad_eq, triad_setTriad_same]

/-- A brake leaves triads that are idle, safe or unavailable (R143). -/
theorem brakeTriad_of_left (h : c.tstate t ∈ [0, 5, 6]) : c.brakeTriad t = c := by
  unfold brakeTriad
  exact if_pos (by simpa using h)

theorem brakeTriad_of_runs (h : c.tstate t ∉ [0, 5, 6]) :
    c.brakeTriad t = (((c.triadHalted t).sf (.CLU_TSTATE t) CLU_TSTATE.VOTE 0).sf (.CLU_TSTATE t) CLU_TSTATE.STATE 5).fieldsSafe
      fun c n => c.gb (.FLD_CFG n) FLD_CFG.TRIADEN && c.gf (.FLD_CFG n) FLD_CFG.TRIAD == t := by
  unfold brakeTriad
  exact if_neg (by simpa using h)

theorem brakeTriad_haltFrame (c : Chip) (t : Nat) : HaltFrame (TriadBrakeAddr t) c (c.brakeTriad t) := by
  by_cases h : c.tstate t ∈ [0, 5, 6]
  · rw [brakeTriad_of_left h]
    exact .refl _ c
  · have halted : HaltFrame (TriadBrakeAddr t) c (c.triadHalted t) := (c.triadHalted_haltFrame t).mono fun _ => .inl
    have shown : ∀ (c : Chip) (f : Fld) (n : Nat), HaltFrame (TriadBrakeAddr t) c (c.sf (.CLU_TSTATE t) f n) :=
      fun c f n => .sf c f n (.inr (.inl rfl))
    rw [brakeTriad_of_runs h]
    exact ((halted.trans (shown _ _ _)).trans (shown _ _ _)).trans ((fieldsSafe_haltFrame _ _).mono fun _ h => .inr (.inr h))

theorem brakeTriad_tstate_same (h : c.tstate t ∉ [0, 5, 6]) : (c.brakeTriad t).tstate t = 5 := by
  have safe := fieldsSafe_haltFrame (((c.triadHalted t).sf (.CLU_TSTATE t) CLU_TSTATE.VOTE 0).sf (.CLU_TSTATE t) CLU_TSTATE.STATE 5)
    fun c n => c.gb (.FLD_CFG n) FLD_CFG.TRIADEN && c.gf (.FLD_CFG n) FLD_CFG.TRIAD == t
  rw [brakeTriad_of_runs h, tstate, safe.gf _ (fun ⟨n, he⟩ => fldStat_ne_tstate n t he.symm)]
  exact gf_sf_same _ _ _ _ (by decide) (by decide)

/-- The states of two triads stand at two addresses. -/
theorem tstate_addr_ne (h : u ≠ t) : (RegName.CLU_TSTATE u).addr ≠ (RegName.CLU_TSTATE t).addr := by
  simp only [RegName.addr]; omega

theorem brakeTriad_tstate_other (c : Chip) (h : u ≠ t) : (c.brakeTriad t).tstate u = c.tstate u := by
  refine tstate_congr ((c.brakeTriad_haltFrame t).rd _ ?_)
  rintro (bar | own | ⟨n, field⟩)
  · simp only [BarAddr, RegName.addr] at bar
    omega
  · exact tstate_addr_ne h own
  · exact fldStat_ne_tstate n u field.symm

theorem brakeTriad_braked (h : c.tstate t ∉ [0, 5, 6]) : ((c.brakeTriad t).triad t).braked = true := by
  have kept : ∀ (l : List Nat) (p : Chip → Nat → Bool) (c : Chip),
      (l.foldl (fun c n => if p c n then c.fieldSafe n else c) c).triads = c.triads := fun l p c => by
    induction l generalizing c with
    | nil => rfl
    | cons n r ih =>
      rw [List.foldl_cons, ih]
      split
      · exact sf_triads _ _ _ _
      · rfl
  rw [brakeTriad_of_runs h, fieldsSafe, triad_of_triads_eq (kept _ _ _)]
  exact c.triadHalted_braked t

/-- After a brake each triad is as it was or safe, and the one braked no longer runs. -/
theorem brakeTriad_tstate (c : Chip) (t u : Nat) : (c.brakeTriad t).tstate u = c.tstate u ∨ (c.brakeTriad t).tstate u = 5 := by
  by_cases hu : u = t
  · subst hu
    by_cases h : c.tstate u ∈ [0, 5, 6]
    · exact .inl (by rw [brakeTriad_of_left h])
    · exact .inr (brakeTriad_tstate_same h)
  · exact .inl (c.brakeTriad_tstate_other hu)

/-! ### Brakes of several triads -/

/-- In `d` each triad is as in `c` or safe. -/
def TriadsSafer (c d : Chip) : Prop := ∀ u, d.tstate u = c.tstate u ∨ d.tstate u = 5

theorem TriadsSafer.refl (c : Chip) : TriadsSafer c c := fun _ => .inl rfl

theorem TriadsSafer.trans {e : Chip} (h : TriadsSafer c d) (k : TriadsSafer d e) : TriadsSafer c e := fun u => by
  rcases k u with k | k
  · rw [k]; exact h u
  · exact .inr k

theorem TriadsSafer.foldl {α : Type} {f : Chip → α → Chip} (hf : ∀ c x, TriadsSafer c (f c x)) (l : List α) (c : Chip) :
    TriadsSafer c (l.foldl f c) := by
  induction l generalizing c with
  | nil => exact .refl c
  | cons x r ih => exact (hf c x).trans (ih _)

/-- A triad that ran, and is braked by then, is safe. -/
theorem TriadsSafer.safe (h : TriadsSafer c d) (runs : c.tstate u ∉ [0, 5, 6]) (stopped : d.tstate u ∈ [0, 5, 6]) :
    d.tstate u = 5 := by
  rcases h u with same | safe
  · rw [same] at stopped; exact absurd stopped runs
  · exact safe

/-- The brakes of several triads. -/
def brakeTriads (c : Chip) (l : List Nat) : Chip := l.foldl (fun c t => c.brakeTriad t) c

theorem brakeTriads_safer (c : Chip) (l : List Nat) : TriadsSafer c (c.brakeTriads l) :=
  .foldl (fun c t => c.brakeTriad_tstate t) l c

theorem brakeTriads_stopped (c : Chip) {l : List Nat} (h : u ∈ l) : (c.brakeTriads l).tstate u ∈ [0, 5, 6] := by
  have kept : ∀ (l : List Nat) (c : Chip), c.tstate u ∈ [0, 5, 6] → (c.brakeTriads l).tstate u ∈ [0, 5, 6] := fun l c hc => by
    rcases c.brakeTriads_safer l u with same | safe
    · rwa [same]
    · simp [safe]
  induction l generalizing c with
  | nil => exact absurd h List.not_mem_nil
  | cons t r ih =>
    rcases List.mem_cons.1 h with rfl | hr
    · refine kept r (c.brakeTriad u) ?_
      by_cases hc : c.tstate u ∈ [0, 5, 6]
      · rwa [brakeTriad_of_left hc]
      · simp [brakeTriad_tstate_same hc]
    · exact ih _ hr

theorem brakeTriads_tstate (c : Chip) {l : List Nat} (h : u ∈ l) (runs : c.tstate u ∉ [0, 5, 6]) :
    (c.brakeTriads l).tstate u = 5 :=
  (c.brakeTriads_safer l).safe runs (c.brakeTriads_stopped h)

/-- What brakes write: the registers of barrier groups, triads and field lanes. -/
abbrev HaltAddr (a : Nat) : Prop := BarAddr a ∨ 0xF000200000 ≤ a

theorem triadBrakeAddr_haltAddr (t a : Nat) : TriadBrakeAddr t a → HaltAddr a := by
  rintro (bar | rfl | ⟨n, rfl⟩)
  · exact .inl bar
  · exact .inr (by simp only [RegName.addr]; omega)
  · exact .inr (by simp only [RegName.addr]; omega)

theorem brakeTriads_haltFrame (c : Chip) (l : List Nat) : HaltFrame HaltAddr c (c.brakeTriads l) :=
  .foldl c fun c t _ => (c.brakeTriad_haltFrame t).mono (triadBrakeAddr_haltAddr t)

/-! ### The brake of a partition (R412) -/

theorem tstate_sf_other (c : Chip) {r : RegName} (f : Fld) (v u : Nat) (h : (RegName.CLU_TSTATE u).addr ≠ r.addr) :
    (c.sf r f v).tstate u = c.tstate u := gf_sf_other c f _ v h

theorem prtState_ne_tstate (h : p < 64) : (RegName.CLU_TSTATE u).addr ≠ (RegName.PRT_STATE p).addr := by
  simp only [RegName.addr]; omega

theorem brakeAddr_of_haltAddr (a : Nat) : HaltAddr a → BrakeAddr a := by
  rintro (bar | high)
  · exact .inl bar
  · exact .inr (.inr high)

/-- A partition's triads are braked, the partition is BRAKED where its state calls for it. -/
def brakeState (c : Chip) (p : Nat) (l : List Nat) : Chip := if c.pstate p ∈ l then c.sf (.PRT_STATE p) PRT_STATE.STATE 3 else c

theorem brakeState_haltFrame (c : Chip) (h : p < 64) (l : List Nat) : HaltFrame BrakeAddr c (c.brakeState p l) :=
  .ite (.sf c _ _ (brakeAddr_prtState h)) (.refl _ c)

theorem brakeState_safer (c : Chip) (h : p < 64) (l : List Nat) : TriadsSafer c (c.brakeState p l) := fun u => by
  unfold brakeState
  split
  · exact .inl (c.tstate_sf_other _ _ u (prtState_ne_tstate h))
  · exact .inl rfl

theorem brakeMember_eq (c : Chip) (p : Nat) :
    c.brakeMember p = if c.gb (.PRT_CFG p) PRT_CFG.DEFINED then (c.brakeTriads (c.triadsOf p)).brakeState p [2, 4, 5] else c := by
  unfold brakeMember brakeState brakeTriads
  simp

theorem brakeMember_haltFrame (c : Chip) (h : p < 64) : HaltFrame BrakeAddr c (c.brakeMember p) := by
  rw [brakeMember_eq]
  exact .ite (((c.brakeTriads_haltFrame _).mono brakeAddr_of_haltAddr).trans (brakeState_haltFrame _ h _)) (.refl _ c)

theorem brakeMember_safer (c : Chip) (h : p < 64) : TriadsSafer c (c.brakeMember p) := by
  rw [brakeMember_eq]
  split
  · exact (c.brakeTriads_safer _).trans (brakeState_safer _ h _)
  · exact .refl c

/-! ### The device brake (R412, R414, R419) -/

theorem brakeMembers_haltFrame (c : Chip) : HaltFrame BrakeAddr c ((List.range 64).foldl brakeMember c) :=
  .foldl c fun c _ hp => c.brakeMember_haltFrame (List.mem_range.1 hp)

theorem brakeMembers_safer (c : Chip) : TriadsSafer c ((List.range 64).foldl brakeMember c) := by
  have : ∀ l : List Nat, (∀ p ∈ l, p < 64) → ∀ c, TriadsSafer c (l.foldl brakeMember c) := fun l hl => by
    induction l with
    | nil => exact fun c => .refl c
    | cons p r ih =>
      exact fun c => (c.brakeMember_safer (hl p (by simp))).trans (ih (fun q hq => hl q (List.mem_cons_of_mem _ hq)) _)
  exact this _ (fun p hp => List.mem_range.1 hp) c

/-- Every field lane takes its safe levels. -/
theorem foldl_fieldSafe_haltFrame (l : List Nat) (c : Chip) :
    HaltFrame (fun a => ∃ n, a = (RegName.FLD_STAT n).addr) c (l.foldl (fun c n => c.fieldSafe n) c) :=
  .foldl c fun c n _ => .sf c _ _ ⟨n, rfl⟩

theorem fldStat_addr_inj {m : Nat} (h : (RegName.FLD_STAT n).addr = (RegName.FLD_STAT m).addr) : n = m := by
  simp only [RegName.addr] at h; omega

theorem foldl_fieldSafe_safe {l : List Nat} (c : Chip) (h : n ∈ l) :
    (l.foldl (fun c n => c.fieldSafe n) c).gb (.FLD_STAT n) FLD_STAT.SAFE = true := by
  have kept : ∀ (l : List Nat) (c : Chip), c.gb (.FLD_STAT n) FLD_STAT.SAFE = true →
      (l.foldl (fun c n => c.fieldSafe n) c).gb (.FLD_STAT n) FLD_STAT.SAFE = true := fun l => by
    induction l with
    | nil => exact fun c hc => hc
    | cons m r ih =>
      refine fun c hc => ih (c.fieldSafe m) ?_
      by_cases hm : n = m
      · rw [hm]; exact gb_sf_one _ _ rfl (by decide)
      · rw [fieldSafe, gb, gf_sf_other _ _ _ _ (fun he => hm (fldStat_addr_inj he)), ← gb]
        exact hc
  induction l generalizing c with
  | nil => exact absurd h List.not_mem_nil
  | cons m r ih =>
    rcases List.mem_cons.1 h with rfl | hr
    · exact kept r _ (gb_sf_one _ _ rfl (by decide))
    · exact ih _ hr

theorem brakeUnits_haltFrame (c : Chip) : HaltFrame BrakeAddr c c.brakeUnits :=
  (c.brakeMembers_haltFrame.trans ((brakeTriads_haltFrame _ _).mono brakeAddr_of_haltAddr)).trans
    ((foldl_fieldSafe_haltFrame _ _).mono fun _ ⟨n, ha⟩ => ha ▸ brakeAddr_fldStat n)

theorem brakeUnits_field (c : Chip) (h : n < 64) : c.brakeUnits.gb (.FLD_STAT n) FLD_STAT.SAFE = true :=
  foldl_fieldSafe_safe _ (List.mem_range.2 h)

theorem foldl_fieldSafe_tstate (l : List Nat) (c : Chip) (u : Nat) :
    (l.foldl (fun c n => c.fieldSafe n) c).tstate u = c.tstate u :=
  tstate_congr ((foldl_fieldSafe_haltFrame l c).rd _ fun ⟨n, he⟩ => fldStat_ne_tstate n u he.symm)

/-- Every triad that runs is safe after the device brake. -/
theorem brakeUnits_tstate (c : Chip) (h : t < 32) (runs : c.tstate t ∉ [0, 5, 6]) : c.brakeUnits.tstate t = 5 := by
  set d := (List.range 64).foldl brakeMember c
  have stopped : (d.brakeTriads (List.range 32)).tstate t ∈ [0, 5, 6] := d.brakeTriads_stopped (List.mem_range.2 h)
  have safer : TriadsSafer c (d.brakeTriads (List.range 32)) := c.brakeMembers_safer.trans (d.brakeTriads_safer _)
  exact (foldl_fieldSafe_tstate _ _ t).trans (safer.safe runs stopped)

end Chip
end Sys2Proof.Machine
end

section
/-! The fault collector (R402, R405 to R412): the device brake as its registers show it, SAFE frames that no path has, and the end
of an attribution. -/
namespace Sys2Proof.Machine

theorem testBit_clrBit (v i j : Nat) : (clrBit v i).testBit j = (v.testBit j && decide (j ≠ i)) := by
  unfold clrBit
  split
  case isTrue set_ =>
    have low : v % 2 ^ i < 2 ^ (i + 1) := (Nat.mod_lt _ (Nat.two_pow_pos i)).trans (Nat.pow_lt_pow_right (by decide) i.lt_succ_self)
    have split_ : v - 2 ^ i = 2 ^ (i + 1) * (v / 2 ^ (i + 1)) + v % 2 ^ i := by
      have whole := Nat.div_add_mod v (2 ^ (i + 1))
      have bit_ : v / 2 ^ i % 2 = 1 := by simpa [Nat.testBit_eq_decide_div_mod_eq] using set_
      rw [Nat.mod_pow_succ, bit_, Nat.mul_one] at whole
      omega
    rw [split_, Nat.testBit_two_pow_mul_add _ low, Nat.testBit_mod_two_pow, Nat.testBit_div_two_pow]
    by_cases hj : j < i + 1
    · by_cases he : j = i
      · simp [he]
      · simp [hj, he, show j < i by omega]
    · simp [hj, show j - (i + 1) + (i + 1) = j by omega, show j ≠ i by omega]
  case isFalse clear =>
    by_cases he : j = i
    · simp [he, clear]
    · simp [he]

namespace Chip
variable {c d e : Chip} {now src s k u v : Nat}

/-! ### SAFE frames (R413) -/

/-- No path sends a SAFE frame, and none waits for a tag. -/
structure NoSafeFrames (c : Chip) : Prop where
  waits : c.chan.safeWait = []
  paths : ∀ p, c.safePaths p = []

/-- The SAFE frames that are due are built. -/
def safeBuilt (c : Chip) : Chip := c.modFlt fun f => { f with safeDue := [] }

theorem safeFlush_eq (h : NoSafeFrames c) (now : Nat) : c.safeFlush now = c.safeBuilt := by
  unfold safeFlush safeBuilt
  split
  case isTrue none_due =>
    have due : c.flt.safeDue = [] := by
      rw [h.waits] at none_due
      simpa using none_due
    rw [modFlt, ← due]
  case isFalse =>
    have flat : c.flt.safeDue.flatMap c.safePaths = [] := List.flatMap_eq_nil_iff.2 fun p _ => h.paths p
    simp only [h.waits, flat, List.append_nil, List.foldl_nil]
    rw [modChan, modFlt_chan, ← h.waits]
    rfl

@[simp] theorem safeBuilt_deviceBrake (c : Chip) : c.safeBuilt.flt.deviceBrake = c.flt.deviceBrake := rfl
@[simp] theorem safeBuilt_partBrakes (c : Chip) : c.safeBuilt.flt.partBrakes = c.flt.partBrakes := rfl

/-- The registers of the paths are no unit's that a brake stops, and not the collector's. -/
theorem NoSafeFrames.of_frame {A : Nat → Prop} (h : NoSafeFrames c) (frame : RegFrame A c d) (chan : d.chan = c.chan)
    (hA : ∀ n < 1024, ¬ A (RegName.CHN_PATHCFG n).addr ∧ ¬ A (RegName.CHN_PATHAUX n).addr) : NoSafeFrames d := by
  refine ⟨by rw [chan, h.waits], fun p => ?_⟩
  rw [← h.paths p]
  refine List.filter_congr fun n hn => ?_
  obtain ⟨cfg, aux⟩ := hA n (List.mem_range.1 hn)
  simp only [pEn, pWcp, pOwner, gb, gf_eq, frame.rd _ cfg, frame.rd _ aux]

/-! ### The device brake (R411, R412) -/

/-- What the device brake leaves: the brake and its cause, safe units, and everything else as it was. -/
structure DeviceBraked (c d : Chip) (cause : Nat) : Prop where
  set : d.flt.deviceBrake = true
  state : d.gf .FLT_STATE FLT_STATE.STATE = 5
  cause : d.gf .FLT_STATE FLT_STATE.CAUSE = cause
  safe : d.gb .FLT_STATUS FLT_STATUS.SAFE = true
  fields : ∀ n < 64, d.gb (.FLD_STAT n) FLD_STAT.SAFE = true
  triads : ∀ t < 32, c.tstate t ∉ [0, 5, 6] → d.tstate t = 5
  frame : RegFrame (fun a => FltAddr a ∨ BrakeAddr a) c d
  stands : ∀ src cls, c.stands src cls → d.stands src cls
  host : d.host = c.host
  chan : d.chan = c.chan
  attr : ∀ s < 20, ∀ k, d.attributed s k = c.attributed s k

theorem gb_bit (c : Chip) (r : RegName) (i : Nat) : c.gb r ⟨i, i⟩ = (c.rd r).toNat.testBit i := by
  rw [gb, gf_eq, Fld.get, Nat.testBit_eq_decide_div_mod_eq, show i + 1 - i = 1 by omega, Nat.pow_one]
  rfl

theorem showBrake_fields (c : Chip) {cause : Nat} (h : cause < 256) :
    (c.showBrake cause).gf .FLT_STATE FLT_STATE.STATE = 5 ∧ (c.showBrake cause).gf .FLT_STATE FLT_STATE.CAUSE = cause ∧
      (c.showBrake cause).gb .FLT_STATUS FLT_STATUS.SAFE = true := by
  refine ⟨?_, ?_, ?_⟩
  · rw [showBrake, gf_sf_field _ _ _ _ _ (by decide) (by decide) (by decide), gf_sf_same _ _ _ _ (by decide) (by decide)]
    decide
  · rw [showBrake, gf_sf_same _ _ _ _ (by decide) (by decide)]
    exact Nat.mod_eq_of_lt h
  · rw [showBrake, gb, gf_sf_other _ _ _ _ (by decide), gf_sf_other _ _ _ _ (by decide), ← gb, FLT_STATUS.SAFE,
      gb_bit _ _ 63]
    exact c.stands_setSticky (src := 21) (cls := 0) (by decide)

/-- `FLT_ATTR`, where a partition's attributions stand, or `FLT_MATTR` (R408). -/
def attrReg (s k : Nat) : RegName := if k = 64 then .FLT_MATTR else .FLT_ATTR s
def attrBit (s k : Nat) : Nat := if k = 64 then s else k

theorem attributed_eq (c : Chip) (s k : Nat) : c.attributed s k = (c.rd (attrReg s k)).toNat.testBit (attrBit s k) := by
  unfold attributed attrReg attrBit
  split <;> rfl

theorem attributed_congr (h : d.rd (attrReg s k) = c.rd (attrReg s k)) : d.attributed s k = c.attributed s k := by
  rw [attributed_eq, attributed_eq, h]

/-- The registers of the attributions, `FLT_MATTR` and `FLT_ATTR` of the 20 sources, lie in the collector beyond its state. -/
theorem attrReg_addr (hs : s < 20) (k : Nat) : 0xF000010038 ≤ (attrReg s k).addr ∧ (attrReg s k).addr < 0xF0000102A0 := by
  unfold attrReg
  split
  · decide
  · simp only [RegName.addr]; omega

theorem attrReg_ne (hs : s < 20) (k : Nat) {r : RegName} (hr : r.addr < 0xF000010038 ∨ 0xF0000102A0 ≤ r.addr) :
    (attrReg s k).addr ≠ r.addr := by
  have := attrReg_addr hs k
  omega

theorem attrReg_not_brake (hs : s < 20) (k : Nat) : ¬ BrakeAddr (attrReg s k).addr := by
  have := attrReg_addr hs k
  simp only [BrakeAddr]; omega

theorem rd_showBrake_other (c : Chip) (cause : Nat) {r : RegName} (hs : r.addr ≠ RegName.FLT_STATUS.addr)
    (ht : r.addr ≠ RegName.FLT_STATE.addr) : (c.showBrake cause).rd r = c.rd r := by
  rw [showBrake, rd_sf_other _ _ _ ht, rd_sf_other _ _ _ ht, setSticky, rd_wr_other _ _ hs]

section
variable (c : Chip) (cause : Nat)
theorem showBrake_flt : (c.showBrake cause).flt = c.flt := by simp only [showBrake, setSticky, sf_flt, wr_flt]
theorem showBrake_host : (c.showBrake cause).host = c.host := by simp only [showBrake, setSticky, sf_host, wr_host]
theorem showBrake_chan : (c.showBrake cause).chan = c.chan := by simp only [showBrake, setSticky, sf_chan, wr_chan]
end

/-- The device brake shows itself on a chip whose units have stopped. -/
theorem brakeDevice_shows (c : Chip) (now cause : Nat) (hb : c.flt.deviceBrake = false) (ho : c.off = false) :
    ∃ d : Chip, d.regs = c.brakeUnits.regs ∧ d.flt.deviceBrake = true ∧ d.host = c.host ∧ d.chan = c.chan ∧
      c.brakeDevice now cause = d.showBrake cause := by
  obtain ⟨f, hf, he⟩ := c.brakeDevice_eq now cause hb ho
  have units := c.brakeUnits_haltFrame
  generalize c.brakeUnits = u at he units ⊢
  exact ⟨{ u with flt := f }, rfl, hf, units.host, units.chan, he⟩

/-- The device brake where none is set: the units have stopped, and the collector shows it with its cause. -/
theorem brakeDevice_braked (c : Chip) (now : Nat) {cause : Nat} (hb : c.flt.deviceBrake = false) (ho : c.off = false)
    (hc : cause < 256) : DeviceBraked c (c.brakeDevice now cause) cause := by
  obtain ⟨stands, -, frame⟩ := c.brakeDevice_sets now cause hb ho
  obtain ⟨d, regs, set_, host, chan, he⟩ := c.brakeDevice_shows now cause hb ho
  obtain ⟨state, shown, safe⟩ := d.showBrake_fields hc
  have kept : ∀ r : RegName, r.addr ≠ RegName.FLT_STATUS.addr → r.addr ≠ RegName.FLT_STATE.addr →
      (c.brakeDevice now cause).rd r = c.brakeUnits.rd r := fun r hs ht => by
    rw [he, rd_showBrake_other _ _ hs ht, rd_of_regs_eq regs]
  refine ⟨by rw [he, showBrake_flt, set_], by rw [he, state], by rw [he, shown], by rw [he, safe], fun n hn => ?_,
    fun t ht runs => ?_, frame, stands, by rw [he, showBrake_host, host], by rw [he, showBrake_chan, chan],
    fun s hs k => attributed_congr ?_⟩
  · rw [gb_congr (kept _ (by simp only [RegName.addr]; omega) (by simp only [RegName.addr]; omega))]
    exact c.brakeUnits_field hn
  · rw [tstate_congr (kept _ (by simp only [RegName.addr]; omega) (by simp only [RegName.addr]; omega))]
    exact c.brakeUnits_tstate ht runs
  · rw [kept _ (attrReg_ne hs k (.inl (by decide))) (attrReg_ne hs k (.inl (by decide)))]
    exact c.brakeUnits_haltFrame.rd _ (attrReg_not_brake hs k)

/-- A device brake on a device that has no SAFE frames to send leaves none to build. -/
theorem DeviceBraked.noSafeFrames {cause : Nat} (h : DeviceBraked c d cause) (still : NoSafeFrames c) : NoSafeFrames d :=
  still.of_frame h.frame h.chan fun n hn => by
    constructor <;> simp only [FltAddr, BrakeAddr, RegName.addr] <;> omega

theorem DeviceBraked.safeBuilt {cause : Nat} (h : DeviceBraked c d cause) : DeviceBraked c d.safeBuilt cause :=
  ⟨h.set, h.state, h.cause, h.safe, h.fields, h.triads, ⟨h.frame.mem, h.frame.rd⟩, h.stands, h.host, h.chan, h.attr⟩

theorem DeviceBraked.safeFlush {cause : Nat} (h : DeviceBraked c d cause) (still : NoSafeFrames c) (now : Nat) :
    DeviceBraked c (d.safeFlush now) cause := by
  rw [safeFlush_eq (h.noSafeFrames still)]
  exact h.safeBuilt

/-! ### The end of an attribution (R409) -/

/-- A register with one bit cleared. -/
def clearBit (c : Chip) (r : RegName) (b : Nat) : Chip := c.wr r (BitVec.ofNat 64 (clrBit (c.rd r).toNat b))

theorem testBit_clearBit (c : Chip) (r : RegName) (b j : Nat) :
    ((c.clearBit r b).rd r).toNat.testBit j = ((c.rd r).toNat.testBit j && decide (j ≠ b)) := by
  have small : clrBit (c.rd r).toNat b < 2 ^ 64 := by
    unfold clrBit
    split
    · exact (Nat.sub_le _ _).trans_lt (c.rd r).isLt
    · exact (c.rd r).isLt
  rw [clearBit, rd_wr_same, BitVec.toNat_ofNat, Nat.mod_eq_of_lt small, testBit_clrBit]

theorem rd_clearBit_other (c : Chip) {r q : RegName} (b : Nat) (h : q.addr ≠ r.addr) : (c.clearBit r b).rd q = c.rd q :=
  c.rd_wr_other _ h

/-- The timer of an attribution stops. -/
def stopTimer (c : Chip) (s k : Nat) : Chip :=
  c.modFlt fun f => { f with grace1 := f.grace1.filter fun e => !(e.1 == s && e.2.1 == k) }

theorem endAttr_eq (c : Chip) (s k : Nat) :
    c.endAttr s k = (((c.stopTimer s k).attrTriads s k).foldl (fun c t => c.clearBit .FLT_TATTR t) (c.stopTimer s k)).clearBit
      (attrReg s k) (attrBit s k) := by
  unfold endAttr attrReg attrBit
  by_cases h : k = 64
  · simp only [if_pos h]; rfl
  · simp only [if_neg h]; rfl

theorem foldl_clearBit_tattr (l : List Nat) (c : Chip) :
    OnlyRegs c (l.foldl (fun c t => c.clearBit .FLT_TATTR t) c) [.FLT_TATTR] :=
  .foldl c fun c _ _ => .wr c _ (by simp)

theorem attrReg_not_tattr (hs : s < 20) (k : Nat) : (attrReg s k).addr ∉ [RegName.FLT_TATTR].map RegName.addr := by
  simpa using attrReg_ne hs k (r := .FLT_TATTR) (.inl (by decide))

theorem attrReg_manager (s : Nat) : attrReg s 64 = .FLT_MATTR ∧ attrBit s 64 = s := ⟨rfl, rfl⟩
theorem attrReg_part (hk : k ≠ 64) (s : Nat) : attrReg s k = .FLT_ATTR s ∧ attrBit s k = k := ⟨if_neg hk, if_neg hk⟩

/-- The addresses of the attributions tell the registers apart. -/
theorem attrReg_inj {s' k' : Nat} (h : (attrReg s' k').addr = (attrReg s k).addr) :
    attrReg s' k' = attrReg s k ∧ (attrBit s' k' = attrBit s k → s' = s ∧ k' = k) := by
  by_cases hk : k = 64 <;> by_cases hk' : k' = 64
  · subst hk hk'
    exact ⟨rfl, fun h => ⟨h, rfl⟩⟩
  · rw [hk, (attrReg_manager s).1, (attrReg_part hk' s').1] at h
    simp only [RegName.addr] at h
    omega
  · rw [hk', (attrReg_manager s').1, (attrReg_part hk s).1] at h
    simp only [RegName.addr] at h
    omega
  · rw [(attrReg_part hk s).1, (attrReg_part hk' s').1] at *
    rw [(attrReg_part hk s).2, (attrReg_part hk' s').2]
    have : s' = s := by simp only [RegName.addr] at h; omega
    exact ⟨by rw [this], fun hb => ⟨this, hb⟩⟩

theorem attributed_clearBit (c : Chip) (s k s' k' : Nat) :
    (c.clearBit (attrReg s k) (attrBit s k)).attributed s' k' = (c.attributed s' k' && !decide (s' = s ∧ k' = k)) := by
  rw [attributed_eq, attributed_eq]
  by_cases hr : (attrReg s' k').addr = (attrReg s k).addr
  · obtain ⟨same, apart⟩ := attrReg_inj hr
    rw [same, testBit_clearBit]
    by_cases hb : attrBit s' k' = attrBit s k
    · obtain ⟨rfl, rfl⟩ := apart hb
      simp
    · have : ¬ (s' = s ∧ k' = k) := fun ⟨a, b⟩ => hb (by rw [a, b])
      simp [hb, this]
  · have : ¬ (s' = s ∧ k' = k) := fun ⟨a, b⟩ => hr (by rw [a, b])
    rw [rd_clearBit_other _ _ hr]
    simp [this]

end Chip
end Sys2Proof.Machine
end

section
/-! Ending attributions (R405, R406, R409): what the writes of `FLT_ATTR`, `FLT_MATTR` and `FLT_STATUS` leave of them and of the
contained bits, where no grace timer has ended. -/
namespace Sys2Proof.Machine.Chip
variable {c d e : Chip} {now s k : Nat}

/-! ### One attribution -/

/-- No grace timer of an attribution has ended. -/
def Early (c : Chip) (now : Nat) : Prop := ∀ s k : Nat, c.graceOver now s k = false

/-- The contained bit of source `s` clears. -/
def dropContained (c : Chip) (s : Nat) : Chip := c.clearBit .FLT_STATUS (3 * s + 1)

theorem Early.stopTimer (h : c.Early now) (s k : Nat) : (c.stopTimer s k).Early now := fun s' k' => by
  have none_ := h s' k'
  unfold graceOver at none_ ⊢
  simp only [List.any_eq_false] at none_ ⊢
  exact fun e he => none_ e (List.mem_filter.1 he).1

theorem clearBit_rest (c : Chip) (r : RegName) (b : Nat) : c.clearBit r b = { c with regs := (c.clearBit r b).regs } := rfl

/-- An attribution ends: it alone is gone, its timer has stopped, and no bit of `FLT_STATUS` has changed. -/
theorem endAttr_ends (c : Chip) {s : Nat} (hs : s < 20) (k : Nat) :
    let d := c.endAttr s k
    d = { c with regs := d.regs, flt := (c.stopTimer s k).flt } ∧ d.rd .FLT_STATUS = c.rd .FLT_STATUS ∧
      ∀ s' < 20, ∀ k', d.attributed s' k' = (c.attributed s' k' && !decide (s' = s ∧ k' = k)) := by
  intro d
  obtain ⟨rest, tattr⟩ := foldl_clearBit_tattr ((c.stopTimer s k).attrTriads s k) (c.stopTimer s k)
  have ended : d = _ := c.endAttr_eq s k
  generalize ((c.stopTimer s k).attrTriads s k).foldl (fun c t => c.clearBit .FLT_TATTR t) (c.stopTimer s k) = u at ended rest tattr
  refine ⟨?_, ?_, fun s' hs' k' => ?_⟩
  · rw [ended, clearBit_rest, rest]; rfl
  · rw [ended, rd_clearBit_other _ _ (attrReg_ne hs k (.inl (by decide))).symm, tattr .FLT_STATUS (by decide)]; rfl
  · rw [ended, attributed_clearBit, attributed_congr (tattr _ (attrReg_not_tattr hs' k'))]; rfl

/-! ### Several attributions -/

/-- The attributions `P`, and no others, have ended; of `FLT_STATUS` contained bits of their sources alone may have changed. -/
structure Cleared (P : Nat → Nat → Prop) (now : Nat) (c d : Chip) : Prop where
  rest : d = { c with regs := d.regs, flt := d.flt }
  early : d.Early now
  attr : ∀ s < 20, ∀ k, d.attributed s k = true ↔ c.attributed s k = true ∧ ¬ P s k
  bits : ∀ j, (∀ s k, P s k → j ≠ 3 * s + 1) → (d.rd .FLT_STATUS).toNat.testBit j = (c.rd .FLT_STATUS).toNat.testBit j

/-- A source that an attribution of `P` had keeps its contained bit only with an attribution that is left. -/
def Settled (P : Nat → Nat → Prop) (c d : Chip) : Prop :=
  ∀ s < 20, d.stands s 1 ↔ c.stands s 1 ∧ ((∃ k, d.attributed s k = true) ∨ ¬ ∃ k, P s k ∧ c.attributed s k = true)

section
variable {P Q : Nat → Nat → Prop}

theorem Cleared.sameCore (h : Cleared P now c d) : SameCore c d := by
  rw [h.rest]
  exact ⟨rfl, rfl, rfl, rfl⟩

theorem Cleared.refl (h : c.Early now) (none_ : ∀ s k, P s k → c.attributed s k = false) : Cleared P now c c :=
  ⟨rfl, h, fun s _ k => ⟨fun a => ⟨a, fun p => by simp [none_ s k p] at a⟩, And.left⟩, fun _ _ => rfl⟩

theorem Settled.refl (none_ : ∀ s k, P s k → c.attributed s k = false) : Settled P c c := fun s _ =>
  ⟨fun h => ⟨h, .inr fun ⟨k, p, a⟩ => by simp [none_ s k p] at a⟩, And.left⟩

theorem Cleared.trans (h : Cleared P now c d) (g : Cleared Q now d e) : Cleared (fun s k => P s k ∨ Q s k) now c e where
  rest := by rw [g.rest, h.rest]
  early := g.early
  attr s hs k := by rw [g.attr s hs, h.attr s hs, not_or, and_assoc]
  bits j hj := (g.bits j fun s k q => hj s k (.inr q)).trans (h.bits j fun s k p => hj s k (.inl p))

theorem Settled.trans (h : Settled P c d) (g : Settled Q d e) (hc : Cleared P now c d) (gc : Cleared Q now d e) :
    Settled (fun s k => P s k ∨ Q s k) c e := fun s hs => by
  have first := hc.attr s hs
  have second := gc.attr s hs
  rw [g s hs, h s hs]
  simp only [second, first]
  grind

theorem Cleared.congr (h : Cleared P now c d) (hPQ : ∀ s k, c.attributed s k = true → (P s k ↔ Q s k))
    (hP : ∀ s k, P s k → ∃ k', Q s k') : Cleared Q now c d where
  rest := h.rest
  early := h.early
  attr s hs k := (h.attr s hs k).trans (and_congr_right fun a => not_congr (hPQ s k a))
  bits j hj := h.bits j fun s k p => (hP s k p).elim fun k' q => hj s k' q

/-- Clearing one by one clears all of them. -/
theorem Cleared.foldl {α : Type} {f : Chip → α → Chip} {R : α → Nat → Nat → Prop} {l : List α}
    (hf : ∀ c : Chip, c.Early now → ∀ x ∈ l, Cleared (R x) now c (f c x)) (h : c.Early now) :
    Cleared (fun s k => ∃ x ∈ l, R x s k) now c (l.foldl f c) := by
  induction l generalizing c with
  | nil => exact .refl h (by simp)
  | cons x r ih =>
    have first := hf c h x (by simp)
    have others := ih (fun c hc y hy => hf c hc y (by simp [hy])) first.early
    simpa using first.trans others

theorem Settled.foldl {α : Type} {f : Chip → α → Chip} {R : α → Nat → Nat → Prop} {l : List α}
    (hf : ∀ c : Chip, c.Early now → ∀ x ∈ l, Cleared (R x) now c (f c x) ∧ Settled (R x) c (f c x)) (h : c.Early now) :
    Settled (fun s k => ∃ x ∈ l, R x s k) c (l.foldl f c) := by
  induction l generalizing c with
  | nil => exact .refl (by simp)
  | cons x r ih =>
    obtain ⟨first, settled⟩ := hf c h x (by simp)
    have step := fun (c : Chip) (hc : c.Early now) y (hy : y ∈ r) => hf c hc y (by simp [hy])
    have others := Cleared.foldl (fun c hc y hy => (step c hc y hy).1) first.early
    simpa using settled.trans (ih step first.early) first others
end

/-! ### A write that ends an attribution -/

theorem attributed_lt (h : c.attributed s k = true) : k < 65 := by
  by_contra hk
  rw [attributed_eq, (attrReg_part (by omega) s).1, (attrReg_part (by omega) s).2] at h
  have := Nat.testBit_lt_two_pow ((c.rd (.FLT_ATTR s)).isLt.trans_le (Nat.pow_le_pow_right (by decide) (show 64 ≤ k by omega)))
  simp [this] at h

theorem any_attributed (c : Chip) (s : Nat) : (List.range 65).any (fun k => c.attributed s k) = true ↔ ∃ k, c.attributed s k = true := by
  simp only [List.any_eq_true, List.mem_range]
  exact ⟨fun ⟨k, _, h⟩ => ⟨k, h⟩, fun ⟨k, h⟩ => ⟨k, attributed_lt h, h⟩⟩

theorem mem_attrsOf : k ∈ c.attrsOf s ↔ c.attributed s k = true := by
  simp only [attrsOf, List.mem_filter, List.mem_range]
  exact ⟨And.right, fun h => ⟨attributed_lt h, h⟩⟩

theorem attributed_dropContained (c : Chip) (s : Nat) {s' : Nat} (hs : s' < 20) (k : Nat) :
    (c.dropContained s).attributed s' k = c.attributed s' k :=
  attributed_congr (rd_clearBit_other _ _ (attrReg_ne hs k (.inl (by decide))))

theorem testBit_dropContained (c : Chip) (s j : Nat) : ((c.dropContained s).rd .FLT_STATUS).toNat.testBit j =
    ((c.rd .FLT_STATUS).toNat.testBit j && decide (j ≠ 3 * s + 1)) := c.testBit_clearBit _ _ j

theorem settleSticky_eq (c : Chip) (s : Nat) :
    c.settleSticky s = if (List.range 65).any (fun k => c.attributed s k) then c else c.dropContained s := rfl

theorem endAttr_cleared (h : c.Early now) (hs : s < 20) (k : Nat) :
    Cleared (fun s' k' => s' = s ∧ k' = k) now c (c.endAttr s k) ∧ (c.endAttr s k).rd .FLT_STATUS = c.rd .FLT_STATUS := by
  obtain ⟨rest, status, attr⟩ := c.endAttr_ends hs k
  have flt : (c.endAttr s k).flt = (c.stopTimer s k).flt := by rw [rest]
  refine ⟨⟨by rw [rest], fun s' k' => ?_, fun s' hs' k' => by simp only [attr s' hs' k', Bool.and_eq_true, Bool.not_eq_true', decide_eq_false_iff_not], fun j _ => by rw [status]⟩, status⟩
  rw [graceOver, flt]
  exact h.stopTimer s k s' k'

/-- Of an attribution that stands and whose timer runs, a write of 1 ends it; the contained bit goes with the last one (R409). -/
theorem clearAttr_cleared (h : c.Early now) (hs : s < 20) (k : Nat) :
    Cleared (fun s' k' => s' = s ∧ k' = k) now c (c.clearAttr now s k) ∧
      Settled (fun s' k' => s' = s ∧ k' = k) c (c.clearAttr now s k) := by
  unfold clearAttr
  cases ha : c.attributed s k with
  | false =>
    have none_ : ∀ s' k', s' = s ∧ k' = k → c.attributed s' k' = false := fun _ _ ⟨hs, hk⟩ => by rw [hs, hk, ha]
    exact ⟨.refl h none_, .refl none_⟩
  | true =>
    obtain ⟨ended, status⟩ := endAttr_cleared h hs k
    simp only [h s k, Bool.not_true, settleSticky_eq, Bool.false_eq_true, ↓reduceIte]
    generalize c.endAttr s k = d at ended status ⊢
    have had : ∃ k', (s = s ∧ k' = k) ∧ c.attributed s k' = true := ⟨k, ⟨rfl, rfl⟩, ha⟩
    have others : ∀ s' ≠ s, ¬ ∃ k', (s' = s ∧ k' = k) ∧ c.attributed s' k' = true := fun s' hne ⟨_, ⟨he, _⟩, _⟩ => hne he
    have kept : ∀ s', d.stands s' 1 ↔ c.stands s' 1 := fun s' => by rw [stands, sticky, status]; rfl
    split
    case isTrue left_ =>
      refine ⟨ended, fun s' hs' => ?_⟩
      rw [kept]
      by_cases he : s' = s
      · subst he; simp [(d.any_attributed s').1 left_]
      · simp [others s' he]
    case isFalse none_ =>
      refine ⟨⟨by rw [dropContained, clearBit_rest, ended.rest], ended.early, fun s' hs' k' => ?_, fun j hj => ?_⟩,
        fun s' hs' => ?_⟩
      · rw [attributed_dropContained _ _ hs']; exact ended.attr s' hs' k'
      · rw [testBit_dropContained, status]; simp [hj s k ⟨rfl, rfl⟩]
      · rw [stands, sticky, testBit_dropContained, status]
        simp only [attributed_dropContained _ _ hs']
        by_cases he : s' = s
        · subst he
          have gone : ¬ ∃ k', d.attributed s' k' = true := fun h => none_ ((d.any_attributed s').2 h)
          exact iff_of_false (by simp) fun ⟨_, h⟩ => h.elim gone (· had)
        · simp only [others s' he, not_false_eq_true, or_true, and_true, stands, sticky]
          simp [show s' ≠ s from he]

/-- The attributions that a mask names in a source. -/
theorem attrWrite_cleared (h : c.Early now) (hs : s < 20) (ag : Agent) (v : DWord) :
    let named := fun s' k => s' = s ∧ k < 64 ∧ (attrMask ag v).getLsbD k = true
    Cleared named now c (c.attrWrite now ag s v) ∧ Settled named c (c.attrWrite now ag s v) := by
  intro named
  have step := fun (c : Chip) (hc : c.Early now) k
    (_ : k ∈ (List.range 64).filter (fun p => (attrMask ag v).getLsbD p)) => clearAttr_cleared hc hs k
  have one : (fun s' k' => ∃ k ∈ (List.range 64).filter (fun p => (attrMask ag v).getLsbD p), s' = s ∧ k' = k) = named := by
    funext s' k'
    simp only [List.mem_filter, List.mem_range, named]
    exact propext ⟨fun ⟨k, hk, he, e⟩ => e ▸ ⟨he, hk⟩, fun ⟨he, hk⟩ => ⟨k', hk, he, rfl⟩⟩
  have cleared := Cleared.foldl (fun c hc k hk => (step c hc k hk).1) h
  have settled := Settled.foldl step h
  rw [one] at cleared settled
  exact ⟨cleared, settled⟩

theorem mattrWrite_cleared (h : c.Early now) (v : DWord) :
    Cleared (fun s k => s < 20 ∧ v.getLsbD s = true ∧ k = 64) now c (c.mattrWrite now v) := by
  have cleared : Cleared _ now c (c.mattrWrite now v) := Cleared.foldl (fun c hc s hs =>
    (clearAttr_cleared hc (List.mem_range.1 (List.mem_filter.1 hs).1) 64).1) h
  have one : (fun s' k => ∃ s ∈ (List.range 20).filter (fun s => v.getLsbD s), s' = s ∧ k = 64) =
      fun s k => s < 20 ∧ v.getLsbD s = true ∧ k = 64 := by
    funext s' k
    simp only [List.mem_filter, List.mem_range]
    exact propext ⟨fun ⟨s, hs, he, e⟩ => he ▸ ⟨hs.1, hs.2, e⟩, fun ⟨a, b, e⟩ => ⟨s', ⟨a, b⟩, rfl, e⟩⟩
  rwa [one] at cleared

/-- A contained bit written 1 ends every attribution of its source (R406). -/
theorem clearSource_cleared (h : c.Early now) (hs : s < 20) :
    Cleared (fun s' _ => s' = s) now c (c.clearSource now s) := by
  have ended : Cleared _ now c ((c.attrsOf s).foldl (fun c k => c.clearAttr now s k) c) :=
    Cleared.foldl (fun c hc k _ => (clearAttr_cleared hc hs k).1) h
  have dropped : c.clearSource now s = ((c.attrsOf s).foldl (fun c k => c.clearAttr now s k) c).dropContained s := rfl
  generalize (c.attrsOf s).foldl (fun c k => c.clearAttr now s k) c = d at ended dropped
  rw [dropped]
  refine ⟨by rw [dropContained, clearBit_rest, ended.rest], ended.early, fun s' hs' k => ?_, fun j hj => ?_⟩
  · rw [attributed_dropContained _ _ hs', ended.attr s' hs']
    refine and_congr_right fun a => not_congr ⟨fun ⟨_, _, he, _⟩ => he, fun he => ⟨k, ?_, he, rfl⟩⟩
    rw [mem_attrsOf, ← he]
    exact a
  · have apart := hj s 0 rfl
    rw [testBit_dropContained, ended.bits j fun s' _ ⟨_, _, he, _⟩ => he ▸ apart]
    simp [apart]

/-- Where only bits that a mask names have changed, clearing the mask's bits clears it in the value of before. -/
theorem and_not_of_agree {w x m : DWord} (h : ∀ j, m.getLsbD j = false → w.getLsbD j = x.getLsbD j) :
    w &&& ~~~m = x &&& ~~~m := by
  refine BitVec.eq_of_getLsbD_eq fun j hj => ?_
  cases hm : m.getLsbD j with
  | false => rw [BitVec.getLsbD_and, BitVec.getLsbD_and, h j hm]
  | true => simp [hm]

/-- The bits of `FLT_STATUS` that a write may clear are those below 62. -/
theorem getLsbD_clearable (v : DWord) {j : Nat} (hj : j < 62) : (v &&& 0x3FFFFFFFFFFFFFFF).getLsbD j = v.getLsbD j := by
  have : (0x3FFFFFFFFFFFFFFF : DWord) = BitVec.ofNat 64 (2 ^ 62 - 1) := by decide
  rw [BitVec.getLsbD_and, this, BitVec.getLsbD_ofNat, Nat.testBit_two_pow_sub_one]
  simp [hj, show j < 64 by omega]

theorem statusWrite_clears (h : c.Early now) (v : DWord) :
    let d := c.statusWrite now v
    d.rd .FLT_STATUS = c.rd .FLT_STATUS &&& ~~~(v &&& 0x3FFFFFFFFFFFFFFF) ∧
      (∀ s < 20, v.getLsbD (3 * s + 1) = true → ∀ k, d.attributed s k = false) ∧ SameCore c d := by
  simp only [statusWrite]
  have ended : Cleared _ now c (((List.range 20).filter (fun s => v.getLsbD (3 * s + 1))).foldl
      (fun c s => c.clearSource now s) c) := Cleared.foldl (fun c hc s hs =>
    clearSource_cleared hc (List.mem_range.1 (List.mem_filter.1 hs).1)) h
  generalize ((List.range 20).filter (fun s => v.getLsbD (3 * s + 1))).foldl (fun c s => c.clearSource now s) c = d at ended ⊢
  refine ⟨?_, fun s hs hv k => ?_, ended.sameCore⟩
  · rw [rd_wr_same]
    refine and_not_of_agree fun j hm => ended.bits j fun s _ named he => ?_
    obtain ⟨x, hx, rfl⟩ := named
    obtain ⟨hs, hv⟩ := List.mem_filter.1 hx
    have := List.mem_range.1 hs
    rw [he, getLsbD_clearable v (by omega)] at hm
    exact absurd hv (by simp [hm])
  · rw [attributed_congr (rd_wr_other _ _ (attrReg_ne hs k (.inl (by decide))))]
    have := (ended.attr s hs k).not.2 fun ⟨_, n⟩ => n ⟨s, List.mem_filter.2 ⟨List.mem_range.2 hs, hv⟩, rfl⟩
    simpa using this

end Sys2Proof.Machine.Chip
end

section
/-! The commands of brakes and of the clearing of faults (R405, R406, R409, R411, R412, R415, R420). -/
namespace Sys2Proof.Machine
variable {s : State}

namespace Chip
variable {c d : Chip} {now p : Nat}

/-! ### The brake of a partition -/

/-- The brake of a partition is noted, and its SAFE frames are due. -/
def brakeNoted (c : Chip) (p : Nat) : Chip :=
  c.modFlt fun f => { f with partBrakes := f.partBrakes ++ [p], safeDue := addNew f.safeDue p }

/-- The brake of a partition stops its triads and takes its own field lanes to their safe levels (R412). -/
theorem brakePart_eq (hd : c.gb (.PRT_CFG p) PRT_CFG.DEFINED = true) (hp : p ∉ c.flt.partBrakes) :
    c.brakePart p = ((((c.brakeNoted p).brakeTriads (c.triadsOf p)).brakeState p [2]).fieldsSafe fun c n =>
      c.gf (.FLD_CFG n) FLD_CFG.OWNER == p && c.gb (.FLD_CFG n) FLD_CFG.EN) := by
  unfold brakePart brakeNoted brakeState
  simp only [hd, List.contains_eq_mem, hp, Bool.not_true, Bool.or_false, decide_false, Bool.false_eq_true, ↓reduceIte,
    List.mem_singleton]
  rfl

theorem brakePart_of_braked (h : p ∈ c.flt.partBrakes) : c.brakePart p = c := by
  unfold brakePart
  simp [h]

theorem brakePart_of_undefined (h : c.gb (.PRT_CFG p) PRT_CFG.DEFINED = false) : c.brakePart p = c := by
  unfold brakePart
  simp [h]

theorem fieldsSafe_brakeFrame (c : Chip) (q : Chip → Nat → Bool) : HaltFrame BrakeAddr c (c.fieldsSafe q) :=
  (fieldsSafe_haltFrame c q).mono fun _ ⟨n, ha⟩ => ha ▸ brakeAddr_fldStat n

/-- Setting a partition's brake changes the units it stops and the collector's own state. -/
theorem brakePart_haltFrame (hd : c.gb (.PRT_CFG p) PRT_CFG.DEFINED = true) (hp : p ∉ c.flt.partBrakes) (h : p < 64) :
    HaltFrame BrakeAddr (c.brakeNoted p) (c.brakePart p) := by
  rw [brakePart_eq hd hp]
  exact (((brakeTriads_haltFrame _ _).mono brakeAddr_of_haltAddr).trans (brakeState_haltFrame _ h _)).trans
    (fieldsSafe_brakeFrame _ _)

/-- The state of a partition's triad, and the partition's own, after its brake. -/
theorem brakePart_stops (hd : c.gb (.PRT_CFG p) PRT_CFG.DEFINED = true) (hp : p ∉ c.flt.partBrakes) (h : p < 64) :
    (∀ u ∈ c.triadsOf p, c.tstate u ∉ [0, 5, 6] → (c.brakePart p).tstate u = 5) ∧
      (c.pstate p = 2 → (c.brakePart p).pstate p = 3) := by
  rw [brakePart_eq hd hp]
  refine ⟨fun u hu runs => ?_, fun running => ?_⟩
  · have braked : ((c.brakeNoted p).brakeTriads (c.triadsOf p)).tstate u = 5 := brakeTriads_tstate _ hu runs
    rw [tstate_congr ((fieldsSafe_haltFrame _ _).rd _ fun ⟨n, he⟩ => fldStat_ne_tstate n u he.symm)]
    rcases brakeState_safer ((c.brakeNoted p).brakeTriads (c.triadsOf p)) h [2] u with same | safe
    · rw [same, braked]
    · exact safe
  · have kept : ((c.brakeNoted p).brakeTriads (c.triadsOf p)).pstate p = 2 := by
      rw [← running, pstate, (brakeTriads_haltFrame _ _).gf _ (by simp only [HaltAddr, BarAddr, RegName.addr]; omega)]
      rfl
    rw [pstate, (fieldsSafe_haltFrame _ _).gf _ (fun ⟨n, he⟩ => by simp only [RegName.addr] at he; omega), brakeState, kept,
      if_pos (List.mem_singleton.2 rfl)]
    exact gf_sf_same _ _ _ _ (by decide) (by decide)

theorem not_brakeAddr_path {n : Nat} (hn : n < 1024) :
    ¬ BrakeAddr (RegName.CHN_PATHCFG n).addr ∧ ¬ BrakeAddr (RegName.CHN_PATHAUX n).addr := by
  constructor <;> simp only [BrakeAddr, RegName.addr] <;> omega

/-- A partition's brake that is set: it is noted, the units have stopped, and no SAFE frame is left to build. -/
theorem brakePart_sets (hd : c.gb (.PRT_CFG p) PRT_CFG.DEFINED = true) (hp : p ∉ c.flt.partBrakes) (h : p < 64) :
    p ∈ (c.brakePart p).flt.partBrakes ∧ RegFrame BrakeAddr c (c.brakePart p) ∧ (c.brakePart p).chan = c.chan := by
  have halted := brakePart_haltFrame hd hp h
  refine ⟨?_, .trans (.flt c _) halted.toRegFrame, halted.chan⟩
  rw [halted.flt]
  exact List.mem_append_right _ (List.mem_singleton.2 rfl)

/-! ### Commands of software -/

theorem byWriter_of (off : c.off = false) {ag : Agent} {r : RegName} (may : c.mayWrite ag r = true) (f : Chip → Chip) :
    c.byWriter ag r f = f c := by simp [byWriter, off, may]

theorem byWriter_of_denied {ag : Agent} {r : RegName} (may : c.mayWrite ag r = false) (f : Chip → Chip) : c.byWriter ag r f = c := by
  simp [byWriter, may]

/-- A register of the collector that is written leaves no SAFE frame to send. -/
theorem NoSafeFrames.of_flt (still : NoSafeFrames c) (frame : RegFrame FltAddr c d) (chan : d.chan = c.chan) : NoSafeFrames d :=
  still.of_frame frame chan fun n hn => by
    constructor <;> simp only [FltAddr, RegName.addr] <;> omega

theorem tstate_of_flt (frame : RegFrame FltAddr c d) (t : Nat) : d.tstate t = c.tstate t :=
  frame.gf _ (by simp only [FltAddr, RegName.addr]; omega)

/-- What the device brake of a command shows: SAFE with its cause, and every unit at its safe state. -/
abbrev BrakeShown (c d : Chip) (cause : Nat) : Prop :=
  d.flt.deviceBrake = true ∧ d.gf .FLT_STATE FLT_STATE.STATE = 5 ∧ d.gf .FLT_STATE FLT_STATE.CAUSE = cause ∧
    d.gb .FLT_STATUS FLT_STATUS.SAFE = true ∧ d.mem = c.mem ∧ (∀ n : Nat, n < 64 → d.gb (.FLD_STAT n) FLD_STAT.SAFE = true) ∧
    ∀ t : Nat, t < 32 → c.tstate t ∉ [0, 5, 6] → d.tstate t = 5

theorem DeviceBraked.shown {u : Chip} {cause : Nat} (h : DeviceBraked u d cause) (frame : RegFrame FltAddr c u) :
    BrakeShown c d cause :=
  ⟨h.set, h.state, h.cause, h.safe, h.frame.mem.trans frame.mem, h.fields, fun t ht runs =>
    h.triads t ht (by rwa [tstate_of_flt frame])⟩

/-- The fault of `fatal` is noted before the brake is set. -/
def fatalNoted (c : Chip) (src : Nat) : Chip := (c.setSticky src 2).hostFault src 2

theorem fatalNoted_frame (c : Chip) (src : Nat) : RegFrame FltAddr c (c.fatalNoted src) :=
  .trans (.wr c _ (by decide)) (.of_eq rfl rfl)

/-- A fatal fault where no brake is set (R411). -/
theorem fatal_braked (still : NoSafeFrames c) (ho : c.off = false) (hb : c.flt.deviceBrake = false) {src : Nat} (hs : src < 20) :
    let d := (c.fatal now src).safeFlush now
    BrakeShown c d 1 ∧ d.stands src 2 ∧ (src, 2) ∈ d.host.faults := by
  have frame := c.fatalNoted_frame src
  have braked := ((c.fatalNoted src).brakeDevice_braked now (cause := 1) hb ho (by decide)).safeFlush (still.of_flt frame rfl) now
  refine ⟨braked.shown frame, braked.stands src 2 (c.stands_setSticky (by omega)), ?_⟩
  change (src, 2) ∈ (((c.fatalNoted src).brakeDevice now 1).safeFlush now).host.faults
  rw [braked.host]
  exact mem_addNew _ _

/-- `BRAKE_REQ_N` marks the external brake beside setting it (R420). -/
theorem brakeReq_braked (still : NoSafeFrames c) (ho : c.off = false) (hb : c.flt.deviceBrake = false) :
    let d := ((c.sf .FLT_STATUS FLT_STATUS.EXTBRAKE 1).brakeDevice now 2).safeFlush now
    BrakeShown c d 2 ∧ d.gb .FLT_STATUS FLT_STATUS.EXTBRAKE = true := by
  have frame : RegFrame FltAddr c (c.sf .FLT_STATUS FLT_STATUS.EXTBRAKE 1) := .sf c _ _ (by decide)
  have still' := still.of_flt frame (sf_chan _ _ _ _)
  have marked : (c.sf .FLT_STATUS FLT_STATUS.EXTBRAKE 1).gb .FLT_STATUS FLT_STATUS.EXTBRAKE = true := gb_sf_one _ _ rfl (by decide)
  rw [← sf_flt c .FLT_STATUS FLT_STATUS.EXTBRAKE 1] at hb
  rw [← sf_off c .FLT_STATUS FLT_STATUS.EXTBRAKE 1] at ho
  generalize c.sf .FLT_STATUS FLT_STATUS.EXTBRAKE 1 = u at *
  have braked := (u.brakeDevice_braked now (cause := 2) hb ho (by decide)).safeFlush still' now
  exact ⟨braked.shown frame, (gb_bit _ _ 60).trans (braked.stands 20 0 ((gb_bit u _ 60).symm.trans marked))⟩

/-- `FLT_BRAKE.PARTB` names the partition and sets its brake (R412, R415). -/
theorem partb_brakes (still : NoSafeFrames c) (h : p < 64) (hd : c.gb (.PRT_CFG p) PRT_CFG.DEFINED = true)
    (hp : p ∉ c.flt.partBrakes) :
    let d := ((c.sf .FLT_BRAKE FLT_BRAKE.PART p).brakePart p).safeFlush now
    p ∈ d.flt.partBrakes ∧ d.gf .FLT_BRAKE FLT_BRAKE.PART = p ∧ (c.pstate p = 2 → d.pstate p = 3) ∧
      (∀ u ∈ c.triadsOf p, c.tstate u ∉ [0, 5, 6] → d.tstate u = 5) ∧ d.mem = c.mem := by
  have frame : RegFrame FltAddr c (c.sf .FLT_BRAKE FLT_BRAKE.PART p) := .sf c _ _ (by decide)
  have named : (c.sf .FLT_BRAKE FLT_BRAKE.PART p).gf .FLT_BRAKE FLT_BRAKE.PART = p := by
    rw [gf_sf_same _ _ _ _ (by decide) (by decide)]
    exact Nat.mod_eq_of_lt h
  have still' : NoSafeFrames (c.sf .FLT_BRAKE FLT_BRAKE.PART p) := still.of_flt frame (sf_chan _ _ _ _)
  have outside : ∀ {r : RegName}, ¬ FltAddr r.addr → (c.sf .FLT_BRAKE FLT_BRAKE.PART p).rd r = c.rd r := frame.rd _
  have cfg : (c.sf .FLT_BRAKE FLT_BRAKE.PART p).rd (.PRT_CFG p) = c.rd (.PRT_CFG p) :=
    outside (by simp only [FltAddr, RegName.addr]; omega)
  have state : (c.sf .FLT_BRAKE FLT_BRAKE.PART p).pstate p = c.pstate p :=
    frame.gf _ (by simp only [FltAddr, RegName.addr]; omega)
  have triads : (c.sf .FLT_BRAKE FLT_BRAKE.PART p).triadsOf p = c.triadsOf p := by simp only [triadsOf, gf_eq, cfg]
  rw [← gb_congr cfg] at hd
  generalize hu : c.sf .FLT_BRAKE FLT_BRAKE.PART p = u at frame named still' cfg state triads hd ⊢
  have free : p ∉ u.flt.partBrakes := by rw [← hu]; rwa [sf_flt]
  obtain ⟨noted, braked, chan⟩ := brakePart_sets hd free h
  obtain ⟨stopped, left_⟩ := brakePart_stops hd free h
  rw [safeFlush_eq (still'.of_frame braked chan fun n => not_brakeAddr_path)]
  refine ⟨noted, ?_, fun running => left_ (state.trans running), fun t ht runs => ?_, braked.mem.trans frame.mem⟩
  · exact (braked.gf _ (by decide)).trans named
  · exact stopped t (by rwa [triads]) (by rwa [tstate_of_flt frame])

/-- `FLT_BRAKE.TRIADB` names the triad and brakes it where it runs (R412, R415). -/
theorem triadb_brakes {t : Nat} (ht : t < 32) (runs : c.tstate t ∉ [0, 5, 6]) :
    let d := (c.sf .FLT_BRAKE FLT_BRAKE.TRIAD t).brakeTriad t
    d.tstate t = 5 ∧ (d.triad t).braked = true ∧ d.gf .FLT_BRAKE FLT_BRAKE.TRIAD = t ∧ d.mem = c.mem ∧
      ∀ u : Nat, u ≠ t → u < 32 → d.tstate u = c.tstate u := by
  have frame : RegFrame FltAddr c (c.sf .FLT_BRAKE FLT_BRAKE.TRIAD t) := .sf c _ _ (by decide)
  have named : (c.sf .FLT_BRAKE FLT_BRAKE.TRIAD t).gf .FLT_BRAKE FLT_BRAKE.TRIAD = t := by
    rw [gf_sf_same _ _ _ _ (by decide) (by decide)]
    exact Nat.mod_eq_of_lt ht
  rw [← tstate_of_flt frame] at runs
  generalize c.sf .FLT_BRAKE FLT_BRAKE.TRIAD t = u at frame named runs ⊢
  have braked := u.brakeTriad_haltFrame t
  refine ⟨brakeTriad_tstate_same runs, brakeTriad_braked runs, ?_, braked.mem.trans frame.mem, fun v hv _ => ?_⟩
  · rw [braked.gf _ (fun h => absurd (triadBrakeAddr_haltAddr t _ h) (by decide)), named]
  · rw [u.brakeTriad_tstate_other hv, tstate_of_flt frame]

theorem triadb_of_left {t : Nat} (ht : t < 32) (left_ : c.tstate t ∈ [0, 5, 6]) :
    let d := (c.sf .FLT_BRAKE FLT_BRAKE.TRIAD t).brakeTriad t
    d.gf .FLT_BRAKE FLT_BRAKE.TRIAD = t ∧ OnlyRegs c d [.FLT_BRAKE] := by
  have frame : RegFrame FltAddr c (c.sf .FLT_BRAKE FLT_BRAKE.TRIAD t) := .sf c _ _ (by decide)
  rw [← tstate_of_flt frame] at left_
  simp only [brakeTriad_of_left left_]
  rw [gf_sf_same _ _ _ _ (by decide) (by decide)]
  exact ⟨Nat.mod_eq_of_lt ht, .sf c _ _ (by simp)⟩

/-! ### What the clears show -/

theorem attrWrite_shows {s : Nat} (h : c.Early now) (hs : s < 20) (ag : Agent) (v : DWord) :
    let d := c.attrWrite now ag s v
    let mask := attrMask ag v
    (∀ q : Nat, q < 64 → d.attributed s q = (c.attributed s q && !mask.getLsbD q)) ∧
      ((∃ q : Nat, q < 64 ∧ mask.getLsbD q = true ∧ c.attributed s q = true) →
        (d.stands s 1 ↔ c.stands s 1 ∧ ∃ q : Nat, q < 65 ∧ d.attributed s q = true)) ∧ SameCore c d := by
  intro d mask
  obtain ⟨cleared, settled⟩ := attrWrite_cleared h hs ag v
  refine ⟨fun q hq => ?_, fun ⟨q, hq, named, had⟩ => (settled s hs).trans (and_congr_right fun _ => ?_), cleared.sameCore⟩
  · rw [Bool.eq_iff_iff, cleared.attr s hs q]
    simp [hq, mask]
  · have dropped : ∃ k, (s = s ∧ k < 64 ∧ mask.getLsbD k = true) ∧ c.attributed s k = true := ⟨q, ⟨rfl, hq, named⟩, had⟩
    exact ⟨fun left_ => left_.elim (fun ⟨k, hk⟩ => ⟨k, attributed_lt hk, hk⟩) (absurd dropped), fun ⟨k, _, hk⟩ => .inl ⟨k, hk⟩⟩

theorem mattrWrite_shows (h : c.Early now) (v : DWord) :
    let d := c.mattrWrite now v
    (∀ u : Nat, u < 20 → d.attributed u 64 = (c.attributed u 64 && !v.getLsbD u)) ∧ SameCore c d := by
  have cleared := mattrWrite_cleared h v
  refine ⟨fun u hu => ?_, cleared.sameCore⟩
  rw [Bool.eq_iff_iff, cleared.attr u hu 64]
  simp [hu]

/-- A read by the manager clears RECOVERED alone (R405). -/
theorem statusRead_clears (c : Chip) :
    let d := c.statusRead .manager
    d.gb .FLT_STATUS FLT_STATUS.RECOVERED = false ∧ OnlyRegs c d [.FLT_STATUS] ∧
      ∀ f ∈ [FLT_STATUS.SAFE, FLT_STATUS.FALLBACK, FLT_STATUS.EXTBRAKE, FLT_STATUS.SRC],
        d.gf .FLT_STATUS f = c.gf .FLT_STATUS f := by
  simp only [statusRead, if_pos]
  refine ⟨gb_sf_zero _ _ (by decide) (by decide), .sf c _ _ (by simp), fun f hf => ?_⟩
  have apart : ∀ f ∈ [FLT_STATUS.SAFE, FLT_STATUS.FALLBACK, FLT_STATUS.EXTBRAKE, FLT_STATUS.SRC],
      f.hi < FLT_STATUS.RECOVERED.lo ∨ FLT_STATUS.RECOVERED.hi < f.lo := by decide
  exact gf_sf_field c _ _ _ _ (by decide) (by decide) (apart f hf)

end Chip

/-! ### The commands -/

theorem exec_fatalFault (src : Fin 20) : exec (.fatalFault src) s =
    .next { s with chip := if s.chip.off then s.chip else (s.chip.fatal s.now.toNat src).safeFlush s.now.toNat } := rfl

theorem exec_brakeReq : exec .brakeReq s = .next { s with chip := if s.chip.off then s.chip else
    ((s.chip.sf .FLT_STATUS FLT_STATUS.EXTBRAKE 1).brakeDevice s.now.toNat 2).safeFlush s.now.toNat } := rfl

theorem exec_deviceBrake (ag : Agent) : exec (.deviceBrake ag) s = .next { s with
    chip := s.chip.byWriter ag .FLT_BRAKE fun c => (c.brakeDevice s.now.toNat 5).safeFlush s.now.toNat } := rfl

theorem exec_partb (ag : Agent) (p : BitVec 6) : exec (.partb ag p) s = .next { s with
    chip := s.chip.byWriter ag .FLT_BRAKE fun c =>
      ((c.sf .FLT_BRAKE FLT_BRAKE.PART p.toNat).brakePart p.toNat).safeFlush s.now.toNat } := rfl

theorem exec_triadb (ag : Agent) (t : Fin 32) : exec (.triadb ag t) s = .next { s with
    chip := s.chip.byWriter ag .FLT_BRAKE fun c => (c.sf .FLT_BRAKE FLT_BRAKE.TRIAD t).brakeTriad t } := rfl

theorem exec_fltAttrWrite (ag : Agent) (src : Fin 20) (v : BitVec 64) : exec (.fltAttrWrite ag src v) s = .next { s with
    chip := s.chip.byWriter ag (.FLT_ATTR src) fun c => c.attrWrite s.now.toNat ag src v } := rfl

theorem exec_fltMattrWrite (ag : Agent) (v : BitVec 64) : exec (.fltMattrWrite ag v) s = .next { s with
    chip := s.chip.byWriter ag .FLT_MATTR fun c => c.mattrWrite s.now.toNat v } := rfl

theorem exec_fltStatusWrite (ag : Agent) (v : BitVec 64) : exec (.fltStatusWrite ag v) s = .next { s with
    chip := s.chip.byWriter ag .FLT_STATUS fun c => c.statusWrite s.now.toNat v } := rfl

theorem exec_fltStatusRead (ag : Agent) : exec (.fltStatusRead ag) s = .next { s with chip := s.chip.statusRead ag } := rfl

end Sys2Proof.Machine

open Sys2Proof Sys2Proof.Machine

/-- Settles O49: the device brake and the brakes of partitions and triads by their laws, and the clears by the fold over the
attributions that a write names; what the writer may not do changes nothing (log 3), and only the manager's read clears
RECOVERED (log 52). -/
theorem brakesAndClears : Obligations.BrakesAndClears := by
  unfold Obligations.BrakesAndClears
  intro s src ag pp t v c now still runs braked p early mask b
  have denied : ∀ {r : RegName}, c.mayWrite ag r = false → ∀ f, c.byWriter ag r f = c := Chip.byWriter_of_denied
  refine ⟨fun ⟨waits, paths, off⟩ free => ⟨?fatal, fun may => ?device, ?request⟩, fun off => ⟨?fatalOff, ?requestOff⟩,
    fun ⟨waits, paths, off⟩ may hd hp => ?partition, fun off may => ⟨fun run => ?triad, fun left_ => ?triadLeft⟩,
    fun no => ⟨?device', ?partition', ?triad'⟩, fun off may early => ?attr, fun off may early => ?mattr,
    fun off may early => ?status, fun no => ?attr', fun no => ?mattr', fun no => ?status', ?read, ?readOther⟩
  case fatal =>
    exact ⟨_, exec_fatalFault src, by rw [off]; exact Chip.fatal_braked ⟨waits, paths⟩ off free src.isLt⟩
  case device =>
    have shown := ((c.brakeDevice_braked now (cause := 5) free off (by decide)).safeFlush ⟨waits, paths⟩ now).shown (.refl _ c)
    exact ⟨_, exec_deviceBrake ag, by rw [Chip.byWriter_of off may]; exact shown⟩
  case request => exact ⟨_, exec_brakeReq, by rw [off]; exact Chip.brakeReq_braked ⟨waits, paths⟩ off free⟩
  case fatalOff => rw [exec_fatalFault, if_pos off]
  case requestOff => rw [exec_brakeReq, if_pos off]
  case partition =>
    exact ⟨_, exec_partb ag pp, by rw [Chip.byWriter_of off may]; exact Chip.partb_brakes ⟨waits, paths⟩ pp.isLt hd hp⟩
  case triad => exact ⟨_, exec_triadb ag t, by rw [Chip.byWriter_of off may]; exact Chip.triadb_brakes t.isLt run⟩
  case triadLeft =>
    exact ⟨_, exec_triadb ag t, by rw [Chip.byWriter_of off may]; exact Chip.triadb_of_left t.isLt (not_not.1 left_)⟩
  case device' => rw [exec_deviceBrake, denied no]
  case partition' => rw [exec_partb, denied no]
  case triad' => rw [exec_triadb, denied no]
  case attr => exact ⟨_, exec_fltAttrWrite ag src v, by rw [Chip.byWriter_of off may]; exact Chip.attrWrite_shows early src.isLt ag v⟩
  case mattr => exact ⟨_, exec_fltMattrWrite ag v, by rw [Chip.byWriter_of off may]; exact Chip.mattrWrite_shows early v⟩
  case status =>
    obtain ⟨value, ended, same⟩ := Chip.statusWrite_clears early v
    refine ⟨_, exec_fltStatusWrite ag v, ?_⟩
    rw [Chip.byWriter_of off may]
    exact ⟨value, fun named q _ => ended src src.isLt named q, same⟩
  case attr' => rw [exec_fltAttrWrite, denied no]
  case mattr' => rw [exec_fltMattrWrite, denied no]
  case status' => rw [exec_fltStatusWrite, denied no]
  case read =>
    rintro rfl
    exact ⟨_, exec_fltStatusRead _, c.statusRead_clears⟩
  case readOther =>
    intro other
    rw [exec_fltStatusRead, Chip.statusRead, if_neg other]
end

section
/-! A contained fault in detail (R408): its marks, its notice to the host, and what it does to the collector's state and timers. -/
namespace Sys2Proof.Machine.Chip
variable {c d : Chip} {now src k : Nat} {who triad : Option Nat}

/-! ### The marks -/

/-- A register with one bit set. -/
def markBit (c : Chip) (r : RegName) (b : Nat) : Chip := c.wr r (BitVec.ofNat 64 (setBit (c.rd r).toNat b))

theorem testBit_markBit (c : Chip) (r : RegName) (b j : Nat) :
    ((c.markBit r b).rd r).toNat.testBit j = ((c.rd r).toNat.testBit j || decide (b = j ∧ j < 64)) := by
  rw [markBit, rd_wr_same, toNat_setBit_testBit]

theorem setAttr_eq (c : Chip) (src k : Nat) : c.setAttr src k = c.markBit (attrReg src k) (attrBit src k) := by
  unfold setAttr attrReg attrBit markBit
  split <;> rfl

/-- The registers that the marks of a contained fault write. -/
abbrev MarkAddr (src k a : Nat) : Prop :=
  a = RegName.FLT_STATUS.addr ∨ a = (attrReg src k).addr ∨ a = RegName.FLT_TATTR.addr

theorem containedMark_frame (c : Chip) (src k : Nat) (triad : Option Nat) :
    RegFrame (MarkAddr src k) c (c.containedMark src k triad) := by
  have marked : RegFrame (MarkAddr src k) c ((c.setSticky src 1).setAttr src k) := by
    rw [setAttr_eq]
    exact .trans (.wr c _ (.inl rfl)) (.wr _ _ (.inr (.inl rfl)))
  unfold containedMark
  split
  · split
    · exact marked.trans (.wr _ _ (.inr (.inr rfl)))
    · exact marked
  · exact marked

/-- The attribution stands after the marks, and the bit of a triad that reports in its cluster's source. -/
theorem containedMark_attributed (c : Chip) {src : Nat} (hs : src < 20) (hk : k < 65) (triad : Option Nat) :
    (c.containedMark src k triad).attributed src k = true := by
  have low : attrBit src k < 64 := by
    unfold attrBit
    split <;> omega
  have marked : ((c.setSticky src 1).setAttr src k).attributed src k = true := by
    rw [attributed_eq, setAttr_eq, testBit_markBit]
    simp [low]
  unfold containedMark
  split
  · split
    · exact (attributed_congr (rd_wr_other _ _ (by simpa using attrReg_not_tattr hs k))).trans marked
    · exact marked
  · exact marked

theorem containedMark_tattr (c : Chip) {t : Nat} (hs : src ≤ 7) (ht : t < 64) :
    ((c.containedMark src k (some t)).rd .FLT_TATTR).toNat.testBit t = true := by
  have marked : c.containedMark src k (some t) = ((c.setSticky src 1).setAttr src k).markBit .FLT_TATTR t := by
    simp only [containedMark, if_pos hs]
    rfl
  rw [marked, testBit_markBit]
  simp [ht]

/-! ### The collector's state -/

/-- Step 4 of R408 writes `FLT_STATE` alone. -/
theorem containedState_only (c : Chip) (now src k : Nat) (had : Bool) :
    let d := c.containedState now src k had
    RegFrame (· = RegName.FLT_STATE.addr) c d ∧ d.host = c.host ∧ d.lanes = c.lanes := by
  obtain ⟨f, h | h⟩ := c.containedState_eq now src k had
  · rw [h]; exact ⟨.flt c f, rfl, rfl⟩
  · rw [h]; exact ⟨.trans (.flt c f) (.sf _ _ _ rfl), sf_host _ _ _ _, sf_lanes _ _ _ _⟩

/-- No grace timer of a corrected fault is touched. -/
theorem containedState_grace0 (c : Chip) (now src k : Nat) (had : Bool) :
    (c.containedState now src k had).flt.grace0 = c.flt.grace0 := by
  have graced : ((if had then c else c.startGrace now src k).quiet now).flt.grace0 = c.flt.grace0 := by
    cases had
    · change (c.startGrace now src k).flt.grace0 = _
      unfold startGrace
      split <;> rfl
    · rfl
  unfold containedState
  simp only []
  split
  · rfl
  · split
    · rw [sf_flt, graced]
    · exact graced

/-- From RUN the state becomes FAULT, the quiet period starts over, and a new attribution has a grace timer. -/
theorem containedState_of_run (now src k : Nat) (had : Bool) (run : c.gf .FLT_STATE FLT_STATE.STATE = 3) :
    let d := c.containedState now src k had
    d.gf .FLT_STATE FLT_STATE.STATE = 4 ∧ d.flt.quietFrom = now ∧ (had = false → c.standby = false →
      (src, k, now + 1000 * c.gf (.FLT_POLICY src) FLT_POLICY.GRACE1) ∈ d.flt.grace1) := by
  have faulted : c.containedState now src k had =
      ((if had then c else c.startGrace now src k).quiet now).sf .FLT_STATE FLT_STATE.STATE 4 := by
    unfold containedState
    simp [run]
  rw [faulted]
  refine ⟨gf_sf_same _ _ _ _ (by decide) (by decide), by rw [sf_flt]; rfl, fun new active => ?_⟩
  rw [sf_flt, new, startGrace, active]
  exact List.mem_append_right _ (List.mem_singleton.2 rfl)

/-! ### The report -/

theorem containedMark_leat (c : Chip) (l : List LeatMsg) (src k : Nat) (triad : Option Nat) :
    ({ c with leat := l } : Chip).containedMark src k triad = { c.containedMark src k triad with leat := l } := by
  have marked : (({ c with leat := l } : Chip).setSticky src 1).setAttr src k =
      { (c.setSticky src 1).setAttr src k with leat := l } := by
    rw [setAttr_eq, setAttr_eq]
    rfl
  unfold containedMark
  rw [marked]
  split
  · split
    · rfl
    · rfl
  · rfl

/-- What the marks and notices of a contained fault leave, before the collector's state follows. -/
structure Marked (c d : Chip) (src k : Nat) (triad : Option Nat) : Prop where
  regs : d.regs = (c.containedMark src k triad).regs
  mem : d.mem = c.mem
  lanes : d.lanes = c.lanes
  flt : d.flt = c.flt
  pair : d.pair = c.pair
  host : (src, 1) ∈ d.host.faults

theorem contained_marked (c : Chip) (now src : Nat) (who triad : Option Nat) :
    ∃ d : Chip, Marked c d src (c.attrKey who) triad ∧ c.contained now src who triad =
      d.containedState now src (c.attrKey who) (c.attributed src (c.attrKey who)) := by
  have told : ∃ l, (if c.standby then c.leatPut (.pfault src 1) else c) = { c with leat := l } := by
    cases c.standby
    · exact ⟨_, rfl⟩
    · exact ⟨_, rfl⟩
  obtain ⟨l, hl⟩ := told
  unfold contained
  simp only [hl, containedMark_leat]
  generalize c.attrKey who = k
  have rest := c.containedMark_rest src k triad
  obtain ⟨p, x, noticed⟩ := ({ c.containedMark src k triad with leat := l } : Chip).containedNotify_eq src k
  rw [noticed]
  have mem : (c.containedMark src k triad).mem = c.mem := by rw [rest]
  have lanes : (c.containedMark src k triad).lanes = c.lanes := by rw [rest]
  have flt : (c.containedMark src k triad).flt = c.flt := by rw [rest]
  have pair : (c.containedMark src k triad).pair = c.pair := by rw [rest]
  exact ⟨({ c.containedMark src k triad with leat := l, ports := p, triads := x } : Chip).hostFault src 1,
    ⟨rfl, mem, lanes, flt, pair, mem_addNew _ _⟩, rfl⟩

/-! ### What a contained fault shows -/

theorem attrKey_lt (c : Chip) {who : Option Nat} (h : ∀ p, who = some p → p < 64) : c.attrKey who < 65 := by
  unfold attrKey
  split
  · have := h _ rfl
    split <;> omega
  · decide

theorem Marked.frame (h : Marked c d src k triad) : RegFrame (MarkAddr src k) c d :=
  ⟨h.mem, fun r hr => (rd_of_regs_eq h.regs r).trans ((c.containedMark_frame src k triad).rd r hr)⟩

/-- The collector's state after the marks: `FLT_STATE` alone is written, so each mark stands. -/
theorem contained_shows (c : Chip) (now : Nat) {src : Nat} (hs : src < 20) (h : ∀ p, who = some p → p < 64) :
    let d := c.contained now src who triad
    d.attributed src (c.attrKey who) = true ∧ (src, 1) ∈ d.host.faults ∧ d.lanes = c.lanes ∧ d.flt.grace0 = c.flt.grace0 ∧
      ∀ t < 64, src ≤ 7 → triad = some t → (d.rd .FLT_TATTR).toNat.testBit t = true := by
  obtain ⟨m, marked, shown⟩ := c.contained_marked now src who triad
  obtain ⟨state, host, lanes⟩ := m.containedState_only now src (c.attrKey who) (c.attributed src (c.attrKey who))
  have timers := m.containedState_grace0 now src (c.attrKey who) (c.attributed src (c.attrKey who))
  intro d
  change d = _ at shown
  rw [← shown] at state host lanes timers
  refine ⟨?_, by rw [host]; exact marked.host, lanes.trans marked.lanes, by rw [timers, marked.flt], fun t ht hs ho => ?_⟩
  · rw [attributed_congr (state.rd _ (attrReg_ne hs _ (.inl (by decide)))), attributed_congr (rd_of_regs_eq marked.regs _)]
    exact c.containedMark_attributed hs (c.attrKey_lt h) triad
  · rw [state.rd _ (by decide), rd_of_regs_eq marked.regs, ho]
    exact c.containedMark_tattr hs ht

theorem not_markAddr_state (src k : Nat) (hs : src < 20) : ¬ MarkAddr src k RegName.FLT_STATE.addr := by
  rintro (h | h | h)
  · exact absurd h (by decide)
  · exact attrReg_ne hs k (r := .FLT_STATE) (.inl (by decide)) h.symm
  · exact absurd h (by decide)

theorem not_markAddr_policy (src k : Nat) (hs : src < 20) : ¬ MarkAddr src k (RegName.FLT_POLICY src).addr := by
  rintro (h | h | h)
  · simp only [RegName.addr] at h; omega
  · unfold attrReg at h
    split at h
    · simp only [RegName.addr] at h; omega
    · simp only [RegName.addr] at h; omega
  · simp only [RegName.addr] at h; omega

theorem standby_congr (rd : d.rd .PAR_STAT = c.rd .PAR_STAT) (pair : d.pair = c.pair) : d.standby = c.standby := by
  unfold standby pairState
  rw [gf_eq, rd, ← gf_eq, pair]

theorem markAddr_fltAddr (hs : src < 20) {a : Nat} : MarkAddr src k a → FltAddr a := by
  have := attrReg_addr hs k
  rintro (rfl | rfl | rfl)
  · decide
  · simp only [FltAddr]; omega
  · decide

/-- In RUN a contained fault makes FAULT, restarts the quiet period and starts the timer of a new attribution. -/
theorem contained_in_run (hs : src < 20) (run : c.gf .FLT_STATE FLT_STATE.STATE = 3) (who triad : Option Nat) :
    let d := c.contained now src who triad
    let k := c.attrKey who
    d.gf .FLT_STATE FLT_STATE.STATE = 4 ∧ d.flt.quietFrom = now ∧ (c.attributed src k = false → c.standby = false →
      (src, k, now + 1000 * c.gf (.FLT_POLICY src) FLT_POLICY.GRACE1) ∈ d.flt.grace1) := by
  obtain ⟨m, marked, shown⟩ := c.contained_marked now src who triad
  have state : m.gf .FLT_STATE FLT_STATE.STATE = 3 := (marked.frame.gf _ (not_markAddr_state src _ hs)).trans run
  have policy := marked.frame.gf FLT_POLICY.GRACE1 (not_markAddr_policy src (c.attrKey who) hs)
  have active : m.standby = c.standby := standby_congr (marked.frame.rd _ fun h => absurd (markAddr_fltAddr hs h) (by decide)) marked.pair
  have faulted := containedState_of_run now src (c.attrKey who) (c.attributed src (c.attrKey who)) state
  rw [← shown, policy, active] at faulted
  exact faulted

end Sys2Proof.Machine.Chip
end

section
/-! The commands of fault reports, grace timers and the quiet period (R402, R407 to R410, R414, R416, R417). -/
namespace Sys2Proof.Machine
variable {s : State}

namespace Chip
variable {c d e : Chip} {now src k p : Nat}

/-! ### Corrected faults (R407) -/

theorem corrected_shows (c : Chip) (now : Nat) {src : Nat} (hs : src < 20) :
    let d := c.corrected now src
    d.stands src 0 ∧ RegsBut c d [.FLT_STATUS] ∧ SameCore c d ∧ (c.sticky src 0 = false →
      c.gf (.FLT_POLICY src) FLT_POLICY.GRACE0 ≠ 0 → c.standby = false →
        d.flt.grace0 = c.flt.grace0 ++ [(src, now + 1000 * c.gf (.FLT_POLICY src) FLT_POLICY.GRACE0)]) := by
  refine ⟨c.corrected_stands now (by omega), fun r hr => ?_, c.corrected_sameCore now src, fun new timed active => ?_⟩
  · obtain ⟨f, h⟩ := c.corrected_eq now src
    rw [h]
    exact c.rd_wr_other _ (by simpa using hr)
  · have same : (c.setSticky src 0).standby = c.standby := standby_congr (c.rd_wr_other _ (by decide)) rfl
    have timer : (!c.sticky src 0 && c.gf (.FLT_POLICY src) FLT_POLICY.GRACE0 != 0 && !(c.setSticky src 0).standby) = true := by
      simp [new, timed, same, active]
    simp only [corrected, if_pos timer]
    rfl

/-! ### Ends of grace timers (R407, R410) -/

/-- The timers of corrected faults without `e`. -/
def dropGrace0 (c : Chip) (e : Nat × Nat) : Chip := c.modFlt fun f => { f with grace0 := f.grace0.erase e }

theorem grace0End_eq (c : Chip) (now src : Nat) {e : Nat × Nat} (one : c.flt.grace0 = [e]) :
    c.grace0End now src = if e.1 = src ∧ e.2 ≤ now then
      (if c.sticky src 0 then (c.dropGrace0 e).contained now src none none else c.dropGrace0 e) else c := by
  unfold grace0End
  rw [one]
  by_cases h : e.1 = src ∧ e.2 ≤ now
  · simp only [List.find?_cons, h, beq_self_eq_true, decide_true, Bool.and_self]
    rfl
  · have : (e.1 == src && decide (e.2 ≤ now)) = false := by simpa using h
    simp [this, h]

theorem grace0End_shows (now : Nat) {e : Nat × Nat} (one : c.flt.grace0 = [e]) (hs : src < 20) (he : e.1 = src) (over_ : e.2 ≤ now) :
    let d := c.grace0End now src
    d.flt.grace0 = [] ∧ d.mem = c.mem ∧ (c.sticky src 0 = true → d.stands src 1 ∧ d.attributed src 64 = true) ∧
      (c.sticky src 0 = false → d.regs = c.regs) := by
  have none_ : (c.dropGrace0 e).flt.grace0 = [] := by
    change c.flt.grace0.erase e = []
    rw [one]
    simp
  rw [grace0End_eq c now src one, if_pos ⟨he, over_⟩]
  cases c.sticky src 0 with
  | true =>
    obtain ⟨attributed, -, -, timers, -⟩ := (c.dropGrace0 e).contained_shows now (who := none) (triad := none) hs (by simp)
    have frame := (c.dropGrace0 e).contained_unitFrame now hs none none
    exact ⟨timers.trans none_, frame.mem, fun _ => ⟨contained_stands _ now hs none none, attributed⟩, by simp⟩
  | false => exact ⟨none_, rfl, by simp, fun _ => rfl⟩

/-! ### Escalation (R410) -/

/-- The addresses of the collector and of the units that a brake stops. -/
abbrev StopAddr (a : Nat) : Prop := FltAddr a ∨ BrakeAddr a

/-- What the end of a grace timer sets stops units and shows in the collector; the paths are as they were. -/
structure Stopped (c d : Chip) : Prop where
  frame : RegFrame StopAddr c d
  chan : d.chan = c.chan

theorem Stopped.refl (c : Chip) : Stopped c c := ⟨.refl _ c, rfl⟩

theorem Stopped.noSafeFrames (h : Stopped c d) (still : NoSafeFrames c) : NoSafeFrames d :=
  still.of_frame h.frame h.chan fun n hn => by
    constructor <;> simp only [StopAddr, FltAddr, BrakeAddr, RegName.addr] <;> omega

theorem brakeDevice_of_braked (h : c.flt.deviceBrake = true) (now cause : Nat) : c.brakeDevice now cause = c := by
  simp [brakeDevice, h]

/-- After a demand of the device brake it is set, if not by this demand. -/
theorem brakeDevice_stopped (c : Chip) (now : Nat) (ho : c.off = false) {cause : Nat} (hc : cause < 256) :
    Stopped c (c.brakeDevice now cause) ∧ (c.brakeDevice now cause).flt.deviceBrake = true := by
  cases hb : c.flt.deviceBrake with
  | true =>
    rw [brakeDevice_of_braked hb]
    exact ⟨.refl c, hb⟩
  | false =>
    have braked := c.brakeDevice_braked now hb ho hc
    exact ⟨⟨braked.frame, braked.chan⟩, braked.set⟩

theorem brakePart_stopped (c : Chip) (h : p < 64) :
    Stopped c (c.brakePart p) ∧ (c.gb (.PRT_CFG p) PRT_CFG.DEFINED = true → p ∈ (c.brakePart p).flt.partBrakes) := by
  by_cases hp : p ∈ c.flt.partBrakes
  · rw [brakePart_of_braked hp]
    exact ⟨.refl c, fun _ => hp⟩
  · cases hd : c.gb (.PRT_CFG p) PRT_CFG.DEFINED with
    | false =>
      rw [brakePart_of_undefined hd]
      exact ⟨.refl c, by simp⟩
    | true =>
      obtain ⟨noted, frame, chan⟩ := brakePart_sets hd hp h
      exact ⟨⟨frame.mono fun _ => .inr, chan⟩, fun _ => noted⟩

theorem brakeTriads_stopped' (c : Chip) (l : List Nat) : Stopped c (c.brakeTriads l) :=
  have halted := c.brakeTriads_haltFrame l
  ⟨halted.toRegFrame.mono fun a ha => .inr (brakeAddr_of_haltAddr a ha), halted.chan⟩

/-- What a partition's ESC demands, for each of its values. -/
theorem escalateTo_part (c : Chip) (now src : Nat) (h : p < 64) (ho : c.off = false) :
    let d := c.escalateTo now src p
    let esc := c.gf (.FLT_POLICY src) FLT_POLICY.ESC
    Stopped c d ∧ (esc = 0 → c.gb (.PRT_CFG p) PRT_CFG.DEFINED = true → p ∈ d.flt.partBrakes) ∧
      (esc = 1 → ∀ t ∈ c.triadsOf p, (c.rd .FLT_TATTR).getLsbD t = true → c.tstate t ∉ [0, 6] → d.tstate t = 5) ∧
      (1 < esc → d.flt.deviceBrake = true) := by
  intro d esc
  change Stopped c (c.escalateTo now src p) ∧ (_ → _ → p ∈ (c.escalateTo now src p).flt.partBrakes) ∧
    (_ → ∀ t ∈ c.triadsOf p, _ → _ → (c.escalateTo now src p).tstate t = 5) ∧
    (_ → (c.escalateTo now src p).flt.deviceBrake = true)
  unfold escalateTo
  rw [if_neg (by omega : ¬ p = 64)]
  split
  case h_1 zero =>
    obtain ⟨stopped, noted⟩ := c.brakePart_stopped h
    exact ⟨stopped, fun _ => noted, fun one => by omega, fun more => by omega⟩
  case h_2 one =>
    refine ⟨c.brakeTriads_stopped' _, fun zero => by omega, fun _ t ht hb left_ => ?_, fun more => by omega⟩
    have named : t ∈ (c.triadsOf p).filter fun t => (c.rd .FLT_TATTR).getLsbD t := List.mem_filter.2 ⟨ht, hb⟩
    have after := c.brakeTriads_stopped named
    rcases c.brakeTriads_safer ((c.triadsOf p).filter fun t => (c.rd .FLT_TATTR).getLsbD t) t with same | safe
    · rw [same] at after
      have : c.tstate t = 5 := by simp at left_ after; omega
      exact same.trans this
    · exact safe
  case h_3 other other' =>
    obtain ⟨stopped, set_⟩ := c.brakeDevice_stopped now ho (cause := 4) (by decide)
    exact ⟨stopped, fun zero => absurd zero other, fun one => absurd one other', fun _ => set_⟩

/-- The registers of attributions. -/
abbrev AttrAddr (a : Nat) : Prop := 0xF000010030 ≤ a ∧ a < 0xF0000102A0

theorem endAttr_frame (c : Chip) {s : Nat} (hs : s < 20) (k : Nat) : RegFrame AttrAddr c (c.endAttr s k) := by
  obtain ⟨rest, tattr⟩ := foldl_clearBit_tattr ((c.stopTimer s k).attrTriads s k) (c.stopTimer s k)
  have range := attrReg_addr hs k
  rw [endAttr_eq]
  refine .trans (d := c.stopTimer s k) (.flt c _) (.trans ⟨by rw [rest], fun r hr => tattr r ?_⟩ (.wr _ _ (by
    simp only [AttrAddr]; omega)))
  rw [List.map_cons, List.map_nil, List.mem_singleton]
  rintro he
  rw [he] at hr
  exact absurd hr (by decide)

/-- The attribution whose timer has ended is gone, and the quiet period starts over. -/
abbrev Ended (c d : Chip) (now src k : Nat) : Prop :=
  d.attributed src k = false ∧ d.graceOver now src k = false ∧ d.flt.quietFrom = now ∧ d.mem = c.mem

theorem graceOver_stopTimer (c : Chip) (now s k : Nat) : (c.stopTimer s k).graceOver now s k = false := by
  simp only [graceOver, stopTimer, List.any_eq_false]
  intro e he named
  have other := (List.mem_filter.1 he).2
  simp only [Bool.and_eq_true] at named
  simp [named.1] at other

theorem safeBuilt_quietFrom (c : Chip) : c.safeBuilt.flt.quietFrom = c.flt.quietFrom := rfl

/-- After the escalation of a chip on which `e` has been set. -/
theorem escalate_ends (hs : src < 20) (h : Stopped c (c.escalateTo now src k)) (still : NoSafeFrames c) :
    let d := c.escalate now src k
    let e := c.escalateTo now src k
    Ended c d now src k ∧ RegFrame AttrAddr e d ∧ d.flt.partBrakes = e.flt.partBrakes ∧ d.flt.deviceBrake = e.flt.deviceBrake := by
  simp only [escalate]
  generalize c.escalateTo now src k = e at h ⊢
  obtain ⟨rest, -, attr⟩ := (e.quiet now).endAttr_ends hs k
  have frame := (e.quiet now).endAttr_frame hs k
  have quiet : RegFrame AttrAddr e (e.quiet now) := .flt e _
  have flt : ((e.quiet now).endAttr src k).flt = ((e.quiet now).stopTimer src k).flt := by rw [rest]
  have chan : ((e.quiet now).endAttr src k).chan = e.chan := by rw [rest]; rfl
  have stopped : NoSafeFrames ((e.quiet now).endAttr src k) := (h.noSafeFrames still).of_flt
    ((quiet.trans frame).mono fun a ⟨lo, hi⟩ => ⟨by omega, hi⟩) chan
  have over_ : ((e.quiet now).endAttr src k).graceOver now src k = false := by
    rw [graceOver, flt]
    exact graceOver_stopTimer _ now src k
  rw [safeFlush_eq stopped]
  refine ⟨⟨?_, over_, by rw [safeBuilt_quietFrom, flt]; rfl, frame.mem.trans h.frame.mem⟩,
    (quiet.trans frame).trans (.of_eq rfl rfl), ?_, ?_⟩
  · exact (attr src hs k).trans (by simp)
  · rw [safeBuilt_partBrakes, flt]; rfl
  · rw [safeBuilt_deviceBrake, flt]; rfl

theorem graceEnd_of_over (h : c.graceOver now src k = true) : c.graceEnd now src k = c.escalate now src k := if_pos h

/-- The end of the manager's grace timer sets the device brake (R410); the host's own source has no such timer. -/
theorem graceEnd_manager (hs : src < 20) (still : NoSafeFrames c) (ho : c.off = false) (h : c.graceOver now src 64 = true)
    (hb : c.flt.deviceBrake = false) (h17 : src ≠ 17) :
    let d := c.graceEnd now src 64
    Ended c d now src 64 ∧ d.flt.deviceBrake = true ∧ d.gf .FLT_STATE FLT_STATE.STATE = 5 ∧
      d.gf .FLT_STATE FLT_STATE.CAUSE = 4 := by
  have set_ : c.escalateTo now src 64 = c.brakeDevice now 4 := by simp [escalateTo, h17]
  have braked := c.brakeDevice_braked now (cause := 4) hb ho (by decide)
  rw [graceEnd_of_over h]
  obtain ⟨ended, frame, -, shown⟩ := escalate_ends (k := 64) (now := now) hs (by rw [set_]; exact ⟨braked.frame, braked.chan⟩) still
  have state : ¬ AttrAddr RegName.FLT_STATE.addr := by decide
  rw [set_] at shown frame
  exact ⟨ended, shown.trans braked.set, (frame.gf _ state).trans braked.state, (frame.gf _ state).trans braked.cause⟩

/-- The end of a partition's grace timer does what ESC says (R410). -/
theorem graceEnd_part (hs : src < 20) (hp : p < 64) (still : NoSafeFrames c) (ho : c.off = false)
    (h : c.graceOver now src p = true) :
    let d := c.graceEnd now src p
    let esc := c.gf (.FLT_POLICY src) FLT_POLICY.ESC
    Ended c d now src p ∧ (esc = 0 → c.gb (.PRT_CFG p) PRT_CFG.DEFINED = true → p ∈ d.flt.partBrakes) ∧
      (esc = 1 → ∀ t ∈ c.triadsOf p, (c.rd .FLT_TATTR).getLsbD t = true → c.tstate t ∉ [0, 6] → d.tstate t = 5) ∧
      (1 < esc → d.flt.deviceBrake = true) := by
  rw [graceEnd_of_over h]
  obtain ⟨stopped, part, triads, device⟩ := c.escalateTo_part now src hp ho
  obtain ⟨ended, frame, parts, brake⟩ := escalate_ends hs stopped still
  refine ⟨ended, fun zero hd => ?_, fun one t ht hb left_ => ?_, fun more => ?_⟩
  · rw [parts]; exact part zero hd
  · rw [tstate_congr (frame.rd _ (by simp only [AttrAddr, RegName.addr]; omega))]
    exact triads one t ht hb left_
  · rw [brake]; exact device more

theorem graceEnd_of_not (h : c.graceOver now src k = false) : c.graceEnd now src k = c := by simp [graceEnd, h]

/-! ### SAFEHOLD (R414) -/

/-- No SerDes lane of quads 0 to 4 has a frame queued, and the registers, lanes and memory are those of `c`. -/
structure Idling (c d : Chip) : Prop where
  queues : ∀ ln < 20, (d.eg ln).queue = []
  regs : d.regs = c.regs
  core : SameCore c d
  flt : d.flt = c.flt

theorem Idling.purge (h : Idling c d) {ln : Nat} (hl : ln < 20) (now : Nat) : Idling c (d.purge now ln) := by
  rw [purge_of_empty now (h.queues ln hl)]
  refine ⟨fun m hm => ?_, h.regs, h.core.trans (.setEg d ln _), h.flt⟩
  by_cases he : m = ln
  · rw [he, eg_setEg_same]; exact h.queues ln hl
  · rw [eg_setEg_other _ _ _ _ he]; exact h.queues m hm

theorem Idling.foldl {l : List Nat} (h : Idling c d) (hl : ∀ ln ∈ l, ln < 20) (now : Nat) :
    Idling c (l.foldl (fun c ln => c.purge now ln) d) := by
  induction l generalizing d with
  | nil => exact h
  | cons ln r ih => exact ih (h.purge (hl ln (by simp)) now) fun m hm => hl m (List.mem_cons_of_mem _ hm)

theorem safeholdEnd_idles (ho : c.off = false) (hb : c.flt.deviceBrake = true) (hi : c.flt.idle = false)
    (hq : ∀ ln : Nat, ln < 20 → (c.eg ln).queue = [])
    (over_ : c.flt.brakedAt + 1000000 * c.gf .FLT_BRAKE FLT_BRAKE.SAFEHOLD ≤ now) :
    let d := c.safeholdEnd now
    d.flt.idle = true ∧ d.regs = c.regs ∧ SameCore c d := by
  have purged := Idling.foldl (c := c.modFlt fun f => { f with idle := true })
    (d := c.modFlt fun f => { f with idle := true }) (l := List.range 20) ⟨hq, rfl, ⟨rfl, rfl, rfl, rfl⟩, rfl⟩ (fun _ => List.mem_range.1) now
  have idled : c.safeholdEnd now =
      (List.range 20).foldl (fun c ln => c.purge now ln) (c.modFlt fun f => { f with idle := true }) := by
    have late : ¬ now < c.flt.brakedAt + 1000000 * c.gf .FLT_BRAKE FLT_BRAKE.SAFEHOLD := by omega
    simp [safeholdEnd, ho, hb, hi, late]
  rw [idled]
  exact ⟨by rw [purged.flt]; rfl, purged.regs, purged.core⟩

theorem safeholdEnd_of_early (h : c.flt.deviceBrake = false ∨ now < c.flt.brakedAt + 1000000 * c.gf .FLT_BRAKE FLT_BRAKE.SAFEHOLD) :
    c.safeholdEnd now = c := by
  have : (c.off || !c.flt.deviceBrake || c.flt.idle ||
      decide (now < c.flt.brakedAt + 1000000 * c.gf .FLT_BRAKE FLT_BRAKE.SAFEHOLD)) = true := by
    rcases h with h | h <;> simp [h]
  exact if_pos this

/-! ### The quiet period (R416, R417) -/

/-- The returns from FAULT that the recovery limit counts. -/
def recentReturns (c : Chip) (now : Nat) : List Nat :=
  c.flt.returns.filter fun t => decide (now ≤ t + 1000000000 * c.gf .FLT_RECOV FLT_RECOV.WINDOW)

/-- A return is counted and shown, before the state changes. -/
def returned (c : Chip) (now : Nat) : Chip :=
  ((c.modFlt fun f => { f with returns := now :: c.recentReturns now }).inc .FLT_RECOVERIES FLT_RECOVERIES.COUNT).sf
    .FLT_STATUS FLT_STATUS.RECOVERED 1

theorem bookReturn_eq (c : Chip) (limit : Bool) : ∃ b, c.bookReturn limit = { c with book := b } := ⟨_, rfl⟩

/-- The quiet period ends: past the limit the device brake is set, else the device runs. -/
theorem quietEnd_eq (ho : c.off = false) (fault : c.gf .FLT_STATE FLT_STATE.STATE = 4) (h0 : c.flt.grace0 = [])
    (h1 : c.flt.grace1 = []) (over_ : c.flt.quietFrom + 1000000 * c.gf .FLT_RECOV FLT_RECOV.QUIET ≤ now) :
    ∃ b, c.quietEnd now = if c.gf .FLT_RECOV FLT_RECOV.LIMIT ≤ (c.recentReturns now).length then
      (({ c.returned now with book := b } : Chip).brakeDevice now 3).safeFlush now
      else ({ c.returned now with book := b } : Chip).sf .FLT_STATE FLT_STATE.STATE 3 := by
  obtain ⟨b, booked⟩ := (c.returned now).bookReturn_eq
    (decide (c.gf .FLT_RECOV FLT_RECOV.LIMIT < (now :: c.recentReturns now).length))
  refine ⟨b, ?_⟩
  have late : ¬ now < c.flt.quietFrom + 1000000 * c.gf .FLT_RECOV FLT_RECOV.QUIET := by omega
  unfold quietEnd
  rw [← booked]
  simp only [ho, fault, h0, h1, late, List.isEmpty_nil, Bool.not_true, bne_self_eq_false, decide_false, Bool.or_self,
    Bool.false_eq_true, ↓reduceIte, decide_eq_true_eq, List.length_cons, Nat.lt_succ_iff]
  rfl

/-- What counting a return leaves: its registers, and memory, lanes, ports, paths and the brake as they were. -/
structure Counted (c d : Chip) (now : Nat) : Prop where
  frame : RegsBut c d [.FLT_STATUS, .FLT_RECOVERIES]
  core : SameCore c d
  off : d.off = c.off
  chan : d.chan = c.chan
  brake : d.flt.deviceBrake = c.flt.deviceBrake
  returns : d.flt.returns = now :: c.recentReturns now
  recovered : d.gb .FLT_STATUS FLT_STATUS.RECOVERED = true
  count : d.gf .FLT_RECOVERIES FLT_RECOVERIES.COUNT = min (c.gf .FLT_RECOVERIES FLT_RECOVERIES.COUNT + 1) 65535

theorem returned_counted (c : Chip) (now : Nat) : Counted c (c.returned now) now := by
  have noted : c.returned now = ((c.modFlt fun f => { f with returns := now :: c.recentReturns now }).inc .FLT_RECOVERIES
    FLT_RECOVERIES.COUNT).sf .FLT_STATUS FLT_STATUS.RECOVERED 1 := rfl
  have base : SameCore c (c.modFlt fun f => { f with returns := now :: c.recentReturns now }) := ⟨rfl, rfl, rfl, rfl⟩
  have gf : ∀ r f, (c.modFlt fun f => { f with returns := now :: c.recentReturns now }).gf r f = c.gf r f := fun _ _ => rfl
  have rd : ∀ r, (c.modFlt fun f => { f with returns := now :: c.recentReturns now }).rd r = c.rd r := fun _ => rfl
  have off : (c.modFlt fun f => { f with returns := now :: c.recentReturns now }).off = c.off := rfl
  have chan : (c.modFlt fun f => { f with returns := now :: c.recentReturns now }).chan = c.chan := rfl
  have brake : (c.modFlt fun f => { f with returns := now :: c.recentReturns now }).flt.deviceBrake = c.flt.deviceBrake := rfl
  have returns : (c.modFlt fun f => { f with returns := now :: c.recentReturns now }).flt.returns = now :: c.recentReturns now := rfl
  generalize (c.modFlt fun f => { f with returns := now :: c.recentReturns now }) = m at *
  have only : OnlyRegs m (c.returned now) [.FLT_STATUS, .FLT_RECOVERIES] := by
    rw [noted]
    exact .trans (.sf m _ _ (by simp)) (.sf _ _ _ (by simp))
  have counted := gf_inc_same m .FLT_RECOVERIES FLT_RECOVERIES.COUNT (by decide) (by decide)
  refine ⟨fun r hr => (only.2 r hr).trans (rd r), base.trans only.sameCore, by rw [only.1, off], by rw [only.1, chan],
    by rw [only.1, brake], by rw [only.1, returns], by rw [noted]; exact gb_sf_one _ _ rfl (by decide), ?_⟩
  rw [noted, gf_sf_other _ _ _ _ (by decide), counted, gf]
  rfl

theorem Counted.book (h : Counted c d now) (b : Tab Nat) : Counted c { d with book := b } now :=
  ⟨h.frame, ⟨h.core.1, h.core.2⟩, h.off, h.chan, h.brake, h.returns, h.recovered, h.count⟩

/-- The return to RUN (R416). -/
theorem Counted.toRun (h : Counted c d now) :
    let e := d.sf .FLT_STATE FLT_STATE.STATE 3
    e.gf .FLT_STATE FLT_STATE.STATE = 3 ∧ e.gb .FLT_STATUS FLT_STATUS.RECOVERED = true ∧
      e.flt.returns = now :: c.recentReturns now ∧
      e.gf .FLT_RECOVERIES FLT_RECOVERIES.COUNT = min (c.gf .FLT_RECOVERIES FLT_RECOVERIES.COUNT + 1) 65535 ∧
      RegsBut c e [.FLT_STATE, .FLT_STATUS, .FLT_RECOVERIES] ∧ SameCore c e := by
  refine ⟨gf_sf_same _ _ _ _ (by decide) (by decide), ?_, by rw [sf_flt, h.returns], ?_, fun r hr => ?_, ?_⟩
  · rw [gb, gf_sf_other _ _ _ _ (by decide), ← gb, h.recovered]
  · rw [gf_sf_other _ _ _ _ (by decide), h.count]
  · simp only [List.map_cons, List.mem_cons, not_or] at hr
    rw [rd_sf_other _ _ _ hr.1]
    exact h.frame r (by simpa using hr.2)
  · exact h.core.trans (.sf d _ _ _)

/-- Past the recovery limit the device brake is set instead (R417). -/
theorem Counted.toSafe (h : Counted c d now) (still : NoSafeFrames c) (ho : c.off = false) (hb : c.flt.deviceBrake = false) :
    let e := (d.brakeDevice now 3).safeFlush now
    e.gf .FLT_STATE FLT_STATE.STATE = 5 ∧ e.gf .FLT_STATE FLT_STATE.CAUSE = 3 ∧ e.flt.deviceBrake = true ∧ e.mem = c.mem := by
  have frame : RegFrame FltAddr c d := ⟨h.core.1, fun r hr => h.frame r fun hm => hr (by
    simp only [List.map_cons, List.map_nil, List.mem_cons, List.not_mem_nil, or_false] at hm
    rcases hm with hm | hm <;> rw [hm] <;> decide)⟩
  have braked := (d.brakeDevice_braked now (cause := 3) (h.brake.trans hb) (h.off.trans ho) (by decide)).safeFlush
    (still.of_flt frame h.chan) now
  exact ⟨braked.state, braked.cause, braked.set, braked.frame.mem.trans h.core.1⟩

theorem quietEnd_of_early (h : c.gf .FLT_STATE FLT_STATE.STATE ≠ 4 ∨ c.flt.grace1 ≠ []) (now : Nat) : c.quietEnd now = c := by
  unfold quietEnd
  rcases h with h | h
  · simp [h]
  · simp [h]

end Chip

/-! ### The commands -/

theorem exec_correctedFault (src : Fin 20) : exec (.correctedFault src) s =
    .next { s with chip := if s.chip.off then s.chip else s.chip.corrected s.now.toNat src } := rfl

theorem exec_containedFault (src : Fin 20) (who : Attr) (triad : Option (Fin 32)) : exec (.containedFault src who triad) s =
    .next { s with
      chip := if s.chip.off then s.chip else
        s.chip.contained s.now.toNat src (attrParty who) ((triad.map Fin.val).filter fun t => t / 4 == src.val) } := rfl

theorem exec_grace0Expiry (src : Fin 20) :
    exec (.grace0Expiry src) s = .next { s with chip := s.chip.grace0End s.now.toNat src } := rfl

theorem exec_graceExpiry (src : Fin 20) (who : Attr) : exec (.graceExpiry src who) s =
    .next { s with chip := s.chip.graceEnd s.now.toNat src ((attrParty who).getD 64) } := rfl

theorem exec_safeholdExpiry : exec .safeholdExpiry s = .next { s with chip := s.chip.safeholdEnd s.now.toNat } := rfl

theorem exec_quietPeriodEnd : exec .quietPeriodEnd s = .next { s with chip := s.chip.quietEnd s.now.toNat } := rfl

theorem attrParty_lt (who : Attr) (p : Nat) (h : attrParty who = some p) : p < 64 := by
  cases who with
  | part q =>
    obtain rfl : q.toNat = p := by simpa [attrParty] using h
    exact q.isLt
  | manager => simp [attrParty] at h

end Sys2Proof.Machine

open Sys2Proof Sys2Proof.Machine

/-- Settles O48: the laws of reports (R407, R408), of the ends of grace timers through the escalation (R410), of SAFEHOLD and of
the quiet period; a command whose trigger does not hold changes nothing (log 3), and the host's own source has no timer of the
manager that brakes (log 37). -/
theorem faultReports : Obligations.FaultReports := by
  unfold Obligations.FaultReports
  intro s src who triad pp e c now k pol st still p ends recent
  have hp : p < 64 := pp.isLt
  refine ⟨fun off => ?corrected, fun off => ?contained, fun off => ⟨?correctedOff, ?containedOff⟩,
    fun one => ⟨fun he over_ => ?grace0, fun no => ?grace0'⟩, fun ⟨waits, paths, off⟩ over_ free h17 => ?manager,
    fun ⟨waits, paths, off⟩ over_ => ?part, fun no => ?part', fun off set_ awake queues over_ => ?safehold, fun no => ?safehold',
    fun fault h0 h1 over_ => ⟨fun off below => ?run, fun ⟨waits, paths, off⟩ past free => ?safe⟩, fun no => ?quiet'⟩
  case corrected => exact ⟨_, exec_correctedFault src, by rw [off]; exact c.corrected_shows now src.isLt⟩
  case contained =>
    refine ⟨_, exec_containedFault src who triad, ?_⟩
    rw [off]
    obtain ⟨attributed, told, lanes, -, tattr⟩ := c.contained_shows now (who := attrParty who)
      (triad := (triad.map Fin.val).filter fun t => t / 4 == src.val) src.isLt (attrParty_lt who)
    refine ⟨Chip.contained_stands c now src.isLt _ _, attributed, told, (Chip.contained_unitFrame c now src.isLt _ _).mem, lanes,
      fun t ht own => ?_, fun run => Chip.contained_in_run src.isLt run _ _⟩
    exact tattr t (by omega) (by omega) (by simp [ht, own])
  case correctedOff => rw [exec_correctedFault, if_pos off]
  case containedOff => rw [exec_containedFault, if_pos off]
  case grace0 => exact ⟨_, exec_grace0Expiry src, Chip.grace0End_shows now one src.isLt he over_⟩
  case grace0' =>
    have : ¬ (e.1 = src.val ∧ e.2 ≤ now) := fun ⟨a, b⟩ => no.elim (absurd a) fun h => by omega
    rw [exec_grace0Expiry, Chip.grace0End_eq s.chip s.now.toNat src one, if_neg this]
  case manager => exact ⟨_, exec_graceExpiry src .manager, Chip.graceEnd_manager src.isLt ⟨waits, paths⟩ off over_ free h17⟩
  case part => exact ⟨_, exec_graceExpiry src (.part pp), Chip.graceEnd_part src.isLt hp ⟨waits, paths⟩ off over_⟩
  case part' =>
    have kept : s.chip.graceEnd s.now.toNat src ((attrParty (.part pp)).getD 64) = s.chip := Chip.graceEnd_of_not no
    rw [exec_graceExpiry, kept]
  case safehold => exact ⟨_, exec_safeholdExpiry, Chip.safeholdEnd_idles off set_ awake queues over_⟩
  case safehold' => rw [exec_safeholdExpiry, Chip.safeholdEnd_of_early no]
  case run =>
    obtain ⟨b, ended⟩ := Chip.quietEnd_eq (now := now) off fault h0 h1 over_
    refine ⟨_, exec_quietPeriodEnd, ?_⟩
    rw [ended, if_neg (by exact Nat.not_le.2 below)]
    exact ((c.returned_counted now).book b).toRun
  case safe =>
    obtain ⟨b, ended⟩ := Chip.quietEnd_eq (now := now) off fault h0 h1 over_
    refine ⟨_, exec_quietPeriodEnd, ?_⟩
    rw [ended, if_pos (by exact past)]
    exact ((c.returned_counted now).book b).toSafe ⟨waits, paths⟩ off free
  case quiet' => rw [exec_quietPeriodEnd, Chip.quietEnd_of_early no]
end

section
/-! Power domains (R487 to R489), live tests (R491 to R494, R499) and the temperature (R520). -/
namespace Sys2Proof.Machine
variable {s : State}

namespace Chip
variable {c d : Chip} {now k n dom : Nat} {on : Bool} {v : DWord}

/-! ### The bits of a power domain -/

theorem domainOn_eq (h : dom < 30) : c.domainOn dom = c.gb .SYS_PWRSTAT ⟨dom, dom⟩ := by
  rw [gb_bit, domainOn, gf_eq, Fld.get, Nat.testBit_mod_two_pow, Nat.testBit_div_two_pow]
  simp [SYS_PWRSTAT.ON, h]

theorem domainBusy_eq (h : dom < 30) : c.domainBusy dom = c.gb .SYS_PWRSTAT ⟨30 + dom, 30 + dom⟩ := by
  rw [gb_bit, domainBusy, gf_eq, Fld.get, Nat.testBit_mod_two_pow, Nat.testBit_div_two_pow]
  simp [SYS_PWRSTAT.BUSY, h, Nat.add_comm]

theorem gb_bit_sf_other (c : Chip) (r : RegName) {i j : Nat} (b : Nat) (h : i < 64) (hij : j ≠ i) :
    (c.sf r ⟨i, i⟩ b).gb r ⟨j, j⟩ = c.gb r ⟨j, j⟩ := by
  rw [gb, gf_sf_field _ _ _ _ _ (Nat.le_refl _) h (by simp only; omega), ← gb]

theorem domain_congr (h : d.rd .SYS_PWRSTAT = c.rd .SYS_PWRSTAT) (dom : Nat) :
    d.domainOn dom = c.domainOn dom ∧ d.domainBusy dom = c.domainBusy dom := by
  constructor
  · rw [domainOn, gf_eq, h, ← gf_eq, ← domainOn]
  · rw [domainBusy, gf_eq, h, ← gf_eq, ← domainBusy]

theorem setReq_shows (c : Chip) (h : dom < 30) (b : Bool) : (c.setReq dom (bit b)).gf .SYS_PWRCTL ⟨dom, dom⟩ = bit b ∧
    OnlyRegs c (c.setReq dom (bit b)) [.SYS_PWRCTL] :=
  ⟨(gf_sf_same c _ _ _ (Nat.le_refl _) (show dom < 64 by omega)).trans (by cases b <;> simp [bit]), .sf c _ _ (by simp)⟩

theorem setPwrBusy_shows (c : Chip) (h : dom < 30) (b : Bool) : (c.setPwrBusy dom (bit b)).domainBusy dom = b ∧
    (c.setPwrBusy dom (bit b)).domainOn dom = c.domainOn dom ∧ OnlyRegs c (c.setPwrBusy dom (bit b)) [.SYS_PWRSTAT] := by
  refine ⟨?_, ?_, .sf c _ _ (by simp)⟩
  · rw [domainBusy_eq h, setPwrBusy, gb_sf_same _ _ _ _ (by omega)]
  · rw [domainOn_eq h, domainOn_eq h, setPwrBusy, gb_bit_sf_other _ _ _ (by omega) (by omega)]

theorem setOn_shows (c : Chip) (h : dom < 30) (b : Bool) : (c.setOn dom (bit b)).domainOn dom = b ∧
    (c.setOn dom (bit b)).domainBusy dom = c.domainBusy dom ∧ OnlyRegs c (c.setOn dom (bit b)) [.SYS_PWRSTAT] := by
  refine ⟨?_, ?_, .sf c _ _ (by simp)⟩
  · rw [domainOn_eq h, setOn, gb_sf_same _ _ _ _ (by omega)]
  · rw [domainBusy_eq h, domainBusy_eq h, setOn, gb_bit_sf_other _ _ _ (by omega) (by omega)]

/-! ### Requests (R488) -/

theorem pwrReq_of_busy (now : Nat) (hd : dom ≠ 0) (busy : c.domainBusy dom = true) (on : Bool) :
    c.pwrReq now dom on = (c.setReq dom (bit on)).modMisc fun m =>
      { m with pwrWait := m.pwrWait.filter (fun e => e.1 != dom) ++ [(dom, on)] } := by
  simp [pwrReq, hd, busy]

theorem pwrReq_of_changes (now : Nat) (hd : dom ≠ 0) (busy : c.domainBusy dom = false) (other : c.domainOn dom = !on)
    (may : on = false → c.mayPowerDown dom = true) : c.pwrReq now dom on = (c.setReq dom (bit on)).setPwrBusy dom (bit true) := by
  cases on with
  | true => simp [pwrReq, hd, busy, other]; rfl
  | false => simp [pwrReq, hd, busy, other, may rfl]; rfl

theorem pwrReq_of_needed (now : Nat) (hd : dom ≠ 0) (busy : c.domainBusy dom = false) (up : c.domainOn dom = true)
    (needed : c.mayPowerDown dom = false) : c.pwrReq now dom false = (c.setReq dom (bit true)).corrected now 19 := by
  simp [pwrReq, hd, busy, up, needed]; rfl

/-- A request that a domain may follow starts its transition. -/
theorem pwrReq_begins (now : Nat) (hd : dom ≠ 0) (h : dom < 30) (idle : c.domainBusy dom = false) (other : c.domainOn dom = !on)
    (may : on = false → c.mayPowerDown dom = true) :
    let d := c.pwrReq now dom on
    d.gf .SYS_PWRCTL ⟨dom, dom⟩ = bit on ∧ d.domainBusy dom = true ∧ d.domainOn dom = !on ∧
      OnlyRegs c d [.SYS_PWRCTL, .SYS_PWRSTAT] := by
  obtain ⟨asked, first⟩ := c.setReq_shows h on
  obtain ⟨busy, same, second⟩ := (c.setReq dom (bit on)).setPwrBusy_shows h true
  have up := (domain_congr (first.2 .SYS_PWRSTAT (by decide)) dom).1
  rw [pwrReq_of_changes now hd idle other may]
  exact ⟨(second.gf _ (by decide)).trans asked, busy, (same.trans up).trans other,
    (first.mono (by simp)).trans (second.mono (by simp))⟩

/-- A domain that something needs stays on, and the request is reported. -/
theorem pwrReq_refused (now : Nat) (hd : dom ≠ 0) (h : dom < 30) (idle : c.domainBusy dom = false) (up : c.domainOn dom = true)
    (needed : c.mayPowerDown dom = false) :
    let d := c.pwrReq now dom false
    d.gf .SYS_PWRCTL ⟨dom, dom⟩ = 1 ∧ d.domainBusy dom = false ∧ d.domainOn dom = true ∧ d.stands 19 0 ∧ SameCore c d := by
  obtain ⟨asked, first⟩ := c.setReq_shows h true
  rw [pwrReq_of_needed now hd idle up needed]
  have stat : (c.setReq dom (bit true)).rd .SYS_PWRSTAT = c.rd .SYS_PWRSTAT := first.2 .SYS_PWRSTAT (by decide)
  have core := first.sameCore
  generalize c.setReq dom (bit true) = u at asked stat core ⊢
  have reported := u.corrected_unitFrame now 19
  obtain ⟨on, busy⟩ := domain_congr ((reported.rd _ (by decide)).trans stat) dom
  exact ⟨(reported.gf _ (by decide)).trans asked, busy.trans idle, on.trans up, u.corrected_stands now (by decide),
    core.trans (u.corrected_sameCore now 19)⟩

/-- A request during a transition is noted and waits. -/
theorem pwrReq_waits (now : Nat) (hd : dom ≠ 0) (h : dom < 30) (busy : c.domainBusy dom = true) (on : Bool) :
    let d := c.pwrReq now dom on
    d.gf .SYS_PWRCTL ⟨dom, dom⟩ = bit on ∧ (dom, on) ∈ d.misc.pwrWait ∧ RegsBut c d [.SYS_PWRCTL] ∧ SameCore c d := by
  obtain ⟨asked, only⟩ := c.setReq_shows h on
  rw [pwrReq_of_busy now hd busy]
  generalize c.setReq dom (bit on) = u at asked only ⊢
  exact ⟨asked, List.mem_append_right _ (List.mem_singleton.2 rfl), only.2, only.sameCore.trans (.modMisc _ _)⟩

theorem pwrReq_of_zero (c : Chip) (now : Nat) (on : Bool) : c.pwrReq now 0 on = c := if_pos rfl

/-! ### Transitions (R487, R488) -/

theorem rd_zeroBank (c : Chip) (n : Nat) (r : RegName) : (c.zeroBank n).rd r = c.rd r := rfl

theorem byte_zeroBanks (l : List Nat) (b : Nat) (c : Chip) : (l.foldl (fun c n => c.zeroBank n) c).byte b =
    if ∃ n ∈ l, inBank n b = true then 0 else c.byte b := by
  induction l generalizing c with
  | nil => simp
  | cons n r ih =>
    rw [List.foldl_cons, ih, byte_zeroBank]
    by_cases hn : inBank n b = true
    · simp [hn]
    · simp [hn]

theorem zeroBanks_regs (l : List Nat) (c : Chip) : (l.foldl (fun c n => c.zeroBank n) c).regs = c.regs := by
  induction l generalizing c with
  | nil => rfl
  | cons n r ih => exact ih _

/-- The banks of a domain of banks come up zeroed. -/
theorem powered_banks (c : Chip) (now : Nat) (lo : 9 ≤ dom) (hi : dom ≤ 16) :
    c.powered now dom = ((List.range 8).map (8 * (dom - 9) + ·)).foldl (fun c n => c.zeroBank n) c := by
  rw [powered, if_neg (by omega), if_pos hi, List.foldl_map]

/-- The registers of the units that a domain carries. -/
def domainRegs (dom : Nat) : List RegName :=
  (List.range 4).map (fun j => .LAN_STAT (4 * (dom - 20) + j)) ++ [.PAR_STAT, .HST_STAT]

theorem unpowered_onlyRegs (c : Chip) (dom : Nat) : OnlyRegs c (c.unpowered dom) (domainRegs dom) := by
  unfold unpowered
  split
  · refine .foldl c fun c j hj => ?_
    have lane : RegName.LAN_STAT (4 * (dom - 20) + j) ∈ domainRegs dom :=
      List.mem_append_left _ (List.mem_map.2 ⟨j, hj, rfl⟩)
    exact .trans (.sf c _ _ lane) (.sf _ _ _ lane)
  · split
    · exact .sf c _ _ (by simp [domainRegs])
    · split
      · exact .trans (.sf c _ _ (by simp [domainRegs])) (.sf _ _ _ (by simp [domainRegs]))
      · exact .refl c _

theorem pwrstat_not_domainRegs (dom : Nat) : RegName.SYS_PWRSTAT.addr ∉ (domainRegs dom).map RegName.addr := by
  simp only [domainRegs, List.map_append, List.map_map, List.mem_append, List.mem_map, List.mem_range, not_or]
  refine ⟨fun ⟨j, _, hj⟩ => ?_, by decide⟩
  simp only [Function.comp_apply, RegName.addr] at hj
  omega

theorem zeroBanks_misc (l : List Nat) (c : Chip) : (l.foldl (fun c n => c.zeroBank n) c).misc = c.misc := by
  induction l generalizing c with
  | nil => rfl
  | cons n r ih => exact ih _

/-- The domain changes over as its transition ends. -/
def changeOver (c : Chip) (now dom : Nat) : Chip :=
  let c := c.setPwrBusy dom (bit false)
  if c.domainOn dom then (c.setOn dom (bit false)).unpowered dom else (c.setOn dom (bit true)).powered now dom

theorem pwrEnd_eq (ho : c.off = false) (busy : c.domainBusy dom = true) (none_ : ∀ e ∈ c.misc.pwrWait, e.1 ≠ dom)
    (kept : (c.changeOver now dom).misc = c.misc) : c.pwrEnd now dom = c.changeOver now dom := by
  have waits : (c.changeOver now dom).misc.pwrWait.find? (fun e => e.1 == dom) = none := by
    rw [List.find?_eq_none, kept]
    simpa using none_
  have ended : c.pwrEnd now dom = match (c.changeOver now dom).misc.pwrWait.find? (fun e => e.1 == dom) with
      | some e => ((c.changeOver now dom).modMisc fun m =>
          { m with pwrWait := m.pwrWait.filter (fun e => e.1 != dom) }).pwrReq now dom e.2
      | none => c.changeOver now dom := by
    simp only [pwrEnd, ho, busy, Bool.not_true, Bool.or_self, Bool.false_eq_true, ↓reduceIte]
    rfl
  rw [ended, waits]

theorem pwrEnd_of_idle (h : c.domainBusy dom = false) (now : Nat) : c.pwrEnd now dom = c := by simp [pwrEnd, h]

/-- A domain that was on is down (R487). -/
theorem pwrEnd_downs (ho : c.off = false) (busy : c.domainBusy dom = true) (none_ : ∀ e ∈ c.misc.pwrWait, e.1 ≠ dom)
    (hd : dom < 30) (up : c.domainOn dom = true) (now : Nat) :
    let d := c.pwrEnd now dom
    d.domainOn dom = false ∧ d.domainBusy dom = false ∧ SameCore c d := by
  obtain ⟨idle, same, first⟩ := c.setPwrBusy_shows hd false
  obtain ⟨down, kept, second⟩ := (c.setPwrBusy dom (bit false)).setOn_shows hd false
  have third := ((c.setPwrBusy dom (bit false)).setOn dom (bit false)).unpowered_onlyRegs dom
  obtain ⟨on_, busy_⟩ := domain_congr (third.2 _ (pwrstat_not_domainRegs dom)) dom
  have moved : c.changeOver now dom = ((c.setPwrBusy dom (bit false)).setOn dom (bit false)).unpowered dom := by
    simp only [changeOver, same, up, if_true]
  rw [pwrEnd_eq ho busy none_ (by rw [moved, third.1, second.1, first.1]), moved]
  exact ⟨on_.trans down, busy_.trans (kept.trans idle), (first.sameCore.trans second.sameCore).trans third.sameCore⟩

/-- A domain of banks that was down is on, and its banks hold zeros (R487). -/
theorem pwrEnd_ups (ho : c.off = false) (busy : c.domainBusy dom = true) (none_ : ∀ e ∈ c.misc.pwrWait, e.1 ≠ dom)
    (lo : 9 ≤ dom) (hi : dom ≤ 16) (off : c.domainOn dom = false) (now : Nat) :
    let d := c.pwrEnd now dom
    d.domainOn dom = true ∧ d.domainBusy dom = false ∧ ∀ b : Nat, d.byte b =
      if (∃ j : Nat, j < 8 ∧ inBank (8 * (dom - 9) + j) b = true) then 0 else c.byte b := by
  have hd : dom < 30 := by omega
  obtain ⟨idle, same, first⟩ := c.setPwrBusy_shows hd false
  obtain ⟨up, kept, second⟩ := (c.setPwrBusy dom (bit false)).setOn_shows hd true
  have moved : c.changeOver now dom = ((List.range 8).map (8 * (dom - 9) + ·)).foldl (fun c n => c.zeroBank n)
      ((c.setPwrBusy dom (bit false)).setOn dom (bit true)) := by
    simp only [changeOver, same, off, Bool.false_eq_true, if_false, powered_banks _ now lo hi]
  obtain ⟨on_, busy_⟩ := domain_congr (rd_of_regs_eq (zeroBanks_regs ((List.range 8).map (8 * (dom - 9) + ·))
    ((c.setPwrBusy dom (bit false)).setOn dom (bit true))) .SYS_PWRSTAT) dom
  rw [pwrEnd_eq ho busy none_ (by rw [moved, zeroBanks_misc, second.1, first.1]), moved]
  refine ⟨on_.trans up, busy_.trans (kept.trans idle), fun b => ?_⟩
  rw [byte_zeroBanks]
  simp only [List.mem_map, List.mem_range, exists_exists_and_eq_and]
  rfl

/-! ### Live tests (R491 to R494) -/

/-- The word a write of `SYS_TEST` stores: KIND, LANE and TARGET are its own, and the slot's state is kept. -/
def testWord (w v : DWord) : DWord :=
  SYS_TEST.TARGET.put (SYS_TEST.LANE.put (SYS_TEST.KIND.put w (SYS_TEST.KIND.get v)) (SYS_TEST.LANE.get v)) (SYS_TEST.TARGET.get v)

theorem plainWrite_test (c : Chip) (now k : Nat) (v : DWord) :
    c.plainWrite now (.SYS_TEST k) v = c.wr (.SYS_TEST k) (testWord (c.rd (.SYS_TEST k)) v) := rfl

/-- The request that a slot holds after a write. -/
structure Requested (c d : Chip) (k : Nat) (v : DWord) : Prop where
  kind : d.tKind k = SYS_TEST.KIND.get v
  lane : d.tLane k = SYS_TEST.LANE.get v
  target : d.tTarget k = SYS_TEST.TARGET.get v
  state : d.tState k = c.tState k
  only : OnlyRegs c d [.SYS_TEST k]

theorem plainWrite_requested (c : Chip) (now k : Nat) (v : DWord) : Requested c (c.plainWrite now (.SYS_TEST k) v) k v := by
  rw [plainWrite_test]
  refine ⟨?_, ?_, ?_, ?_, .wr c _ (by simp)⟩
  · rw [tKind, gf_wr_same, testWord, Fld.get_put_other _ _ _ _ (by decide) (by decide) (by decide),
      Fld.get_put_other _ _ _ _ (by decide) (by decide) (by decide), Fld.get_put_same _ _ _ (by decide) (by decide)]
    exact Nat.mod_eq_of_lt (SYS_TEST.KIND.get_lt v)
  · rw [tLane, gf_wr_same, testWord, Fld.get_put_other _ _ _ _ (by decide) (by decide) (by decide),
      Fld.get_put_same _ _ _ (by decide) (by decide)]
    exact Nat.mod_eq_of_lt (SYS_TEST.LANE.get_lt v)
  · rw [tTarget, gf_wr_same, testWord, Fld.get_put_same _ _ _ (by decide) (by decide)]
    exact Nat.mod_eq_of_lt (SYS_TEST.TARGET.get_lt v)
  · rw [tState, gf_wr_same, testWord, Fld.get_put_other _ _ _ _ (by decide) (by decide) (by decide),
      Fld.get_put_other _ _ _ _ (by decide) (by decide) (by decide),
      Fld.get_put_other _ _ _ _ (by decide) (by decide) (by decide), ← gf_eq, ← tState]

/-- A change of state leaves a slot's request. -/
theorem setTest_shows (c : Chip) (k : Nat) {st : Nat} (h : st < 8) : (c.setTest k st).tState k = st ∧
    (c.setTest k st).tKind k = c.tKind k ∧ (c.setTest k st).tTarget k = c.tTarget k ∧
    OnlyRegs c (c.setTest k st) [.SYS_TEST k] := by
  refine ⟨?_, ?_, ?_, .sf c _ _ (by simp)⟩
  · rw [tState, setTest, gf_sf_same _ _ _ _ (by decide) (by decide)]
    exact Nat.mod_eq_of_lt h
  · exact gf_sf_field _ _ _ _ _ (by decide) (by decide) (by decide)
  · exact gf_sf_field _ _ _ _ _ (by decide) (by decide) (by decide)

theorem test_modMisc (c : Chip) (f : Misc → Misc) (k : Nat) : (c.modMisc f).tState k = c.tState k ∧
    (c.modMisc f).tKind k = c.tKind k ∧ (c.modMisc f).tTarget k = c.tTarget k := ⟨rfl, rfl, rfl⟩

/-- GO on a slot that holds its request: where its domain is on, it is queued, and refused where it names none or one that is
off (R490, R494). -/
theorem testGo_shows (now : Nat) (hk : k < 16) (waiting : c.tState k ≠ 1) (runs : c.tState k ≠ 2) :
    let d := c.testGo now k
    d.tKind k = c.tKind k ∧ d.tTarget k = c.tTarget k ∧ SameCore c d ∧
      (∀ x, testDomain (c.tKind k) (c.tTarget k) = some x → ¬ (c.tKind k = 1 ∧ c.tLane k = 3) →
        (c.domainOn x = true → c.domainBusy x = false → d.tState k = 1 ∧ k ∈ d.misc.tests) ∧
        (c.domainOn x = false → d.tState k = 6 ∧ d.stands 19 0)) ∧
      (testDomain (c.tKind k) (c.tTarget k) = none → d.tState k = 6) := by
  obtain ⟨refused, kind, target, only⟩ := c.setTest_shows k (st := 6) (by decide)
  obtain ⟨queued, kind', target', only'⟩ := c.setTest_shows k (st := 1) (by decide)
  have reported := (c.setTest k 6).corrected_unitFrame now 19
  have slot : ¬ FltAddr (RegName.SYS_TEST k).addr := by simp only [FltAddr, RegName.addr]; omega
  have stands := (c.setTest k 6).corrected_stands now (src := 19) (by decide)
  simp only [testGo, waiting, runs, or_self, if_false]
  cases hx : testDomain (c.tKind k) (c.tTarget k) with
  | none => exact ⟨kind, target, only.sameCore, by simp, fun _ => refused⟩
  | some x =>
    by_cases hl : c.tKind k = 1 ∧ c.tLane k = 3
    · simp only [if_pos hl]
      exact ⟨kind, target, only.sameCore, fun _ _ no => absurd hl no, by simp⟩
    · simp only [if_neg hl]
      split
      case isTrue down =>
        refine ⟨(reported.gf _ slot).trans kind, (reported.gf _ slot).trans target,
          only.sameCore.trans ((c.setTest k 6).corrected_sameCore now 19), fun y hy _ => ⟨fun on busy => ?_, fun _ => ?_⟩, by simp⟩
        · obtain rfl : x = y := by simpa using hy
          simp [on, busy] at down
        · exact ⟨(reported.gf _ slot).trans refused, stands⟩
      case isFalse up =>
        generalize c.setTest k 1 = q at queued kind' target' only' ⊢
        obtain ⟨state, same, same'⟩ := q.test_modMisc (fun m => { m with tests := without m.tests k ++ [k] }) k
        refine ⟨same.trans kind', same'.trans target', only'.sameCore.trans (.modMisc _ _),
          fun y hy _ => ⟨fun _ _ => ⟨state.trans queued, ?_⟩, fun off => ?_⟩, by simp⟩
        · exact List.mem_append_right _ (List.mem_singleton.2 rfl)
        · obtain rfl : x = y := by simpa using hy
          simp [off] at up

theorem testWrite_asks (now : Nat) (hk : k < 16) (go : SYS_TEST.GO.get v = 1) (keep : SYS_TEST.CANCEL.get v = 0)
    (waiting : c.tState k ≠ 1) (runs : c.tState k ≠ 2) :
    let d := c.testWrite now k v
    let asked := testDomain (SYS_TEST.KIND.get v) (SYS_TEST.TARGET.get v)
    d.tKind k = SYS_TEST.KIND.get v ∧ d.tTarget k = SYS_TEST.TARGET.get v ∧ SameCore c d ∧
      (∀ x, asked = some x → ¬ (SYS_TEST.KIND.get v = 1 ∧ SYS_TEST.LANE.get v = 3) →
        (c.domainOn x = true → c.domainBusy x = false → d.tState k = 1 ∧ k ∈ d.misc.tests) ∧
        (c.domainOn x = false → d.tState k = 6 ∧ d.stands 19 0)) ∧
      (asked = none → d.tState k = 6) := by
  obtain ⟨kind, lane, target, state, only⟩ := c.plainWrite_requested now k v
  have written : c.testWrite now k v = (c.plainWrite now (.SYS_TEST k) v).testGo now k := by
    simp [testWrite, waiting, runs, go, keep]
  have power := domain_congr (only.2 .SYS_PWRSTAT (by simp [RegName.addr]; omega))
  have gone := testGo_shows (c := c.plainWrite now (.SYS_TEST k) v) now hk (by rwa [state]) (by rwa [state])
  rw [← written, kind, lane, target] at gone
  obtain ⟨kind', target', core, named, unnamed⟩ := gone
  refine ⟨kind', target', only.sameCore.trans core, fun x hx hl => ?_, unnamed⟩
  obtain ⟨on, busy⟩ := power x
  rw [← on, ← busy]
  exact named x hx hl

/-- The slot leaves the queue of requests. -/
def dequeue (c : Chip) (k : Nat) : Chip := c.modMisc fun m => { m with tests := without m.tests k }

theorem tState_dequeue (c : Chip) (k : Nat) : (c.dequeue k).tState k = c.tState k := rfl
theorem tKind_dequeue (c : Chip) (k : Nat) : (c.dequeue k).tKind k = c.tKind k := rfl
theorem tTarget_dequeue (c : Chip) (k : Nat) : (c.dequeue k).tTarget k = c.tTarget k := rfl
theorem not_mem_dequeue (c : Chip) (k : Nat) : k ∉ (c.dequeue k).misc.tests := not_mem_without _ k
theorem regsBut_dequeue {rs : List RegName} (h : RegsBut c d rs) (k : Nat) : RegsBut c (d.dequeue k) rs := h
theorem sameCore_dequeue (h : SameCore c d) (k : Nat) : SameCore c (d.dequeue k) := h

theorem testCancel_cancels (queued : c.tState k = 1) :
    let d := c.testCancel k
    d.tState k = 5 ∧ k ∉ d.misc.tests ∧ RegsBut c d [.SYS_TEST k] ∧ SameCore c d := by
  obtain ⟨cancelled, -, -, only⟩ := c.setTest_shows k (st := 5) (by decide)
  have marked : c.testCancel k = (c.setTest k 5).dequeue k := if_pos queued
  rw [marked]
  exact ⟨(tState_dequeue _ k).trans cancelled, not_mem_dequeue _ k, regsBut_dequeue only.2 k, sameCore_dequeue only.sameCore k⟩

theorem testCancel_of_other (h : c.tState k ≠ 1) : c.testCancel k = c := if_neg h

/-- A slot under test is queued no longer. -/
def testBegun (c : Chip) (k : Nat) : Chip := (c.setTest k 2).dequeue k

theorem testBegun_shows (c : Chip) (k : Nat) : (c.testBegun k).tState k = 2 ∧ (c.testBegun k).tKind k = c.tKind k ∧
    (c.testBegun k).tTarget k = c.tTarget k ∧ k ∉ (c.testBegun k).misc.tests ∧ RegsBut c (c.testBegun k) [.SYS_TEST k] ∧
    SameCore c (c.testBegun k) := by
  obtain ⟨runs, kind, target, only⟩ := c.setTest_shows k (st := 2) (by decide)
  rw [testBegun, tState_dequeue, tKind_dequeue, tTarget_dequeue]
  exact ⟨runs, kind, target, not_mem_dequeue _ k, regsBut_dequeue only.2 k, sameCore_dequeue only.sameCore k⟩

/-- A queued slot whose target no other slot names, and is free, starts (R491). -/
theorem testStart_eq (ho : c.off = false) (queued : c.tState k = 1) (lone : ∀ j : Nat, j ≠ k → c.sameTarget k j = false)
    (free : c.testFree k = true) : c.testStart k = (c.testBegun k).testTake k := by
  have first : (c.misc.tests.takeWhile (· != k) ++ (List.range 16).filter fun j => c.tState j == 2).any (c.sameTarget k) = false := by
    refine List.any_eq_false.2 fun j hj => ?_
    have other : j ≠ k := by
      rcases List.mem_append.1 hj with before | running
      · simpa using List.mem_takeWhile_imp before
      · rintro rfl
        simpa [queued] using (List.mem_filter.1 running).2
    rw [lone j other]
    decide
  have ready : (c.off || c.tState k != 1 || (c.misc.tests.takeWhile (· != k) ++
      (List.range 16).filter fun j => c.tState j == 2).any (c.sameTarget k) || !c.testFree k) = false := by
    rw [ho, queued, first, free]
    rfl
  exact if_neg (ne_true_of_eq_false ready)

theorem testStart_of_other (h : c.tState k ≠ 1) : c.testStart k = c := by
  simp [testStart, h]

theorem testStart_of_held (h : c.testFree k = false) : c.testStart k = c := by
  simp [testStart, h]

theorem testTake_bank (h : d.tKind k = 3) : d.testTake k = d.sf (.BNK_OWNER (d.tTarget k)) BNK_OWNER.BUSY 1 := by
  simp [testTake, h]

theorem testTake_spare (h : d.tKind k = 2) : d.testTake k = d.sf (.CLU_SPARE (d.tTarget k)) CLU_SPARE.STATE 3 := by
  simp [testTake, h]

theorem testTake_lane (h : d.tKind k = 4) : d.testTake k =
    (d.sf (.LAN_STAT (d.tTarget k)) LAN_STAT.LINK 0).sf (.LAN_STAT (d.tTarget k)) LAN_STAT.TRAINING 1 := by
  simp [testTake, h]

/-- The slots' registers stand apart from those of the units under test. -/
theorem test_addr_ne (hk : k < 16) (n : Nat) : (RegName.SYS_TEST k).addr ≠ (RegName.BNK_OWNER n).addr ∧
    (RegName.SYS_TEST k).addr ≠ (RegName.CLU_SPARE n).addr ∧ (RegName.SYS_TEST k).addr ≠ (RegName.LAN_STAT n).addr := by
  refine ⟨?_, ?_, ?_⟩ <;> simp only [RegName.addr] <;> omega

/-- A test that has begun takes a register of its target, and its slot shows the run. -/
theorem taken_shows {r : RegName} (hr : (RegName.SYS_TEST k).addr ≠ r.addr) (only : OnlyRegs (c.testBegun k) d [r]) :
    d.tState k = 2 ∧ k ∉ d.misc.tests ∧ RegsBut c d [.SYS_TEST k, r] ∧ SameCore c d := by
  obtain ⟨runs, -, -, left_, regs, core⟩ := c.testBegun_shows k
  refine ⟨?_, by rw [only.1]; exact left_, fun q hq => ?_, core.trans only.sameCore⟩
  · rw [tState, only.gf _ (by simpa using hr), ← tState, runs]
  · simp only [List.map_cons, List.map_nil, List.mem_cons, List.not_mem_nil, or_false, not_or] at hq
    exact (only.2 q (by simpa using hq.2)).trans (regs q (by simpa using hq.1))

section
variable (ho : c.off = false) (queued : c.tState k = 1) (lone : ∀ j : Nat, j ≠ k → c.sameTarget k j = false)
  (free : c.testFree k = true) (hk : k < 16)
include ho queued lone free hk

theorem testStart_bank (kind : c.tKind k = 3) :
    let d := c.testStart k
    d.tState k = 2 ∧ d.gb (.BNK_OWNER (c.tTarget k)) BNK_OWNER.BUSY = true ∧ k ∉ d.misc.tests ∧
      RegsBut c d [.SYS_TEST k, .BNK_OWNER (c.tTarget k)] ∧ SameCore c d := by
  obtain ⟨-, kind', target, -⟩ := c.testBegun_shows k
  rw [testStart_eq ho queued lone free, testTake_bank (kind'.trans kind), target]
  obtain ⟨state, left_, shown⟩ := taken_shows (c := c) (test_addr_ne hk (c.tTarget k)).1
    (.sf _ BNK_OWNER.BUSY 1 (List.mem_singleton.2 rfl))
  exact ⟨state, gb_sf_one _ _ rfl (by decide), left_, shown⟩

theorem testStart_spare (kind : c.tKind k = 2) :
    let d := c.testStart k
    d.tState k = 2 ∧ d.gf (.CLU_SPARE (c.tTarget k)) CLU_SPARE.STATE = 3 ∧
      RegsBut c d [.SYS_TEST k, .CLU_SPARE (c.tTarget k)] ∧ SameCore c d := by
  obtain ⟨-, kind', target, -⟩ := c.testBegun_shows k
  rw [testStart_eq ho queued lone free, testTake_spare (kind'.trans kind), target]
  obtain ⟨state, -, shown⟩ := taken_shows (c := c) (test_addr_ne hk (c.tTarget k)).2.1
    (.sf _ CLU_SPARE.STATE 3 (List.mem_singleton.2 rfl))
  exact ⟨state, gf_sf_same _ _ _ _ (by decide) (by decide), shown⟩

theorem testStart_lane (kind : c.tKind k = 4) :
    let d := c.testStart k
    d.tState k = 2 ∧ d.gb (.LAN_STAT (c.tTarget k)) LAN_STAT.LINK = false ∧
      d.gb (.LAN_STAT (c.tTarget k)) LAN_STAT.TRAINING = true ∧ RegsBut c d [.SYS_TEST k, .LAN_STAT (c.tTarget k)] ∧
      SameCore c d := by
  obtain ⟨-, kind', target, -⟩ := c.testBegun_shows k
  rw [testStart_eq ho queued lone free, testTake_lane (kind'.trans kind), target]
  obtain ⟨state, -, shown⟩ := taken_shows (c := c) (test_addr_ne hk (c.tTarget k)).2.2
    (.trans (.sf _ LAN_STAT.LINK 0 (List.mem_singleton.2 rfl)) (.sf _ LAN_STAT.TRAINING 1 (List.mem_singleton.2 rfl)))
  refine ⟨state, ?_, gb_sf_one _ _ rfl (by decide), shown⟩
  rw [gb, gf_sf_field _ _ _ _ _ (by decide) (by decide) (by decide)]
  exact gb_sf_zero _ _ (by decide) (by decide)

end

/-! ### Ends of tests (R491, R493) -/

/-- The result of a test and its detail stand in the slot. -/
def testResult (c : Chip) (k st detail : Nat) : Chip := (c.setTest k st).sf (.SYS_TEST k) SYS_TEST.DETAIL detail

theorem testResult_shows (c : Chip) (k : Nat) {st detail : Nat} (h : st < 8) (hd : detail < 2 ^ 32) :
    let d := c.testResult k st detail
    d.tState k = st ∧ d.gf (.SYS_TEST k) SYS_TEST.DETAIL = detail ∧ d.tKind k = c.tKind k ∧ d.tTarget k = c.tTarget k ∧
      OnlyRegs c d [.SYS_TEST k] := by
  obtain ⟨state, kind, target, only⟩ := c.setTest_shows k h
  refine ⟨(gf_sf_field _ _ _ _ _ (by decide) (by decide) (by decide)).trans state, ?_,
    (gf_sf_field _ _ _ _ _ (by decide) (by decide) (by decide)).trans kind,
    (gf_sf_field _ _ _ _ _ (by decide) (by decide) (by decide)).trans target, only.trans (.sf _ _ _ (by simp))⟩
  exact (gf_sf_same _ _ _ _ (by decide) (by decide)).trans (Nat.mod_eq_of_lt hd)

/-- The end of a test whose own work is done gives its target back, or fails it. -/
theorem testEnd_eq (ho : c.off = false) (runs : c.tState k = 2) (kind : c.tKind k = 2 ∨ c.tKind k = 3) (now : Nat)
    (pass : Bool) (detail : Nat) :
    c.testEnd now k pass detail = (c.testResult k (if pass then 3 else 4) detail).testGive now k pass := by
  have ran : c.testRan k = true := by
    rcases kind with h | h <;> simp [testRan, h]
  have other : (pass && (c.tKind k != 8 || c.gb (.CLU_SLUTEST (c.tTarget k)) CLU_SLUTEST.PASS)) = pass := by
    rcases kind with h | h <;> simp [h]
  simp only [testEnd, ho, runs, ran, other, bne_self_eq_false, Bool.not_true, Bool.or_self, Bool.false_eq_true, if_false]
  rfl

theorem testEnd_of_other (h : c.tState k ≠ 2) (now : Nat) (pass : Bool) (detail : Nat) : c.testEnd now k pass detail = c := by
  simp [testEnd, h]

theorem testGive_bank (h : d.tKind k = 3) (now : Nat) (pass : Bool) : d.testGive now k pass =
    if pass then (d.zeroBank (d.tTarget k)).sf (.BNK_OWNER (d.tTarget k)) BNK_OWNER.BUSY 0 else d.contained now 8 none none := by
  simp [testGive, h]

theorem testGive_spare (h : d.tKind k = 2) (now : Nat) (pass : Bool) : d.testGive now k pass =
    if pass then d.sf (.CLU_SPARE (d.tTarget k)) CLU_SPARE.STATE 0
    else (d.sf (.CLU_SPARE (d.tTarget k)) CLU_SPARE.STATE 2).contained now (d.tTarget k) none none := by
  simp [testGive, h]

/-- A slot that shows a result with its detail. -/
abbrev TestEnded (d : Chip) (k st detail : Nat) : Prop := d.tState k = st ∧ d.gf (.SYS_TEST k) SYS_TEST.DETAIL = detail

theorem TestEnded.congr {e : Chip} {st detail : Nat} (h : TestEnded d k st detail) (same : e.rd (.SYS_TEST k) = d.rd (.SYS_TEST k)) :
    TestEnded e k st detail := by
  obtain ⟨state, shown⟩ := h
  exact ⟨by rw [tState, gf_eq, same, ← gf_eq, ← tState, state], by rw [gf_eq, same, ← gf_eq, shown]⟩

theorem not_fltAddr_test (hk : k < 16) : ¬ FltAddr (RegName.SYS_TEST k).addr := by simp only [FltAddr, RegName.addr]; omega

section
variable {detail : Nat} (ho : c.off = false) (runs : c.tState k = 2) (hk : k < 16) (hd : detail < 2 ^ 32) (now : Nat)
include ho runs hk hd

/-- A bank that has passed its test is zeroed and free again. -/
theorem testEnd_bank_passed (kind : c.tKind k = 3) :
    let d := c.testEnd now k true detail
    TestEnded d k 3 detail ∧ d.gb (.BNK_OWNER (c.tTarget k)) BNK_OWNER.BUSY = false ∧
      ∀ b : Nat, d.byte b = if inBank (c.tTarget k) b = true then 0 else c.byte b := by
  obtain ⟨state, shown, kind', target, only⟩ := c.testResult_shows k (st := 3) (by decide) hd
  rw [testEnd_eq ho runs (.inr kind), if_pos rfl, testGive_bank (kind'.trans kind), if_pos rfl, target]
  generalize c.tTarget k = n at *
  generalize c.testResult k 3 detail = u at state shown only ⊢
  refine ⟨TestEnded.congr ⟨state, shown⟩ ((rd_sf_other _ _ _ (test_addr_ne hk n).1).trans (u.rd_zeroBank n _)),
    gb_sf_zero _ _ (by decide) (by decide), fun b => ?_⟩
  rw [byte_sf, byte_zeroBank, byte, only.sameCore.1, ← byte]

/-- A bank that has failed stays busy. -/
theorem testEnd_bank_failed (kind : c.tKind k = 3) (n : Nat) :
    let d := c.testEnd now k false detail
    TestEnded d k 4 detail ∧ d.stands 8 1 ∧ d.mem = c.mem ∧ (n < 64 → d.rd (.BNK_OWNER n) = c.rd (.BNK_OWNER n)) := by
  obtain ⟨state, shown, kind', target, only⟩ := c.testResult_shows k (st := 4) (by decide) hd
  rw [testEnd_eq ho runs (.inr kind), if_neg (by decide), testGive_bank (kind'.trans kind), if_neg (by decide)]
  have frame := (c.testResult k 4 detail).contained_unitFrame now (src := 8) (by decide) none none
  refine ⟨TestEnded.congr ⟨state, shown⟩ (frame.rd _ (not_fltAddr_test hk)), contained_stands _ now (by decide) none none,
    frame.mem.trans only.sameCore.1, fun hn => ?_⟩
  rw [frame.rd _ (by simp only [FltAddr, RegName.addr]; omega), only.2 _ (by simpa using (test_addr_ne hk n).1.symm)]

/-- A spare that has passed its test is free again. -/
theorem testEnd_spare_passed (kind : c.tKind k = 2) :
    let d := c.testEnd now k true detail
    TestEnded d k 3 detail ∧ d.gf (.CLU_SPARE (c.tTarget k)) CLU_SPARE.STATE = 0 ∧ SameCore c d := by
  obtain ⟨state, shown, kind', target, only⟩ := c.testResult_shows k (st := 3) (by decide) hd
  rw [testEnd_eq ho runs (.inl kind), if_pos rfl, testGive_spare (kind'.trans kind), if_pos rfl, target]
  exact ⟨TestEnded.congr ⟨state, shown⟩ (rd_sf_other _ _ _ (test_addr_ne hk _).2.1), gf_sf_same _ _ _ _ (by decide) (by decide),
    only.sameCore.trans (.sf _ _ _ _)⟩

/-- A spare that has failed its test is failed, and its cluster reports it. -/
theorem testEnd_spare_failed (kind : c.tKind k = 2) (hn : c.tTarget k < 8) :
    let d := c.testEnd now k false detail
    TestEnded d k 4 detail ∧ d.gf (.CLU_SPARE (c.tTarget k)) CLU_SPARE.STATE = 2 ∧ d.stands (c.tTarget k) 1 ∧ d.mem = c.mem := by
  obtain ⟨state, shown, kind', target, only⟩ := c.testResult_shows k (st := 4) (by decide) hd
  rw [testEnd_eq ho runs (.inl kind), if_neg (by decide), testGive_spare (kind'.trans kind), if_neg (by decide), target]
  generalize c.tTarget k = n at *
  have failed : OnlyRegs (c.testResult k 4 detail) ((c.testResult k 4 detail).sf (.CLU_SPARE n) CLU_SPARE.STATE 2) [.CLU_SPARE n] :=
    .sf _ _ _ (by simp)
  have spare : ((c.testResult k 4 detail).sf (.CLU_SPARE n) CLU_SPARE.STATE 2).gf (.CLU_SPARE n) CLU_SPARE.STATE = 2 :=
    gf_sf_same _ _ _ _ (by decide) (by decide)
  have ended := TestEnded.congr ⟨state, shown⟩ (failed.2 _ (by simpa using (test_addr_ne hk n).2.1))
  generalize (c.testResult k 4 detail).sf (.CLU_SPARE n) CLU_SPARE.STATE 2 = u at *
  have frame := u.contained_unitFrame now (src := n) (by omega) none none
  exact ⟨ended.congr (frame.rd _ (not_fltAddr_test hk)), (frame.gf _ (by simp only [FltAddr, RegName.addr]; omega)).trans spare,
    contained_stands _ now (by omega) none none, frame.mem.trans (failed.sameCore.1.trans only.sameCore.1)⟩

end

/-! ### Temperature (R520) -/

/-- `GOV_TEMP` shows the highest reading and its sensor. -/
theorem noteTemp_shows (c : Chip) (tj : Int) (sn : Nat) : (c.noteTemp tj sn).gf .GOV_TEMP GOV_TEMP.TJ = (BitVec.ofInt 8 tj).toNat ∧
    (c.noteTemp tj sn).gf .GOV_TEMP GOV_TEMP.SENSOR = sn % 16 ∧ OnlyRegs c (c.noteTemp tj sn) [.GOV_TEMP] := by
  have peaked : c.noteTemp tj sn = if (BitVec.ofNat 8 (c.gf .GOV_TEMP GOV_TEMP.PEAK)).toInt < tj then
      ((c.sf .GOV_TEMP GOV_TEMP.TJ (signedByte tj)).sf .GOV_TEMP GOV_TEMP.SENSOR sn).sf .GOV_TEMP GOV_TEMP.PEAK (signedByte tj)
      else (c.sf .GOV_TEMP GOV_TEMP.TJ (signedByte tj)).sf .GOV_TEMP GOV_TEMP.SENSOR sn := rfl
  have tjShown : ((c.sf .GOV_TEMP GOV_TEMP.TJ (signedByte tj)).sf .GOV_TEMP GOV_TEMP.SENSOR sn).gf .GOV_TEMP GOV_TEMP.TJ =
      (BitVec.ofInt 8 tj).toNat := by
    rw [gf_sf_field _ _ _ _ _ (by decide) (by decide) (by decide), gf_sf_same _ _ _ _ (by decide) (by decide)]
    exact Nat.mod_eq_of_lt (BitVec.ofInt 8 tj).isLt
  have sensor : ((c.sf .GOV_TEMP GOV_TEMP.TJ (signedByte tj)).sf .GOV_TEMP GOV_TEMP.SENSOR sn).gf .GOV_TEMP GOV_TEMP.SENSOR =
      sn % 16 := gf_sf_same _ _ _ _ (by decide) (by decide)
  have only : OnlyRegs c ((c.sf .GOV_TEMP GOV_TEMP.TJ (signedByte tj)).sf .GOV_TEMP GOV_TEMP.SENSOR sn) [.GOV_TEMP] :=
    .trans (.sf c _ _ (by simp)) (.sf _ _ _ (by simp))
  rw [peaked]
  split
  · exact ⟨(gf_sf_field _ _ _ _ _ (by decide) (by decide) (by decide)).trans tjShown,
      (gf_sf_field _ _ _ _ _ (by decide) (by decide) (by decide)).trans sensor, only.trans (.sf _ _ _ (by simp))⟩
  · exact ⟨tjShown, sensor, only⟩

/-- The thresholds after a reading of TJ: the slowdown from 110 °C to 105 °C, and the time since 118 °C. -/
def thresholds (m : Misc) (now : Nat) (tj : Int) : Misc := { m with
  therm := if 110 ≤ tj then true else if tj ≤ 105 then false else m.therm
  hotFrom := if tj < 118 then none else some (m.hotFrom.getD now) }

theorem thermSample_eq (now : Nat) {temps : List (BitVec 8)} {tj : Int} {sn : Nat} (h : hottest temps = some (tj, sn)) :
    c.thermSample now temps = if 125 ≤ tj then ((c.noteTemp tj sn).modMisc (thresholds · now tj)).fatal now 19
      else (c.noteTemp tj sn).modMisc (thresholds · now tj) := by
  unfold thermSample
  rw [h]
  rfl

theorem thermSample_below (now : Nat) {temps : List (BitVec 8)} {tj : Int} {sn : Nat} (h : hottest temps = some (tj, sn))
    (below : tj < 125) :
    let d := c.thermSample now temps
    d.gf .GOV_TEMP GOV_TEMP.TJ = (BitVec.ofInt 8 tj).toNat ∧ d.gf .GOV_TEMP GOV_TEMP.SENSOR = sn % 16 ∧
      (110 ≤ tj → d.misc.therm = true) ∧ (tj ≤ 105 → d.misc.therm = false) ∧
      (105 < tj → tj < 110 → d.misc.therm = c.misc.therm) ∧ d.misc.hotFrom.isSome = decide (118 ≤ tj) ∧
      RegsBut c d [.GOV_TEMP] ∧ SameCore c d := by
  obtain ⟨shown, sensor, only⟩ := c.noteTemp_shows tj sn
  rw [thermSample_eq now h, if_neg (by omega)]
  have misc : (c.noteTemp tj sn).misc = c.misc := by rw [only.1]
  generalize c.noteTemp tj sn = u at *
  refine ⟨shown, sensor, fun hot => ?_, fun cool => ?_, fun above under => ?_, ?_, only.2, only.sameCore.trans (.modMisc _ _)⟩
  · exact if_pos hot
  · exact (if_neg (by omega)).trans (if_pos cool)
  · exact (if_neg (by omega)).trans ((if_neg (by omega)).trans (by rw [misc]))
  · change (if tj < 118 then none else some (u.misc.hotFrom.getD now)).isSome = _
    split <;> simp <;> omega

/-- 125 °C is fatal. -/
theorem thermSample_fatal (now : Nat) {temps : List (BitVec 8)} {tj : Int} {sn : Nat} (h : hottest temps = some (tj, sn))
    (over_ : 125 ≤ tj) (ho : c.off = false) (hb : c.flt.deviceBrake = false) :
    let d := c.thermSample now temps
    d.flt.deviceBrake = true ∧ d.stands 19 2 ∧ d.mem = c.mem := by
  obtain ⟨-, -, only⟩ := c.noteTemp_shows tj sn
  have noted : SameCore c ((c.noteTemp tj sn).modMisc (thresholds · now tj)) := only.sameCore.trans (.modMisc _ _)
  have off : ((c.noteTemp tj sn).modMisc (thresholds · now tj)).off = false := by
    rw [modMisc_off, only.1, ho]
  have free : ((c.noteTemp tj sn).modMisc (thresholds · now tj)).flt.deviceBrake = false := by
    rw [modMisc_flt, only.1, hb]
  rw [thermSample_eq now h, if_pos over_]
  obtain ⟨stands, set_, frame⟩ := fatal_sets _ now (src := 19) (by decide) free off
  exact ⟨set_, stands, frame.mem.trans noted.1⟩

/-- 1 ms at 118 °C is a contained fault, and the time starts over. -/
theorem overTemp_reports (now : Nat) {t : Nat} (hot : c.misc.hotFrom = some t) (late : t + 1000000 ≤ now) :
    let d := c.overTemp now
    d.stands 19 1 ∧ d.misc.hotFrom = none ∧ d.mem = c.mem := by
  have told : c.overTemp now = (c.modMisc fun m => { m with hotFrom := none }).contained now 19 none none := by
    simp only [overTemp, hot, if_pos late]
  rw [told]
  refine ⟨contained_stands _ now (by decide) none none, by rw [contained_misc]; rfl, ?_⟩
  exact (contained_unitFrame _ now (by decide) none none).mem

theorem overTemp_of_cool (h : c.misc.hotFrom = none) (now : Nat) : c.overTemp now = c := by simp [overTemp, h]

/-! ### Commands of software -/

theorem byPower_of (off : c.off = false) {ag : Agent} {r : RegName} (may : c.mayWrite ag r = true) (f : Chip → Chip) :
    c.byPower ag r f = f c := by simp [byPower, off, may]

theorem byPower_of_denied {ag : Agent} {r : RegName} (may : c.mayWrite ag r = false) (f : Chip → Chip) : c.byPower ag r f = c := by
  simp [byPower, may]

end Chip

/-! ### The commands -/

/-- `POWER_UP` or `POWER_DOWN`. -/
theorem exec_power (ag : Agent) (dd : Fin 30) (on : Bool) : exec (if on then .powerUp ag dd else .powerDown ag dd) s =
    .next { s with chip := s.chip.byPower ag .SYS_PWRCTL fun c => c.pwrReq s.now.toNat dd on } := by
  cases on <;> rfl

theorem exec_powerTransitionEnd (dd : Fin 30) :
    exec (.powerTransitionEnd dd) s = .next { s with chip := s.chip.pwrEnd s.now.toNat dd } := rfl

theorem exec_go (ag : Agent) (k : Fin 16) (v : BitVec 64) : exec (.go ag k v) s =
    .next { s with chip := s.chip.byPower ag (.SYS_TEST k) fun c => c.testWrite s.now.toNat k v } := rfl

theorem exec_cancel (ag : Agent) (k : Fin 16) : exec (.cancel ag k) s =
    .next { s with chip := s.chip.byPower ag (.SYS_TEST k) fun c => c.testCancel k } := rfl

theorem exec_testStart (k : Fin 16) : exec (.testStart k) s = .next { s with chip := s.chip.testStart k } := rfl

theorem exec_testEnd (k : Fin 16) (pass : Bool) (detail : BitVec 32) : exec (.testEnd k pass detail) s =
    .next { s with chip := s.chip.testEnd s.now.toNat k pass detail.toNat } := rfl

theorem exec_thermalSample (temps : List (BitVec 8)) : exec (.thermalSample temps) s =
    .next { s with chip := if s.chip.off then s.chip else s.chip.thermSample s.now.toNat temps } := rfl

theorem exec_overtemperature : exec .overtemperature s =
    .next { s with chip := if s.chip.off then s.chip else s.chip.overTemp s.now.toNat } := rfl

end Sys2Proof.Machine

open Sys2Proof Sys2Proof.Machine

/-- Settles O53: a domain's request and its transition by their equations, a test by the laws of its slot, and the temperature by
those of a reading; a command whose trigger does not hold changes nothing (log 3), and a request during a transition waits for
its end (log 43). -/
theorem powerTestsHeat : Obligations.PowerTestsHeat := by
  unfold Obligations.PowerTestsHeat
  intro s ag dd k v detail temps tj sn t on c now may req pwr r kind n st go asked lone ended
  have hk : k.val < 16 := k.isLt
  refine ⟨fun ⟨off, may⟩ hd => ⟨fun idle other allowed => ?changes, fun down idle up needed => ?needed, fun busy => ?waits⟩,
    fun no => ?power', fun off busy none_ => ⟨fun up => ?down, fun down lo hi => ?banks⟩, fun idle => ?moved',
    fun ⟨off, may⟩ ⟨go, keep, waiting, runs⟩ => ?go, fun ⟨off, may⟩ queued => ?cancel, fun no => ⟨?go', ?cancel'⟩,
    fun no => ⟨?cancelled', ?started'⟩, fun off queued lone free => ⟨fun kind hn => ?bank, fun kind hn => ?spare, fun kind hn => ?lane⟩,
    fun no => ?held', fun off runs => ⟨fun kind hn => ⟨?bankPassed, ?bankFailed⟩, fun kind hn => ⟨?sparePassed, ?spareFailed⟩⟩,
    fun no => ?ended', fun off hot => ⟨fun below => ?sample, fun over_ free => ?fatal⟩, fun off => ?sampleOff,
    fun off hot late => ?heat, fun cool => ?heat'⟩
  case changes =>
    refine ⟨_, exec_power ag dd on, ?_⟩
    rw [Chip.byPower_of off may]
    exact Chip.pwrReq_begins now hd dd.isLt idle other allowed
  case needed =>
    obtain rfl := down
    refine ⟨_, exec_power ag dd false, ?_⟩
    rw [Chip.byPower_of off may]
    exact Chip.pwrReq_refused now hd dd.isLt idle up needed
  case waits =>
    refine ⟨_, exec_power ag dd on, ?_⟩
    rw [Chip.byPower_of off may]
    exact Chip.pwrReq_waits now hd dd.isLt busy on
  case power' =>
    have kept : s.chip.byPower ag .SYS_PWRCTL (fun c => c.pwrReq s.now.toNat dd on) = s.chip := by
      rcases no with denied | zero
      · exact Chip.byPower_of_denied denied _
      · rw [Chip.byPower, zero, Chip.pwrReq_of_zero, ite_self]
    exact (exec_power ag dd on).trans (by rw [kept])
  case down =>
    exact ⟨_, exec_powerTransitionEnd dd, Chip.pwrEnd_downs off busy none_ dd.isLt up now⟩
  case banks => exact ⟨_, exec_powerTransitionEnd dd, Chip.pwrEnd_ups off busy none_ lo hi down now⟩
  case moved' => rw [exec_powerTransitionEnd, Chip.pwrEnd_of_idle idle]
  case go =>
    exact ⟨_, exec_go ag k v, by rw [Chip.byPower_of off may]; exact Chip.testWrite_asks now hk go keep waiting runs⟩
  case cancel => exact ⟨_, exec_cancel ag k, by rw [Chip.byPower_of off may]; exact Chip.testCancel_cancels queued⟩
  case go' => rw [exec_go, Chip.byPower_of_denied no]
  case cancel' => rw [exec_cancel, Chip.byPower_of_denied no]
  case cancelled' =>
    have kept : s.chip.byPower ag (.SYS_TEST k) (fun c => c.testCancel k) = s.chip := by
      rw [Chip.byPower, Chip.testCancel_of_other no, ite_self]
    rw [exec_cancel, kept]
  case started' => rw [exec_testStart, Chip.testStart_of_other no]
  case bank => exact ⟨_, exec_testStart k, Chip.testStart_bank off queued lone free hk kind⟩
  case spare => exact ⟨_, exec_testStart k, Chip.testStart_spare off queued lone free hk kind⟩
  case lane => exact ⟨_, exec_testStart k, Chip.testStart_lane off queued lone free hk kind⟩
  case held' => rw [exec_testStart, Chip.testStart_of_held no]
  case bankPassed =>
    exact ⟨_, exec_testEnd k true detail, Chip.testEnd_bank_passed off runs hk detail.isLt now kind⟩
  case bankFailed =>
    obtain ⟨shown, stands, mem, owner⟩ := Chip.testEnd_bank_failed off runs hk detail.isLt now kind n
    exact ⟨_, exec_testEnd k false detail, shown, stands, mem, owner hn⟩
  case sparePassed => exact ⟨_, exec_testEnd k true detail, Chip.testEnd_spare_passed off runs hk detail.isLt now kind⟩
  case spareFailed => exact ⟨_, exec_testEnd k false detail, Chip.testEnd_spare_failed off runs hk detail.isLt now kind hn⟩
  case ended' => rw [exec_testEnd, Chip.testEnd_of_other no]
  case sample => exact ⟨_, exec_thermalSample temps, by rw [off]; exact Chip.thermSample_below now hot below⟩
  case fatal => exact ⟨_, exec_thermalSample temps, by rw [off]; exact Chip.thermSample_fatal now hot over_ off free⟩
  case sampleOff => rw [exec_thermalSample, if_pos off]
  case heat => exact ⟨_, exec_overtemperature, by rw [off]; exact Chip.overTemp_reports now hot late⟩
  case heat' => rw [exec_overtemperature, Chip.overTemp_of_cool cool, ite_self]
end

section
/-! What engines, the host and snapshots write (R183, R228): the bytes of a word and of a run of bytes, where no word of memory has
flipped bits. -/
namespace Sys2Proof.Machine

/-! ### Octets of a number -/

theorem getD_bytesLE (n v : Nat) {i : Nat} (h : i < n) : (bytesLE n v).getD i 0 = BitVec.ofNat 8 (v / 2 ^ (8 * i)) := by
  induction n generalizing v i with
  | zero => omega
  | succ n ih =>
    cases i with
    | zero => simp [bytesLE]
    | succ i =>
      have step : v / 256 / 2 ^ (8 * i) = v / 2 ^ (8 * (i + 1)) := by
        rw [Nat.div_div_eq_div_mul, show 8 * (i + 1) = 8 + 8 * i by omega, Nat.pow_add]
      rw [bytesLE, List.getD_cons_succ, ih _ (by omega), step]

theorem getD_natLE (l : List Byte) (i : Nat) : BitVec.ofNat 8 (natLE l / 2 ^ (8 * i)) = l.getD i 0 := by
  induction l generalizing i with
  | nil => simp [natLE]
  | cons b r ih =>
    have small := b.isLt
    cases i with
    | zero =>
      apply BitVec.eq_of_toNat_eq
      simp only [natLE, Nat.mul_zero, Nat.pow_zero, Nat.div_one, BitVec.toNat_ofNat, List.getD_cons_zero]
      omega
    | succ i =>
      have step : natLE (b :: r) / 2 ^ (8 * (i + 1)) = natLE r / 2 ^ (8 * i) := by
        rw [show 8 * (i + 1) = 8 + 8 * i by omega, Nat.pow_add, ← Nat.div_div_eq_div_mul, natLE]
        congr 1
        omega
      rw [step, ih, List.getD_cons_succ]

/-- The octets of a merge come from the new value where they are enabled, and from the old one elsewhere. -/
theorem byte_mergeBytes {n i : Nat} (h : i < n) (be old new : Nat) :
    BitVec.ofNat 8 (mergeBytes n be old new / 2 ^ (8 * i)) = BitVec.ofNat 8 ((if be.testBit i then new else old) / 2 ^ (8 * i)) := by
  rw [mergeBytes, getD_natLE, List.getD_eq_getElem _ _ (by simpa using h)]
  simp

namespace Chip
variable {c d : Chip} {a b be i : Nat} {v : DWord}

/-! ### A word written -/

theorem byte_setBytes (c : Chip) (a b : Nat) (l : List Byte) :
    (c.setBytes a l).byte b = if a ≤ b ∧ b < a + l.length then l.getD (b - a) 0 else c.byte b := by
  induction l generalizing c a with
  | nil => exact (if_neg (by simp)).symm
  | cons v r ih =>
    rw [setBytes, ih, List.length_cons]
    by_cases hb : b = a
    · subst hb
      simp [byte_setByte_same]
    · rw [byte_setByte_other _ _ hb]
      by_cases hr : a + 1 ≤ b ∧ b < a + 1 + r.length
      · rw [if_pos hr, if_pos (by omega), show b - a = (b - (a + 1)) + 1 by omega, List.getD_cons_succ]
      · rw [if_neg hr, if_neg (by omega)]

theorem byte_storeWord (c : Chip) (a : Nat) (w : DWord) (b : Nat) :
    (c.storeWord a w).byte b = if b / 8 = a / 8 then BitVec.ofNat 8 (w.toNat / 2 ^ (8 * (b % 8))) else c.byte b := by
  rw [storeWord, byte_setFlips, byte_setBytes, length_bytesLE]
  by_cases h : b / 8 = a / 8
  · rw [if_pos (by omega), if_pos h, getD_bytesLE _ _ (by omega), show b - a / 8 * 8 = b % 8 by omega]
  · rw [if_neg (by omega), if_neg h]

theorem byte_rawNat (c : Chip) (n a : Nat) {i : Nat} (h : i < n) :
    BitVec.ofNat 8 (c.rawNat n a / 2 ^ (8 * i)) = c.byte (a + i) := by
  induction n generalizing a i with
  | zero => omega
  | succ n ih =>
    have small := (c.byte a).isLt
    cases i with
    | zero =>
      apply BitVec.eq_of_toNat_eq
      simp only [rawNat, Nat.mul_zero, Nat.pow_zero, Nat.div_one, BitVec.toNat_ofNat, Nat.add_zero]
      omega
    | succ i =>
      have step : c.rawNat (n + 1) a / 2 ^ (8 * (i + 1)) = c.rawNat n (a + 1) / 2 ^ (8 * i) := by
        rw [show 8 * (i + 1) = 8 + 8 * i by omega, Nat.pow_add, ← Nat.div_div_eq_div_mul, rawNat]
        congr 1
        omega
      rw [step, ih _ (by omega), Nat.add_assoc, Nat.add_comm 1 i]

/-- The octets of the word that holds a byte. -/
theorem byte_word (c : Chip) (b : Nat) : BitVec.ofNat 8 ((c.word (b / 8 * 8)).toNat / 2 ^ (8 * (b % 8))) = c.byte b := by
  have whole : (c.word (b / 8 * 8)).toNat = c.rawNat 8 (b / 8 * 8) :=
    (BitVec.toNat_ofNat _ _).trans (Nat.mod_eq_of_lt (c.rawNat_lt 8 _))
  rw [whole, byte_rawNat _ _ _ (by omega), show b / 8 * 8 + b % 8 = b by omega]

theorem fillRegion_byte (c : Chip) (a b : Nat) : (c.fillRegion a).byte b = c.byte b := by
  rw [byte, fillRegion_mem, ← byte]

/-- A write of enabled bytes into a word without flipped bits (R228). -/
theorem writeWord_of_ecc_nil (he : c.ecc = []) (now a be : Nat) (v : DWord) (who : Option Nat) :
    c.writeWord now a be v who = (c.fillRegion (a / 8 * 8)).storeWord (a / 8 * 8) (if be % 256 = 255 then v
      else BitVec.ofNat 64 (mergeBytes 8 be ((c.fillRegion (a / 8 * 8)).word (a / 8 * 8)).toNat v.toNat)) := by
  have clean := (c.fillRegion_ecc (a / 8 * 8)).trans he
  have aligned : a / 8 * 8 / 8 * 8 = a / 8 * 8 := by omega
  unfold writeWord
  simp only [readCode_of_ecc_nil clean, aligned]
  split
  · rfl
  · rfl

theorem testBit_of_full (h : be % 256 = 255) (hi : i < 8) : be.testBit i = true := by
  have low := Nat.testBit_mod_two_pow be 8 i
  rw [show 2 ^ 8 = 256 from rfl, h] at low
  have full : Nat.testBit 255 i = true := by
    have : ∀ j < 8, Nat.testBit 255 j = true := by decide
    exact this i hi
  simpa [full, hi] using low.symm

theorem mergeBytes_lt (n be old new : Nat) : mergeBytes n be old new < 2 ^ (8 * n) := by
  have := BitVec.ofNat_natLE ((List.range n).map fun i => BitVec.ofNat 8 ((if be.testBit i then new else old) / 2 ^ (8 * i)))
  simpa [mergeBytes] using this

theorem byte_writeWord (he : c.ecc = []) (now a be : Nat) (v : DWord) (who : Option Nat) (b : Nat) :
    (c.writeWord now a be v who).byte b =
      if b / 8 = a / 8 ∧ be.testBit (b % 8) = true then BitVec.ofNat 8 (v.toNat / 2 ^ (8 * (b % 8))) else c.byte b := by
  rw [writeWord_of_ecc_nil he, byte_storeWord, show a / 8 * 8 / 8 = a / 8 by omega]
  by_cases h : b / 8 = a / 8
  · by_cases full : be % 256 = 255
    · simp [h, full, testBit_of_full full (show b % 8 < 8 by omega)]
    · have whole := Nat.mod_eq_of_lt (mergeBytes_lt 8 be ((c.fillRegion (a / 8 * 8)).word (a / 8 * 8)).toNat v.toNat)
      rw [if_pos h, if_neg full, BitVec.toNat_ofNat, whole, byte_mergeBytes (by omega), ← h]
      cases be.testBit (b % 8) with
      | true => simp
      | false => simp [byte_word, fillRegion_byte]
  · simp [h, fillRegion_byte]

theorem ecc_writeWord (he : c.ecc = []) (now a be : Nat) (v : DWord) (who : Option Nat) :
    (c.writeWord now a be v who).ecc = [] := by
  rw [writeWord_of_ecc_nil he]
  obtain ⟨m, stored⟩ := (c.fillRegion (a / 8 * 8)).storeWord_eq (a / 8 * 8) (if be % 256 = 255 then v
    else BitVec.ofNat 64 (mergeBytes 8 be ((c.fillRegion (a / 8 * 8)).word (a / 8 * 8)).toNat v.toNat))
  rw [stored]
  change (c.fillRegion (a / 8 * 8)).ecc.erase _ = []
  rw [fillRegion_ecc, he]
  rfl

/-! ### A store that other caches see -/

theorem storeVisible_writes (he : c.ecc = []) (now a be : Nat) (v : DWord) (who src : Option Nat) :
    (∀ b, (c.storeVisible now a be v who src).byte b =
      if b / 8 = a / 8 ∧ be.testBit (b % 8) = true then BitVec.ofNat 8 (v.toNat / 2 ^ (8 * (b % 8))) else c.byte b) ∧
      (c.storeVisible now a be v who src).ecc = [] := by
  refine ⟨fun b => ?_, ?_⟩
  · rw [storeVisible, byte, snoopAll_mem, ← byte, byte_writeWord he]
  · obtain ⟨r, l, p, x, seen⟩ := (c.writeWord now a be v who).snoopAll_eq (lineOf a) src
    rw [storeVisible, seen]
    exact ecc_writeWord he now a be v who

/-! ### A run of bytes -/

/-- The bytes that a chunk enables in its word are those from its address on. -/
theorem testBit_enables (r n i : Nat) : ((2 ^ n - 1) * 2 ^ r).testBit i = (decide (r ≤ i) && decide (i < r + n)) := by
  rw [Nat.testBit_mul_two_pow, Nat.testBit_two_pow_sub_one]
  by_cases h : r ≤ i
  · simp [h, show (i - r < n) = (i < r + n) by simp; omega]
  · simp [h]

theorem byte_shifted {l : List Byte} {r : Nat} (h : l.length + r ≤ 8) (hi : r ≤ i) :
    BitVec.ofNat 8 ((BitVec.ofNat 64 (natLE l * 2 ^ (8 * r))).toNat / 2 ^ (8 * i)) = l.getD (i - r) 0 := by
  have fits : natLE l * 2 ^ (8 * r) < 2 ^ 64 := by
    calc natLE l * 2 ^ (8 * r) < 2 ^ (8 * l.length) * 2 ^ (8 * r) :=
          Nat.mul_lt_mul_of_pos_right (BitVec.ofNat_natLE l) (Nat.two_pow_pos _)
      _ = 2 ^ (8 * l.length + 8 * r) := (Nat.pow_add ..).symm
      _ ≤ 2 ^ 64 := Nat.pow_le_pow_right (by decide) (by omega)
  rw [BitVec.toNat_ofNat, Nat.mod_eq_of_lt fits, show 8 * i = 8 * r + 8 * (i - r) by omega, Nat.pow_add,
    ← Nat.div_div_eq_div_mul, Nat.mul_div_cancel _ (Nat.two_pow_pos _), getD_natLE]

/-- The first chunk ends at the word's end; the rest follows. -/
theorem writeBytes_cons (c : Chip) (now : Nat) (who : Option Nat) (fuel a : Nat) (x : Byte) (r : List Byte) :
    let p := (x :: r).take (8 - a % 8)
    c.writeBytes now who (fuel + 1) a (x :: r) = (c.storeVisible now a ((2 ^ p.length - 1) * 2 ^ (a % 8))
      (BitVec.ofNat 64 (natLE p * 2 ^ (8 * (a % 8)))) who none).writeBytes now who fuel (a + p.length)
        ((x :: r).drop (8 - a % 8)) := rfl

/-- A run of bytes stands where it was written, and every other byte is as it was. -/
theorem writeBytes_writes (he : c.ecc = []) (now : Nat) (who : Option Nat) {fuel : Nat} (a : Nat) {l : List Byte}
    (h : l.length ≤ fuel) :
    (∀ b, (c.writeBytes now who fuel a l).byte b = if a ≤ b ∧ b < a + l.length then l.getD (b - a) 0 else c.byte b) ∧
      (c.writeBytes now who fuel a l).ecc = [] := by
  induction fuel generalizing c a l with
  | zero =>
    obtain rfl := List.length_eq_zero_iff.1 (Nat.le_zero.1 h)
    exact ⟨fun b => (if_neg (by simp)).symm, he⟩
  | succ fuel ih =>
    cases l with
    | nil => exact ⟨fun b => (if_neg (by simp)).symm, he⟩
    | cons x r =>
      have cut := List.take_append_drop (8 - a % 8) (x :: r)
      have some_ : 0 < ((x :: r).take (8 - a % 8)).length := by
        rw [List.length_take, List.length_cons]; omega
      have room : ((x :: r).take (8 - a % 8)).length + a % 8 ≤ 8 := by
        rw [List.length_take]; omega
      rw [writeBytes_cons]
      generalize (x :: r).take (8 - a % 8) = p at cut some_ room ⊢
      generalize (x :: r).drop (8 - a % 8) = q at cut ⊢
      rw [← cut, List.length_append] at h ⊢
      obtain ⟨first, clean⟩ := storeVisible_writes he now a ((2 ^ p.length - 1) * 2 ^ (a % 8))
        (BitVec.ofNat 64 (natLE p * 2 ^ (8 * (a % 8)))) who none
      obtain ⟨rest, clean'⟩ := ih clean (a + p.length) (l := q) (by omega)
      refine ⟨fun b => ?_, clean'⟩
      rw [rest, first, testBit_enables]
      by_cases late : a + p.length ≤ b ∧ b < a + p.length + q.length
      · rw [if_pos late, if_pos (by omega), List.getD_append_right _ _ _ _ (by omega), Nat.sub_sub]
      · rw [if_neg late]
        by_cases early : a ≤ b ∧ b < a + p.length
        · have inWord : b / 8 = a / 8 ∧ (decide (a % 8 ≤ b % 8) && decide (b % 8 < a % 8 + p.length)) = true := by
            rw [Bool.and_eq_true, decide_eq_true_eq, decide_eq_true_eq]; omega
          rw [if_pos inWord, if_pos (by omega), byte_shifted room (by omega), List.getD_append _ _ _ _ (by omega),
            show b % 8 - a % 8 = b - a by omega]
        · rw [if_neg, if_neg (by omega)]
          rw [Bool.and_eq_true, decide_eq_true_eq, decide_eq_true_eq]; omega

theorem writeBytes_wrote (he : c.ecc = []) (now : Nat) (who : Option Nat) (a : Nat) (l : List Byte) :
    Wrote c (c.writeBytes now who l.length a l) a l := by
  obtain ⟨bytes, -⟩ := writeBytes_writes he now who a (Nat.le_refl l.length)
  refine ⟨fun i hi => ?_, fun b out _ => ?_⟩
  · rw [bytes, if_pos (by omega), Nat.add_sub_cancel_left]
  · rw [bytes, if_neg (by omega)]

/-! ### What a store leaves -/

/-- The registers that a store may write: how far a DRAM port is filled, and a full invalidation queue. -/
abbrev StoreAddr (a : Nat) : Prop :=
  a = (RegName.DRM_INIT 0).addr ∨ a = (RegName.DRM_INIT 1).addr ∨ ∃ t, a = (RegName.CLU_EVSTAT t).addr

/-- Memory and what caches and transactions note of stores apart, the chip is as it was. -/
structure StoreFrame (c d : Chip) : Prop where
  rest : d = { c with
    regs := d.regs, mem := d.mem, ecc := d.ecc, filled := d.filled, lanes := d.lanes, ports := d.ports, triads := d.triads }
  rd : ∀ q : RegName, ¬ StoreAddr q.addr → d.rd q = c.rd q

namespace StoreFrame
variable {e : Chip}

theorem refl (c : Chip) : StoreFrame c c := ⟨rfl, fun _ _ => rfl⟩

theorem trans (h : StoreFrame c d) (k : StoreFrame d e) : StoreFrame c e :=
  ⟨k.rest.trans (congrArg (fun x : Chip => { x with
    regs := e.regs, mem := e.mem, ecc := e.ecc, filled := e.filled, lanes := e.lanes, ports := e.ports, triads := e.triads })
    h.rest), fun q hq => (k.rd q hq).trans (h.rd q hq)⟩

theorem of_onlyRegs {rs : List RegName} (h : OnlyRegs c d rs) (hr : ∀ r ∈ rs, StoreAddr r.addr) : StoreFrame c d :=
  ⟨by rw [h.1], fun q hq => h.2 q fun hm => hq (by
    obtain ⟨r, hr', he⟩ := List.mem_map.1 hm
    exact he ▸ hr r hr')⟩

theorem foldl {α : Type} {f : Chip → α → Chip} {l : List α} (c : Chip) (hf : ∀ c, ∀ x ∈ l, StoreFrame c (f c x)) :
    StoreFrame c (l.foldl f c) := by
  induction l generalizing c with
  | nil => exact refl c
  | cons x r ih => exact (hf c x (by simp)).trans (ih _ fun c y hy => hf c y (by simp [hy]))

end StoreFrame

theorem fillRegion_storeFrame (c : Chip) (a : Nat) : StoreFrame c (c.fillRegion a) := by
  unfold fillRegion
  split
  next p dram =>
    have own : StoreAddr (RegName.DRM_INIT p).addr := by
      have := region_dram_le_one dram
      obtain rfl | rfl : p = 0 ∨ p = 1 := by omega
      · exact .inl rfl
      · exact .inr (.inl rfl)
    have shown : ∀ (c : Chip) (f : Fld) (n : Nat), StoreFrame c (c.sf (.DRM_INIT p) f n) := fun c f n =>
      .of_onlyRegs (.sf c f n (List.mem_singleton.2 rfl)) (by simpa using own)
    have counted : ∀ l n, StoreFrame c (({ c with filled := l } : Chip).sf (.DRM_INIT p) DRM_INIT.REGIONS n) := fun l n =>
      .trans (d := { c with filled := l }) ⟨rfl, fun _ _ => rfl⟩ (shown _ _ _)
    dsimp only
    split
    · exact .refl c
    · split
      · exact (counted _ _).trans (shown _ _ _)
      · exact counted _ _
  next => exact .refl c

theorem snoop_storeFrame (c : Chip) (line key : Nat) : StoreFrame c (c.snoop line key) := by
  have conflict : StoreFrame c (if (c.port key).tx.rset.contains line then c.txConflict key 0x02 else c) := by
    split
    · obtain ⟨p, x, aborted⟩ := c.txConflict_eq key 0x02
      rw [aborted]
      exact ⟨rfl, fun _ _ => rfl⟩
    · exact .refl c
  have entered : ∀ c : Chip, StoreFrame c (c.enterInv (key / 3) line) := fun c => by
    have noted : ∀ x, StoreFrame c (c.setTriad (key / 3) x) := fun x => ⟨rfl, fun _ _ => rfl⟩
    unfold enterInv
    dsimp only
    split
    · exact (noted _).trans (.of_onlyRegs (.sf _ _ _ (List.mem_singleton.2 rfl)) fun r hr => by
        rw [List.mem_singleton.1 hr]; exact .inr (.inr ⟨_, rfl⟩))
    · exact noted _
  unfold snoop
  generalize (if (c.port key).tx.rset.contains line then c.txConflict key 0x02 else c) = u at conflict ⊢
  dsimp only
  split
  · exact conflict.trans (d := u) ⟨rfl, fun _ _ => rfl⟩
  · split
    · exact conflict.trans (entered u)
    · exact conflict

theorem storeVisible_storeFrame (he : c.ecc = []) (now a be : Nat) (v : DWord) (who src : Option Nat) :
    StoreFrame c (c.storeVisible now a be v who src) := by
  have stored : ∀ (c : Chip) (a : Nat) (w : DWord), StoreFrame c (c.storeWord a w) := fun c a w => by
    obtain ⟨m, h⟩ := c.storeWord_eq a w
    rw [h]
    exact ⟨rfl, fun _ _ => rfl⟩
  rw [storeVisible, writeWord_of_ecc_nil he]
  exact ((c.fillRegion_storeFrame _).trans (stored _ _ _)).trans (.foldl _ fun c k _ => c.snoop_storeFrame _ k)

theorem writeBytes_storeFrame (he : c.ecc = []) (now : Nat) (who : Option Nat) (fuel a : Nat) (l : List Byte) :
    StoreFrame c (c.writeBytes now who fuel a l) := by
  induction fuel generalizing c a l with
  | zero => exact .refl c
  | succ fuel ih =>
    cases l with
    | nil => exact .refl c
    | cons x r =>
      rw [writeBytes_cons]
      exact (storeVisible_storeFrame he ..).trans (ih (storeVisible_writes he ..).2 _ _)

end Chip
end Sys2Proof.Machine
end

section
/-! A warm device reset (R464, R465) whose load waits for the core supply or the reference clock: what is left of the die. -/
namespace Sys2Proof.Machine

/-- A register without a kept field returns to its reset value. -/
theorem rd_keepRegs (t : Tab DWord) {r : RegName} (own : regOf r.addr = some r) (none_ : keptFields r = []) :
    (keepRegs t).get r.reset r.addr = r.reset := by
  refine List.foldlRecOn (motive := fun u : Tab DWord => u.get r.reset r.addr = r.reset) t _ rfl fun u hu e _ => ?_
  by_cases he : r.addr = e.1
  · rw [← he, own]
    simp only [none_, List.foldl_nil]
    exact Tab.get_put_same ..
  · split
    · rw [Tab.get_put_other _ _ _ _ he, hu]
    · exact hu

namespace Chip
variable {c : Chip}

/-- The registers of the sweeps. -/
def sweepRegs : List RegName := (List.range 96).map fun k => .CLU_SWEEP (k / 12) (k % 12)

/-- Sweeps that the reset stopped show in their own registers alone. -/
theorem keepSweeps_onlyRegs (old c : Chip) : OnlyRegs c (keepSweeps old c) sweepRegs := by
  refine .foldl c fun d k hk => ?_
  have own : RegName.CLU_SWEEP (k / 12) (k % 12) ∈ sweepRegs := List.mem_map.2 ⟨k, hk, rfl⟩
  dsimp only
  split
  · exact .trans (.sf d _ _ own) (.sf _ _ _ own)
  · exact .refl d _

theorem fltState_not_sweepRegs : RegName.FLT_STATE.addr ∉ sweepRegs.map RegName.addr := by
  simp only [sweepRegs, List.map_map, List.mem_map, not_exists, not_and]
  intro k _ h
  simp only [Function.comp_apply, RegName.addr] at h
  omega

/-- What a warm reset keeps of the die, before its load begins. -/
structure Restarted (c d : Chip) : Prop where
  off : d.off = false
  lanes : d.lanes = []
  triads : d.triads = []
  ports : d.ports = []
  commits : d.commits = []
  leat : d.leat = []
  flash : d.flash = c.flash
  state : d.gf .FLT_STATE FLT_STATE.STATE = 1
  bytes : ∀ a : Nat, d.byte a = if inJournal a = true then c.byte a else 0
  corePg : d.boot.corePg = c.boot.corePg
  refclk : d.boot.refclk = c.boot.refclk
  mgt : d.mgt = { c.mgt with running := [] }

/-- The collector's state and the fields beside the registers are untouched by writes elsewhere. -/
theorem Restarted.of_rest {d e : Chip} (h : Restarted c d) (rest : e = { d with regs := e.regs, book := e.book })
    (state : e.rd .FLT_STATE = d.rd .FLT_STATE) : Restarted c e := by
  refine ⟨?_, ?_, ?_, ?_, ?_, ?_, ?_, ?_, fun a => ?_, ?_, ?_, ?_⟩
  · rw [rest]; exact h.off
  · rw [rest]; exact h.lanes
  · rw [rest]; exact h.triads
  · rw [rest]; exact h.ports
  · rw [rest]; exact h.commits
  · rw [rest]; exact h.leat
  · rw [rest]; exact h.flash
  · rw [gf_eq, state, ← gf_eq, h.state]
  · rw [rest]; exact h.bytes a
  · rw [rest]; exact h.corePg
  · rw [rest]; exact h.refclk
  · rw [rest]; exact h.mgt

theorem Restarted.bookInc {d : Chip} (h : Restarted c d) (o : Nat) : Restarted c (d.bookInc o) := h.of_rest rfl rfl

theorem Restarted.sf {d : Chip} (h : Restarted c d) {r : RegName} (f : Fld) (n : Nat)
    (hr : RegName.FLT_STATE.addr ≠ r.addr) : Restarted c (d.sf r f n) := h.of_rest rfl (rd_sf_other _ _ _ hr)

theorem warmState_restarts (c : Chip) : Restarted c c.warmState := by
  have kept : ∃ n : Chip, c.warmState = keepSweeps c n ∧ n.regs = keepRegs c.regs ∧ n.mem = c.mem.dropKeys (fun a => !inJournal a) ∧
      n.off = false ∧ n.lanes = [] ∧ n.triads = [] ∧ n.ports = [] ∧ n.commits = [] ∧ n.leat = [] ∧ n.flash = c.flash ∧
      n.boot.corePg = c.boot.corePg ∧ n.boot.refclk = c.boot.refclk ∧ n.mgt = { c.mgt with running := [] } :=
    ⟨_, rfl, rfl, rfl, rfl, rfl, rfl, rfl, rfl, rfl, rfl, rfl, rfl, rfl⟩
  obtain ⟨n, swept, regs, mem, off, lanes, triads, ports, commits, leat, flash, corePg, refclk, mgt⟩ := kept
  obtain ⟨rest, regs'⟩ := keepSweeps_onlyRegs c n
  have state : n.rd .FLT_STATE = RegName.FLT_STATE.reset := by
    rw [rd, regs]
    exact rd_keepRegs _ rfl rfl
  rw [swept]
  refine Restarted.of_rest (d := n) ⟨off, lanes, triads, ports, commits, leat, flash, ?_, fun a => ?_, corePg, refclk, mgt⟩
    (by rw [rest]) (regs' _ fltState_not_sweepRegs)
  · rw [gf_eq, state]; decide
  · rw [byte, mem, Tab.get_dropKeys]
    cases inJournal a <;> rfl

/-- The load waits at its first step. -/
def loadWaiting (c : Chip) : Chip := { c with boot := { c.boot with warm := true, step := 1 } }

theorem regs_sf_withBoot (c : Chip) (b : Boot) (r : RegName) (f : Fld) (n : Nat) :
    (({ c with boot := b } : Chip).sf r f n).regs = (c.sf r f n).regs := rfl

theorem bootBegin_waits (now : Nat) (h : (c.boot.refclk && c.boot.corePg) = false) : c.bootBegin now true =
    (if c.boot.refclk then c.sf .TIM_STATUS TIM_STATUS.LOCK 1 else c).loadWaiting := by
  unfold bootBegin loadWaiting
  cases hr : c.boot.refclk with
  | false => simp [hr]
  | true =>
    have none_ : c.boot.corePg = false := by simpa [hr] using h
    simp [hr, none_]
    exact regs_sf_withBoot ..

/-- A warm reset whose load waits (R43, R511): the load stands at its first step. -/
theorem warmReset_waits (h : c.LoadWaits) (now : Nat) : ∃ d : Chip, Restarted c d ∧ c.warmReset now = d.loadWaiting := by
  obtain ⟨off, waits⟩ := h
  have booked : Restarted c (c.warmState.bookInc 0x4C) := c.warmState_restarts.bookInc _
  have reset : c.warmReset now = (c.warmState.bookInc 0x4C).bootBegin now true := by
    rw [warmReset, off]
    rfl
  generalize c.warmState.bookInc 0x4C = d at booked reset
  have lock : Restarted c (if d.boot.refclk then d.sf .TIM_STATUS TIM_STATUS.LOCK 1 else d) := by
    split
    · exact booked.sf _ _ (by decide)
    · exact booked
  have stalled : (d.boot.refclk && d.boot.corePg) = false := by
    rw [booked.refclk, booked.corePg]
    rcases waits with h | h <;> simp [h]
  exact ⟨_, lock, reset.trans (bootBegin_waits now stalled)⟩

/-- The die after a warm reset whose load waits. -/
theorem warmReset_warmFrom (h : c.LoadWaits) (now : Nat) : c.WarmFrom (c.warmReset now) ∧ (c.warmReset now).boot.step = 1 ∧
    (c.warmReset now).leat = [] ∧ (c.warmReset now).mgt = { c.mgt with running := [] } := by
  obtain ⟨d, kept, reset⟩ := warmReset_waits h now
  rw [reset]
  exact ⟨⟨kept.off, rfl, kept.lanes, kept.triads, kept.ports, kept.commits, kept.flash, kept.state, kept.bytes⟩, rfl, kept.leat,
    kept.mgt⟩

end Chip
end Sys2Proof.Machine
end

section
/-! The cascade ring (R445 to R449) and snapshots (R444, R447). -/
namespace Sys2Proof.Machine
variable {s : State}

namespace Chip
variable {c d : Chip} {now n k t : Nat}

/-! ### Barrier groups across devices (R242, R445) -/

theorem barRelease_eq (c : Chip) (g key : Nat) : ∃ l x, c.barRelease g key = { c with lanes := l, triads := x } := by
  unfold barRelease
  split
  · exact ⟨_, _, rfl⟩
  · obtain ⟨x, h⟩ := c.want_rest (key / 3) (.barEnd g)
    exact ⟨_, x, h⟩

theorem foldl_barRelease_eq (c : Chip) (g : Nat) (a : List Nat) :
    ∃ l x, a.foldl (fun c k => c.barRelease g k) c = { c with lanes := l, triads := x } := by
  refine List.foldlRecOn (motive := fun d : Chip => ∃ l x, d = { c with lanes := l, triads := x }) _ _ ⟨_, _, rfl⟩ ?_
  rintro _ ⟨l, x, rfl⟩ k -
  obtain ⟨l', x', h⟩ := barRelease_eq { c with lanes := l, triads := x } g k
  exact ⟨l', x', h⟩

/-- What `SYS_BARSTAT` shows of a group follows the group. -/
theorem barSync_onlyRegs (c : Chip) (g : Nat) : OnlyRegs c (c.barSync g) [.SYS_BARSTAT g] :=
  .trans (.sf c _ _ (by simp)) (.sf _ _ _ (by simp))

theorem barSync_rounds (c : Chip) (g : Nat) :
    (c.barSync g).gf (.SYS_BARSTAT g) SYS_BARSTAT.ROUNDS = c.gf (.SYS_BARSTAT g) SYS_BARSTAT.ROUNDS := by
  rw [barSync, gf_sf_field _ _ _ _ _ (by decide) (by decide) (by decide), gf_sf_field _ _ _ _ _ (by decide) (by decide) (by decide)]

/-- A round that ends is counted, and the group has no arrivals. -/
theorem barEnd_ends (c : Chip) (g : Nat) :
    let d := c.barEnd g
    (d.bar g).arrived = [] ∧ d.mem = c.mem ∧ d.cas = c.cas ∧
      d.gf (.SYS_BARSTAT g) SYS_BARSTAT.ROUNDS = min (c.gf (.SYS_BARSTAT g) SYS_BARSTAT.ROUNDS + 1) SYS_BARSTAT.ROUNDS.max := by
  intro d
  obtain ⟨l, x, released⟩ := ((c.setBar g { arrived := [] }).inc (.SYS_BARSTAT g) SYS_BARSTAT.ROUNDS).foldl_barRelease_eq g
    (c.bar g).arrived
  have ended : d = ((c.bar g).arrived.foldl (fun c k => c.barRelease g k)
    ((c.setBar g { arrived := [] }).inc (.SYS_BARSTAT g) SYS_BARSTAT.ROUNDS)).barSync g := rfl
  have counted := gf_inc_same (c.setBar g { arrived := [] }) (.SYS_BARSTAT g) SYS_BARSTAT.ROUNDS (by decide) (by decide)
  have only : OnlyRegs (c.setBar g { arrived := [] }) ((c.setBar g { arrived := [] }).inc (.SYS_BARSTAT g) SYS_BARSTAT.ROUNDS)
    [.SYS_BARSTAT g] := .sf _ _ _ (by simp)
  rw [released] at ended
  generalize (c.setBar g { arrived := [] }).inc (.SYS_BARSTAT g) SYS_BARSTAT.ROUNDS = u at ended counted only
  have synced := ({ u with lanes := l, triads := x } : Chip).barSync_onlyRegs g
  have rounds := ({ u with lanes := l, triads := x } : Chip).barSync_rounds g
  rw [← ended] at synced rounds
  have bars : u.bars = (c.setBar g { arrived := [] }).bars := by rw [only.1]
  refine ⟨?_, ?_, ?_, rounds.trans counted⟩
  · rw [bar, synced.1]
    change (u.bars.get {} g).arrived = []
    rw [bars, ← bar, bar_setBar_same]
  · rw [synced.1]; exact only.sameCore.1
  · rw [synced.1]; change u.cas = _; rw [only.1]; rfl

/-- The tallies that the master keeps of the other devices. -/
theorem getD_tallies (l : Tab (Nat × Nat)) (k : Nat) :
    (Tab.get (0, 0) (l.map fun e : Nat × Nat × Nat => (e.1, e.2.1, 0)) k).1 = (Tab.get (0, 0) l k).1 := by
  induction l with
  | nil => rfl
  | cons e r ih =>
    simp only [List.map_cons, Tab.get]
    split
    · rfl
    · exact ih

/-- The ring's links, and how many members of the cascade group each other device has. -/
structure SameRing (c d : Chip) : Prop where
  lost : d.cas.lost = c.cas.lost
  members : ∀ k, (d.cas.bars.get (0, 0) k).1 = (c.cas.bars.get (0, 0) k).1

theorem SameRing.of_cas (h : d.cas = c.cas) : SameRing c d := ⟨by rw [h], fun k => by rw [h]⟩

theorem barSync_cas (c : Chip) (g : Nat) : (c.barSync g).cas = c.cas := by rw [(c.barSync_onlyRegs g).1]
theorem barEnd_cas (c : Chip) (g : Nat) : (c.barEnd g).cas = c.cas := (c.barEnd_ends g).2.2.1

theorem casCheck_sameRing (c : Chip) (m a : Nat) : SameRing c (c.casCheck m a) := by
  unfold casCheck
  split
  · exact .of_cas (barSync_cas _ 15)
  · split
    · exact ⟨by rw [barEnd_cas]; rfl, fun k => by rw [barEnd_cas]; exact getD_tallies c.cas.bars k⟩
    · exact .of_cas (barSync_cas _ 15)

/-- A check of the cascade group ends its round or not; how many members each device has stays. -/
theorem barCheck_sameRing (c : Chip) (g : Nat) : SameRing c (c.barCheck g) := by
  unfold barCheck
  dsimp only
  split
  · exact .of_cas (barSync_cas _ g)
  · split
    · exact c.casCheck_sameRing _ _
    · split
      · exact .of_cas (barEnd_cas _ g)
      · exact .of_cas (barSync_cas _ g)

/-- The master notes another device's members and arrivals. -/
theorem globalIn_arrive (master : c.casMaster = true) (now : Nat) (dv : BitVec 2) (m ar : BitVec 8) :
    let d := c.globalIn now (.barrierArrive dv m ar)
    (d.cas.bars.get (0, 0) dv.toNat).1 = m.toNat ∧ d.mem = c.mem := by
  have noted : c.globalIn now (.barrierArrive dv m ar) =
      ({ c with cas := { c.cas with bars := c.cas.bars.set dv.toNat (m.toNat, ar.toNat) } } : Chip).barCheck 15 := if_pos master
  rw [noted]
  refine ⟨?_, (barCheck_haltFrame _ (by decide)).mem⟩
  rw [(barCheck_sameRing _ 15).members]
  exact congrArg Prod.fst (Tab.get_set_same ..)

/-! ### Links of the ring (R445) -/

/-- The devices that the ring reaches. -/
def ringDevices (c : Chip) : List Nat :=
  if c.cas.heard.keys.any (fun k => !c.cas.lost.contains k) then List.range (c.gf .CAS_CFG CAS_CFG.SIZE) else [c.casId]

/-- What the ring's links tell of the devices, before the cascade group is checked again. -/
def ringShown (c : Chip) (reach : List Nat) : Chip :=
  let d := c.sf .CAS_STAT CAS_STAT.REACH (reach.foldl setBit 0)
  (d.sf .CAS_STAT CAS_STAT.MASTER (reach.foldl min d.casId)).sf .CAS_STAT CAS_STAT.BROKEN (bit !c.cas.lost.isEmpty)

theorem ringReach_eq (c : Chip) : c.ringReach = (c.ringShown c.ringDevices).barCheck 15 := by
  unfold ringReach ringShown ringDevices
  rfl

theorem ringShown_fields (c : Chip) (reach : List Nat) :
    (c.ringShown reach).gf .CAS_STAT CAS_STAT.BROKEN = bit !c.cas.lost.isEmpty ∧
      (c.ringShown reach).gf .CAS_STAT CAS_STAT.LINKLOSS = c.gf .CAS_STAT CAS_STAT.LINKLOSS ∧
      OnlyRegs c (c.ringShown reach) [.CAS_STAT] := by
  refine ⟨?_, ?_, .trans (.trans (.sf c _ _ (by simp)) (.sf _ _ _ (by simp))) (.sf _ _ _ (by simp))⟩
  · rw [ringShown, gf_sf_same _ _ _ _ (by decide) (by decide)]
    cases c.cas.lost.isEmpty <;> rfl
  · rw [ringShown, gf_sf_field _ _ _ _ _ (by decide) (by decide) (by decide),
      gf_sf_field _ _ _ _ _ (by decide) (by decide) (by decide), gf_sf_field _ _ _ _ _ (by decide) (by decide) (by decide)]

/-- The ring's registers beside its links, after the reach has been found anew. -/
theorem ringReach_shows (c : Chip) : c.ringReach.gf .CAS_STAT CAS_STAT.BROKEN = bit !c.cas.lost.isEmpty ∧
    c.ringReach.gf .CAS_STAT CAS_STAT.LINKLOSS = c.gf .CAS_STAT CAS_STAT.LINKLOSS ∧ c.ringReach.cas.lost = c.cas.lost ∧
    c.ringReach.mem = c.mem := by
  obtain ⟨broken, losses, only⟩ := c.ringShown_fields c.ringDevices
  have checked := (c.ringShown c.ringDevices).barCheck_haltFrame (g := 15) (by decide)
  have away : ¬ BarAddr RegName.CAS_STAT.addr := by decide
  rw [ringReach_eq]
  refine ⟨(checked.gf _ away).trans broken, (checked.gf _ away).trans losses, ?_, checked.mem.trans only.sameCore.1⟩
  rw [((c.ringShown c.ringDevices).barCheck_sameRing 15).lost, only.1]

/-- A ring link is noted as lost and counted. -/
def ringLinkGone (c : Chip) (k : Nat) : Chip :=
  ({ c with cas := { c.cas with lost := addNew c.cas.lost k } } : Chip).inc .CAS_STAT CAS_STAT.LINKLOSS

/-- A ring link without a heartbeat for 10 µs is lost, counted, and a contained fault of source 16. -/
theorem ringLost_reports (ho : c.off = false) (ring : c.cascade = true) (held : k ∉ c.cas.lost)
    (late : c.cas.heard.get 0 k + 10000 ≤ now) :
    let d := c.ringLost now k
    k ∈ d.cas.lost ∧ d.gf .CAS_STAT CAS_STAT.BROKEN = 1 ∧
      d.gf .CAS_STAT CAS_STAT.LINKLOSS = min (c.gf .CAS_STAT CAS_STAT.LINKLOSS + 1) CAS_STAT.LINKLOSS.max ∧ d.stands 16 1 ∧
      d.mem = c.mem := by
  have told : c.ringLost now k = ((c.ringLinkGone k).ringReach).contained now 16 none none := by
    have due : (c.off || !c.cascade || c.cas.lost.contains k || decide (now < c.cas.heard.get 0 k + 10000)) = false := by
      simp [ho, ring, held, late]
    exact if_neg (ne_true_of_eq_false due)
  have losses : (c.ringLinkGone k).gf .CAS_STAT CAS_STAT.LINKLOSS = min (c.gf .CAS_STAT CAS_STAT.LINKLOSS + 1) CAS_STAT.LINKLOSS.max :=
    gf_inc_same ({ c with cas := { c.cas with lost := addNew c.cas.lost k } } : Chip) .CAS_STAT CAS_STAT.LINKLOSS
      (by decide) (by decide)
  have lost : (c.ringLinkGone k).cas.lost = addNew c.cas.lost k := by rw [ringLinkGone, inc, sf_cas]
  have mem : (c.ringLinkGone k).mem = c.mem := by rw [ringLinkGone, inc, sf_mem]
  rw [told]
  generalize c.ringLinkGone k = u at losses lost mem ⊢
  obtain ⟨broken, losses', lost', mem'⟩ := u.ringReach_shows
  have frame := (u.ringReach).contained_unitFrame now (src := 16) (by decide) none none
  have away : ¬ FltAddr RegName.CAS_STAT.addr := by decide
  refine ⟨?_, (frame.gf _ away).trans (broken.trans ?_), (frame.gf _ away).trans (losses'.trans losses),
    contained_stands _ now (by decide) none none, frame.mem.trans (mem'.trans mem)⟩
  · rw [contained_cas, lost', lost]
    exact mem_addNew _ _
  · have some_ : (addNew c.cas.lost k).isEmpty = false := List.isEmpty_eq_false_iff_exists_mem.2 ⟨k, mem_addNew _ _⟩
    rw [lost, some_]
    rfl

theorem ringLost_of_not (h : k ∈ c.cas.lost ∨ now < c.cas.heard.get 0 k + 10000) : c.ringLost now k = c := by
  have : (c.off || !c.cascade || c.cas.lost.contains k || decide (now < c.cas.heard.get 0 k + 10000)) = true := by
    rcases h with h | h <;> simp [h]
  exact if_pos this

/-! ### Frames of the ring (R446) -/

/-- A frame for a remote path waits with the path's others. -/
theorem relayIn_import {n : BitVec 10} (en : c.pEn n.toNat = true) (wcp : c.pWcp n.toNat = true) (far : 0x80 ≤ c.pLane n.toNat)
    (on : c.domainOn 19 = true) (now : Nat) (time : BitVec 64) (b : List Byte) : c.relayIn now (.toImporter n time b) =
      c.setPth n.toNat { c.pth n.toNat with rxq := (c.pth n.toNat).rxq ++ [(b, time.toNat)] } := by
  simp [relayIn, en, far, on, pathInput, wcp, updPth_eq]

/-- Nothing queued is discarded where no brake is set. -/
theorem purge_of_allowed {ln : Nat} (h : ∀ f ∈ (c.eg ln).queue, c.frameAllowed f = true) (now : Nat) :
    c.purge now ln = c.setEg ln (c.eg ln) := by
  have none_ : (c.eg ln).queue.filter (fun f => !c.frameAllowed f) = [] := List.filter_eq_nil_iff.2 fun f hf => by simp [h f hf]
  have all : (c.eg ln).queue.filter c.frameAllowed = (c.eg ln).queue := List.filter_eq_self.2 h
  simp only [purge, none_, all, List.foldl_nil]

theorem frameAllowed_of_free (hb : c.flt.deviceBrake = false) (hp : c.flt.partBrakes = []) (f : EFrame) :
    c.frameAllowed f = true := by
  simp [frameAllowed, hb, hp]

/-- A lane that sends starts no other frame. -/
theorem kick_of_sending {ln : Nat} (hb : c.flt.deviceBrake = false) (hp : c.flt.partBrakes = []) {e : EFrame}
    (cur : (c.eg ln).cur = some e) (now : Nat) : c.kick now ln = c.setEg ln (c.eg ln) := by
  have purged := purge_of_allowed (c := c) (ln := ln) (fun f _ => frameAllowed_of_free hb hp f) now
  have sends : ((c.setEg ln (c.eg ln)).eg ln).cur.isSome = true := by rw [eg_setEg_same, cur]; rfl
  unfold kick kickLine
  rw [purged]
  simp only [sends, Bool.true_or, if_true]

/-- The frame as it waits at the egress of its lane. -/
def atEgress (c : Chip) (now : Nat) (f : EFrame) : EFrame :=
  { f with arr := c.arrive.1, since := now, cls := c.pathClass f.path, prio := c.gf (.CHN_PATHCFG f.path) CHN_PATHCFG.PRIO }

/-- A control frame joins the queue of a SerDes lane that sends. -/
theorem handOver_queues {f : EFrame} (kind : f.kind = .control) (active : c.muted = false) (serdes : c.pLane f.path < 20)
    (up : c.linkUp (c.pLane f.path) = true) (hb : c.flt.deviceBrake = false) (hp : c.flt.partBrakes = []) {e : EFrame}
    (cur : (c.eg (c.pLane f.path)).cur = some e) (now : Nat) : ∃ x : Egress,
      x.queue = (c.eg (c.pLane f.path)).queue ++ [c.atEgress now f] ∧ c.handOver now f = c.arrive.2.setEg (c.pLane f.path) x := by
  generalize hl : c.pLane f.path = ln at *
  let x := { c.eg ln with queue := (c.eg ln).queue ++ [c.atEgress now f] }
  refine ⟨x, rfl, ?_⟩
  have queued : c.handOver now f = (c.arrive.2.setEg ln x).kick now ln := by
    have near : ¬ 0x80 ≤ ln := by omega
    have line : isField ln = false := by simp [isField]; omega
    have active' : c.arrive.2.muted = false := active
    have up' : c.arrive.2.linkUp ln = true := up
    have plain : ¬ (f.kind = .first ∨ f.kind = .safe) := by simp [kind]
    unfold handOver
    simp only [hl, plain, if_false, active', up', near, line, Bool.false_eq_true, if_true]
    rfl
  have sends : ((c.arrive.2.setEg ln x).eg ln).cur = some e := by rw [eg_setEg_same]; exact cur
  rw [queued, kick_of_sending (c := c.arrive.2.setEg ln x) hb hp sends, eg_setEg_same, setEg_setEg]

/-! ### Snapshots (R447) -/

theorem wants_openRound (c : Chip) (t u : Nat) : ((c.openRound t).triad u).wants = (c.triad u).wants := by
  unfold openRound
  split
  · rw [updTriad_eq]
    by_cases h : u = t
    · subst h
      rw [triad_setTriad_same]
      split <;> rfl
    · rw [triad_setTriad_other _ _ _ _ h]
  · rfl

/-- A digest that is asked for stays wanted. -/
theorem wants_want_digest (c : Chip) (t u : Nat) :
    ((c.want t .digest).triad u).wants = if u = t then addNew (c.triad u).wants .digest else (c.triad u).wants := by
  have asked : c.want t .digest = (c.updTriad t (fun x => { x with wants := addNew x.wants .digest })).openRound t := by
    simp [want, ownDecision]
  rw [asked, wants_openRound, updTriad_eq]
  by_cases h : u = t
  · subst h
    rw [triad_setTriad_same, if_pos rfl]
  · rw [triad_setTriad_other _ _ _ _ h, if_neg h]

theorem mem_addNew_of_mem {α : Type} [DecidableEq α] {l : List α} {x : α} (h : x ∈ l) (y : α) : x ∈ addNew l y := by
  unfold addNew
  split
  · exact h
  · exact List.mem_append_left _ h

/-- A digest of each of several triads is asked for. -/
def wantDigests (c : Chip) (l : List Nat) : Chip := l.foldl (fun c t => c.want t .digest) c

theorem wantDigests_eq (c : Chip) (l : List Nat) : ∃ x, c.wantDigests l = { c with triads := x } := by
  refine List.foldlRecOn (motive := fun d : Chip => ∃ x, d = { c with triads := x }) _ _ ⟨_, rfl⟩ ?_
  rintro _ ⟨x, rfl⟩ t -
  exact want_rest { c with triads := x } t .digest

theorem mem_wantDigests (c : Chip) {l : List Nat} (h : t ∈ l) : .digest ∈ ((c.wantDigests l).triad t).wants := by
  have kept : ∀ (l : List Nat) (c : Chip), .digest ∈ (c.triad t).wants → .digest ∈ ((c.wantDigests l).triad t).wants := fun l => by
    induction l with
    | nil => exact fun c hc => hc
    | cons u r ih =>
      refine fun c hc => ih (c.want u .digest) ?_
      rw [wants_want_digest]
      split
      · exact mem_addNew_of_mem hc _
      · exact hc
  induction l generalizing c with
  | nil => exact absurd h List.not_mem_nil
  | cons u r ih =>
    rcases List.mem_cons.1 h with rfl | hr
    · refine kept r (c.want t .digest) ?_
      rw [wants_want_digest, if_pos rfl]
      exact mem_addNew _ _
    · exact ih _ hr

/-- A triad that still wants its digest has not reached its count. -/
theorem snapReached_of_wanted (live : c.live t = true) (wanted : .digest ∈ (c.triad t).wants) : c.snapReached t = false := by
  simp [snapReached, live, wanted]

/-- While no triad has reached its count the snapshot stands as it is. -/
theorem snapPoll_of_none {r : SnapRun} (snap : c.snap = some r) (none_ : ∀ t ∈ r.left, c.snapReached t = false)
    (some_ : r.left ≠ []) (now : Nat) : c.snapPoll now = c := by
  have hit : r.left.filter c.snapReached = [] := List.filter_eq_nil_iff.2 fun t ht => by simp [none_ t ht]
  have all : r.left.filter (fun t => !([] : List Nat).contains t) = r.left := List.filter_eq_self.2 fun t _ => by simp
  have same : ({ r with left := r.left, counts := r.counts ++ [] } : SnapRun) = r := by rw [List.append_nil]
  unfold snapPoll
  rw [snap]
  simp only [hit, all, List.filter_nil, List.map_nil, same, List.isEmpty_iff, some_, if_false]
  rw [← snap]

/-- The request of a snapshot of the triads `l`, with SYS_SNAP busy. -/
def snapAsked (c : Chip) (a : Nat) (rejoin : Bool) (l : List Nat) : Chip :=
  ({ c with snap := some { addr := a, rejoin := rejoin, left := l } } : Chip).sf .SYS_SNAP SYS_SNAP.BUSY 1

theorem snapStart_eq (c : Chip) (now a : Nat) (rejoin : Bool) :
    c.snapStart now a rejoin = ((c.snapAsked a rejoin c.triadsLive).wantDigests c.triadsLive).snapPoll now := rfl

/-- A snapshot of running triads waits for the digest of each. -/
theorem snapStart_holds (now a : Nat) (rejoin : Bool) (some_ : c.triadsLive ≠ []) :
    let d := c.snapStart now a rejoin
    d.gb .SYS_SNAP SYS_SNAP.BUSY = true ∧ SameCore c d ∧ ∃ r, d.snap = some r ∧ r.addr = a ∧ r.rejoin = rejoin ∧
      r.left = c.triadsLive := by
  have base : SameCore c (c.snapAsked a rejoin c.triadsLive) := .sf _ _ _ _
  have snap : (c.snapAsked a rejoin c.triadsLive).snap = some { addr := a, rejoin := rejoin, left := c.triadsLive } := sf_snap ..
  have busy : (c.snapAsked a rejoin c.triadsLive).gb .SYS_SNAP SYS_SNAP.BUSY = true := gb_sf_one _ _ rfl (by decide)
  have live : ∀ t, (c.snapAsked a rejoin c.triadsLive).live t = c.live t := fun t => by
    have state : (c.snapAsked a rejoin c.triadsLive).tstate t = c.tstate t :=
      tstate_sf_other _ _ _ t (by simp only [RegName.addr]; omega)
    rw [Chip.live, state, ← Chip.live]
  have alive : ∀ t ∈ c.triadsLive, c.live t = true := fun t ht => by
    have := (List.mem_filter.1 ht).2
    simp only [Bool.and_eq_true] at this
    exact this.1
  rw [snapStart_eq]
  generalize c.snapAsked a rejoin c.triadsLive = u at *
  have wanted := fun t (ht : t ∈ c.triadsLive) => u.mem_wantDigests ht
  obtain ⟨x, asked⟩ := u.wantDigests_eq c.triadsLive
  rw [asked] at wanted ⊢
  rw [snapPoll_of_none (c := { u with triads := x }) snap (fun t ht => snapReached_of_wanted ((live t).trans (alive t ht))
    (wanted t ht)) some_]
  exact ⟨busy, base, _, snap, rfl, rfl, rfl⟩

end Chip

end Sys2Proof.Machine
end

section
/-! Requests of snapshots and their record (R447). -/
namespace Sys2Proof.Machine
variable {s : State}

namespace Chip
variable {c d : Chip} {now n k t : Nat}

/-- The requests of snapshots apart, the chip is as it was. -/
structure SnapFrame (c d : Chip) : Prop where
  rest : d = { c with
    regs := d.regs, snap := d.snap }
  rd : ∀ q : RegName, q.addr ≠ RegName.SYS_SNAP.addr → d.rd q = c.rd q

namespace SnapFrame

theorem of_onlyRegs (h : OnlyRegs c d [.SYS_SNAP]) : SnapFrame c d :=
  ⟨by rw [h.1], fun q hq => h.2 q (by simpa using hq)⟩

theorem trans {e : Chip} (h : SnapFrame c d) (k : SnapFrame d e) : SnapFrame c e :=
  ⟨k.rest.trans (congrArg (fun x : Chip => { x with
    regs := e.regs, snap := e.snap }) h.rest), fun q hq => (k.rd q hq).trans (h.rd q hq)⟩

theorem with_snap (c : Chip) (x : Option SnapRun) : SnapFrame c { c with snap := x } := ⟨rfl, fun _ _ => rfl⟩

theorem gf (h : SnapFrame c d) {q : RegName} (hq : q.addr ≠ RegName.SYS_SNAP.addr) (f : Fld) : d.gf q f = c.gf q f := by
  rw [gf_eq, gf_eq, h.rd q hq]

theorem sameCore (h : SnapFrame c d) : SameCore c d := by
  rw [h.rest]
  exact ⟨rfl, rfl, rfl, rfl⟩

theorem live (h : SnapFrame c d) (t : Nat) : d.live t = c.live t := by
  rw [Chip.live, tstate, h.gf (by simp only [RegName.addr]; omega), ← tstate, ← Chip.live]

theorem triadsLive (h : SnapFrame c d) : d.triadsLive = c.triadsLive := by
  have split : ∀ t, d.split t = c.split t := fun t => by
    rw [Chip.split, gb, h.gf (by simp only [RegName.addr]; omega), ← gb, ← Chip.split]
  simp only [Chip.triadsLive, h.live, split]

theorem mgrOwns (h : SnapFrame c d) (n : Nat) : d.mgrOwns n = c.mgrOwns n := by
  have owner := h.gf (q := .BNK_OWNER n) (by simp only [RegName.addr]; omega)
  simp only [Chip.mgrOwns, gb, owner]

theorem snapOk (h : SnapFrame c d) (a : Nat) : d.snapOk a = c.snapOk a := by
  simp only [Chip.snapOk, h.mgrOwns]

theorem snapWords (h : SnapFrame c d) (l : List (Nat × Nat)) : d.snapWords l = c.snapWords l := by
  have cseq : d.nextCseq = c.nextCseq := by rw [h.rest]; rfl
  have que : ∀ q, d.que q = c.que q := fun q => by rw [h.rest]; rfl
  have tx : ∀ n, d.txseq n = c.txseq n := fun n => h.gf (by simp only [RegName.addr]; omega) _
  have rx : ∀ n, d.rxnext n = c.rxnext n := fun n => h.gf (by simp only [RegName.addr]; omega) _
  have epoch : ∀ n, d.epoch n = c.epoch n := fun n => h.gf (by simp only [RegName.addr]; omega) _
  have gen : ∀ q, d.queGen q = c.queGen q := fun q => h.gf (by simp only [RegName.addr]; omega) _
  simp only [Chip.snapWords, cseq, que, tx, rx, epoch, gen]

end SnapFrame

theorem snapAsked_frame (c : Chip) (a : Nat) (rejoin : Bool) (l : List Nat) : SnapFrame c (c.snapAsked a rejoin l) :=
  .trans (.with_snap c _) (.of_onlyRegs (.sf _ _ _ (by simp)))

theorem wrote_of_mem {u w : Chip} {a : Nat} {l : List Byte} (h : Wrote u w a l) (hc : u.mem = c.mem) (hd : d.mem = w.mem) :
    Wrote c d a l := by
  unfold Wrote byte at *
  rw [hd, ← hc]
  exact h

/-- A snapshot of no triads ends at once. -/
theorem snapPoll_of_empty {a : Nat} (snap : c.snap = some { addr := a, rejoin := false, left := [] }) (now : Nat) :
    c.snapPoll now = (c.writeBytes now none ((c.snapWords []).flatMap (bytesLE 8)).length a
      ((c.snapWords []).flatMap (bytesLE 8))).snapRelease now := by
  have same : ({ c with snap := some { addr := a, rejoin := false, left := [] } } : Chip) = c := by rw [← snap]
  unfold snapPoll
  rw [snap]
  simp only [List.filter_nil, List.map_nil, List.append_nil, List.isEmpty_nil, if_true, snapEnd, same, Bool.false_eq_true,
    if_false]

/-- Where nothing waits for the snapshot its end releases nothing. -/
theorem snapRelease_of_idle (commits : c.commits = []) (ques : c.chan.ques = []) (now : Nat) :
    c.snapRelease now = ({ c with snap := none } : Chip).sf .SYS_SNAP SYS_SNAP.BUSY 0 := by
  unfold snapRelease
  have commits' : (({ c with snap := none } : Chip).sf .SYS_SNAP SYS_SNAP.BUSY 0).commits = [] := by rw [sf_commits]; exact commits
  have ques' : (({ c with snap := none } : Chip).sf .SYS_SNAP SYS_SNAP.BUSY 0).chan.ques = [] := by rw [sf_chan]; exact ques
  generalize ({ c with snap := none } : Chip).sf .SYS_SNAP SYS_SNAP.BUSY 0 = u at *
  have pumped : u.commitPumpAll now = u := by rw [commitPumpAll, commits']; rfl
  simp only [pumped, ques', Tab.keys, List.map_nil, List.foldl_nil]

/-- A snapshot with no triad running is written at once. -/
theorem snapStart_taken (now a : Nat) (none_ : c.triadsLive = []) (commits : c.commits = []) (ques : c.chan.ques = [])
    (he : c.ecc = []) :
    let d := c.snapStart now a false
    d.gb .SYS_SNAP SYS_SNAP.BUSY = false ∧ d.snap = none ∧ Wrote c d a ((c.snapWords []).flatMap (bytesLE 8)) := by
  have asked := c.snapAsked_frame a false []
  have words := asked.snapWords []
  have snap : (c.snapAsked a false []).snap = some { addr := a, rejoin := false, left := [] } := sf_snap ..
  have started : c.snapStart now a false = (c.snapAsked a false []).snapPoll now := by rw [snapStart_eq, none_]; rfl
  rw [started]
  generalize c.snapAsked a false [] = u at *
  have ecc : u.ecc = [] := by rw [asked.rest]; exact he
  have wrote := writeBytes_wrote ecc now none a ((c.snapWords []).flatMap (bytesLE 8))
  have kept := writeBytes_storeFrame ecc now none ((c.snapWords []).flatMap (bytesLE 8)).length a
    ((c.snapWords []).flatMap (bytesLE 8))
  rw [snapPoll_of_empty snap, words]
  generalize u.writeBytes now none ((c.snapWords []).flatMap (bytesLE 8)).length a ((c.snapWords []).flatMap (bytesLE 8)) = w at *
  have commits' : w.commits = [] := by rw [kept.rest, asked.rest]; exact commits
  have ques' : w.chan.ques = [] := by rw [kept.rest, asked.rest]; exact ques
  have mem : u.mem = c.mem := asked.sameCore.1
  have ended := snapRelease_of_idle commits' ques' now
  have released : SnapFrame w (w.snapRelease now) := by
    rw [ended]
    exact .trans (.with_snap w _) (.of_onlyRegs (.sf _ _ _ (by simp)))
  dsimp only
  refine ⟨?_, ?_, ?_⟩
  · rw [ended]; exact gb_sf_zero _ _ (by decide) (by decide)
  · rw [ended, sf_snap]
  · exact wrote_of_mem wrote mem released.sameCore.1

/-- A write of SYS_SNAP leaves the other registers, and whether a snapshot is under way. -/
theorem plainWrite_snap (c : Chip) (now : Nat) (v : DWord) : SnapFrame c (c.plainWrite now .SYS_SNAP v) ∧
    (c.plainWrite now .SYS_SNAP v).snap = c.snap := by
  have written : ∀ w, SnapFrame c (c.wr .SYS_SNAP w) ∧ (c.wr .SYS_SNAP w).snap = c.snap :=
    fun w => ⟨.of_onlyRegs (.wr c w (by simp)), rfl⟩
  have law : c.plainWrite now .SYS_SNAP v = c.wr .SYS_SNAP (applyWrite RegName.SYS_SNAP.fields (c.rd .SYS_SNAP) v) := rfl
  rw [law]
  exact written _

/-- A snapshot that is asked for and can be taken begins (R447). -/
theorem snapWrite_starts {v : DWord} (go : SYS_SNAP.GO.get v = 1) (casc : SYS_SNAP.CASC.get v = 0)
    (busy : c.gb .SYS_SNAP SYS_SNAP.BUSY = false) (allowed : c.snapOk (64 * SYS_SNAP.ADDR.get v) = true) :
    c.snapWrite now v = (c.plainWrite now .SYS_SNAP v).snapStart now (64 * SYS_SNAP.ADDR.get v) false := by
  have ok : (c.plainWrite now .SYS_SNAP v).snapOk (64 * SYS_SNAP.ADDR.get v) = true :=
    ((c.plainWrite_snap now v).1.snapOk _).trans allowed
  generalize hd : c.plainWrite now .SYS_SNAP v = d at ok ⊢
  have asked : ¬ SYS_SNAP.GO.get v = 0 := by omega
  have alone : (SYS_SNAP.CASC.get v == 1) = false := by rw [casc]; rfl
  simp only [snapWrite, hd, asked, alone, busy, ok, Bool.false_and, Bool.or_false, Bool.not_true, Bool.false_eq_true, if_false]

/-- One that cannot be taken is reported. -/
theorem snapWrite_refused {v : DWord} (go : SYS_SNAP.GO.get v = 1)
    (refused : c.gb .SYS_SNAP SYS_SNAP.BUSY = true ∨ c.snapOk (64 * SYS_SNAP.ADDR.get v) = false) :
    c.snapWrite now v = (c.plainWrite now .SYS_SNAP v).cfgReport now 0x07 0 RegName.SYS_SNAP.addr := by
  have ok := (c.plainWrite_snap now v).1.snapOk (64 * SYS_SNAP.ADDR.get v)
  generalize hd : c.plainWrite now .SYS_SNAP v = d at ok ⊢
  have asked : ¬ SYS_SNAP.GO.get v = 0 := by omega
  have told : ∀ b : Bool, (c.gb .SYS_SNAP SYS_SNAP.BUSY || b || !d.snapOk (64 * SYS_SNAP.ADDR.get v)) = true := fun b => by
    rcases refused with h | h
    · simp [h]
    · simp [ok, h]
  simp only [snapWrite, hd, asked, told, if_true, if_false]

theorem corrected_snap (c : Chip) (now src : Nat) : (c.corrected now src).snap = c.snap := by
  obtain ⟨f, reported⟩ := c.corrected_eq now src
  simp only [reported, setSticky, wr_snap]

theorem cfgReport_shows (c : Chip) (now addr : Nat) {code : Nat} (small : code < 256) :
    let d := c.cfgReport now code 0 addr
    d.gf .CFG_SYND CFG_SYND.CODE = code ∧ d.stands 18 0 ∧ d.snap = c.snap ∧ SameCore c d := by
  refine ⟨?_, corrected_stands _ now (by decide), ?_, (c.cfgReport_frame now code 0 addr).2⟩
  · rw [cfgReport, (corrected_unitFrame _ now 18).gf _ (by decide), gf_sf_field _ _ _ _ _ (by decide) (by decide) (by decide),
      gf_sf_field _ _ _ _ _ (by decide) (by decide) (by decide), gf_sf_same _ _ _ _ (by decide) (by decide)]
    exact Nat.mod_eq_of_lt small
  · simp only [cfgReport, corrected_snap, sf_snap]

end Chip

/-! ### Commands -/

theorem exec_relay (r : RelayMsg) (ho : s.chip.off = false) (ring : s.chip.cascade = true) :
    exec (.relay r) s = .next { s with
      chip := s.chip.relayIn s.now.toNat r } := by
  change execRelay r s = _
  simp [execRelay, State.act, ho, ring]

theorem exec_globalMsg (g : GlobalMsg) (ho : s.chip.off = false) (ring : s.chip.cascade = true) :
    exec (.globalMsg g) s = .next { s with
      chip := s.chip.globalIn s.now.toNat g } := by
  change execGlobalMsg g s = _
  simp [execGlobalMsg, State.act, ho, ring]

/-- Without a ring its messages change nothing. -/
theorem exec_ring_of_none (h : s.chip.off = true ∨ s.chip.cascade = false) :
    (∀ r, exec (.relay r) s = .next s) ∧ (∀ g, exec (.globalMsg g) s = .next s) ∧ ∀ k, exec (.ringLinkLoss k) s = .next s := by
  have none_ : (s.chip.off || !s.chip.cascade) = true := by rcases h with h | h <;> simp [h]
  refine ⟨fun r => ?_, fun g => ?_, fun k => ?_⟩
  · change execRelay r s = _
    simp only [execRelay, State.act, none_, if_true]
  · change execGlobalMsg g s = _
    simp only [execGlobalMsg, State.act, none_, if_true]
  · change execRingLinkLoss k s = _
    simp only [execRingLinkLoss, State.act, Chip.ringLost, none_, Bool.true_or, if_true]

theorem exec_ringLinkLoss (k : Fin 2) : exec (.ringLinkLoss k) s = .next { s with
    chip := s.chip.ringLost s.now.toNat k } := rfl

theorem exec_resetall (ag : Agent) : exec (.resetall ag) s = .next { s with
    chip := s.chip.byWriter ag .CAS_CTL fun c => c.resetAll s.now.toNat } := rfl

theorem exec_snapshot (ag : Agent) (v : BitVec 64) : exec (.snapshot ag v) s = .next { s with
    chip := s.chip.byWriter ag .SYS_SNAP fun c => c.snapWrite s.now.toNat v } := rfl

theorem exec_rejoinCopyEnd : exec .rejoinCopyEnd s = .next { s with
    chip := s.chip.copyDone s.now.toNat } := rfl

namespace Chip
variable {c d : Chip} {now n : Nat}

/-- The end of the copy of a rejoin asks for the snapshot (R444). -/
theorem copyDone_starts (ho : c.off = false) (rejoins : c.pairState = 3) (copying : c.pair.copying = true)
    (free : c.gb .SYS_SNAP SYS_SNAP.BUSY = false) : c.copyDone now = c.snapStart now 0 true := by
  simp [copyDone, ho, rejoins, copying, free]

theorem copyDone_of_not (h : c.pair.copying = false ∨ c.gb .SYS_SNAP SYS_SNAP.BUSY = true) : c.copyDone now = c := by
  rcases h with h | h <;> simp [copyDone, h]

theorem byWriter_of_idle {ag : Agent} {r : RegName} {f : Chip → Chip} (h : f c = c) : c.byWriter ag r f = c := by
  rw [byWriter, h, ite_self]

/-- The master resets every device, itself first. -/
theorem resetAll_resets (h : c.LoadWaits) (master : c.casMaster = true) :
    let d := c.resetAll now
    c.WarmFrom d ∧ d.boot.step = 1 ∧ d.leat = [.globalOp .reset] := by
  obtain ⟨warm, step, leat, -⟩ := warmReset_warmFrom h now
  have all : c.resetAll now = (c.warmReset now).leatPut (.globalOp .reset) := if_pos master
  rw [all]
  generalize c.warmReset now = u at *
  refine ⟨?_, step, by rw [leatPut, leat]; rfl⟩
  obtain ⟨off, warm, lanes, triads, ports, commits, flash, state, bytes⟩ := warm
  exact ⟨off, warm, lanes, triads, ports, commits, flash, state, bytes⟩

theorem resetAll_of_not (h : c.casMaster = false) : c.resetAll now = c := if_neg (ne_true_of_eq_false h)

/-- The master takes arrivals alone (R445, R447, R448). -/
theorem globalIn_of_master (h : c.casMaster = true) (now : Nat) : c.globalIn now .barrierRelease = c ∧
    (∀ a, c.globalIn now (.snapshot a) = c) ∧ c.globalIn now .reset = c :=
  ⟨if_pos h, fun _ => if_pos (by simp [h]), if_pos h⟩

/-- Any other device takes what the master sends. -/
theorem globalIn_of_member (h : c.casMaster = false) (now : Nat) : c.globalIn now .barrierRelease = c.barEnd 15 ∧
    (∀ d m a, c.globalIn now (.barrierArrive d m a) = c) ∧ c.globalIn now .reset = c.warmReset now ∧
    ∀ a : PAddr, c.gb .SYS_SNAP SYS_SNAP.BUSY = false → c.snapOk a.toNat = true →
      c.globalIn now (.snapshot a) = c.snapStart now a.toNat false :=
  ⟨if_neg (ne_true_of_eq_false h), fun _ _ _ => if_neg (ne_true_of_eq_false h), if_neg (ne_true_of_eq_false h),
    fun a free ok => if_neg (by simp [h, free, ok])⟩

/-- A frame for a local path goes to its lane with its sequence for the line. -/
theorem relayIn_export (now : Nat) {e : BitVec 6} {b f : List Byte} (en : c.gb (.CAS_EXPORT e.toNat) CAS_EXPORT.EN = true)
    (frame : c.laneFrame (c.gf (.CAS_EXPORT e.toNat) CAS_EXPORT.PATH) b = some f) :
    c.relayIn now (.toExporter e b) = c.handOver now
      { path := c.gf (.CAS_EXPORT e.toNat) CAS_EXPORT.PATH, cls := 0, prio := 0, arr := 0, bytes := f, kind := .control } := by
  simp [relayIn, en, frame]

theorem relayIn_export_of_disabled (now : Nat) {e : BitVec 6} (b : List Byte)
    (off : c.gb (.CAS_EXPORT e.toNat) CAS_EXPORT.EN = false) : c.relayIn now (.toExporter e b) = c := by
  simp [relayIn, off]

end Chip

end Sys2Proof.Machine

open Sys2Proof Sys2Proof.Machine

/-- Settles O52: each command answers the chip that its law above names. That a message without its ring and a command whose
trigger does not hold change nothing is the model's choice (log 3); the heartbeats of a link rest on log 40 and 41, the record
and its end on log 42. -/
theorem cascadeAndSnapshots : Obligations.CascadeAndSnapshots := by
  unfold Obligations.CascadeAndSnapshots
  intro s ag k nn e dv time v b f m ar e0 adr c now n ring same stat x p ln busy a bare held taken
  refine ⟨fun on => ⟨fun en wcp far power => ?imports, ?transit, fun en frame near up active hb hp cur empty => ?exports,
      fun disabled => ?noExport, fun master => ?master, fun follows => ?member, fun lives late => ?lost⟩,
    fun none_ => ?noRing, fun still => ?noLoss, fun may master waits => ?resetall, fun denied => ?noReset,
    fun on may go casc => ⟨fun free ok bare none_ => ?taken, fun free ok some_ => ?held, fun refused => ?refused⟩,
    fun denied => ?noSnap, fun on rejoins copying free some_ => ?copied, fun still => ?noCopy⟩
  case imports =>
    have law := exec_relay (.toImporter nn time b) on.1 on.2
    rw [Chip.relayIn_import en wcp far power] at law
    exact ⟨_, law, by rw [Chip.pth_setPth_same], rfl, .setPth c _ _⟩
  case transit => exact ⟨_, exec_relay _ on.1 on.2, rfl, rfl, .refl c⟩
  case exports =>
    have law := exec_relay (.toExporter e b) on.1 on.2
    obtain ⟨g, queue, handed⟩ := Chip.handOver_queues (c := c)
      (f := { path := p, cls := 0, prio := 0, arr := 0, bytes := f, kind := .control }) rfl active near up hb hp cur now
    rw [Chip.relayIn_export _ en frame, show s.chip.handOver _ _ = _ from handed] at law
    refine ⟨_, law, ⟨c.atEgress now { path := p, cls := 0, prio := 0, arr := 0, bytes := f, kind := .control }, ?_, rfl, rfl, rfl⟩, rfl,
      .setEg c ln g⟩
    rw [show (c.arrive.2.setEg ln g).eg ln = g from Chip.eg_setEg_same .., queue, show (c.eg (c.pLane p)).queue = [] from empty]
    exact List.nil_append _
  case noExport =>
    rw [exec_relay _ on.1 on.2, Chip.relayIn_export_of_disabled _ _ disabled]
  case master =>
    obtain ⟨release, snapshot, reset⟩ := Chip.globalIn_of_master master now
    refine ⟨⟨_, exec_globalMsg _ on.1 on.2, Chip.globalIn_arrive master now dv m ar⟩, ?_, ?_, ?_⟩
    · rw [exec_globalMsg _ on.1 on.2, release]
    · rw [exec_globalMsg _ on.1 on.2, snapshot]
    · rw [exec_globalMsg _ on.1 on.2, reset]
  case member =>
    obtain ⟨release, arrive, reset, snapshot⟩ := Chip.globalIn_of_member follows now
    refine ⟨?_, ?_, fun waits => ?_, fun free ok some_ => ?_⟩
    · obtain ⟨arrived, mem, -, rounds⟩ := c.barEnd_ends 15
      rw [← release] at arrived mem rounds
      exact ⟨_, exec_globalMsg _ on.1 on.2, arrived, mem, rounds⟩
    · rw [exec_globalMsg _ on.1 on.2, arrive]
    · obtain ⟨warm, step, -⟩ := Chip.warmReset_warmFrom waits now
      rw [← reset] at warm step
      exact ⟨_, exec_globalMsg _ on.1 on.2, warm, step⟩
    · have started := Chip.snapStart_holds (c := c) now adr.toNat false some_
      rw [← snapshot adr free ok] at started
      exact ⟨_, exec_globalMsg _ on.1 on.2, started⟩
  case lost => exact ⟨_, exec_ringLinkLoss k, Chip.ringLost_reports on.1 on.2 lives late⟩
  case noRing =>
    obtain ⟨relay, global, loss⟩ := exec_ring_of_none none_
    exact ⟨relay, global, loss k⟩
  case noLoss => rw [exec_ringLinkLoss, Chip.ringLost_of_not still]
  case resetall =>
    have law := exec_resetall (s := s) ag
    rw [Chip.byWriter_of waits.1 may] at law
    exact ⟨_, law, Chip.resetAll_resets waits master⟩
  case noReset =>
    rw [exec_resetall]
    rcases denied with h | h
    · rw [Chip.byWriter_of_denied h]
    · rw [Chip.byWriter_of_idle (f := fun c => c.resetAll s.now.toNat) (Chip.resetAll_of_not h)]
  case taken =>
    have law := exec_snapshot (s := s) ag v
    obtain ⟨commits, ques, ecc⟩ := bare
    obtain ⟨asked, -⟩ := c.plainWrite_snap now v
    rw [Chip.byWriter_of on may, Chip.snapWrite_starts go casc free ok] at law
    have running : (c.plainWrite now .SYS_SNAP v).triadsLive = [] := asked.triadsLive.trans none_
    have words := asked.snapWords []
    have mem := asked.sameCore.1
    have rest := asked.rest
    generalize c.plainWrite now .SYS_SNAP v = u at *
    obtain ⟨idle, ended, wrote⟩ := Chip.snapStart_taken (c := u) now a running (by rw [rest]; exact commits)
      (by rw [rest]; exact ques) (by rw [rest]; exact ecc)
    rw [words] at wrote
    exact ⟨_, law, idle, ended, Chip.wrote_of_mem wrote mem rfl⟩
  case held =>
    have law := exec_snapshot (s := s) ag v
    obtain ⟨asked, -⟩ := c.plainWrite_snap now v
    rw [Chip.byWriter_of on may, Chip.snapWrite_starts go casc free ok] at law
    have running := asked.triadsLive
    have core := asked.sameCore
    generalize c.plainWrite now .SYS_SNAP v = u at *
    obtain ⟨waits, kept, r, snap, addr, rejoin, left⟩ := Chip.snapStart_holds (c := u) now a false (by rwa [running])
    exact ⟨_, law, waits, core.trans kept, r, snap, addr, rejoin, left.trans running⟩
  case refused =>
    have law := exec_snapshot (s := s) ag v
    obtain ⟨asked, snap⟩ := c.plainWrite_snap now v
    rw [Chip.byWriter_of on may, Chip.snapWrite_refused go refused] at law
    obtain ⟨code, stands, kept, core⟩ := (c.plainWrite now .SYS_SNAP v).cfgReport_shows now RegName.SYS_SNAP.addr (code := 7) (by decide)
    exact ⟨_, law, code, stands, kept.trans snap, asked.sameCore.trans core⟩
  case noSnap => rw [exec_snapshot, Chip.byWriter_of_denied denied]
  case copied =>
    have law := exec_rejoinCopyEnd (s := s)
    rw [Chip.copyDone_starts on rejoins copying free] at law
    exact ⟨_, law, Chip.snapStart_holds now 0 true some_⟩
  case noCopy => rw [exec_rejoinCopyEnd, Chip.copyDone_of_not still]
end

section
/-! The state of a pair: what its changes write, and how a channel's loss is reported (R436). -/
namespace Sys2Proof.Machine
variable {s : State}

namespace Chip
variable {c d e : Chip} {now n t : Nat}

/-! ### Writes of a change of role -/

/-- The pair's record, its status register, the leat and the mill book apart, the chip is as it was. -/
structure RoleFrame (c d : Chip) : Prop where
  rest : d = { c with
    regs := d.regs, pair := d.pair, leat := d.leat, book := d.book }
  regs : RegsBut c d [.PAR_STAT]

namespace RoleFrame

theorem refl (c : Chip) : RoleFrame c c := ⟨rfl, fun _ _ => rfl⟩

theorem trans (h : RoleFrame c d) (k : RoleFrame d e) : RoleFrame c e :=
  ⟨k.rest.trans (congrArg (fun x : Chip => { x with
    regs := e.regs, pair := e.pair, leat := e.leat, book := e.book }) h.rest), fun q hq => (k.regs q hq).trans (h.regs q hq)⟩

theorem sf (c : Chip) (f : Fld) (n : Nat) : RoleFrame c (c.sf .PAR_STAT f n) :=
  ⟨rfl, (OnlyRegs.sf c f n (List.mem_singleton.2 rfl)).2⟩

theorem modPair (c : Chip) (f : Pair → Pair) : RoleFrame c (c.modPair f) := ⟨rfl, fun _ _ => rfl⟩
theorem leatPut (c : Chip) (m : LeatMsg) : RoleFrame c (c.leatPut m) := ⟨rfl, fun _ _ => rfl⟩
theorem with_leat (c : Chip) (l : List LeatMsg) : RoleFrame c { c with leat := l } := ⟨rfl, fun _ _ => rfl⟩
theorem ackAll (c : Chip) : RoleFrame c c.ackAll := ⟨rfl, fun _ _ => rfl⟩
theorem bookInc (c : Chip) (o : Nat) : RoleFrame c (c.bookInc o) := ⟨rfl, fun _ _ => rfl⟩
theorem bookInc8 (c : Chip) (o : Nat) : RoleFrame c (c.bookInc8 o) := ⟨rfl, fun _ _ => rfl⟩

theorem countTakeover (c : Chip) : RoleFrame c c.countTakeover := .trans (.sf c _ _) (.bookInc8 _ _)

theorem partSelf (c : Chip) : RoleFrame c c.partSelf :=
  .trans (d := { c with
    leat := [], pair := { c.pair with decs := [], inputs := [], heldIn := [], waitStart := false, swap := 0 } })
    ⟨rfl, fun _ _ => rfl⟩ (.sf _ _ _)

theorem sameCore (h : RoleFrame c d) : SameCore c d := by rw [h.rest]; exact ⟨rfl, rfl, rfl, rfl⟩
theorem mem (h : RoleFrame c d) : d.mem = c.mem := h.sameCore.1
theorem chan (h : RoleFrame c d) : d.chan = c.chan := by rw [h.rest]
theorem flt (h : RoleFrame c d) : d.flt = c.flt := by rw [h.rest]
theorem snap (h : RoleFrame c d) : d.snap = c.snap := by rw [h.rest]
theorem boot (h : RoleFrame c d) : d.boot = c.boot := by rw [h.rest]
theorem off (h : RoleFrame c d) : d.off = c.off := by rw [h.rest]

theorem rd (h : RoleFrame c d) {q : RegName} (hq : q.addr ≠ RegName.PAR_STAT.addr) : d.rd q = c.rd q :=
  h.regs q (by simpa using hq)

theorem gf (h : RoleFrame c d) {q : RegName} (hq : q.addr ≠ RegName.PAR_STAT.addr) (f : Fld) : d.gf q f = c.gf q f := by
  rw [gf_eq, gf_eq, h.rd hq]

theorem gb (h : RoleFrame c d) {q : RegName} (hq : q.addr ≠ RegName.PAR_STAT.addr) (f : Fld) : d.gb q f = c.gb q f :=
  gb_congr (h.rd hq) f

theorem stands (h : RoleFrame c d) {src cls : Nat} (standing : c.stands src cls) : d.stands src cls :=
  (sticky_congr (h.rd (by decide)) src cls).trans standing

theorem idle (h : RoleFrame c d) (still : c.NothingUnderWay) : d.NothingUnderWay := by
  rw [h.rest]; exact still

theorem live (h : RoleFrame c d) (t : Nat) : d.live t = c.live t := by
  rw [Chip.live, tstate, h.gf (by simp only [RegName.addr]; omega), ← tstate, ← Chip.live]

theorem split (h : RoleFrame c d) (t : Nat) : d.split t = c.split t := by
  rw [Chip.split, h.gb (by simp only [RegName.addr]; omega), ← Chip.split]

theorem triadsLive (h : RoleFrame c d) : d.triadsLive = c.triadsLive := by
  simp only [Chip.triadsLive, h.live, h.split]

end RoleFrame

/-! ### Fields of `PAR_STAT` -/

theorem pairState_setPar (c : Chip) {st : Nat} (h : st < 8) : (c.setPar st).pairState = st := by
  rw [setPar, pairState, gf_sf_same _ _ _ _ (by decide) (by decide)]
  exact Nat.mod_eq_of_lt h

/-- The other fields of `PAR_STAT` stay when its state changes. -/
theorem par_setPar (c : Chip) (st : Nat) {f : Fld} (h : 2 < f.lo) : (c.setPar st).gf .PAR_STAT f = c.gf .PAR_STAT f :=
  gf_sf_field _ _ _ _ _ (by decide) (by decide) (.inr h)

theorem pairState_sf (c : Chip) {f : Fld} (h : f.lo ≤ f.hi) (hn : f.hi < 64) (above : 2 < f.lo) (v : Nat) :
    (c.sf .PAR_STAT f v).pairState = c.pairState := gf_sf_field _ _ _ _ _ h hn (.inl above)

theorem standby_of_state (h : c.pairState = 4) : c.standby = true := by simp [standby, h]
theorem not_standby_of_paired (h : c.pairState = 2) : c.standby = false := by simp [standby, h]
theorem primary_of_paired (h : c.pairState = 2) : c.primary = true := by simp [primary, paired, h]
theorem primary_of_alone (h : c.pairState = 3) : c.primary = true := by simp [primary, h]
theorem paired_of_state (h : c.pairState = 2) : c.paired = true := by simp [paired, h]

/-! ### A lost channel -/

theorem contained_leat (now src : Nat) (who triad : Option Nat) (active : c.standby = false) :
    (c.contained now src who triad).leat = c.leat := by
  have marked : (c.containedMark src (c.attrKey who) triad).leat = c.leat := by rw [containedMark_rest]
  have quiet : ∀ (c : Chip) (k : Nat) (had : Bool), (c.containedState now src k had).leat = c.leat := fun c k had => by
    obtain ⟨f, h | h⟩ := c.containedState_eq now src k had
    · rw [h]
    · rw [h, sf_leat]
  unfold contained
  simp only [active, Bool.false_eq_true, if_false]
  obtain ⟨p, x, noticed⟩ := (c.containedMark src (c.attrKey who) triad).containedNotify_eq src (c.attrKey who)
  rw [noticed, quiet]
  exact marked

/-- A channel's flag is cleared and its loss reported as a contained fault of source 16. -/
def channelGone (c : Chip) (now : Nat) (f : Fld) : Chip := (c.sf .PAR_STAT f 0).contained now 16 none none

/-- What the report of a lost channel shows and leaves. -/
structure ChannelGone (c d : Chip) (f : Fld) : Prop where
  gone : d.gb .PAR_STAT f = false
  others : ∀ g : Fld, g.hi < f.lo ∨ f.hi < g.lo → d.gf .PAR_STAT g = c.gf .PAR_STAT g
  stands : d.stands 16 1
  mem : d.mem = c.mem
  pair : d.pair = c.pair
  chan : d.chan = c.chan
  idle : c.NothingUnderWay → d.NothingUnderWay
  leat : c.standby = false → d.leat = c.leat
  rd : ∀ q : RegName, ¬ FltAddr q.addr → q.addr ≠ RegName.PAR_STAT.addr → d.rd q = c.rd q

theorem channelGone_reported (c : Chip) (now : Nat) {f : Fld} (h : f.lo ≤ f.hi) (hn : f.hi < 64) (above : 2 < f.lo) :
    ChannelGone c (c.channelGone now f) f := by
  have cleared : (c.sf .PAR_STAT f 0).gb .PAR_STAT f = false := gb_sf_zero c _ h hn
  have kept := fun g (hd : g.hi < f.lo ∨ f.hi < g.lo) => c.gf_sf_field .PAR_STAT f g 0 h hn hd
  have state := c.pairState_sf h hn above 0
  have role := RoleFrame.sf c f 0
  have pair : (c.sf .PAR_STAT f 0).pair = c.pair := sf_pair ..
  have leat : (c.sf .PAR_STAT f 0).leat = c.leat := sf_leat ..
  unfold channelGone
  generalize c.sf .PAR_STAT f 0 = u at *
  have away : ¬ FltAddr RegName.PAR_STAT.addr := by decide
  have frame := u.contained_unitFrame now (src := 16) (by decide) none none
  have active : c.standby = false → u.standby = false := fun h => by rwa [standby, state, pair, ← standby]
  exact {
    gone := (gb_congr (frame.rd _ away) f).trans cleared
    others := fun g hd => (frame.gf _ away).trans (kept g hd)
    stands := contained_stands u now (by decide) none none
    mem := frame.mem.trans role.mem
    pair := (contained_pair u now 16 none none).trans pair
    chan := (contained_chan u now 16 none none).trans role.chan
    idle := fun still => by
      have := role.idle still
      rw [contained_rest]
      exact this
    leat := fun h => (contained_leat now 16 none none (active h)).trans leat
    rd := fun q hq hp => (frame.rd q hq).trans (role.rd hp) }

namespace ChannelGone
variable {f : Fld}

theorem state (h : ChannelGone c d f) (above : 2 < f.lo) : d.pairState = c.pairState := h.others _ (.inl above)

theorem standby (h : ChannelGone c d f) (above : 2 < f.lo) : d.standby = c.standby := by
  rw [Chip.standby, h.state above, h.pair, ← Chip.standby]

theorem paired (h : ChannelGone c d f) (above : 2 < f.lo) : d.paired = c.paired := by
  rw [Chip.paired, h.state above, h.pair, ← Chip.paired]

end ChannelGone

/-- Neither channel's loss ends a rejoin where none is under way. -/
theorem rejoinLost_of_none (state : c.pairState ≠ 6) (copying : c.pair.copying = false) (now : Nat) : c.rejoinLost now = c := by
  simp [rejoinLost, state, copying]

/-! ### The partner is lost (R436) -/

theorem kickAll_of_empty (h : c.chan.egress = []) (now : Nat) : c.kickAll now = c := by
  simp [kickAll, Tab.keys, h]

/-- The pair's record of a device whose partner is lost. -/
def aloneOf (p : Pair) : Pair := { p with prim := true, swap := 0, holdOut := false, copying := false, admitted := false }

theorem partnerLost_of_idle (still : c.NothingUnderWay) (now : Nat) : c.partnerLost now = (c.ackAll.modPair aloneOf).setPar 3 := by
  obtain ⟨egress, commits, snap⟩ := still
  have role : RoleFrame c ((c.ackAll.modPair aloneOf).setPar 3) := .trans (.trans (.ackAll c) (.modPair _ _)) (.sf _ _ _)
  have commits' := role.sameCore.2.2.2.trans commits
  have egress' := (congrArg Chan.egress role.chan).trans egress
  have kept : c.ackAll.snap = none := snap
  have law : c.partnerLost now = ((((c.ackAll.modPair aloneOf).setPar 3).commits.filter (fun m => m.stage == .ack)).foldl
      (fun c m => c.tryPublish now m) ((c.ackAll.modPair aloneOf).setPar 3)).kickAll now := by
    unfold partnerLost
    simp only [modPair_snap, kept, Option.any_none, Bool.false_eq_true, if_false]
    rfl
  rw [law, commits', List.filter_nil, List.foldl_nil, kickAll_of_empty egress']

/-- A device whose partner is lost runs alone, and every message it sent counts as acknowledged. -/
theorem partnerLost_shows (still : c.NothingUnderWay) (now : Nat) :
    let d := c.partnerLost now
    d.pairState = 3 ∧ d.leat = [] ∧ d.pair.acked = c.pair.acked + c.leat.length ∧ d.leatOk = c.leatOk ∧ RoleFrame c d := by
  have role : RoleFrame c ((c.ackAll.modPair aloneOf).setPar 3) := .trans (.trans (.ackAll c) (.modPair _ _)) (.sf _ _ _)
  have state := (c.ackAll.modPair aloneOf).pairState_setPar (st := 3) (by decide)
  rw [partnerLost_of_idle still]
  refine ⟨state, ?_, ?_, ?_, role⟩
  · rw [setPar, sf_leat]; rfl
  · rw [setPar, sf_pair]; rfl
  · rw [leatOk, gb, par_setPar _ 3 (by decide), ← gb]; rfl

/-- What follows the report of a lost leat. -/
def leatGone (c : Chip) (now : Nat) : Chip :=
  if c.paired then c.partnerLost now
  else if c.standby && !c.watchOk then c.takeover now
  else c

/-- What follows the report of a lost watch. -/
def watchGone (c : Chip) (now : Nat) : Chip := if c.standby && !c.leatOk then c.takeover now else c

theorem leatLost_eq (ok : c.leatOk = true) (state : c.pairState ≠ 1) (now : Nat) :
    c.leatLost now = ((c.channelGone now PAR_STAT.LEATOK).rejoinLost now).leatGone now := by
  have state' : (c.sf .PAR_STAT PAR_STAT.LEATOK 0).pairState ≠ 1 := by
    rwa [c.pairState_sf (by decide) (by decide) (by decide) 0]
  exact (if_neg (by simp [ok])).trans (if_neg state')

theorem watchLost_eq (ok : c.watchOk = true) (state : c.pairState ≠ 1) (now : Nat) :
    c.watchLost now = ((c.channelGone now PAR_STAT.WATCHOK).rejoinLost now).watchGone now := by
  have state' : (c.sf .PAR_STAT PAR_STAT.WATCHOK 0).pairState ≠ 1 := by
    rwa [c.pairState_sf (by decide) (by decide) (by decide) 0]
  exact (if_neg (by simp [ok])).trans (if_neg state')

/-- A lost leat of a pair is contained, and the partner with it. -/
theorem leatLost_of_paired (ok : c.leatOk = true) (paired : c.pairState = 2) (copying : c.pair.copying = false)
    (still : c.NothingUnderWay) (now : Nat) :
    let d := c.leatLost now
    d.leatOk = false ∧ d.stands 16 1 ∧ d.pairState = 3 ∧ d.leat = [] ∧ d.pair.acked = c.pair.acked + c.leat.length ∧
      d.mem = c.mem := by
  have gone := c.channelGone_reported now (f := PAR_STAT.LEATOK) (by decide) (by decide) (by decide)
  rw [leatLost_eq ok (by omega)]
  generalize c.channelGone now PAR_STAT.LEATOK = u at *
  have state := (gone.state (by decide)).trans paired
  have followed : (u.rejoinLost now).leatGone now = u.partnerLost now := by
    rw [rejoinLost_of_none (by omega) (by rw [gone.pair]; exact copying) now]
    exact if_pos (paired_of_state state)
  rw [followed]
  obtain ⟨alone, leat, acked, flag, role⟩ := partnerLost_shows (gone.idle still) now
  have leat' := gone.leat (not_standby_of_paired paired)
  refine ⟨flag.trans gone.gone, role.stands gone.stands, alone, leat, ?_, role.mem.trans gone.mem⟩
  rw [acked, gone.pair, leat']

/-- A lost watch of a pair is contained. -/
theorem watchLost_of_paired (ok : c.watchOk = true) (paired : c.pairState = 2) (copying : c.pair.copying = false) (now : Nat) :
    let d := c.watchLost now
    d.watchOk = false ∧ d.stands 16 1 ∧ d.pairState = 2 ∧ d.mem = c.mem := by
  have gone := c.channelGone_reported now (f := PAR_STAT.WATCHOK) (by decide) (by decide) (by decide)
  rw [watchLost_eq ok (by omega)]
  generalize c.channelGone now PAR_STAT.WATCHOK = u at *
  have state := (gone.state (by decide)).trans paired
  have followed : (u.rejoinLost now).watchGone now = u := by
    rw [rejoinLost_of_none (by omega) (by rw [gone.pair]; exact copying) now]
    exact if_neg (by simp [not_standby_of_paired state])
  rw [followed]
  exact ⟨gone.gone, gone.stands, state, gone.mem⟩

/-! ### Takeover (R437) -/

/-- Grace timers that start anew belong to the collector alone. -/
theorem resumeGrace_eq (c : Chip) (now : Nat) : ∃ f, c.resumeGrace now = { c with flt := f } := by
  unfold resumeGrace
  refine List.foldlRecOn (motive := fun d : Chip => ∃ f, d = { c with flt := f }) _ _ ⟨_, rfl⟩ ?_
  rintro _ ⟨f, rfl⟩ src -
  refine List.foldlRecOn (motive := fun d : Chip => ∃ f, d = { c with flt := f }) _ _ ⟨_, rfl⟩ ?_
  rintro _ ⟨f, rfl⟩ k -
  dsimp only
  split
  · exact ⟨_, rfl⟩
  · obtain ⟨g, h⟩ := startGrace_eq { c with flt := f } now src k
    exact ⟨g, h⟩

/-- The pair's record of a standby that takes over. -/
def takingOver (now : Nat) (p : Pair) : Pair := { p with prim := true, catchUp := true, swap := 0, sentAt := now }

theorem wcpPaths_of_rd (h : ∀ n, d.rd (.CHN_PATHCFG n) = c.rd (.CHN_PATHCFG n)) : d.wcpPaths = c.wcpPaths := by
  simp only [wcpPaths, pEn, pWcp, gb_congr (h _)]

theorem gf_of_regs (h : d.regs = c.regs) (r : RegName) (f : Fld) : d.gf r f = c.gf r f := by
  rw [gf_eq, rd_of_regs_eq h, ← gf_eq]

/-- The record of the takeover itself. -/
def takenOver (c : Chip) (now : Nat) : Chip := { ((c.modPair (takingOver now)).setPar 3).countTakeover with leat := [] }

/-- What follows the record of a takeover: timers, retransmissions and new epochs. -/
def afterTakeover (c : Chip) (now : Nat) : Chip :=
  ((c.wcpPaths.foldl (fun c n => c.resend now n) (c.resumeGrace now)).raiseAll now).kickAll now

theorem takeover_eq (c : Chip) (now : Nat) : c.takeover now = (c.takenOver now).afterTakeover now := rfl

theorem afterTakeover_of_idle (paths : c.wcpPaths = []) (egress : c.chan.egress = []) (now : Nat) :
    let d := c.afterTakeover now
    d.regs = c.regs ∧ d.pair = c.pair ∧ d.mem = c.mem := by
  obtain ⟨f, resumed⟩ := c.resumeGrace_eq now
  have paths' : ({ c with flt := f } : Chip).wcpPaths = [] := paths
  have law : c.afterTakeover now = ({ c with flt := f } : Chip).kickAll now := by
    rw [afterTakeover, paths, resumed, List.foldl_nil, raiseAll, paths', List.foldl_nil]
  rw [law, kickAll_of_empty (c := { c with flt := f }) egress now]
  exact ⟨rfl, rfl, rfl⟩

theorem takenOver_frame (c : Chip) (now : Nat) : RoleFrame c (c.takenOver now) :=
  .trans (.trans (.trans (.modPair c _) (.sf _ _ _)) (.countTakeover _)) (.with_leat _ _)

/-- A takeover is recorded and counted. -/
theorem takenOver_shows (c : Chip) (now : Nat) :
    let d := c.takenOver now
    d.pairState = 3 ∧ d.pair.prim = true ∧ d.pair.catchUp = true ∧ d.takeovers = min (c.takeovers + 1) 65535 := by
  have pair : (c.takenOver now).pair = takingOver now c.pair := rfl
  have state : ((c.modPair (takingOver now)).setPar 3).pairState = 3 := pairState_setPar _ (by decide)
  have counts := ((c.modPair (takingOver now)).setPar 3).gf_inc_same .PAR_STAT PAR_STAT.TAKEOVERS (by decide) (by decide)
  have before : ((c.modPair (takingOver now)).setPar 3).takeovers = c.takeovers := by
    rw [takeovers, par_setPar _ _ (by decide), gf_modPair, ← takeovers]
  have regs : (c.takenOver now).regs = (((c.modPair (takingOver now)).setPar 3).inc .PAR_STAT PAR_STAT.TAKEOVERS).regs := rfl
  refine ⟨?_, by rw [pair]; rfl, by rw [pair]; rfl, ?_⟩
  · rw [pairState, gf_of_regs regs]
    exact (pairState_sf _ (by decide) (by decide) (by decide) _).trans state
  · rw [takeovers, gf_of_regs regs, counts, ← before]
    rfl

/-- A takeover with nothing to retransmit. -/
theorem takeover_shows (paths : c.wcpPaths = []) (still : c.NothingUnderWay) (now : Nat) :
    let d := c.takeover now
    d.pairState = 3 ∧ d.pair.prim = true ∧ d.pair.catchUp = true ∧ d.takeovers = min (c.takeovers + 1) 65535 ∧
      d.rd .FLT_STATUS = c.rd .FLT_STATUS ∧ d.mem = c.mem := by
  have role := c.takenOver_frame now
  obtain ⟨alone, prim, catchUp, takeovers⟩ := c.takenOver_shows now
  have law := c.takeover_eq now
  generalize c.takenOver now = w at *
  obtain ⟨regs, pair, mem⟩ := afterTakeover_of_idle (c := w)
    (by rw [wcpPaths_of_rd fun n => role.rd (by simp only [RegName.addr]; omega)]; exact paths) (role.idle still).1 now
  rw [law]
  generalize w.afterTakeover now = v at *
  refine ⟨(gf_of_regs regs _ _).trans alone, by rw [pair]; exact prim, by rw [pair]; exact catchUp,
    (gf_of_regs regs _ _).trans takeovers, (rd_of_regs_eq regs _).trans (role.rd (by decide)), mem.trans role.mem⟩

/-- A standby without its leat that loses the watch takes over. -/
theorem watchLost_takesOver (ok : c.watchOk = true) (state : c.pairState = 4) (leat : c.leatOk = false) (paths : c.wcpPaths = [])
    (still : c.NothingUnderWay) (copying : c.pair.copying = false) (now : Nat) :
    let d := c.watchLost now
    d.pairState = 3 ∧ d.pair.prim = true ∧ d.pair.catchUp = true ∧ d.stands 16 1 ∧
      d.takeovers = min (c.takeovers + 1) 65535 ∧ d.mem = c.mem := by
  have gone := c.channelGone_reported now (f := PAR_STAT.WATCHOK) (by decide) (by decide) (by decide)
  rw [watchLost_eq ok (by omega)]
  generalize c.channelGone now PAR_STAT.WATCHOK = u at *
  have state' := (gone.state (by decide)).trans state
  have silent : u.leatOk = false := by
    rw [leatOk, gb, gone.others _ (by decide), ← gb]; exact leat
  have followed : (u.rejoinLost now).watchGone now = u.takeover now := by
    rw [rejoinLost_of_none (by omega) (by rw [gone.pair]; exact copying) now]
    exact if_pos (by simp [standby_of_state state', silent])
  have paths' : u.wcpPaths = [] := by
    rw [wcpPaths_of_rd fun n => gone.rd _ (by simp only [FltAddr, RegName.addr]; omega) (by simp only [RegName.addr]; omega)]
    exact paths
  have counted : u.takeovers = c.takeovers := gone.others _ (by decide)
  obtain ⟨alone, prim, catchUp, takeovers, status, mem⟩ := takeover_shows paths' (gone.idle still) now
  rw [followed]
  rw [counted] at takeovers
  exact ⟨alone, prim, catchUp, (sticky_congr status 16 1).trans gone.stands, takeovers, mem.trans gone.mem⟩

/-- A channel is lost once nothing has arrived on it for HBLOSS µs. -/
theorem channelLost_of_due (on : c.off = false) (pair : c.inPair = true) (watch : Bool)
    (late : (if watch then c.pair.watchAt else c.pair.leatAt) + 1000 * c.gf .PAR_CFG PAR_CFG.HBLOSS ≤ now) :
    c.channelLost now watch = if watch then c.watchLost now else c.leatLost now := by
  unfold channelLost
  exact if_neg (by simp [on, pair, late])

theorem channelLost_of_early (watch : Bool)
    (h : c.off = true ∨ now < (if watch then c.pair.watchAt else c.pair.leatAt) + 1000 * c.gf .PAR_CFG PAR_CFG.HBLOSS) :
    c.channelLost now watch = c := by
  unfold channelLost
  exact if_pos (by rcases h with h | h <;> simp [h])

/-! ### The watch (R435, R436) -/

theorem gb_congr_field {q r : RegName} {f : Fld} (h : d.gf q f = c.gf r f) : d.gb q f = c.gb r f := by rw [gb, h, ← gb]

/-- A device that detaches itself keeps the other fields of its status. -/
theorem partSelf_shows (c : Chip) :
    c.partSelf.pairState = 5 ∧ (∀ f : Fld, 2 < f.lo → c.partSelf.gf .PAR_STAT f = c.gf .PAR_STAT f) ∧
      c.partSelf.pair.watchAt = c.pair.watchAt := by
  obtain ⟨u, h, regs, watch⟩ : ∃ u : Chip, c.partSelf = u.setPar 5 ∧ u.regs = c.regs ∧ u.pair.watchAt = c.pair.watchAt :=
    ⟨_, rfl, rfl, rfl⟩
  rw [h]
  refine ⟨pairState_setPar _ (by decide), fun f hf => ?_, ?_⟩
  · rw [par_setPar _ _ hf, gf_eq, rd_of_regs_eq regs, ← gf_eq]
  · rw [setPar, sf_pair, watch]

theorem joinTry_of_not_alone (h : c.pairState ≠ 3) : c.joinTry = c := by
  unfold joinTry
  exact if_neg (by simp [h])

/-- A watch edge is noted. -/
def watchSeen (c : Chip) (now : Nat) : Chip := (c.modPair (fun p => { p with watchAt := now })).sf .PAR_STAT PAR_STAT.WATCHOK 1

/-- An edge on a standby whose leat is lost detaches it. -/
theorem watchEdge_standby (on : c.off = false) (pair : c.inPair = true) (loaded : c.boot.step ≠ 9) (state : c.pairState = 4) :
    let d := c.watchEdge now
    d.pair.watchAt = now ∧ d.watchOk = true ∧ RegsBut c d [.PAR_STAT] ∧ SameCore c d ∧
      d.pairState = if c.leatOk = true then 4 else 5 := by
  have law : c.watchEdge now = if (c.watchSeen now).standby && !(c.watchSeen now).leatOk then (c.watchSeen now).partSelf
      else (c.watchSeen now).joinTry := by
    have step : ¬ (c.watchSeen now).boot.step = 9 := by rwa [watchSeen, sf_boot]
    exact (if_neg (by simp [on, pair])).trans (if_neg step)
  have role : RoleFrame c (c.watchSeen now) := .trans (.modPair c _) (.sf _ _ _)
  have seen : (c.watchSeen now).pair.watchAt = now := by rw [watchSeen, sf_pair]; rfl
  have flag : (c.watchSeen now).watchOk = true := gb_sf_one _ _ rfl (by decide)
  have state' : (c.watchSeen now).pairState = 4 := (pairState_sf _ (by decide) (by decide) (by decide) 1).trans state
  have leat : (c.watchSeen now).leatOk = c.leatOk := by
    rw [leatOk, gb, watchSeen, gf_sf_field _ _ _ _ _ (by decide) (by decide) (by decide), gf_modPair, ← gb, ← leatOk]
  rw [law, standby_of_state state', leat]
  generalize c.watchSeen now = u at *
  cases c.leatOk
  · have parted := role.trans (.partSelf u)
    obtain ⟨gone, kept, at_⟩ := u.partSelf_shows
    exact ⟨at_.trans seen, (gb_congr_field (kept _ (by decide))).trans flag, parted.regs, parted.sameCore, gone⟩
  · have on : u.joinTry = u := joinTry_of_not_alone (by omega)
    change let d := u.joinTry; _
    rw [on]
    exact ⟨seen, flag, role.regs, role.sameCore, state'⟩

end Chip
end Sys2Proof.Machine
end

section
/-! Changes of role: catch-up, lag, output, swaps and the commands of `PAR_CTL` (R428, R437, R438, R442, R443, R450). -/
namespace Sys2Proof.Machine
variable {s : State}

namespace Chip
variable {c d e : Chip} {now n t : Nat}

theorem foldl_of_fixed {α β : Type} {f : β → α → β} {b : β} : ∀ {l : List α}, (∀ a ∈ l, f b a = b) → l.foldl f b = b
  | [], _ => rfl
  | a :: r, h => by
    rw [List.foldl_cons, h a List.mem_cons_self]
    exact foldl_of_fixed fun x hx => h x (List.mem_cons_of_mem a hx)

/-! ### The end of the catch-up (R437) -/

/-- The pair's record of a device that has caught up. -/
def caughtUp (p : Pair) : Pair := { p with catchUp := false, decs := [], heldIn := [] }

/-- With no triad running and nothing under way the device's own sources only check the barrier groups. -/
theorem localOps_of_idle (none_ : c.triadsLive = []) (still : c.NothingUnderWay) (now : Nat) :
    HaltFrame BarAddr c (c.localOps now) := by
  obtain ⟨egress, commits, -⟩ := still
  have quiet : (List.range 32).foldl (fun c t => if c.live t && !c.split t then c.nextRound t else c) c = c :=
    foldl_of_fixed fun t ht => if_neg fun running => by
      have : t ∈ c.triadsLive := List.mem_filter.2 ⟨ht, running⟩
      rw [none_] at this
      exact List.not_mem_nil this
  have checked : HaltFrame BarAddr c ((List.range 16).foldl (fun c g => c.barCheck g) c) :=
    .foldl c fun c g hg => c.barCheck_haltFrame (List.mem_range.1 hg)
  have law : c.localOps now = (((List.range 16).foldl (fun c g => c.barCheck g) c).commitPumpAll now).kickAll now := by
    unfold localOps
    rw [quiet]
  rw [law]
  generalize (List.range 16).foldl (fun c g => c.barCheck g) c = u at *
  have commits' : u.commits = [] := by rw [checked.rest]; exact commits
  have egress' : u.chan.egress = [] := by rw [checked.chan]; exact egress
  have pumped : u.commitPumpAll now = u := by rw [commitPumpAll, commits']; rfl
  rwa [pumped, kickAll_of_empty egress']

theorem shadowsIn_of_none (h : c.pair.shadow = []) (now : Nat) :
    c.shadowsIn now = c.modPair fun p => { p with shadow := [], inputs := [] } := by
  unfold shadowsIn
  rw [h]
  rfl

theorem catchUpEnd_shows (catching : c.pair.catchUp = true) (met : c.horizonsMet = true) (none_ : c.triadsLive = [])
    (still : c.NothingUnderWay) (shadow : c.pair.shadow = []) (now : Nat) :
    let d := c.catchUpEnd now
    d.pair.catchUp = false ∧ d.pair.decs = [] ∧ d.stands 16 0 ∧ d.mem = c.mem := by
  have law : c.catchUpEnd now = (((c.modPair caughtUp).localOps now).shadowsIn now).corrected now 16 :=
    if_neg (by simp [catching, met])
  have role := RoleFrame.modPair c caughtUp
  have local_ := localOps_of_idle (role.triadsLive.trans none_) (role.idle still) now
  have caught : (c.modPair caughtUp).pair = caughtUp c.pair := rfl
  rw [law]
  generalize (c.modPair caughtUp).localOps now = u at *
  have pair : u.pair = caughtUp c.pair := local_.pair.trans caught
  rw [shadowsIn_of_none (by rw [pair]; exact shadow)]
  generalize hv : (u.modPair fun p => { p with shadow := [], inputs := [] }) = v
  have mem : v.mem = c.mem := by rw [← hv]; exact local_.mem
  have pair' : v.pair = { caughtUp c.pair with shadow := [], inputs := [] } := by rw [← hv, ← pair]; rfl
  have reported : (v.corrected now 16).pair = v.pair := by
    obtain ⟨f, h⟩ := v.corrected_eq now 16
    rw [h]
    rfl
  refine ⟨?_, ?_, v.corrected_stands now (by decide), (v.corrected_sameCore now 16).1.trans mem⟩
  · rw [reported, pair']; rfl
  · rw [reported, pair']; rfl

theorem catchUpEnd_of_not (h : c.pair.catchUp = false ∨ c.horizonsMet = false) (now : Nat) : c.catchUpEnd now = c :=
  if_pos (by rcases h with h | h <;> simp [h])

/-! ### The lag (R428) -/

theorem RoleFrame.lag (h : RoleFrame c d) (now : Nat) : d.lag now = c.lag now := by
  have voting : ∀ t, d.voting t = c.voting t := fun t => voting_congr (h.rd (by simp only [RegName.addr]; omega))
  have triad : ∀ t, d.triad t = c.triad t := fun t => by rw [h.rest]; rfl
  have lane : ∀ k, d.lane k = c.lane k := fun k => by rw [h.rest]; rfl
  have low : ∀ t, d.minRetired t = c.minRetired t := fun t => by simp only [minRetired, voting, lane]
  have one : ∀ t, d.lagOf now t = c.lagOf now t := fun t => by simp only [lagOf, h.split, h.live, triad, low]
  rw [Chip.lag, Chip.lag, show d.lagOf now = c.lagOf now from funext one]

/-- A standby whose lag exceeds LAGMAX detaches itself. -/
theorem lagOver_shows (on : c.off = false) (standby : c.standby = true)
    (over_ : 1000 * c.gf .PAR_CFG PAR_CFG.LAGMAX < c.lag now) :
    let d := c.lagOver now
    d.pairState = 5 ∧ d.stands 16 1 ∧ d.gf .PAR_STAT PAR_STAT.LAG = min (c.lag now / 1000) 255 ∧ d.mem = c.mem := by
  have law : c.lagOver now = ((c.lagNote now).contained now 16 none none).partSelf :=
    if_neg (by simp [on, standby, over_])
  have noted : (c.lagNote now).gf .PAR_STAT PAR_STAT.LAG = min (c.lag now / 1000) 255 := by
    rw [lagNote, gf_sf_same _ _ _ _ (by decide) (by decide)]
    exact Nat.mod_eq_of_lt ((Nat.min_le_right _ _).trans_lt (by decide))
  have role : RoleFrame c (c.lagNote now) := .sf _ _ _
  rw [law]
  generalize c.lagNote now = u at *
  have frame := u.contained_unitFrame now (src := 16) (by decide) none none
  have stands := contained_stands u now (src := 16) (by decide) none none
  have away : ¬ FltAddr RegName.PAR_STAT.addr := by decide
  have lag := (frame.gf PAR_STAT.LAG away).trans noted
  have mem := frame.mem.trans role.mem
  generalize u.contained now 16 none none = v at *
  obtain ⟨gone, kept, -⟩ := v.partSelf_shows
  exact ⟨gone, (RoleFrame.partSelf v).stands stands, (kept _ (by decide)).trans lag, (RoleFrame.partSelf v).mem.trans mem⟩

theorem lagOver_of_not (h : c.standby = false ∨ c.lag now ≤ 1000 * c.gf .PAR_CFG PAR_CFG.LAGMAX) : c.lagOver now = c :=
  if_pos (by rcases h with h | h <;> simp [h])

/-! ### The output is cut (R438) -/

/-- No frame of an egress holds a tag. -/
def Untagged (c : Chip) : Prop := ∀ n : Nat, ∀ f ∈ (c.eg n).queue ++ (c.eg n).cur.toList, f.tag = false

/-- A lane's egress with its frames discarded. -/
def cutEgress (x : Egress) : Egress := { x with cur := none, queue := [], de := false }

theorem cutLane_untagged (h : c.Untagged) (now ln : Nat) : c.cutLane now ln = c.setEg ln (cutEgress (c.eg ln)) := by
  refine foldl_of_fixed fun f hf => if_neg (ne_true_of_eq_false (h ln f ?_))
  rcases List.mem_append.1 hf with hf | hf
  · refine List.mem_append_right _ ?_
    split at hf
    next g cur => rw [cur]; exact hf
    next => exact absurd hf List.not_mem_nil
  · exact List.mem_append_left _ hf

theorem Untagged.cut (h : c.Untagged) (ln : Nat) : (c.setEg ln (cutEgress (c.eg ln))).Untagged := fun n f hf => by
  by_cases hn : n = ln
  · subst hn
    rw [eg_setEg_same] at hf
    exact absurd hf List.not_mem_nil
  · rw [eg_setEg_other _ _ _ _ hn] at hf
    exact h n f hf

/-- The output of every SerDes and field lane among `l` is cut. -/
def cutLanes (c : Chip) (now : Nat) (l : List Nat) : Chip :=
  l.foldl (fun c ln => if ln < 20 || isField ln then c.cutLane now ln else c) c

/-- The egress of a lane with its output cut, or as it is. -/
theorem cutLanes_shows (h : c.Untagged) (now : Nat) (l : List Nat) :
    let d := c.cutLanes now l
    d.regs = c.regs ∧ SameCore c d ∧ d.pair = c.pair ∧
      ∀ n : Nat, (n < 20 ∨ 0x40 ≤ n) → d.eg n = c.eg n ∧ n ∉ l ∨ (d.eg n).cur = none ∧ (d.eg n).queue = [] := by
  induction l generalizing c with
  | nil => exact ⟨rfl, .refl c, rfl, fun n _ => .inl ⟨rfl, List.not_mem_nil⟩⟩
  | cons ln r ih =>
    by_cases open_ : (ln < 20 || isField ln) = true
    · have law : c.cutLanes now (ln :: r) = (c.setEg ln (cutEgress (c.eg ln))).cutLanes now r := by
        rw [cutLanes, List.foldl_cons, if_pos open_, cutLane_untagged h, ← cutLanes]
      obtain ⟨regs, core, pair, lanes⟩ := ih (h.cut ln)
      rw [law]
      refine ⟨regs, .trans (.setEg c ln _) core, pair, fun n hn => ?_⟩
      rcases lanes n hn with ⟨kept, away⟩ | cut
      · by_cases he : n = ln
        · subst he
          rw [eg_setEg_same] at kept
          exact .inr (by rw [kept]; exact ⟨rfl, rfl⟩)
        · rw [eg_setEg_other _ _ _ _ he] at kept
          exact .inl ⟨kept, fun hm => (List.mem_cons.1 hm).elim he away⟩
      · exact .inr cut
    · have law : c.cutLanes now (ln :: r) = c.cutLanes now r := by
        rw [cutLanes, List.foldl_cons, if_neg open_, ← cutLanes]
      obtain ⟨regs, core, pair, lanes⟩ := ih h
      rw [law]
      refine ⟨regs, core, pair, fun n hn => (lanes n hn).imp_left fun ⟨kept, away⟩ => ⟨kept, fun hm => ?_⟩⟩
      rcases List.mem_cons.1 hm with rfl | hm
      · exact open_ (by simpa [isField] using hn)
      · exact away hm

theorem get_of_not_mem_keys {α : Type} (d : α) : ∀ {t : Tab α} {k : Nat}, k ∉ t.keys → t.get d k = d
  | [], _, _ => rfl
  | (k', v) :: r, k, h => by
    have ne : k ≠ k' := fun he => h (he ▸ List.mem_cons_self)
    rw [Tab.get, if_neg ne]
    exact get_of_not_mem_keys d fun hr => h (List.mem_cons_of_mem _ hr)

/-- A primary that has sent no heartbeat for 100 µs sends nothing. -/
theorem outputCut_shows (on : c.off = false) (pair : c.inPair = true) (primary : c.primary = true) (open_ : c.pair.cut = false)
    (late : c.pair.sentAt + 100000 ≤ now) (untagged : c.Untagged) :
    let d := c.outputCut now
    d.pair.cut = true ∧ d.regs = c.regs ∧ SameCore c d ∧
      ∀ n : Nat, n < 20 ∨ 0x40 ≤ n → (d.eg n).cur = none ∧ (d.eg n).queue = [] := by
  have law : c.outputCut now = (c.modPair fun p => { p with cut := true }).cutLanes now c.chan.egress.keys :=
    if_neg (by simp [on, pair, primary, open_, late])
  obtain ⟨regs, core, record, lanes⟩ := cutLanes_shows (c := c.modPair fun p => { p with cut := true }) untagged now
    c.chan.egress.keys
  rw [law]
  refine ⟨by rw [record]; rfl, regs, core, fun n hn => ?_⟩
  rcases lanes n hn with ⟨kept, away⟩ | cut
  · have none_ : c.eg n = {} := get_of_not_mem_keys _ away
    rw [kept]
    change (c.eg n).cur = none ∧ (c.eg n).queue = []
    rw [none_]
    exact ⟨rfl, rfl⟩
  · exact cut

theorem outputCut_of_not (h : c.primary = false ∨ now < c.pair.sentAt + 100000) : c.outputCut now = c :=
  if_pos (by rcases h with h | h <;> simp [h])

/-! ### Role swap (R442) -/

/-- A swap is asked for on the primary of a formed pair. -/
theorem swapStart_shows (on : c.off = false) (state : c.pairState = 2) :
    let d := c.swapStart
    d.pairState = 7 ∧ d.pair.prim = true ∧ d.pair.swap = 1 ∧ d.leat = c.leat ++ [.handover] ∧ RoleFrame c d := by
  have law : c.swapStart = ((c.modPair fun p => { p with prim := true, swap := 1 }).setPar 7).leatPut .handover :=
    if_pos ⟨state, by simp [on]⟩
  have state' := (c.modPair fun p => { p with prim := true, swap := 1 }).pairState_setPar (st := 7) (by decide)
  have role : RoleFrame c ((c.modPair fun p => { p with prim := true, swap := 1 }).setPar 7) := .trans (.modPair c _) (.sf _ _ _)
  have pair : ((c.modPair fun p => { p with prim := true, swap := 1 }).setPar 7).pair = { c.pair with prim := true, swap := 1 } := by
    rw [setPar, sf_pair]; rfl
  have leat : ((c.modPair fun p => { p with prim := true, swap := 1 }).setPar 7).leat = c.leat := by rw [setPar, sf_leat]; rfl
  rw [law]
  generalize (c.modPair fun p => { p with prim := true, swap := 1 }).setPar 7 = u at *
  exact ⟨state', by rw [leatPut_pair, pair], by rw [leatPut_pair, pair], by rw [leatPut, leat], role.trans (.leatPut u _)⟩

theorem swapStart_of_not (h : c.pairState ≠ 2) : c.swapStart = c := if_neg fun hc => h hc.1

theorem swapDue_of_due (interval : c.gf .PAR_CFG PAR_CFG.SWAPINT ≠ 0)
    (due : c.pair.swapAt + 60000000000 * c.gf .PAR_CFG PAR_CFG.SWAPINT ≤ now) : c.swapDue now = c.swapStart :=
  if_neg (by rintro (h | h) <;> omega)

theorem swapDue_of_not (h : c.gf .PAR_CFG PAR_CFG.SWAPINT = 0 ∨ c.pairState ≠ 2) (now : Nat) : c.swapDue now = c := by
  rcases h with h | h
  · exact if_pos (.inl h)
  · unfold swapDue
    dsimp only
    rw [swapStart_of_not h, ite_self]

/-- A standby in a swap answers once its lag is below 10 µs, and waits until then. -/
theorem swapPoll_asked (state : c.pairState = 7) (prim : c.pair.prim = false) (swap : c.pair.swap = 1) (now : Nat) :
    c.swapPoll now = if c.lag now < 10000 then (c.leatPut .handover).modPair (fun p => { p with swap := 2 }) else c := by
  simp [swapPoll, state, prim, swap]

/-- A standby that is asked to swap answers once its lag is below 10 µs. -/
theorem handoverIn_standby (on : c.off = false) (state : c.pairState = 4) (now : Nat) :
    let d := c.handoverIn now
    d.pairState = 7 ∧ d.pair.prim = false ∧ RegsBut c d [.PAR_STAT] ∧ SameCore c d ∧
      (c.lag now < 10000 → d.pair.swap = 2 ∧ d.leat = c.leat ++ [.handover]) ∧
      (10000 ≤ c.lag now → d.pair.swap = 1 ∧ d.leat = c.leat) := by
  have law : c.handoverIn now = ((c.modPair fun p => { p with prim := false, swap := 1 }).setPar 7).swapPoll now :=
    (if_neg (by simp [on])).trans (if_pos state)
  have state' := (c.modPair fun p => { p with prim := false, swap := 1 }).pairState_setPar (st := 7) (by decide)
  have role : RoleFrame c ((c.modPair fun p => { p with prim := false, swap := 1 }).setPar 7) := .trans (.modPair c _) (.sf _ _ _)
  have pair : ((c.modPair fun p => { p with prim := false, swap := 1 }).setPar 7).pair = { c.pair with prim := false, swap := 1 } := by
    rw [setPar, sf_pair]; rfl
  have leat : ((c.modPair fun p => { p with prim := false, swap := 1 }).setPar 7).leat = c.leat := by rw [setPar, sf_leat]; rfl
  have lag := role.lag now
  rw [law]
  generalize (c.modPair fun p => { p with prim := false, swap := 1 }).setPar 7 = u at *
  have swap : u.pair.swap = 1 := by rw [pair]
  have asked := u.swapPoll_asked state' (by rw [pair]) swap now
  rw [lag] at asked
  by_cases small : c.lag now < 10000
  · rw [if_pos small] at asked
    have role' : RoleFrame c ((u.leatPut .handover).modPair fun p => { p with swap := 2 }) :=
      role.trans (.trans (.leatPut u _) (.modPair _ _))
    rw [asked]
    refine ⟨state', ?_, role'.regs, role'.sameCore, fun _ => ⟨rfl, ?_⟩, fun h => absurd h (by omega)⟩
    · change u.pair.prim = false
      rw [pair]
    · change u.leat ++ [.handover] = _
      rw [leat]
  · rw [if_neg small] at asked
    rw [asked]
    exact ⟨state', by rw [pair], role.regs, role.sameCore, fun h => absurd h small, fun _ => ⟨swap, leat⟩⟩

theorem handoverIn_of_not (h : c.off = true ∨ (c.pairState ≠ 4 ∧ c.pairState ≠ 7)) (now : Nat) : c.handoverIn now = c := by
  rcases h with h | ⟨h4, h7⟩
  · exact if_pos h
  · unfold handoverIn
    rw [if_neg h4, if_pos h7, ite_self]

/-- What a primary in a swap does with an answer follows its step. -/
theorem handoverIn_primary (on : c.off = false) (state : c.pairState = 7) (prim : c.pair.prim = true) (now : Nat) :
    (c.pair.swap = 1 → c.handoverIn now = c.swapHold) ∧ (c.pair.swap = 3 → c.handoverIn now = c.becomeStandby now) := by
  have law : c.handoverIn now = if c.pair.swap = 1 then c.swapHold else if c.pair.swap = 3 then c.becomeStandby now else c :=
    (if_neg (by simp [on])).trans ((if_neg (by omega)).trans ((if_neg (by omega)).trans (if_pos prim)))
  exact ⟨fun h => law.trans (if_pos h), fun h => law.trans ((if_neg (by omega)).trans (if_pos h))⟩

/-- Updates of triads alone. -/
theorem foldl_updTriad (c : Chip) (l : List Nat) (f : Chip → Nat → Triad → Triad) :
    ∃ x, l.foldl (fun c t => c.updTriad t (f c t)) c = { c with triads := x } := by
  refine List.foldlRecOn (motive := fun d : Chip => ∃ x, d = { c with triads := x }) _ _ ⟨_, rfl⟩ ?_
  rintro _ ⟨x, rfl⟩ t -
  exact ⟨_, rfl⟩

/-- The horizon of a triad that is held at the count its furthest lane has reached. -/
def holdAt (c : Chip) (t : Nat) (x : Triad) : Triad :=
  { x with horizon := ((c.voting t).map (fun i => (c.lane (3 * t + i)).retired)).foldl max 0 }

/-- The triads and the egress of new frames are held. -/
theorem swapHold_shows (c : Chip) :
    let d := c.swapHold
    d.pair.swap = 2 ∧ d.pair.holdOut = true ∧ d.regs = c.regs ∧ SameCore c d := by
  have law : c.swapHold = (List.range 32).foldl (fun c t => c.updTriad t (c.holdAt t))
    (c.modPair fun p => { p with swap := 2, holdOut := true }) := rfl
  obtain ⟨x, held⟩ := foldl_updTriad (c.modPair fun p => { p with swap := 2, holdOut := true }) (List.range 32) holdAt
  rw [law, held]
  exact ⟨rfl, rfl, rfl, rfl, rfl, rfl, rfl⟩

/-- The pair's record of a primary that has become the standby. -/
def standbyOf (now : Nat) (p : Pair) : Pair :=
  { p with prim := false, swap := 0, swapAt := now, holdOut := false, shadow := [], inputs := [] }

/-- A triad of a standby decides nothing. -/
def followTriad (x : Triad) : Triad := { x with round := none, wants := x.wants.filter ownDecision, marks := [] }

/-- The primary that has handed over is the standby. -/
theorem becomeStandby_shows (egress : c.chan.egress = []) (now : Nat) :
    let d := c.becomeStandby now
    d.pairState = 4 ∧ d.pair.prim = false ∧ d.pair.holdOut = false ∧ d.stands 16 0 ∧ SameCore c d := by
  have law : c.becomeStandby now = ((List.range 32).foldl (fun c t => c.updTriad t followTriad)
      ((((c.ackAll.stopGrace).modPair (standbyOf now)).setPar 4).cutLanes now
        (((c.ackAll.stopGrace).modPair (standbyOf now)).setPar 4).chan.egress.keys)).corrected now 16 := rfl
  have state := ((c.ackAll.stopGrace).modPair (standbyOf now)).pairState_setPar (st := 4) (by decide)
  have pair : (((c.ackAll.stopGrace).modPair (standbyOf now)).setPar 4).pair = standbyOf now c.ackAll.pair := by
    rw [setPar, sf_pair]; rfl
  have core : SameCore c (((c.ackAll.stopGrace).modPair (standbyOf now)).setPar 4) :=
    .trans (d := (c.ackAll.stopGrace).modPair (standbyOf now)) ⟨rfl, rfl, rfl, rfl⟩ (.sf _ _ _ _)
  have chan : (((c.ackAll.stopGrace).modPair (standbyOf now)).setPar 4).chan = c.chan := by rw [setPar, sf_chan]; rfl
  generalize ((c.ackAll.stopGrace).modPair (standbyOf now)).setPar 4 = u at *
  have uncut : u.cutLanes now u.chan.egress.keys = u := by rw [chan, egress]; rfl
  rw [uncut] at law
  obtain ⟨x, follow⟩ := u.foldl_updTriad (List.range 32) fun _ _ => followTriad
  rw [law, follow]
  have core' : SameCore c { u with triads := x } := core
  have state' : ({ u with triads := x } : Chip).pairState = 4 := state
  have pair' : ({ u with triads := x } : Chip).pair = standbyOf now c.ackAll.pair := pair
  generalize ({ u with triads := x } : Chip) = v at *
  have reported : (v.corrected now 16).pair = v.pair := by
    obtain ⟨f, h⟩ := v.corrected_eq now 16
    rw [h]
    rfl
  refine ⟨?_, by rw [reported, pair']; rfl, by rw [reported, pair']; rfl, v.corrected_stands now (by decide),
    core'.trans (v.corrected_sameCore now 16)⟩
  rw [pairState, (v.corrected_unitFrame now 16).gf _ (by decide)]
  exact state'

/-! ### Commands of `PAR_CTL` (R427, R450) -/

theorem onPrimary_of (pair : c.inPair = true) (primary : c.primary = true) (f : Chip → Chip) : c.onPrimary f = f c := by
  simp [onPrimary, pair, primary]

theorem onPrimary_of_not (h : c.primary = false) (f : Chip → Chip) : c.onPrimary f = c := by simp [onPrimary, h]

theorem admitPartner_waits (state : c.pairState = 2) : c.admitPartner = c.modPair fun p => { p with admitted := true } :=
  joinTry_of_not_alone (by change c.pairState ≠ 3; omega)

/-- The copy to a partner that joins begins. -/
theorem admitPartner_copies (state : c.pairState = 3) (joins : c.pair.partner.any (fun h => h.joining) = true)
    (leat : c.leatOk = true) (watch : c.watchOk = true) (copying : c.pair.copying = false) :
    c.admitPartner = (c.modPair fun p => { p with admitted := true }).modPair fun p => { p with copying := true, admitted := false } := by
  have heard : (c.pair.partner.map (fun h => h.joining)).getD false = true := by
    cases hp : c.pair.partner with
    | none => rw [hp] at joins; exact absurd joins (by decide)
    | some h => rw [hp] at joins; simpa using joins
  have all : (c.pairState == 3 && (c.pair.partner.map (fun h => h.joining)).getD false && c.leatOk && c.watchOk &&
      !c.pair.copying && (c.gb .PAR_CFG PAR_CFG.AUTOJOIN || true)) = true := by
    simp [state, leat, watch, copying, heard]
  exact if_pos all

/-! ### JOINWAIT (R443) -/

/-- JOINWAIT has passed and a channel is heard: the fault is contained, and the device waits. -/
theorem joinWaitEnd_waits (on : c.off = false) (from_ : c.boot.joinFrom = some t) (step : c.boot.step = 9)
    (state : c.gf .FLT_STATE FLT_STATE.STATE = 2) (late : t + 1000000 * c.gf .PAR_CFG PAR_CFG.JOINWAIT ≤ now)
    (heard : c.leatOk = true ∨ c.watchOk = true) :
    let d := c.joinWaitEnd now
    d.boot.joinFrom = none ∧ d.boot.step = 9 ∧ d.stands 16 1 ∧ d.mem = c.mem := by
  have law : c.joinWaitEnd now = ({ c with boot := { c.boot with joinFrom := none } } : Chip).contained now 16 none none := by
    unfold joinWaitEnd
    rw [from_]
    exact (if_neg (by simp [on, step, state, late])).trans (if_neg (by rcases heard with h | h <;> simp [h]))
  have frame := ({ c with boot := { c.boot with joinFrom := none } } : Chip).contained_unitFrame now (src := 16) (by decide) none none
  rw [law]
  refine ⟨?_, ?_, contained_stands _ now (by decide) none none, frame.mem⟩
  · rw [contained_boot]
  · rw [contained_boot]; exact step

theorem joinWaitEnd_of_none (h : c.boot.joinFrom = none) (now : Nat) : c.joinWaitEnd now = c := by
  unfold joinWaitEnd
  rw [h]

/-! ### Leat lanes (R425) -/

/-- The bit of a leat lane in `PAR_STAT.LANES`. -/
def laneBit (k : Nat) : Fld := ⟨16 + k, 16 + k⟩

theorem lanes_of_bit {k : Nat} (h : k < 4) (set_ : c.gb .PAR_STAT (laneBit k) = true) : c.gf .PAR_STAT PAR_STAT.LANES ≠ 0 := by
  have bit : ((c.rd .PAR_STAT).toNat / 2 ^ 16).testBit k = true := by
    rwa [Nat.testBit_div_two_pow, Nat.add_comm, ← gb_bit]
  intro none_
  rw [gf_eq, Fld.get] at none_
  have low := Nat.testBit_mod_two_pow ((c.rd .PAR_STAT).toNat / 2 ^ 16) 4 k
  rw [bit, show (c.rd .PAR_STAT).toNat / 2 ^ 16 % 2 ^ 4 = 0 from none_, Nat.zero_testBit] at low
  simp [h] at low

/-- A leat lane is noted as down and counted in the mill book. -/
def leatLaneDown (c : Chip) (k : Nat) : Chip := (c.sf .PAR_STAT (laneBit k) 0).bookInc 0x5C

/-- A leat lane that goes down while another is up is a corrected fault. -/
theorem leatLaneLost_shows {k j : Nat} (on : c.off = false) (topo : c.gf .PAR_CFG PAR_CFG.TOPO ≠ 0) (hk : k < 4) (hj : j < 4)
    (up : c.gb .PAR_STAT (laneBit k) = true) (ne : j ≠ k) (other : c.gb .PAR_STAT (laneBit j) = true) :
    let d := c.leatLaneLost now k
    d.gb .PAR_STAT (laneBit k) = false ∧ d.gb .PAR_STAT (laneBit j) = true ∧ d.stands 16 0 ∧ SameCore c d := by
  have regs : (c.leatLaneDown k).regs = (c.sf .PAR_STAT (laneBit k) 0).regs := rfl
  have down : (c.leatLaneDown k).gb .PAR_STAT (laneBit k) = false := by
    rw [gb_congr (rd_of_regs_eq regs _)]
    exact gb_sf_zero c _ (Nat.le_refl _) (by simp only [laneBit]; omega)
  have kept : (c.leatLaneDown k).gb .PAR_STAT (laneBit j) = true := by
    rw [gb_congr (rd_of_regs_eq regs _), ← other]
    exact gb_congr_field (gf_sf_field _ _ _ _ _ (Nat.le_refl _) (by simp only [laneBit]; omega) (by simp only [laneBit]; omega))
  have role : RoleFrame c (c.leatLaneDown k) := .trans (.sf _ _ _) (.bookInc _ _)
  have due : (c.off || c.gf .PAR_CFG PAR_CFG.TOPO == 0 || !c.gb .PAR_STAT (laneBit k)) = false := by simp [on, topo, up]
  have law : c.leatLaneLost now k = if (c.leatLaneDown k).gf .PAR_STAT PAR_STAT.LANES = 0 ∧ (c.leatLaneDown k).inPair = true then
      (c.leatLaneDown k).leatLost now else (c.leatLaneDown k).corrected now 16 := if_neg (ne_true_of_eq_false due)
  rw [if_neg fun h => lanes_of_bit hj kept h.1] at law
  rw [law]
  generalize c.leatLaneDown k = u at *
  have frame := u.corrected_unitFrame now 16
  have away : ¬ FltAddr RegName.PAR_STAT.addr := by decide
  exact ⟨(gb_congr (frame.rd _ away) _).trans down, (gb_congr (frame.rd _ away) _).trans kept, u.corrected_stands now (by decide),
    role.sameCore.trans (u.corrected_sameCore now 16)⟩

theorem leatLaneLost_of_down {k : Nat} (h : c.gb .PAR_STAT (laneBit k) = false) (now : Nat) : c.leatLaneLost now k = c :=
  if_pos (by simp [show c.gb .PAR_STAT ⟨16 + k, 16 + k⟩ = false from h])

end Chip
end Sys2Proof.Machine
end

section
/-! Commands of a pair and the statement about its roles (R425 to R450). -/
namespace Sys2Proof.Machine
variable {s : State}

theorem exec_watchToggle (beats : s.chip.beats = true) (pair : s.chip.inPair = true) : exec .watchToggle s = .next { s with
    chip := s.chip.modPair fun p => { p with watchOut := !p.watchOut } } := by
  change execWatchToggle s = _
  simp [execWatchToggle, State.act, beats, pair]

theorem exec_watchToggle_of_not (h : s.chip.beats = false ∨ s.chip.inPair = false) : exec .watchToggle s = .next s := by
  change execWatchToggle s = _
  rcases h with h | h <;> simp [execWatchToggle, State.act, h]

theorem exec_watchEdge : exec .watchEdge s = .next { s with
    chip := s.chip.watchEdge s.now.toNat } := rfl

theorem exec_channelLoss (watch : Bool) : exec (.channelLoss watch) s = .next { s with
    chip := s.chip.channelLost s.now.toNat watch } := rfl

theorem exec_catchUpEnd : exec .catchUpEnd s = .next { s with
    chip := s.chip.catchUpEnd s.now.toNat } := rfl

theorem exec_lagExceeded : exec .lagExceeded s = .next { s with
    chip := s.chip.lagOver s.now.toNat } := rfl

theorem exec_outputCut : exec .outputCut s = .next { s with
    chip := s.chip.outputCut s.now.toNat } := rfl

theorem exec_swapintExpiry : exec .swapintExpiry s = .next { s with
    chip := s.chip.swapDue s.now.toNat } := rfl

theorem exec_joinwaitExpiry : exec .joinwaitExpiry s = .next { s with
    chip := s.chip.joinWaitEnd s.now.toNat } := rfl

theorem exec_leatLaneLoss (k : Fin 4) : exec (.leatLaneLoss k) s = .next { s with
    chip := s.chip.leatLaneLost s.now.toNat k } := rfl

theorem exec_handover : exec .handover s = .next { s with
    chip := s.chip.handoverIn s.now.toNat } := rfl

theorem Chip.watchEdge_of_not {c : Chip} (h : c.off = true ∨ c.inPair = false) (now : Nat) : c.watchEdge now = c :=
  if_pos (by rcases h with h | h <;> simp [h])

/-- The commands of `PAR_CTL` on a primary of the pair that may be told so. -/
theorem exec_parCtl {ag : Agent} (on : s.chip.off = false) (pair : s.chip.inPair = true) (may : s.chip.mayWrite ag .PAR_CTL = true)
    (primary : s.chip.primary = true) :
    (exec (.roleSwap ag) s = .next { s with
      chip := s.chip.swapStart }) ∧
    (exec (.detach ag) s = .next { s with
      chip := s.chip.detachPartner s.now.toNat }) ∧
    (exec (.admitStandby ag) s = .next { s with
      chip := s.chip.admitPartner }) ∧
    exec (.resetboth ag) s = .next { s with
      chip := s.chip.warmReset s.now.toNat } := by
  have told : ∀ f : Chip → Chip, s.chip.byWriter ag .PAR_CTL (fun c => c.onPrimary f) = f s.chip := fun f =>
    (Chip.byWriter_of on may _).trans (Chip.onPrimary_of pair primary f)
  refine ⟨?_, ?_, ?_, ?_⟩
  · exact congrArg (fun c => Host.Outcome.next { s with chip := c }) (told fun c => c.swapStart)
  · exact congrArg (fun c => Host.Outcome.next { s with chip := c }) (told fun c => c.detachPartner s.now.toNat)
  · exact congrArg (fun c => Host.Outcome.next { s with chip := c }) (told fun c => c.admitPartner)
  · exact congrArg (fun c => Host.Outcome.next { s with chip := c }) (told fun c => c.warmReset s.now.toNat)

/-- On any other device they change nothing. -/
theorem exec_parCtl_of_not {ag : Agent} (h : s.chip.mayWrite ag .PAR_CTL = false ∨ s.chip.primary = false) :
    ∀ i ∈ [Instr.roleSwap ag, .detach ag, .admitStandby ag, .resetboth ag], exec i s = .next s := by
  have untold : ∀ f : Chip → Chip, s.chip.byWriter ag .PAR_CTL (fun c => c.onPrimary f) = s.chip := fun f => by
    rcases h with h | h
    · exact Chip.byWriter_of_denied h _
    · exact Chip.byWriter_of_idle (Chip.onPrimary_of_not h f)
  intro i hi
  simp only [List.mem_cons, List.not_mem_nil, or_false] at hi
  rcases hi with rfl | rfl | rfl | rfl
  · exact congrArg (fun c => Host.Outcome.next { s with chip := c }) (untold fun c => c.swapStart)
  · exact congrArg (fun c => Host.Outcome.next { s with chip := c }) (untold fun c => c.detachPartner s.now.toNat)
  · exact congrArg (fun c => Host.Outcome.next { s with chip := c }) (untold fun c => c.admitPartner)
  · exact congrArg (fun c => Host.Outcome.next { s with chip := c }) (untold fun c => c.warmReset s.now.toNat)

end Sys2Proof.Machine

open Sys2Proof Sys2Proof.Machine

/-- Settles O50: each command answers the chip that its law above names. That a command whose trigger does not hold changes nothing
is the model's choice (log 3); the detaching edge after a lost leat rests on log 38, the steps of a swap on log 39. -/
theorem pairRoles : Obligations.PairRoles := by
  unfold Obligations.PairRoles
  intro s ag k j t c now st up may par quiet swapping lost hb lane
  refine ⟨fun beats pair => ?toggles, exec_watchToggle_of_not, fun up step state => ?edge, fun h => ?noEdge,
    fun up late ok => ⟨fun state copying => ?watchLost, fun state leat paths still copying => ?takesOver⟩,
    fun up late ok state quiet => ?leatLost, fun early => ?noLoss,
    fun catching met none_ still shadow => ?caughtUp, fun h => ?notCaughtUp,
    fun on standby over_ => ?lag, fun h => ?noLag,
    fun up primary open_ late untagged => ?cut, fun h => ?notCut,
    fun may state => ?swap, fun on state interval due => ?swapDue, fun h => ?noSwap,
    fun may state quiet => ?detach, fun may primary alone => ?noDetach,
    fun may state => ?invited, fun may state joins leat watch copying => ?copies,
    fun may primary waits => ?resets, exec_parCtl_of_not,
    fun on from_ step state late heard => ?joinWait, fun h => ?noJoinWait,
    fun on topo bit ne other => ?laneLost, fun h => ?noLane,
    fun on state => ?asked, fun on state prim => ⟨fun step => ?holds, fun step egress => ?standby⟩, fun h => ?noHandover⟩
  case toggles => exact ⟨_, exec_watchToggle beats pair, rfl, rfl, .refl c⟩
  case edge => exact ⟨_, exec_watchEdge, Chip.watchEdge_standby up.1 up.2 step state⟩
  case noEdge =>
    rw [exec_watchEdge, Chip.watchEdge_of_not h]
  case watchLost =>
    have law := exec_channelLoss (s := s) true
    rw [Chip.channelLost_of_due up.1 up.2 true late, if_pos rfl] at law
    exact ⟨_, law, Chip.watchLost_of_paired ok state copying now⟩
  case takesOver =>
    have law := exec_channelLoss (s := s) true
    rw [Chip.channelLost_of_due up.1 up.2 true late, if_pos rfl] at law
    exact ⟨_, law, Chip.watchLost_takesOver ok state leat paths still copying now⟩
  case leatLost =>
    have law := exec_channelLoss (s := s) false
    rw [Chip.channelLost_of_due up.1 up.2 false late, if_neg Bool.false_ne_true] at law
    exact ⟨_, law, Chip.leatLost_of_paired ok state quiet.2 quiet.1 now⟩
  case noLoss => rw [exec_channelLoss, Chip.channelLost_of_early true early]
  case caughtUp => exact ⟨_, exec_catchUpEnd, Chip.catchUpEnd_shows catching met none_ still shadow now⟩
  case notCaughtUp => rw [exec_catchUpEnd, Chip.catchUpEnd_of_not h]
  case lag => exact ⟨_, exec_lagExceeded, Chip.lagOver_shows on standby over_⟩
  case noLag => rw [exec_lagExceeded, Chip.lagOver_of_not h]
  case cut => exact ⟨_, exec_outputCut, Chip.outputCut_shows up.1 up.2 primary open_ late untagged⟩
  case notCut => rw [exec_outputCut, Chip.outputCut_of_not h]
  case swap =>
    obtain ⟨⟨on, pair⟩, may⟩ := may
    obtain ⟨state', prim, swap, leat, role⟩ := Chip.swapStart_shows on state
    exact ⟨_, (exec_parCtl on pair may (Chip.primary_of_paired state)).1, state', prim, swap, leat, role.regs, role.sameCore⟩
  case swapDue =>
    have law := exec_swapintExpiry (s := s)
    rw [Chip.swapDue_of_due interval due] at law
    obtain ⟨state', prim, swap, leat, role⟩ := Chip.swapStart_shows on state
    exact ⟨_, law, state', prim, swap, leat, role.regs, role.sameCore⟩
  case noSwap => rw [exec_swapintExpiry, Chip.swapDue_of_not h]
  case detach =>
    obtain ⟨⟨on, pair⟩, may⟩ := may
    have law := (exec_parCtl on pair may (Chip.primary_of_paired state)).2.1
    rw [Chip.detachPartner, if_pos (Chip.paired_of_state state)] at law
    obtain ⟨alone, leat, acked, -, role⟩ := Chip.partnerLost_shows quiet.1 now
    exact ⟨_, law, alone, leat, acked, role.mem⟩
  case noDetach =>
    obtain ⟨⟨on, pair⟩, may⟩ := may
    rw [(exec_parCtl on pair may primary).2.1, Chip.detachPartner, if_neg (ne_true_of_eq_false alone)]
  case invited =>
    obtain ⟨⟨on, pair⟩, may⟩ := may
    have law := (exec_parCtl on pair may (Chip.primary_of_paired state)).2.2.1
    rw [Chip.admitPartner_waits state] at law
    exact ⟨_, law, rfl, rfl, .refl c⟩
  case copies =>
    obtain ⟨⟨on, pair⟩, may⟩ := may
    have law := (exec_parCtl on pair may (Chip.primary_of_alone state)).2.2.1
    rw [Chip.admitPartner_copies state joins leat watch copying] at law
    exact ⟨_, law, rfl, rfl, rfl, .refl c⟩
  case resets =>
    obtain ⟨⟨on, pair⟩, may⟩ := may
    obtain ⟨warm, step, -⟩ := Chip.warmReset_warmFrom waits now
    exact ⟨_, (exec_parCtl on pair may primary).2.2.2, warm, step⟩
  case joinWait => exact ⟨_, exec_joinwaitExpiry, Chip.joinWaitEnd_waits on from_ step state late heard⟩
  case noJoinWait => rw [exec_joinwaitExpiry, Chip.joinWaitEnd_of_none h]
  case laneLost => exact ⟨_, exec_leatLaneLoss k, Chip.leatLaneLost_shows on topo k.isLt j.isLt bit (fun h => ne (Fin.ext h)) other⟩
  case noLane => rw [exec_leatLaneLoss, Chip.leatLaneLost_of_down h]
  case asked => exact ⟨_, exec_handover, Chip.handoverIn_standby on state now⟩
  case holds =>
    have law := exec_handover (s := s)
    rw [(Chip.handoverIn_primary on state prim _).1 step] at law
    exact ⟨_, law, c.swapHold_shows⟩
  case standby =>
    have law := exec_handover (s := s)
    rw [(Chip.handoverIn_primary on state prim _).2 step] at law
    exact ⟨_, law, Chip.becomeStandby_shows egress now⟩
  case noHandover => rw [exec_handover, Chip.handoverIn_of_not h]
end

section
/-! A commit entry of the primary that the ring cannot take (R270, R274): the ring has given up published entries by the time
it turns out that the entry does not fit. -/
namespace Sys2Proof.Machine
variable {s : State}

namespace Chip

/-- An entry that does not fit is not stored, and what the ring has given up for it stays given up. -/
theorem journalIn_of_refused {c : Chip} {ws : List DWord} (h : (c.copyIn ws).2 = false) (now : Nat) :
    c.journalIn now ws = (c.copyIn ws).1 := by
  unfold journalIn
  generalize c.copyIn ws = r at *
  obtain ⟨d, taken⟩ := r
  subst h
  rfl

/-- A device that follows takes a forwarded message. -/
theorem followIn_of_following {c : Chip} (on : c.off = false) (follows : c.following = true) (now : Nat) (f : Chip → Chip) :
    c.followIn now f = f (c.modPair fun p => { p with leatAt := now }) := by
  have follows' : (c.modPair fun p => { p with leatAt := now }).following = true := follows
  simp only [followIn, leatIn, on, follows', Bool.false_eq_true, if_false, if_true]

end Chip

theorem exec_journal {ws : List DWord} (on : s.chip.off = false) (follows : s.chip.following = true) :
    exec (.journal ws) s = .next { s with
      chip := (s.chip.modPair fun p => { p with leatAt := s.now.toNat }).journalIn s.now.toNat ws } := by
  have law : exec (.journal ws) s = .next { s with
    chip := s.chip.followIn s.now.toNat fun c => c.journalIn s.now.toNat ws } := rfl
  rw [law, Chip.followIn_of_following on follows]

/-- The state in which a message of the leat has only been noted. -/
def heardState (s : State) : State := { s with chip := s.chip.modPair fun p => { p with leatAt := s.now.toNat } }

/-- A refused entry for which the ring has given up another changes more than the time of the leat. -/
theorem exec_journal_ne_heard {ws : List DWord} {a : Nat} (on : s.chip.off = false) (follows : s.chip.following = true)
    (refused : ((heardState s).chip.copyIn ws).2 = false)
    (moved : ((heardState s).chip.copyIn ws).1.byte a ≠ (heardState s).chip.byte a) :
    exec (.journal ws) s ≠ .next (heardState s) := fun same => by
  have law : exec (.journal ws) s = .next { s with
    chip := (heardState s).chip.journalIn s.now.toNat ws } := exec_journal on follows
  rw [law, Chip.journalIn_of_refused refused] at same
  exact moved (congrArg (fun u : State => u.chip.byte a) (Host.Outcome.next.inj same))

/-- A device that catches up, with a ring that is full but for 64 bytes: a published entry without lines stands at its tail
(offset 0), an open one behind it. -/
def fullRing : State :=
  { now := 0, pending := []
    chip := { off := false, pair := { catchUp := true }
              mem := [(journalBase, 0xFC), (journalBase + 1, 0xDE), (ringStart + 5, 4)] } }

/-- An entry of one line, 144 bytes. -/
def oneLineEntry : List DWord := BitVec.ofNat 64 (2 ^ 32) :: List.replicate 17 0

set_option maxRecDepth 2000 in
/-- The entry does not fit although the published one has been dropped: the tail stands 64 bytes further on. -/
theorem fullRing_copyIn : let d := (heardState fullRing).chip.copyIn oneLineEntry
    d.2 = false ∧ d.1.byte (journalBase + 8) ≠ (heardState fullRing).chip.byte (journalBase + 8) := by decide

end Sys2Proof.Machine

open Sys2Proof Sys2Proof.Machine

/-- Refutes O51: an entry for which `copyIn` answers false is said to change nothing beside the time of the leat, but in the ring
above it moves the tail: the published entry is dropped before the new one is found not to fit (R274). -/
theorem not_leatMessages : ¬ Obligations.LeatMessages := by
  unfold Obligations.LeatMessages
  intro h
  obtain ⟨-, -, -, -, -, -, -, -, -, -, -, -, -, -, unchanged, -⟩ := h fullRing ⟨false, false, 0, 0, 0, 0, none⟩ 0 0 (.eth []) []
    0 0 0 0 0 0 false false [] (.recvTimeout 0) 0 oneLineEntry 0 0 .finished
    { key := 0, crec := ⟨0, 0, 0, 0⟩, part := 0, triad := 0, split := false, pos := 0, wset := [], rset := [], time := 0 }
    ⟨0, 0, 0⟩ 0 0
  obtain ⟨refused, moved⟩ := fullRing_copyIn
  exact exec_journal_ne_heard rfl rfl refused moved (unchanged ⟨rfl, rfl⟩ refused)
end

section
/-! RESET through the management port on a register table that lists an address twice. A table in canonical form (`Tab.wf`) lists
each key once, and then `keepRegs` keeps what `rd` reads; the statement ranges over every table, and of two entries `rd` reads
the first while the reset keeps the last. -/
namespace Sys2Proof.Machine

/-- LASTSEQ in the state that a command answers. -/
def lastSeqAfter : Out → Option Nat
  | .next s => some s.chip.lastSeq
  | _ => none

/-- A keyed management port whose register `MGT_STAT` (KEY 1, MEPOCH 0, LASTSEQ 0) is listed twice; the core supply is not good,
so a load waits. -/
def listedTwice : State :=
  { now := 0, pending := []
    chip := { off := false, regs := [(RegName.MGT_STAT.addr, 1), (RegName.MGT_STAT.addr, 1)] } }

/-- RESET of the device, number 1, with the TAG of no key. -/
def resetFrame : MgtFrame := { flags := 0, len := 2, mepoch := 0, seq := 1, payload := [0, 0], tag := List.replicate 8 0 }

set_option maxRecDepth 4000 in
/-- The number of the command is in the first entry alone, and the reset keeps the second. -/
theorem lastSeqAfter_reset : lastSeqAfter (exec (.reset resetFrame) listedTwice) = some 0 := by decide

/-- The port accepts the frame: it is keyed and idle, and the frame's TAG, epoch, number and form pass. -/
theorem resetFrame_passes : let c := listedTwice.chip
    (c.off = false ∧ c.gb .MGT_STAT MGT_STAT.KEY = true ∧ c.mgt.responses = []) ∧
      resetFrame.tag = mgtTag c.mgt.key (mgtOctets 8 0 2 0 1 [0, 0]) ∧
      ((0 : Nat) = c.mepoch ∧ c.lastSeq < 1) := by decide

end Sys2Proof.Machine

open Sys2Proof Sys2Proof.Machine

/-- Refutes O57: LASTSEQ is said to hold the number of a RESET of the device once the reset is done, in every state; where the
register table lists `MGT_STAT` twice (no table in canonical form does) the reset keeps the entry that the write of LASTSEQ did
not change. -/
theorem not_managementPort : ¬ Obligations.ManagementPort := by
  unfold Obligations.ManagementPort
  intro h
  obtain ⟨-, -, -, -, -, -, -, -, -, reset, -⟩ := h listedTwice resetFrame .MGT_STAT 0 0 (.queue 0) ⟨0⟩ 0
  obtain ⟨key, tag, fresh⟩ := resetFrame_passes
  obtain ⟨device, -⟩ := reset ⟨key, tag, fresh, rfl, rfl⟩ rfl rfl
  obtain ⟨d, law, -, -, last, -⟩ := device rfl ⟨rfl, .inl rfl⟩
  have kept := lastSeqAfter_reset
  rw [law] at kept
  exact absurd ((Option.some.inj kept).symm.trans last) (by decide)
end

section
/-! What the host link reads of memory (R221, R477), and the messages it sends (R471, R473). -/
namespace Sys2Proof.Machine
namespace Chip
variable {c d : Chip} {now a n : Nat}

/-! ### Bytes read where no word has flipped bits -/

theorem byte_low {d v i : Nat} (h : i < 8) : BitVec.ofNat 8 ((d + 2 ^ 64 * v) / 2 ^ (8 * i)) = BitVec.ofNat 8 (d / 2 ^ (8 * i)) := by
  have split : 2 ^ 64 * v = 2 ^ (8 * i) * (2 ^ 8 * (2 ^ (56 - 8 * i) * v)) := by
    rw [← Nat.mul_assoc, ← Nat.mul_assoc, ← Nat.pow_add, ← Nat.pow_add, show 8 * i + 8 + (56 - 8 * i) = 64 by omega]
  apply BitVec.eq_of_toNat_eq
  rw [split, Nat.add_mul_div_left _ _ (Nat.two_pow_pos _), BitVec.toNat_ofNat, BitVec.toNat_ofNat, Nat.add_mul_mod_self_left]

theorem byte_high {d v i : Nat} (small : d < 2 ^ 64) (h : 8 ≤ i) : (d + 2 ^ 64 * v) / 2 ^ (8 * i) = v / 2 ^ (8 * (i - 8)) := by
  rw [show 8 * i = 64 + 8 * (i - 8) by omega, Nat.pow_add, ← Nat.div_div_eq_div_mul, Nat.add_mul_div_left _ _ (Nat.two_pow_pos _),
    Nat.div_eq_of_lt small, Nat.zero_add]

theorem readWord_clean (he : c.ecc = []) (h8 : a % 8 = 0) (now : Nat) (who : Option Nat) :
    c.readWord now a who = (c.fillRegion a, some ((c.fillRegion a).word a)) := by
  have clean := (c.fillRegion_ecc a).trans he
  have aligned : a / 8 * 8 = a := by omega
  simp only [readWord, aligned, readCode_of_ecc_nil clean]

theorem byte_of_word {i : Nat} (h8 : a % 8 = 0) (hi : i < 8) :
    BitVec.ofNat 8 ((c.word a).toNat / 2 ^ (8 * i)) = c.byte (a + i) := by
  have word := c.byte_word (a + i)
  rwa [show (a + i) / 8 * 8 = a by omega, show (a + i) % 8 = i by omega] at word

/-- Words read from an aligned address: the bytes of memory, and no word is lost. -/
theorem readWords_clean (he : c.ecc = []) (h8 : a % 8 = 0) (now : Nat) (who : Option Nat) (n : Nat) :
    ∃ d v, c.readWords now who n a = (d, v, []) ∧ StoreFrame c d ∧ d.mem = c.mem ∧
      ∀ i < 8 * n, BitVec.ofNat 8 (v / 2 ^ (8 * i)) = c.byte (a + i) := by
  induction n generalizing c a with
  | zero => exact ⟨c, 0, rfl, .refl c, rfl, fun i hi => by omega⟩
  | succ n ih =>
    obtain ⟨d, v, words, frame, mem, bytes⟩ := ih (c := c.fillRegion a) (a := a + 8) ((c.fillRegion_ecc a).trans he) (by omega)
    refine ⟨d, ((c.fillRegion a).word a).toNat + 2 ^ 64 * v, ?_, (c.fillRegion_storeFrame a).trans frame,
      mem.trans (c.fillRegion_mem a), fun i hi => ?_⟩
    · simp only [readWords, readWord_clean he h8, words]
    · by_cases low : i < 8
      · rw [byte_low low, byte_of_word h8 low, fillRegion_byte]
      · rw [byte_high ((c.fillRegion a).word a).isLt (by omega), bytes (i - 8) (by omega), fillRegion_byte]
        congr 1
        omega

/-- A read of memory without flipped bits gives its bytes. -/
theorem readBytes_clean (he : c.ecc = []) (now : Nat) (who : Option Nat) (a n : Nat) :
    ∃ d, c.readBytes now who a n = (d, some ((List.range n).map fun i => c.byte (a + i))) ∧ StoreFrame c d ∧ d.mem = c.mem := by
  obtain ⟨d, v, words, frame, mem, bytes⟩ := readWords_clean he (a := a / 8 * 8) (by omega) now who ((a + n + 7) / 8 - a / 8)
  refine ⟨d, ?_, frame, mem⟩
  have octets : bytesLE n (v / 2 ^ (8 * (a % 8))) = (List.range n).map fun i => c.byte (a + i) := by
    refine List.ext_getElem (by simp [length_bytesLE]) fun i hi _ => ?_
    have small : i < n := by simpa [length_bytesLE] using hi
    rw [← List.getD_eq_getElem _ 0, getD_bytesLE _ _ small, Nat.div_div_eq_div_mul, ← Nat.pow_add, ← Nat.mul_add,
      bytes (a % 8 + i) (by omega), List.getElem_map, List.getElem_range, ← Nat.add_assoc, Nat.div_add_mod']
  simp only [readBytes, words, octets]
  rfl

/-! ### Messages that the link sends (R471, R473) -/

/-- A message is kept for replay under the next flit's number. -/
def sentBy (h : HostLink) (m : HostMsg) : HostLink :=
  { h with replay := h.replay ++ [(h.txSeq, m)], txSeq := (h.txSeq + 1) % 4096 }

/-- No message waits: no completion, fault notice or event, and no credit to return. -/
structure NothingToSend (c : Chip) : Prop where
  cpls : c.host.cpls = []
  faults : c.host.faults = []
  hev : c.chan.hev = []
  posted : c.host.owedPosted = 0
  nonPosted : c.host.owedNonPosted = 0

/-- A link that has nothing to send notes at most that nothing waits. -/
theorem hostDrain_idle (h : c.NothingToSend) (now k : Nat) : ∃ x, c.hostDrain now (k + 1) = { c with
    host := { c.host with stallFrom := x } } := by
  have none_ : c.hostNext = none := by simp only [hostNext, h.cpls, h.faults, h.hev]
  have paid : ¬ (c.host.owedPosted ≠ 0 ∨ c.host.owedNonPosted ≠ 0) := by simp [h.posted, h.nonPosted]
  by_cases stopped : (!c.hostUp || decide (64 ≤ c.host.replay.length)) = true
  · exact ⟨c.host.stallFrom, by rw [hostDrain]; exact if_pos stopped⟩
  · refine ⟨none, ?_⟩
    rw [hostDrain]
    dsimp only
    rw [if_neg stopped, if_neg paid, none_]
    rfl

theorem not_stopped (up : c.hostUp = true) (room : c.host.replay.length < 64) :
    ¬ (!c.hostUp || decide (64 ≤ c.host.replay.length)) = true := by
  simp [up, room]

/-- Credits that are owed go out before anything else. -/
theorem hostDrain_credit (up : c.hostUp = true) (room : c.host.replay.length < 64)
    (owed : c.host.owedPosted ≠ 0 ∨ c.host.owedNonPosted ≠ 0) (now k : Nat) : c.hostDrain now (k + 1) = ({ c with
      host := { sentBy c.host (.credit c.host.owedPosted c.host.owedNonPosted 0) with
        owedPosted := 0, owedNonPosted := 0 } } : Chip).hostDrain now k := by
  rw [hostDrain]
  exact (if_neg (not_stopped up room)).trans (if_pos owed)

/-- The oldest completion takes a credit of the host, and owes one. -/
theorem hostDrain_cpl (up : c.hostUp = true) (room : c.host.replay.length < 64) (posted : c.host.owedPosted = 0)
    (nonPosted : c.host.owedNonPosted = 0) {m : HostMsg} (cpls : c.host.cpls = [m]) (credits : c.host.credits ≠ 0) (now k : Nat) :
    c.hostDrain now (k + 1) = ({ c with
      host := sentBy { c.host with cpls := [], owedNonPosted := 1, credits := c.host.credits - 1 } m } : Chip).hostDrain now k := by
  have next : c.hostNext = some (m, c.modHost fun h => { h with cpls := [], owedNonPosted := h.owedNonPosted + 1 }) := by
    simp only [hostNext, cpls]
  rw [hostDrain]
  refine (if_neg (not_stopped up room)).trans ((if_neg (by simp [posted, nonPosted])).trans ?_)
  rw [next]
  refine (if_neg credits).trans ?_
  simp only [modHost, hostSend, sentBy, nonPosted]

/-- What a host that owes nothing else is sent: the messages `l` and no more. -/
structure Sent (c d : Chip) (l : List HostMsg) : Prop where
  rest : d = { c with
    host := d.host }
  replay : d.host.replay.map Prod.snd = l
  reqs : d.host.reqs = c.host.reqs
  cpls : d.host.cpls = []

/-- A performed posted message returns its credit. -/
theorem hostDrain_posted (up : c.hostUp = true) (replay : c.host.replay = []) (cpls : c.host.cpls = [])
    (faults : c.host.faults = []) (hev : c.chan.hev = []) (posted : c.host.owedPosted = 1) (nonPosted : c.host.owedNonPosted = 0)
    (now : Nat) : Sent c (c.hostDrain now 200) [.credit 1 0 0] := by
  rw [hostDrain_credit up (by rw [replay]; decide) (.inl (by omega)) now 199]
  obtain ⟨x, idle⟩ := hostDrain_idle (c := { c with
    host := { sentBy c.host (.credit c.host.owedPosted c.host.owedNonPosted 0) with
      owedPosted := 0, owedNonPosted := 0 } }) ⟨cpls, faults, hev, rfl, rfl⟩ now 198
  rw [idle]
  refine ⟨rfl, ?_, rfl, cpls⟩
  simp [sentBy, replay, posted, nonPosted]

/-- A completion is sent and returns its request's credit. -/
theorem hostDrain_answer (up : c.hostUp = true) (replay : c.host.replay = []) {m : HostMsg} (cpls : c.host.cpls = [m])
    (faults : c.host.faults = []) (hev : c.chan.hev = []) (posted : c.host.owedPosted = 0) (nonPosted : c.host.owedNonPosted = 0)
    (credits : 1 ≤ c.host.credits) (now : Nat) :
    let d := c.hostDrain now 200
    Sent c d [m, .credit 0 1 0] ∧ d.host.credits + 1 = c.host.credits := by
  rw [hostDrain_cpl up (by rw [replay]; decide) posted nonPosted cpls (by omega) now 199]
  have room : (sentBy { c.host with cpls := [], owedNonPosted := 1, credits := c.host.credits - 1 } m).replay.length < 64 := by
    simp [sentBy, replay]
  generalize hh : sentBy { c.host with cpls := [], owedNonPosted := 1, credits := c.host.credits - 1 } m = h at *
  have posted' : h.owedPosted = 0 := by rw [← hh]; exact posted
  have nonPosted' : h.owedNonPosted = 1 := by rw [← hh]; rfl
  have cpls' : h.cpls = [] := by rw [← hh]; rfl
  have faults' : h.faults = [] := by rw [← hh]; exact faults
  rw [hostDrain_credit (c := { c with host := h }) up room (.inr (by change h.owedNonPosted ≠ 0; omega)) now 198]
  obtain ⟨x, idle⟩ := hostDrain_idle (c := { c with
    host := { sentBy h (.credit h.owedPosted h.owedNonPosted 0) with
      owedPosted := 0, owedNonPosted := 0 } }) ⟨cpls', faults', hev, rfl, rfl⟩ now 197
  rw [idle]
  refine ⟨⟨rfl, ?_, by rw [← hh]; rfl, cpls'⟩, ?_⟩
  · simp [sentBy, ← hh, replay, posted]
  · change h.credits + 1 = _
    rw [← hh]
    change c.host.credits - 1 + 1 = _
    omega

/-- What the link sends touches its own record and the events that wait, nothing else. -/
theorem hostDrain_rest (c : Chip) (now k : Nat) : ∃ h v, c.hostDrain now k = { c with
    host := h, chan := { c.chan with hev := v } } := by
  induction k generalizing c with
  | zero => exact ⟨_, _, rfl⟩
  | succ k ih =>
    have step : ∀ d : Chip, (∃ h v, d = { c with host := h, chan := { c.chan with hev := v } }) →
        ∃ h v, d.hostDrain now k = { c with host := h, chan := { c.chan with hev := v } } := by
      rintro _ ⟨h, v, rfl⟩
      obtain ⟨h', v', e⟩ := ih { c with host := h, chan := { c.chan with hev := v } }
      exact ⟨h', v', e⟩
    have next : ∀ m d, c.hostNext = some (m, d) → ∃ h v, d = { c with host := h, chan := { c.chan with hev := v } } := by
      intro m d e
      unfold hostNext at e
      split at e
      · obtain ⟨-, rfl⟩ := Prod.mk.inj (Option.some.inj e); exact ⟨_, _, rfl⟩
      · obtain ⟨-, rfl⟩ := Prod.mk.inj (Option.some.inj e); exact ⟨_, _, rfl⟩
      · obtain ⟨-, rfl⟩ := Prod.mk.inj (Option.some.inj e); exact ⟨_, _, rfl⟩
      · exact absurd e (by simp)
    rw [hostDrain]
    dsimp only
    split
    · exact ⟨_, _, rfl⟩
    · split
      · exact step _ ⟨_, _, rfl⟩
      · split
        next => exact ⟨_, _, rfl⟩
        next m d e =>
          obtain ⟨h, v, rfl⟩ := next m d e
          split
          · split
            · exact ⟨_, _, rfl⟩
            · exact ⟨_, _, rfl⟩
          · exact step _ ⟨_, _, rfl⟩

end Chip
end Sys2Proof.Machine
end

section
/-! Requests of the host and their answers (R474 to R477). -/
namespace Sys2Proof.Machine
variable {s : State}

namespace Chip
variable {c d u : Chip} {now a n tag st : Nat} {l : List Byte} {r : RegName}

/-! ### One request on a link with nothing under way -/

/-- A link that is up, with no request and no message waiting, and the host's credit for one. -/
structure HostReady (c : Chip) : Prop where
  up : c.hostUp = true
  reqs : c.host.reqs = []
  idle : c.NothingToSend
  replay : c.host.replay = []
  credits : 1 ≤ c.host.credits

theorem withReqs_nil (reqs : c.host.reqs = []) : ({ c with host := { c.host with reqs := [] } } : Chip) = c := by
  rw [← reqs]

/-- The one request, taken from the list. -/
theorem hostTake_eq (up : c.hostUp = true) (reqs : c.host.reqs = []) (now : Nat) (r : HostReq) :
    c.hostTake now r = ((c.hostDo now r).getD { c with host := { c.host with reqs := [r] } }).hostDrain now 200 := by
  have up' : (c.modHost fun h => { h with reqs := h.reqs ++ [r] }).hostUp = true := up
  have one : (c.modHost fun h => { h with reqs := h.reqs ++ [r] }) = { c with host := { c.host with reqs := [r] } } := by
    simp only [modHost, reqs, List.nil_append]
  rw [hostTake, if_pos up, hostPump, if_pos up', one]
  congr 1
  have back : (({ c with host := { c.host with reqs := [r] } } : Chip).modHost fun h => { h with reqs := [] }) = c :=
    withReqs_nil reqs
  simp only [List.length_cons, List.length_nil, hostRun, back]
  cases c.hostDo now r <;> rfl

theorem hostTake_done (up : c.hostUp = true) (reqs : c.host.reqs = []) {q : HostReq} (did : c.hostDo now q = some d) :
    c.hostTake now q = d.hostDrain now 200 := by
  rw [hostTake_eq up reqs, did]
  rfl

theorem hostTake_waits (up : c.hostUp = true) (reqs : c.host.reqs = []) {q : HostReq} (held : c.hostDo now q = none) :
    c.hostTake now q = ({ c with host := { c.host with reqs := [q] } } : Chip).hostDrain now 200 := by
  rw [hostTake_eq up reqs, held]
  rfl

/-- The host's record and the link are as they were. -/
structure SameLink (c u : Chip) : Prop where
  up : u.hostUp = c.hostUp
  host : u.host = c.host
  hev : u.chan.hev = c.chan.hev

theorem SameLink.refl (c : Chip) : SameLink c c := ⟨rfl, rfl, rfl⟩

theorem hostUp_congr (off : u.off = c.off) (rd : u.rd .HST_STAT = c.rd .HST_STAT) : u.hostUp = c.hostUp := by
  rw [hostUp, off, gb_congr rd, ← hostUp]

/-- A request that is answered: one completion, and the credit of the request. -/
theorem hostTake_answers (h : c.HostReady) {q : HostReq} (link : SameLink c u) (did : c.hostDo now q = some (u.hostCpl tag st l)) :
    let d := c.hostTake now q
    (d.host.replay.map Prod.snd = [.cpl tag st l, .credit 0 1 0] ∧ d.host.reqs = []) ∧ d.host.credits + 1 = c.host.credits ∧
      d = { u with host := d.host } := by
  obtain ⟨up, reqs, idle, replay, credits⟩ := h
  have up' : u.hostUp = true := link.up.trans up
  have host := link.host
  have queued : u.hostCpl tag st l = { u with host := { u.host with cpls := [.cpl tag st l] } } := by
    rw [hostCpl, if_pos up', modHost, host, idle.cpls]
    rfl
  rw [queued] at did
  rw [hostTake_done up reqs did]
  obtain ⟨sent, spent⟩ := hostDrain_answer (c := { u with host := { u.host with cpls := [.cpl tag st l] } }) up'
    (by rw [host]; exact replay) rfl (by rw [host]; exact idle.faults) (link.hev.trans idle.hev) (by rw [host]; exact idle.posted)
    (by rw [host]; exact idle.nonPosted) (by rw [host]; exact credits) now
  refine ⟨⟨sent.replay, sent.reqs.trans ?_⟩, spent.trans ?_, sent.rest⟩
  · rw [host]; exact reqs
  · rw [host]

/-- A posted message that has been performed returns its credit. -/
theorem hostTake_posts (h : c.HostReady) {q : HostReq} (link : SameLink c u) (did : c.hostDo now q = some u.hostPosted) :
    let d := c.hostTake now q
    (d.host.replay.map Prod.snd = [.credit 1 0 0] ∧ d.host.reqs = []) ∧ d = { u with host := d.host } := by
  obtain ⟨up, reqs, idle, replay, credits⟩ := h
  have host := link.host
  rw [hostTake_done up reqs did]
  have sent := hostDrain_posted (c := u.hostPosted) (link.up.trans up) (by change u.host.replay = []; rw [host]; exact replay)
    (by change u.host.cpls = []; rw [host]; exact idle.cpls) (by change u.host.faults = []; rw [host]; exact idle.faults)
    (link.hev.trans idle.hev) (by change u.host.owedPosted + 1 = 1; rw [host, idle.posted])
    (by change u.host.owedNonPosted = 0; rw [host]; exact idle.nonPosted) now
  refine ⟨⟨sent.replay, sent.reqs.trans ?_⟩, sent.rest⟩
  change u.host.reqs = []
  rw [host]; exact reqs

/-! ### Registers (R475) -/

/-- The address names the register `r` of the register network. -/
structure Names (c : Chip) (a : Nat) (r : RegName) : Prop where
  aligned : a % 8 = 0
  region : c.region a = .register
  book : bookWindow a = false
  reg : regOf a = some r

theorem not_unnamed (h : c.Names a r) : ¬ (a % 8 ≠ 0 ∨ c.region a ≠ .register ∨ (!bookWindow a && (regOf a).isNone) = true) := by
  simp [h.aligned, h.region, h.book, h.reg]

theorem hostRegRead_of_unnamed (h : a % 8 ≠ 0 ∨ c.region a ≠ .register) : c.hostRegRead now a = (c, 1, []) :=
  if_pos (h.imp_right .inl)

theorem hostRegRead_of_named (h : c.Names a r) : c.hostRegRead now a = match c.devGet now c.hostAgent a with
    | (d, .ok v) => (d, 0, bytesLE 8 v.toNat)
    | (d, .refused) => (d, 6, [])
    | (d, .silent) => (d, 5, []) := if_neg (not_unnamed h)

theorem devGet_of_named (h : c.Names a r) (now : Nat) (ag : Agent) : c.devGet now ag a =
    if c.answers a then (if c.devReadable ag a then (c.regTaken ag r, .ok (c.regGet now r)) else (c, .refused)) else (c, .silent) := by
  simp only [devGet, h.region, h.book, h.reg]
  cases c.answers a
  · rfl
  · cases c.devReadable ag a <;> rfl

theorem devPut_of_named (h : c.Names a r) (now : Nat) (ag : Agent) (v : DWord) (src : Option Nat) : c.devPut now ag a v src =
    if c.answers a then (if c.mayWrite ag r then (c.regPut now ag r v, .ok 0) else (c, .refused)) else (c, .silent) := by
  simp only [devPut, h.region, h.book, h.reg]
  cases c.answers a
  · rfl
  · cases c.mayWrite ag r <;> rfl

theorem regTaken_of_plain (status : r ≠ .FLT_STATUS) (txts : ∀ j, r ≠ .LAN_TXTS j) (ag : Agent) : c.regTaken ag r = c := by
  unfold regTaken
  split
  next j => exact absurd rfl (txts j)
  next => exact absurd rfl status
  next => rfl

theorem hostRegWrite_of_standby (h : c.standby = true) (now a : Nat) (v : DWord) : c.hostRegWrite now a v = (c, 6) := if_pos h

theorem hostRegWrite_of_unnamed (active : c.standby = false) (h : a % 8 ≠ 0 ∨ c.region a ≠ .register) (now : Nat) (v : DWord) :
    c.hostRegWrite now a v = (c, 1) := (if_neg (ne_true_of_eq_false active)).trans (if_pos (h.imp_right .inl))

theorem hostRegWrite_of_named (active : c.standby = false) (h : c.Names a r) (answers : c.answers a = true) (now : Nat) (v : DWord) :
    c.hostRegWrite now a v = if c.mayWrite c.hostAgent r then (c.regPut now c.hostAgent r v, 0)
      else (match r with
        | .HST_WBASE _ | .HST_WLIMIT _ => c.corrected now 18
        | _ => c, 6) := by
  rw [hostRegWrite, if_neg (ne_true_of_eq_false active), if_neg (not_unnamed h), devPut_of_named h, if_pos answers, h.reg]
  cases c.mayWrite c.hostAgent r
  · cases r <;> rfl
  · rfl

/-! ### Memory (R268, R475, R476) -/

theorem sameLink_of_storeFrame (h : StoreFrame c u) : SameLink c u := by
  have off : u.off = c.off := by rw [h.rest]
  have away : ¬ StoreAddr RegName.HST_STAT.addr := by
    simp only [StoreAddr, RegName.addr, not_or, not_exists]
    exact ⟨by decide, by decide, fun t => by omega⟩
  exact ⟨hostUp_congr off (h.rd _ away), by rw [h.rest], by rw [h.rest]⟩

/-- A permitted read of memory without flipped bits. -/
theorem hostMemRead_reads (active : c.standby = false) (ok : c.hostMemStatus a false = 0) (he : c.ecc = []) (now n : Nat) :
    ∃ u, c.hostMemRead now a n = (u, 0, (List.range n).map fun i => c.byte (a + i)) ∧ SameLink c u ∧ u.mem = c.mem := by
  obtain ⟨u, read, frame, mem⟩ := readBytes_clean he now none a n
  refine ⟨u, ?_, sameLink_of_storeFrame frame, mem⟩
  simp [hostMemRead, active, ok, read]

theorem hostMemRead_refused (active : c.standby = false) (bad : c.hostMemStatus a false ≠ 0) (now n : Nat) :
    c.hostMemRead now a n = (c, c.hostMemStatus a false, []) := by
  simp [hostMemRead, active, bad]

theorem logWrite_of_off (off : ∀ p, c.gb (.PRT_LOGCFG p) PRT_LOGCFG.EN = false) (now : Nat) (o : Option Nat) (a n : Nat) :
    c.logWrite now o a n = c := by
  cases o with
  | none => rfl
  | some p => simp [logWrite, off p]

/-- A permitted write of memory without flipped bits, where no write is logged. -/
theorem hostMemWrite_writes {l : List Byte} (active : c.standby = false) (ok : c.hostMemStatus a true = 0)
    (free : c.rangeHeld a l.length = false) (he : c.ecc = []) (unlogged : ∀ p, c.gb (.PRT_LOGCFG p) PRT_LOGCFG.EN = false)
    (now : Nat) : ∃ u, c.hostMemWrite now a l = some u ∧ SameLink c u ∧ Wrote c u a l := by
  obtain ⟨t, told⟩ : ∃ t, (if c.hostMirrors a l.length then c.leatSend (.extw (.hostMem (BitVec.ofNat 40 a) l)) else c) =
      { c with leat := t } := by
    split
    · exact c.leatSend_eq _
    · exact ⟨_, rfl⟩
  have law : c.hostMemWrite now a l = some (({ c with leat := t } : Chip).hostPut now a l) := by
    unfold hostMemWrite
    rw [if_neg (by simp [active, ok]), if_neg (ne_true_of_eq_false free)]
    dsimp only
    rw [told]
  have put : ({ c with leat := t } : Chip).hostPut now a l = ({ c with leat := t } : Chip).writeBytes now none l.length a l := by
    unfold hostPut
    dsimp only
    rw [logWrite_of_off (c := { c with leat := t }) unlogged]
  have frame := writeBytes_storeFrame (c := { c with leat := t }) he now none l.length a l
  have link := sameLink_of_storeFrame frame
  exact ⟨_, law.trans (congrArg some put), ⟨link.up, link.host, link.hev⟩,
    wrote_of_mem (writeBytes_wrote (c := { c with leat := t }) he now none a l) rfl rfl⟩

theorem hostMemWrite_waits {l : List Byte} (active : c.standby = false) (ok : c.hostMemStatus a true = 0)
    (held : c.rangeHeld a l.length = true) (now : Nat) : c.hostMemWrite now a l = none := by
  simp [hostMemWrite, active, ok, held]

theorem hostMemWrite_refused {l : List Byte} (bad : c.hostMemStatus a true ≠ 0) (now : Nat) :
    c.hostMemWrite now a l = some (c.hostRefuse now) := by
  simp [hostMemWrite, bad]

theorem gf_hostErr (c : Chip) {k : Nat} (h : k < 256) : (c.hostErr k).gf .HST_STAT HST_STAT.LASTERR = k := by
  rw [hostErr, gf_sf_same _ _ _ _ (by decide) (by decide)]
  exact Nat.mod_eq_of_lt h

/-- A note in LASTERR leaves the link as it is. -/
theorem hostErr_link (c : Chip) (k : Nat) : SameLink c (c.hostErr k) := by
  refine ⟨?_, sf_host .., congrArg Chan.hev (sf_chan ..)⟩
  rw [hostUp, hostErr, sf_off, gb, gf_sf_field _ _ _ _ _ (by decide) (by decide) (by decide), ← gb, ← hostUp]

theorem corrected_link (c : Chip) (now src : Nat) : SameLink c (c.corrected now src) := by
  have rd := (c.corrected_unitFrame now src).rd .HST_STAT (by decide)
  obtain ⟨f, h⟩ := c.corrected_eq now src
  rw [h] at rd ⊢
  exact ⟨hostUp_congr rfl rd, rfl, rfl⟩

theorem SameLink.trans {e : Chip} (h : SameLink c d) (k : SameLink d e) : SameLink c e :=
  ⟨k.up.trans h.up, k.host.trans h.host, k.hev.trans h.hev⟩

/-- What the refusal of a posted write shows: LASTERR 4 and a corrected fault of source 17. -/
theorem hostRefuse_shows (c : Chip) (now : Nat) :
    let d := c.hostRefuse now
    d.gf .HST_STAT HST_STAT.LASTERR = 4 ∧ d.stands 17 0 ∧ d.mem = c.mem ∧ SameLink c d := by
  have noted := c.gf_hostErr (k := 4) (by decide)
  have link := c.hostErr_link 4
  have mem : (c.hostErr 4).mem = c.mem := sf_mem ..
  have law : c.hostRefuse now = (c.hostErr 4).corrected now 17 := rfl
  rw [law]
  generalize c.hostErr 4 = u at *
  have frame := u.corrected_unitFrame now 17
  exact ⟨(frame.gf _ (by decide)).trans noted, u.corrected_stands now (by decide), frame.mem.trans mem,
    link.trans (u.corrected_link now 17)⟩

/-! ### Doorbells and interrupts (R477) -/

theorem hostBell_refused {q v : Nat} (not_host : c.gb (.QUE_CFG q) QUE_CFG.HOST = false) (now : Nat) :
    c.hostBell now q v = some (c.hostRefuse now) := if_pos (by simp [not_host])

/-- A doorbell is the write of the queue's index, then its reading. -/
theorem hostBell_rings {q v : Nat} (active : c.standby = false) (host : c.gb (.QUE_CFG q) QUE_CFG.HOST = true)
    (power : c.domainOn 19 = true) (own : c.rangeStatus none (c.ctla q) 8 = 0) (free : c.rangeHeld (c.ctla q) 8 = false)
    (he : c.ecc = []) (now : Nat) : ∃ e, c.hostBell now q v = some (e.readDoorbell now q) ∧ Wrote c e (c.ctla q) (bytesLE 8 v) := by
  obtain ⟨t, told⟩ := c.leatSend_eq (.extw (.hostDoorbell (BitVec.ofNat 12 q) (BitVec.ofNat 16 v)))
  have law : c.hostBell now q v = some ((c.leatSend (.extw (.hostDoorbell (BitVec.ofNat 12 q) (BitVec.ofNat 16 v)))).hostDoor now q v) :=
    (if_neg (by simp [active, host, power, own])).trans (if_neg (ne_true_of_eq_false free))
  rw [told] at law
  exact ⟨_, law, wrote_of_mem (writeBytes_wrote (c := { c with leat := t }) he now none (c.ctla q) (bytesLE 8 v)) rfl rfl⟩

theorem hostIntr_of_disabled {t vec pos : Nat} (h : (c.gf (.CLU_EVCFG t) CLU_EVCFG.HOSTEN).testBit vec = false) :
    c.hostIntr t vec pos = c := if_neg (by simp [h])

/-- An enabled interrupt of the host is a pending event of the core that its position names. -/
theorem hostIntr_pends {t vec pos : Nat} (active : c.standby = false)
    (h : (c.gf (.CLU_EVCFG t) CLU_EVCFG.HOSTEN).testBit vec = true) :
    0x1040 + vec ∈ ((c.hostIntr t vec pos).port (c.portKey t pos)).pend ∧ (c.hostIntr t vec pos).mem = c.mem := by
  have law : c.hostIntr t vec pos = c.pendEvent (c.portKey t pos) (0x1040 + vec) := if_pos (by simp [active, h])
  rw [law]
  refine ⟨?_, pendEvent_mem ..⟩
  obtain ⟨x, opened⟩ := (c.updPort (c.portKey t pos) (fun p => { p with pend := addNew p.pend (0x1040 + vec) })).openRound_eq
    (c.portKey t pos / 3)
  rw [pendEvent, opened]
  change _ ∈ ((c.updPort (c.portKey t pos) (fun p => { p with pend := addNew p.pend (0x1040 + vec) })).port (c.portKey t pos)).pend
  rw [updPort_eq, port_setPort_same]
  exact mem_addNew _ _

end Chip
end Sys2Proof.Machine
end

section
/-! The link itself: flits, credits, its loss and its training, and the mask of errors as the host's manager writes it
(R470 to R473, R476, R479). -/
namespace Sys2Proof.Machine
variable {s : State}

theorem applyWrite_whole (w v : DWord) : applyWrite [⟨63, 0, .rw⟩] w v = v := by
  have whole : ∀ x : DWord, Fld.get ⟨63, 0⟩ x = x.toNat := fun x => by
    rw [Fld.get, Nat.pow_zero, Nat.div_one]
    exact Nat.mod_eq_of_lt x.isLt
  apply BitVec.eq_of_toNat_eq
  rw [← whole, ← whole v]
  change Fld.get ⟨63, 0⟩ (Fld.put ⟨63, 0⟩ w (Fld.get ⟨63, 0⟩ v)) = _
  rw [Fld.get_put_same _ _ _ (by decide) (by decide), whole]
  exact Nat.mod_eq_of_lt v.isLt

namespace Chip
variable {c d u : Chip} {now a n k t : Nat}

/-! ### The mask of errors -/

theorem regPut_errmask (c : Chip) (now : Nat) (ag : Agent) (v : DWord) : c.regPut now ag .FLT_ERRMASK v = c.wr .FLT_ERRMASK v := by
  have law : c.regPut now ag .FLT_ERRMASK v = c.wr .FLT_ERRMASK (applyWrite [⟨63, 0, .rw⟩] (c.rd .FLT_ERRMASK) v) := rfl
  rw [law, applyWrite_whole]

theorem errmask_names (c : Chip) : c.Names (BitVec.ofNat 40 RegName.FLT_ERRMASK.addr).toNat .FLT_ERRMASK :=
  ⟨by decide, rfl, by decide, by decide⟩

/-! ### What the link does on its own -/

theorem hostPump_of_none (up : c.hostUp = true) (reqs : c.host.reqs = []) (now : Nat) : c.hostPump now = c.hostDrain now 200 := by
  rw [hostPump, if_pos up, reqs]
  rfl

/-- A link that has nothing to do. -/
theorem hostPump_idle (up : c.hostUp = true) (reqs : c.host.reqs = []) (idle : c.NothingToSend) (now : Nat) :
    ∃ x, c.hostPump now = { c with
      host := { c.host with stallFrom := x } } := by
  rw [hostPump_of_none up reqs]
  exact hostDrain_idle idle now 199

/-- Credits that the host grants. -/
def creditsGranted (c : Chip) (n : Nat) : HostLink :=
  { c.host with credits := c.host.credits + n, stallFrom := if n = 0 then c.host.stallFrom else none }

theorem hostCredit_eq (up : c.hostUp = true) (now n : Nat) : c.hostCredit now n = ({ c with host := c.creditsGranted n } : Chip).hostPump now :=
  if_neg (by simp [up])

theorem hostCredit_idle (up : c.hostUp = true) (reqs : c.host.reqs = []) (idle : c.NothingToSend) (now n : Nat) :
    let d := c.hostCredit now n
    d.host.credits = c.host.credits + n ∧ d = { c with host := d.host } := by
  obtain ⟨cpls, faults, hev, posted, nonPosted⟩ := idle
  rw [hostCredit_eq up]
  obtain ⟨x, pumped⟩ := hostPump_idle (c := { c with host := c.creditsGranted n }) up reqs ⟨cpls, faults, hev, posted, nonPosted⟩ now
  rw [pumped]
  exact ⟨rfl, rfl⟩

/-- A completion that has waited for a credit. -/
theorem hostCredit_frees (up : c.hostUp = true) (reqs : c.host.reqs = []) (faults : c.host.faults = []) (hev : c.chan.hev = [])
    (posted : c.host.owedPosted = 0) (nonPosted : c.host.owedNonPosted = 0) {m : HostMsg} (cpls : c.host.cpls = [m])
    (replay : c.host.replay = []) (credits : c.host.credits = 0) (some_ : 1 ≤ n) (now : Nat) :
    let d := c.hostCredit now n
    (d.host.replay.map Prod.snd = [m, .credit 0 1 0] ∧ d.host.reqs = []) ∧ d.host.credits + 1 = n ∧ d.host.cpls = [] := by
  have grant : c.host.credits + n = n := by omega
  rw [hostCredit_eq up, hostPump_of_none (c := { c with host := c.creditsGranted n }) up reqs]
  obtain ⟨sent, spent⟩ := hostDrain_answer (c := { c with host := c.creditsGranted n }) up replay cpls faults hev posted nonPosted
    (by change 1 ≤ c.host.credits + n; omega) now
  exact ⟨⟨sent.replay, sent.reqs.trans reqs⟩, spent.trans grant, sent.cpls⟩

/-! ### Flits (R471) -/

/-- The link's record after a flit with a good CRC: the host has flits up to `ack`. -/
def flitSeen (c : Chip) (ack : Nat) : HostLink :=
  { c.host with fails := 0, replay := c.host.replay.filter fun m => serialBelow 12 ack m.1 }

/-- The next flit is counted, and a message of it that is dropped is noted. -/
theorem flitIn_next (up : c.hostUp = true) (reqs : c.host.reqs = []) (idle : c.NothingToSend) (now : Nat) {seq : Nat}
    (next : seq = c.host.rxSeq) (ack : Nat) (bad : Bool) :
    let d := c.flitIn now seq ack true bad
    d.host.rxSeq = (c.host.rxSeq + 1) % 4096 ∧ d.host.fails = 0 ∧
      d.host.replay = c.host.replay.filter (fun e => serialBelow 12 ack e.1) ∧ RegsBut c d [.HST_STAT] ∧
      d.gf .HST_STAT HST_STAT.LASTERR = (if bad then 5 else c.gf .HST_STAT HST_STAT.LASTERR) ∧ SameCore c d := by
  obtain ⟨cpls, faults, hev, posted, nonPosted⟩ := idle
  obtain ⟨u, noted, err, only, link⟩ : ∃ u : Chip,
      (if bad then ({ c with host := c.flitSeen ack } : Chip).hostErr 5 else { c with host := c.flitSeen ack }) = u ∧
      u.gf .HST_STAT HST_STAT.LASTERR = (if bad then 5 else c.gf .HST_STAT HST_STAT.LASTERR) ∧
      OnlyRegs { c with host := c.flitSeen ack } u [.HST_STAT] ∧ SameLink { c with host := c.flitSeen ack } u := by
    cases bad
    · exact ⟨_, rfl, rfl, .refl _ _, .refl _⟩
    · exact ⟨_, rfl, gf_hostErr _ (by decide), .sf _ _ _ (by simp), hostErr_link _ 5⟩
  have law : c.flitIn now seq ack true bad = (u.modHost fun h => { h with rxSeq := (h.rxSeq + 1) % 4096 }).hostPump now := by
    have seen : ((c.modHost fun h => { h with fails := 0 }).hostAcked ack) = { c with host := c.flitSeen ack } := rfl
    refine (if_neg (by simp [up])).trans ((if_neg (by simp)).trans ?_)
    dsimp only
    rw [seen]
    have next' : seq = ({ c with host := c.flitSeen ack } : Chip).host.rxSeq := next
    rw [if_pos next', noted]
  have host : u.host = c.flitSeen ack := link.host
  obtain ⟨x, pumped⟩ := hostPump_idle (c := u.modHost fun h => { h with rxSeq := (h.rxSeq + 1) % 4096 }) (link.up.trans up)
    (by change u.host.reqs = []; rw [host]; exact reqs)
    ⟨by change u.host.cpls = []; rw [host]; exact cpls, by change u.host.faults = []; rw [host]; exact faults, link.hev.trans hev,
      by change u.host.owedPosted = 0; rw [host]; exact posted, by change u.host.owedNonPosted = 0; rw [host]; exact nonPosted⟩ now
  rw [law, pumped]
  refine ⟨?_, ?_, ?_, only.2, err, only.sameCore⟩
  · change (u.host.rxSeq + 1) % 4096 = _
    rw [host]; rfl
  · change u.host.fails = 0
    rw [host]; rfl
  · change u.host.replay = _
    rw [host]; rfl

/-- A flit out of order is dropped. -/
theorem flitIn_other (up : c.hostUp = true) (reqs : c.host.reqs = []) (idle : c.NothingToSend) (now : Nat) {seq : Nat}
    (other : seq ≠ c.host.rxSeq) (ack : Nat) (bad : Bool) :
    let d := c.flitIn now seq ack true bad
    d.host.rxSeq = c.host.rxSeq ∧ d = { c with host := d.host } := by
  obtain ⟨cpls, faults, hev, posted, nonPosted⟩ := idle
  have law : c.flitIn now seq ack true bad = ({ c with host := c.flitSeen ack } : Chip).hostPump now := by
    have seen : ((c.modHost fun h => { h with fails := 0 }).hostAcked ack) = { c with host := c.flitSeen ack } := rfl
    refine (if_neg (by simp [up])).trans ((if_neg (by simp)).trans ?_)
    dsimp only
    rw [seen]
    have other' : seq ≠ ({ c with host := c.flitSeen ack } : Chip).host.rxSeq := other
    rw [if_neg other']
  obtain ⟨x, pumped⟩ := hostPump_idle (c := { c with host := c.flitSeen ack }) up reqs ⟨cpls, faults, hev, posted, nonPosted⟩ now
  rw [law, pumped]
  exact ⟨rfl, rfl⟩

/-- A flit with a false CRC is counted; after eight in a row the link goes down. -/
theorem flitIn_false (up : c.hostUp = true) (now seq ack : Nat) (bad : Bool) :
    (c.host.fails < 8 → c.flitIn now seq ack false bad = c.modHost fun h => { h with fails := h.fails + 1 }) ∧
      (8 ≤ c.host.fails → c.flitIn now seq ack false bad = c.hostDown now 3) := by
  have law : c.flitIn now seq ack false bad = if 8 ≤ c.host.fails then c.hostDown now 3 else
      c.modHost fun h => { h with fails := h.fails + 1 } := (if_neg (by simp [up])).trans (if_pos (by simp))
  exact ⟨fun few => law.trans (if_neg (by omega)), fun many => law.trans (if_pos many)⟩

/-! ### The link goes down (R479) -/

/-- Messages that were sent and may not have arrived are pending again, where they are events. -/
theorem hostAgain_foldl (c : Chip) (l : List (Nat × HostMsg)) : ∃ f v, l.foldl (fun c m => c.hostAgain m.2) c = { c with
    host := { c.host with faults := f }, chan := { c.chan with hev := v } } ∧ (∀ j ∈ c.chan.hev, j ∈ v) ∧
      ∀ e ∈ l, ∀ j, e.2 = .queue j → j ∈ v := by
  induction l generalizing c with
  | nil => exact ⟨_, _, rfl, fun _ h => h, fun _ h => absurd h List.not_mem_nil⟩
  | cons e r ih =>
    have one : ∃ f v, c.hostAgain e.2 = { c with
        host := { c.host with faults := f }, chan := { c.chan with hev := v } } ∧ (∀ j ∈ c.chan.hev, j ∈ v) ∧
        ∀ j, e.2 = .queue j → j ∈ v := by
      unfold hostAgain
      split
      next q hq =>
        refine ⟨c.host.faults, addNew c.chan.hev q, rfl, fun j hj => mem_addNew_of_mem hj q, fun j hj => ?_⟩
        obtain rfl := HostMsg.queue.inj (hq.symm.trans hj)
        exact mem_addNew _ _
      next src cls hq => exact ⟨_, c.chan.hev, rfl, fun _ h => h, fun j hj => by rw [hj] at hq; cases hq⟩
      next not_queue _ => exact ⟨c.host.faults, c.chan.hev, rfl, fun _ h => h, fun j hj => absurd hj (not_queue j)⟩
    obtain ⟨f, v, again, kept, queued⟩ := one
    obtain ⟨f', v', all, kept', queued'⟩ := ih (c.hostAgain e.2)
    rw [again] at all kept'
    refine ⟨f', v', by rw [List.foldl_cons, again, all], fun j hj => kept' j (kept j hj), fun x hx j hj => ?_⟩
    rcases List.mem_cons.1 hx with rfl | hx
    · exact kept' j (queued j hj)
    · exact queued' x hx j hj

/-- The link's register once it is down: UP and WIDTH 0, the loss counted, its reason in LASTERR. -/
def linkDown (c : Chip) (code : Nat) : Chip :=
  (((c.sf .HST_STAT HST_STAT.UP 0).sf .HST_STAT HST_STAT.WIDTH 0).inc .HST_STAT HST_STAT.LINKDOWNS).hostErr code

theorem linkDown_onlyRegs (c : Chip) (code : Nat) : OnlyRegs c (c.linkDown code) [.HST_STAT] :=
  .trans (.trans (.trans (.sf c _ _ (by simp)) (.sf _ _ _ (by simp))) (.sf _ _ _ (by simp))) (.sf _ _ _ (by simp))

theorem linkDown_shows (c : Chip) {code : Nat} (h : code < 256) :
    let d := c.linkDown code
    d.gf .HST_STAT HST_STAT.UP = 0 ∧ d.gf .HST_STAT HST_STAT.WIDTH = 0 ∧ d.gf .HST_STAT HST_STAT.LASTERR = code ∧
      d.gf .HST_STAT HST_STAT.LINKDOWNS = min (c.gf .HST_STAT HST_STAT.LINKDOWNS + 1) HST_STAT.LINKDOWNS.max := by
  have err : ∀ (c : Chip) (g : Fld), g.hi < 40 ∨ 47 < g.lo → (c.hostErr code).gf .HST_STAT g = c.gf .HST_STAT g := fun c g hg =>
    gf_sf_field _ _ _ _ _ (by decide) (by decide) hg
  have inc : ∀ (c : Chip) (g : Fld), g.hi < 48 → (c.inc .HST_STAT HST_STAT.LINKDOWNS).gf .HST_STAT g = c.gf .HST_STAT g :=
    fun c g hg => gf_sf_field _ _ _ _ _ (by decide) (by decide) (.inl hg)
  refine ⟨?_, ?_, gf_hostErr _ h, ?_⟩
  · rw [linkDown, err _ _ (by decide), inc _ _ (by decide), gf_sf_field _ _ _ _ _ (by decide) (by decide) (by decide),
      gf_sf_same _ _ _ _ (by decide) (by decide)]
    rfl
  · rw [linkDown, err _ _ (by decide), inc _ _ (by decide), gf_sf_same _ _ _ _ (by decide) (by decide)]
    rfl
  · rw [linkDown, err _ _ (by decide), gf_inc_same _ _ _ (by decide) (by decide),
      gf_sf_field _ _ _ _ _ (by decide) (by decide) (by decide), gf_sf_field _ _ _ _ _ (by decide) (by decide) (by decide)]

/-- A contained fault adds a notice to the link's record, and leaves its requests and completions. -/
theorem contained_host (c : Chip) (now src : Nat) (who triad : Option Nat) :
    (c.contained now src who triad).host.reqs = c.host.reqs ∧ (c.contained now src who triad).host.cpls = c.host.cpls := by
  have marked : ∀ l, (({ c with leat := l } : Chip).containedMark src (c.attrKey who) triad).host = c.host := fun l => by
    rw [containedMark_rest]
  have quiet : ∀ (c : Chip) (k : Nat) (had : Bool), (c.containedState now src k had).host = c.host := fun c k had =>
    (c.containedState_only now src k had).2.1
  have told : ∃ l, (if c.standby then c.leatPut (.pfault src 1) else c) = { c with leat := l } := by
    cases c.standby
    · exact ⟨_, rfl⟩
    · exact ⟨_, rfl⟩
  obtain ⟨l, hl⟩ := told
  unfold contained
  simp only [hl, quiet]
  obtain ⟨p, x, noticed⟩ := (({ c with leat := l } : Chip).containedMark src (c.attrKey who) triad).containedNotify_eq src
    (c.attrKey who)
  rw [noticed]
  have kept := marked l
  generalize ({ c with leat := l } : Chip).containedMark src (c.attrKey who) triad = u at *
  constructor
  · change u.host.reqs = _
    rw [kept]
  · change u.host.cpls = _
    rw [kept]

theorem hostDown_eq (c : Chip) (up : c.hostUp = true) (now code : Nat) : c.hostDown now code =
    ((((c.host.replay.foldl (fun c m => c.hostAgain m.2) c).modHost fun h => { faults := h.faults }).linkDown code).bookInc
      0x058).contained now 17 none none := if_neg (by simp [up])

/-- A link that goes down discards its requests and completions and keeps the events. -/
theorem hostDown_shows (up : c.hostUp = true) {code : Nat} (h : code < 256) (now : Nat) :
    let d := c.hostDown now code
    d.gf .HST_STAT HST_STAT.UP = 0 ∧ d.gf .HST_STAT HST_STAT.WIDTH = 0 ∧ d.gf .HST_STAT HST_STAT.LASTERR = code ∧
      d.gf .HST_STAT HST_STAT.LINKDOWNS = min (c.gf .HST_STAT HST_STAT.LINKDOWNS + 1) HST_STAT.LINKDOWNS.max ∧
      d.stands 17 1 ∧ d.host.reqs = [] ∧ d.host.cpls = [] ∧ d.mem = c.mem ∧ (∀ j ∈ c.chan.hev, j ∈ d.chan.hev) ∧
      ∀ e ∈ c.host.replay, ∀ j, e.2 = .queue j → j ∈ d.chan.hev := by
  obtain ⟨f, v, again, kept, queued⟩ := c.hostAgain_foldl c.host.replay
  have law := c.hostDown_eq up now code
  rw [again] at law
  obtain ⟨u, hu⟩ : ∃ u : Chip, u = { c with host := { faults := f }, chan := { c.chan with hev := v } } := ⟨_, rfl⟩
  have emptied : (({ c with host := { c.host with faults := f }, chan := { c.chan with hev := v } } : Chip).modHost
      fun h => { faults := h.faults }) = u := by rw [hu]; rfl
  have stat : ∀ g, u.gf .HST_STAT g = c.gf .HST_STAT g := fun g => gf_of_regs (by rw [hu]) _ g
  have mem : u.mem = c.mem := by rw [hu]
  have host : u.host = { faults := f } := by rw [hu]
  have hev : u.chan.hev = v := by rw [hu]
  rw [emptied] at law
  obtain ⟨down, width, err, count⟩ := u.linkDown_shows h
  have only := u.linkDown_onlyRegs code
  rw [law]
  generalize u.linkDown code = w at *
  have regs := bookInc_regs w 0x058
  have rest : (w.bookInc 0x058).mem = w.mem ∧ (w.bookInc 0x058).host = w.host ∧ (w.bookInc 0x058).chan = w.chan :=
    ⟨bookInc_mem w _, bookInc_host w _, bookInc_chan w _⟩
  generalize w.bookInc 0x058 = x at *
  have frame := x.contained_unitFrame now (src := 17) (by decide) none none
  have shown : ∀ g, (x.contained now 17 none none).gf .HST_STAT g = w.gf .HST_STAT g := fun g =>
    (frame.gf _ (by decide)).trans (gf_of_regs regs _ g)
  obtain ⟨reqs, cpls⟩ := x.contained_host now 17 none none
  have chan := (x.contained_chan now 17 none none).trans rest.2.2
  have wchan : w.chan.hev = v := by rw [only.1]; exact hev
  have whost : w.host = { faults := f } := by rw [only.1]; exact host
  refine ⟨(shown _).trans down, (shown _).trans width, (shown _).trans err, ?_, contained_stands x now (by decide) none none, ?_, ?_,
    frame.mem.trans (rest.1.trans (only.sameCore.1.trans mem)), ?_, ?_⟩
  · rw [shown, count, stat]
  · rw [reqs, rest.2.1, whost]
  · rw [cpls, rest.2.1, whost]
  · rw [chan, wchan]; exact kept
  · rw [chan, wchan]; exact queued

/-! ### Training and stalls (R470, R473) -/

/-- Without a credit of the host nothing is sent. -/
theorem hostDrain_broke (credits : c.host.credits = 0) (posted : c.host.owedPosted = 0) (nonPosted : c.host.owedNonPosted = 0)
    (now k : Nat) : ∃ x, c.hostDrain now (k + 1) = { c with
      host := { c.host with stallFrom := x } } := by
  rw [hostDrain]
  dsimp only
  split
  · exact ⟨c.host.stallFrom, rfl⟩
  · rw [if_neg (by simp [posted, nonPosted])]
    split
    · exact ⟨none, rfl⟩
    · split
      · exact ⟨some now, rfl⟩
      · exact ⟨c.host.stallFrom, rfl⟩

/-- The link's register once it has trained. -/
def linkTrained (c : Chip) (x16 : Bool) : Chip :=
  (({ c with host := { faults := c.host.faults } } : Chip).sf .HST_STAT HST_STAT.UP 1).sf .HST_STAT HST_STAT.WIDTH (if x16 then 2 else 1)

/-- A degraded width is a corrected fault. -/
def widthReport (c : Chip) (now : Nat) (x16 : Bool) : Chip := if x16 then c else c.corrected now 17

theorem widthReport_shows (c : Chip) (now : Nat) (x16 : Bool) :
    let d := c.widthReport now x16
    SameLink c d ∧ d.rd .HST_STAT = c.rd .HST_STAT ∧ d.chan = c.chan ∧ (x16 = false → d.stands 17 0) ∧ SameCore c d := by
  cases x16
  · exact ⟨c.corrected_link now 17, (c.corrected_unitFrame now 17).rd _ (by decide), c.corrected_chan now 17,
      fun _ => c.corrected_stands now (by decide), c.corrected_sameCore now 17⟩
  · exact ⟨.refl c, rfl, rfl, fun h => absurd h (by decide), .refl c⟩

/-- A link that has trained holds the fault notices that waited, and has no credit yet. -/
theorem hostTrained_shows (on : c.off = false) (down : c.hostUp = false) (power : c.domainOn 29 = true) (now : Nat) (x16 : Bool) :
    let d := c.hostTrained now x16
    d.gf .HST_STAT HST_STAT.UP = 1 ∧ d.gf .HST_STAT HST_STAT.WIDTH = (if x16 then 2 else 1) ∧ d.host.credits = 0 ∧
      d.host.reqs = [] ∧ d.host.faults = c.host.faults ∧ d.chan = c.chan ∧ (x16 = false → d.stands 17 0) ∧ SameCore c d := by
  have law : c.hostTrained now x16 = ((c.linkTrained x16).widthReport now x16).hostPump now := if_neg (by simp [on, down, power])
  have up : (c.linkTrained x16).gf .HST_STAT HST_STAT.UP = 1 := by
    rw [linkTrained, gf_sf_field _ _ _ _ _ (by decide) (by decide) (by decide), gf_sf_same _ _ _ _ (by decide) (by decide)]
    rfl
  have width : (c.linkTrained x16).gf .HST_STAT HST_STAT.WIDTH = if x16 then 2 else 1 := by
    rw [linkTrained, gf_sf_same _ _ _ _ (by decide) (by decide)]
    cases x16 <;> rfl
  have only : OnlyRegs { c with host := { faults := c.host.faults } } (c.linkTrained x16) [.HST_STAT] :=
    .trans (.sf _ _ _ (by simp)) (.sf _ _ _ (by simp))
  have off : (c.linkTrained x16).off = false := by rw [only.1]; exact on
  have host : (c.linkTrained x16).host = { faults := c.host.faults } := by rw [only.1]
  have chan : (c.linkTrained x16).chan = c.chan := by rw [only.1]
  have core : SameCore c (c.linkTrained x16) := only.sameCore
  rw [law]
  generalize c.linkTrained x16 = u at *
  obtain ⟨link, stat, chan', stands, core'⟩ := u.widthReport_shows now x16
  generalize u.widthReport now x16 = w at *
  have running : w.hostUp = true := by
    rw [link.up, hostUp, off, gb, up]
    rfl
  have whost : w.host = { faults := c.host.faults } := link.host.trans host
  rw [hostPump_of_none running (by rw [whost])]
  obtain ⟨x, drained⟩ := hostDrain_broke (c := w) (by rw [whost]) (by rw [whost]) (by rw [whost]) now 199
  rw [drained]
  have field : ∀ f, w.gf .HST_STAT f = u.gf .HST_STAT f := fun f => by rw [gf_eq, stat, ← gf_eq]
  refine ⟨(field _).trans up, (field _).trans width, ?_, ?_, ?_, chan'.trans chan, stands, core.trans core'⟩
  · change w.host.credits = 0
    rw [whost]
  · change w.host.reqs = []
    rw [whost]
  · change w.host.faults = c.host.faults
    rw [whost]

theorem hostTrained_of_up (up : c.hostUp = true) (now : Nat) (x16 : Bool) : c.hostTrained now x16 = c := if_pos (by simp [up])

/-- A host that returns no credit for 1 ms is a stall. -/
theorem hostStall_shows (up : c.hostUp = true) (from_ : c.host.stallFrom = some t) (late : t + 1000000 ≤ now) :
    let d := c.hostStall now
    d.gf .HST_STAT HST_STAT.STALL = 1 ∧ d.gf .HST_STAT HST_STAT.LASTERR = 2 ∧ d.stands 17 1 ∧ d.mem = c.mem := by
  have law : c.hostStall now = (((c.modHost fun h => { h with stallFrom := none }).sf .HST_STAT HST_STAT.STALL 1).hostErr 2).contained
      now 17 none none := by
    unfold hostStall
    rw [from_]
    exact if_neg (by simp [up, late])
  have stall : (((c.modHost fun h => { h with stallFrom := none }).sf .HST_STAT HST_STAT.STALL 1).hostErr 2).gf .HST_STAT
      HST_STAT.STALL = 1 := by
    rw [hostErr, gf_sf_field _ _ _ _ _ (by decide) (by decide) (by decide), gf_sf_same _ _ _ _ (by decide) (by decide)]
    rfl
  have err := ((c.modHost fun h => { h with stallFrom := none }).sf .HST_STAT HST_STAT.STALL 1).gf_hostErr (k := 2) (by decide)
  have mem : (((c.modHost fun h => { h with stallFrom := none }).sf .HST_STAT HST_STAT.STALL 1).hostErr 2).mem = c.mem := by
    rw [hostErr, sf_mem, sf_mem]
    rfl
  rw [law]
  generalize ((c.modHost fun h => { h with stallFrom := none }).sf .HST_STAT HST_STAT.STALL 1).hostErr 2 = u at *
  have frame := u.contained_unitFrame now (src := 17) (by decide) none none
  exact ⟨(frame.gf _ (by decide)).trans stall, (frame.gf _ (by decide)).trans err, contained_stands u now (by decide) none none,
    frame.mem.trans mem⟩

theorem hostStall_of_none (h : c.host.stallFrom = none) (now : Nat) : c.hostStall now = c := by
  unfold hostStall
  rw [h]

end Chip
end Sys2Proof.Machine
end

section
/-! The host link's requests as commands, and O56 (R471 to R479, R392). -/
namespace Sys2Proof.Machine
variable {s : State}

namespace Chip
variable {c d u : Chip} {now a n tag st k : Nat} {l : List Byte} {r : RegName} {v : DWord}

/-! ### A request and what it is answered with -/

/-- The link sends `l` and no request waits. -/
def HostSent (d : Chip) (l : List HostMsg) : Prop := d.host.replay.map Prod.snd = l ∧ d.host.reqs = []

/-- One completion has left, its credit is spent, and memory is as it was. -/
def Answered (c d : Chip) (tag st : Nat) (l : List Byte) : Prop :=
  d.HostSent [.cpl tag st l, .credit 0 1 0] ∧ d.host.credits + 1 = c.host.credits ∧ d.mem = c.mem

/-! What a change of the link's record alone leaves. -/

theorem gf_of_host {h : HostLink} (rest : d = { u with
    host := h }) (r : RegName) (f : Fld) : d.gf r f = u.gf r f := by subst rest; rfl

theorem rd_of_host {h : HostLink} (rest : d = { u with
    host := h }) (r : RegName) : d.rd r = u.rd r := by subst rest; rfl

theorem stands_of_host {h : HostLink} (rest : d = { u with
    host := h }) (src cls : Nat) : d.sticky src cls = u.sticky src cls := by subst rest; rfl

theorem mem_of_host {h : HostLink} (rest : d = { u with
    host := h }) : d.mem = u.mem := by subst rest; rfl

theorem hostTake_answered (h : c.HostReady) {q : HostReq} (link : SameLink c u) (mem : u.mem = c.mem)
    (did : c.hostDo now q = some (u.hostCpl tag st l)) : Answered c (c.hostTake now q) tag st l := by
  obtain ⟨sent, spent, rest⟩ := hostTake_answers h link did
  exact ⟨sent, spent, (mem_of_host rest).trans mem⟩

theorem hostDo_regrd (e : c.hostRegRead now a = (u, st, l)) : c.hostDo now (.regrd tag a) = some (u.hostCpl tag st l) := by
  rw [hostDo, e]

theorem hostDo_regwr (e : c.hostRegWrite now a v = (u, st)) : c.hostDo now (.regwr tag a v) = some (u.hostCpl tag st []) := by
  rw [hostDo, e]

theorem hostDo_memrd (e : c.hostMemRead now a n = (u, st, l)) : c.hostDo now (.memrd tag a n) = some (u.hostCpl tag st l) := by
  rw [hostDo, e]

theorem hostDo_memwr {o : Option Chip} (e : c.hostMemWrite now a l = o) : c.hostDo now (.memwr a l) = o.map hostPosted := by
  rw [hostDo, e]

theorem hostDo_doorbell {q v : Nat} {o : Option Chip} (e : c.hostBell now q v = o) :
    c.hostDo now (.doorbell q v) = o.map hostPosted := by
  rw [hostDo, e]

/-- A register read that leaves the die as it is. -/
theorem regrd_answered (h : c.HostReady) (e : c.hostRegRead now a = (c, st, l)) :
    Answered c (c.hostTake now (.regrd tag a)) tag st l := hostTake_answered h (.refl c) rfl (hostDo_regrd e)

theorem regwr_answered (h : c.HostReady) (link : SameLink c u) (mem : u.mem = c.mem) (e : c.hostRegWrite now a v = (u, st)) :
    Answered c (c.hostTake now (.regwr tag a v)) tag st [] ∧ ∀ q, (c.hostTake now (.regwr tag a v)).rd q = u.rd q :=
  ⟨hostTake_answered h link mem (hostDo_regwr e), fun q =>
    rd_of_host (hostTake_answers h link (hostDo_regwr (tag := tag) e)).2.2 q⟩

/-! ### Register reads and writes -/

theorem hostRegRead_ok (h : c.Names a r) (status : r ≠ .FLT_STATUS) (txts : ∀ j, r ≠ .LAN_TXTS j) (answers : c.answers a = true)
    (readable : c.devReadable c.hostAgent a = true) : c.hostRegRead now a = (c, 0, bytesLE 8 (c.regGet now r).toNat) := by
  rw [hostRegRead_of_named h, devGet_of_named h, if_pos answers, if_pos readable, regTaken_of_plain status txts]

theorem hostRegRead_refused (h : c.Names a r) (answers : c.answers a = true) (barred : c.devReadable c.hostAgent a = false) :
    c.hostRegRead now a = (c, 6, []) := by
  rw [hostRegRead_of_named h, devGet_of_named h, if_pos answers, if_neg (ne_true_of_eq_false barred)]

theorem hostRegRead_silent (h : c.Names a r) (silent : c.answers a = false) : c.hostRegRead now a = (c, 5, []) := by
  rw [hostRegRead_of_named h, devGet_of_named h, if_neg (ne_true_of_eq_false silent)]

/-- A refused register write changes no register that it names; one of a host window is a corrected fault of source 18. -/
theorem hostRegWrite_refused (active : c.standby = false) (h : c.Names a r) (answers : c.answers a = true)
    (barred : c.mayWrite c.hostAgent r = false) (now : Nat) (v : DWord) : ∃ u, c.hostRegWrite now a v = (u, 6) ∧ SameLink c u ∧
      u.mem = c.mem ∧ u.rd r = c.rd r ∧ ∀ k, r = .HST_WBASE k → u.stands 18 0 := by
  have law := hostRegWrite_of_named active h answers now v
  rw [if_neg (ne_true_of_eq_false barred)] at law
  have frame := c.corrected_unitFrame now 18
  split at law
  next k _ =>
    have away : ¬ FltAddr (RegName.HST_WBASE k).addr := by simp only [FltAddr, RegName.addr]; omega
    exact ⟨_, law, c.corrected_link now 18, frame.mem, frame.rd _ away, fun _ _ => c.corrected_stands now (by decide)⟩
  next k _ =>
    have away : ¬ FltAddr (RegName.HST_WLIMIT k).addr := by simp only [FltAddr, RegName.addr]; omega
    exact ⟨_, law, c.corrected_link now 18, frame.mem, frame.rd _ away, fun _ named => by cases named⟩
  next base _ =>
    exact ⟨_, law, .refl c, rfl, rfl, fun k named => by subst named; exact (base k h rfl HEq.rfl).elim⟩

/-- The manager's write of the mask of errors. -/
theorem hostRegWrite_errmask (active : c.standby = false) (up : c.hostUp = true) (site : c.gb .PRT_MGR PRT_MGR.SITE = true)
    (power : c.domainOn 0 = true) (now : Nat) (v : DWord) :
    c.hostRegWrite now (BitVec.ofNat 40 RegName.FLT_ERRMASK.addr).toNat v = (c.wr .FLT_ERRMASK v, 0) := by
  have manager : c.hostAgent = .manager := if_pos site
  have on : c.off = false := by
    simp only [hostUp, Bool.and_eq_true, Bool.not_eq_true'] at up
    exact up.1
  have domain : powerDomain (BitVec.ofNat 40 RegName.FLT_ERRMASK.addr).toNat = 0 := by decide
  have answers : c.answers (BitVec.ofNat 40 RegName.FLT_ERRMASK.addr).toNat = true := by
    rw [Chip.answers, on, domain, power]
    rfl
  have may : c.mayWrite c.hostAgent .FLT_ERRMASK = true := by
    rw [manager]
    rfl
  rw [hostRegWrite_of_named active c.errmask_names answers, if_pos may, regPut_errmask]

theorem wr_errmask_link (c : Chip) (v : DWord) : SameLink c (c.wr .FLT_ERRMASK v) :=
  ⟨hostUp_congr rfl (rd_wr_other c v (by decide)), rfl, rfl⟩

/-! ### Posted writes -/

/-- A posted message that is not performed. -/
theorem hostTake_refused (h : c.HostReady) {q : HostReq} (did : c.hostDo now q = some (c.hostRefuse now).hostPosted) :
    let d := c.hostTake now q
    d.gf .HST_STAT HST_STAT.LASTERR = 4 ∧ d.stands 17 0 ∧ d.mem = c.mem ∧ d.HostSent [.credit 1 0 0] := by
  obtain ⟨err, stands, mem, link⟩ := c.hostRefuse_shows now
  obtain ⟨sent, rest⟩ := hostTake_posts h link did
  exact ⟨(gf_of_host rest _ _).trans err, (stands_of_host rest 17 0).trans stands, (mem_of_host rest).trans mem, sent⟩

/-- A memory access that the checks permit is written, and the posted message returns its credit. -/
theorem memwr_writes (h : c.HostReady) (active : c.standby = false) (ok : c.hostMemStatus a true = 0)
    (free : c.rangeHeld a l.length = false) (he : c.ecc = []) (unlogged : ∀ p, c.gb (.PRT_LOGCFG p) PRT_LOGCFG.EN = false)
    (now : Nat) : Wrote c (c.hostTake now (.memwr a l)) a l ∧ (c.hostTake now (.memwr a l)).HostSent [.credit 1 0 0] := by
  obtain ⟨u, did, link, wrote⟩ := hostMemWrite_writes active ok free he unlogged now
  obtain ⟨sent, rest⟩ := hostTake_posts h link (hostDo_memwr did)
  exact ⟨wrote_of_mem wrote rfl (mem_of_host rest), sent⟩

/-- A write of lines that a commit holds waits as a request. -/
theorem memwr_waits (h : c.HostReady) (active : c.standby = false) (ok : c.hostMemStatus a true = 0)
    (held : c.rangeHeld a l.length = true) (now : Nat) :
    let d := c.hostTake now (.memwr a l)
    d.host.reqs = [.memwr a l] ∧ d = { c with
      host := d.host } := by
  obtain ⟨up, reqs, idle, replay, credits⟩ := h
  obtain ⟨cpls, faults, hev, posted, nonPosted⟩ := idle
  obtain ⟨x, drained⟩ := hostDrain_idle (c := { c with host := { c.host with reqs := [.memwr a l] } })
    ⟨cpls, faults, hev, posted, nonPosted⟩ now 199
  rw [hostTake_waits up reqs (hostDo_memwr (hostMemWrite_waits active ok held now)), drained]
  exact ⟨rfl, rfl⟩

theorem queues_of_rest {h : HostLink} {x : List Nat} (rest : d = { u with
    host := h, chan := { u.chan with hev := x } }) : d.chan.ques = u.chan.ques ∧ d.mem = u.mem := by
  subst rest
  exact ⟨rfl, rfl⟩

/-- A doorbell writes the queue's index, which the device then reads. -/
theorem doorbell_rings (h : c.HostReady) {q v : Nat} (active : c.standby = false) (host : c.gb (.QUE_CFG q) QUE_CFG.HOST = true)
    (power : c.domainOn 19 = true) (own : c.rangeStatus none (c.ctla q) 8 = 0) (free : c.rangeHeld (c.ctla q) 8 = false)
    (he : c.ecc = []) (now : Nat) : ∃ e, Wrote c e (c.ctla q) (bytesLE 8 v) ∧
      (c.hostTake now (.doorbell q v)).chan.ques = (e.readDoorbell now q).chan.ques ∧
      (c.hostTake now (.doorbell q v)).mem = (e.readDoorbell now q).mem := by
  obtain ⟨e, did, wrote⟩ := hostBell_rings (v := v) active host power own free he now
  obtain ⟨x, y, rest⟩ := (e.readDoorbell now q).hostPosted.hostDrain_rest now 200
  rw [hostTake_done h.up h.reqs (hostDo_doorbell did)]
  exact ⟨e, wrote, queues_of_rest (u := (e.readDoorbell now q).hostPosted) rest⟩

theorem port_of_rest {h : HostLink} {x : List Nat} (rest : d = { u with
    host := h, chan := { u.chan with hev := x } }) (k : Nat) : d.port k = u.port k ∧ d.mem = u.mem := by
  subst rest
  exact ⟨rfl, rfl⟩

theorem intr_pends (h : c.HostReady) {t vec pos : Nat} (active : c.standby = false)
    (enabled : (c.gf (.CLU_EVCFG t) CLU_EVCFG.HOSTEN).testBit vec = true) (now : Nat) :
    0x1040 + vec ∈ ((c.hostTake now (.intr t vec pos)).port (c.portKey t pos)).pend ∧
      (c.hostTake now (.intr t vec pos)).mem = c.mem := by
  obtain ⟨pends, mem⟩ := hostIntr_pends (pos := pos) active enabled
  obtain ⟨x, y, rest⟩ := (c.hostIntr t vec pos).hostPosted.hostDrain_rest now 200
  rw [hostTake_done h.up h.reqs rfl]
  obtain ⟨port, same⟩ := port_of_rest rest (c.portKey t pos)
  rw [port, same]
  exact ⟨pends, mem⟩

theorem intr_ignored (h : c.HostReady) {t vec pos : Nat} (disabled : (c.gf (.CLU_EVCFG t) CLU_EVCFG.HOSTEN).testBit vec = false)
    (now : Nat) :
    let d := c.hostTake now (.intr t vec pos)
    d.HostSent [.credit 1 0 0] ∧ d = { c with
      host := d.host } := by
  have did : c.hostDo now (.intr t vec pos) = some c.hostPosted := by rw [hostDo, hostIntr_of_disabled disabled]
  exact hostTake_posts h (.refl c) did

theorem hostMemStatus_of_no_window (h : c.hostWindow a = none) (write : Bool) : c.hostMemStatus a write = 2 := by
  rw [hostMemStatus, h]

/-! ### A link that is down -/

theorem hostTake_of_down (h : c.hostUp = false) (now : Nat) (q : HostReq) : c.hostTake now q = c := if_neg (ne_true_of_eq_false h)
theorem hostBad_of_down (h : c.hostUp = false) : c.hostBad = c := if_neg (ne_true_of_eq_false h)
theorem hostCredit_of_down (h : c.hostUp = false) (now n : Nat) : c.hostCredit now n = c := if_pos (by simp [h])
theorem hostDown_of_down (h : c.hostUp = false) (now code : Nat) : c.hostDown now code = c := if_pos (by simp [h])
theorem flitIn_of_down (h : c.hostUp = false) (now seq ack : Nat) (ok bad : Bool) : c.flitIn now seq ack ok bad = c :=
  if_pos (by simp [h])

end Chip

/-! ### The commands of the link -/

section
variable (tag : BitVec 8) (addr : BitVec 40)

theorem exec_regrd : exec (.regrd tag addr) s = .next { s with
    chip := s.chip.hostTake s.now.toNat (.regrd tag.toNat addr.toNat) } := rfl

theorem exec_regwr (v : BitVec 64) : exec (.regwr tag addr v) s = .next { s with
    chip := s.chip.hostTake s.now.toNat (.regwr tag.toNat addr.toNat v) } := rfl

theorem exec_memrd (len : BitVec 16) : exec (.memrd tag addr len) s = .next { s with
    chip := if Chip.blockOk addr.toNat len.toNat then s.chip.hostTake s.now.toNat (.memrd tag.toNat addr.toNat len.toNat)
      else s.chip.hostBad } := rfl

theorem exec_memwr (bytes : List (BitVec 8)) : exec (.memwr addr bytes) s = .next { s with
    chip := if Chip.blockOk addr.toNat bytes.length then s.chip.hostTake s.now.toNat (.memwr addr.toNat bytes)
      else s.chip.hostBad } := rfl

theorem exec_doorbell (q : BitVec 12) (v : BitVec 16) : exec (.doorbell q v) s = .next { s with
    chip := s.chip.hostTake s.now.toNat (.doorbell q.toNat v.toNat) } := rfl

theorem exec_intr (t : Fin 32) (vec : BitVec 4) (pos : Fin 3) : exec (.intr t vec pos) s = .next { s with
    chip := s.chip.hostTake s.now.toNat (.intr t vec.toNat pos) } := rfl

theorem exec_credit (x y z : BitVec 16) : exec (.credit x y z) s = .next { s with
    chip := s.chip.hostCredit s.now.toNat z.toNat } := rfl

theorem exec_flitReceive (seq ack : BitVec 12) (ok bad : Bool) : exec (.flitReceive seq ack ok bad) s = .next { s with
    chip := s.chip.flitIn s.now.toNat seq.toNat ack.toNat ok bad } := rfl

theorem exec_hostLinkDown (ok : Bool) : exec (.hostLinkDown ok) s = .next { s with
    chip := s.chip.hostDown s.now.toNat (if ok then 3 else 1) } := rfl

theorem exec_hostLinkUp (x16 : Bool) : exec (.hostLinkUp x16) s = .next { s with
    chip := s.chip.hostTrained s.now.toNat x16 } := rfl

theorem exec_creditStall : exec .creditStall s = .next { s with
    chip := s.chip.hostStall s.now.toNat } := rfl

/-- A read within one block is taken as a request. -/
theorem gives_memrd {len : BitVec 16} (block : Chip.blockOk addr.toNat len.toNat = true) {P : Chip → Prop}
    (h : P (s.chip.hostTake s.now.toNat (.memrd tag.toNat addr.toNat len.toNat))) : Gives s (.memrd tag addr len) P := by
  refine ⟨_, exec_memrd tag addr len, ?_⟩
  rw [if_pos block]
  exact h

/-- A write within one block is taken as a request. -/
theorem gives_memwr {bytes : List (BitVec 8)} (block : Chip.blockOk addr.toNat bytes.length = true) {P : Chip → Prop}
    (h : P (s.chip.hostTake s.now.toNat (.memwr addr.toNat bytes))) : Gives s (.memwr addr bytes) P := by
  refine ⟨_, exec_memwr addr bytes, ?_⟩
  rw [if_pos block]
  exact h

end

/-- Settles O56: each request is performed as its rule above says and answered by the link's own rules. That a command whose
trigger does not hold changes nothing is the model's choice (log 3); what the link sends and when rests on log 47, what it refuses
and how on log 48. -/
theorem hostPort : Obligations.HostPort := by
  unfold Obligations.HostPort
  intro s tag addr len v bytes q b x y z t vec pos seq ack ok bad x16 r k t0 m c now a n quiet ready sent answered link stat gives rd wr
    named noted errmask refused down
  have isReady : ready → c.HostReady := fun ⟨⟨up, reqs, faults, hev, posted, nonPosted⟩, cpls, replay, credits⟩ =>
    ⟨up, reqs, ⟨cpls, faults, hev, posted, nonPosted⟩, replay, credits⟩
  have isNamed : named → c.Names a r := fun ⟨aligned, region, book, reg⟩ => ⟨aligned, region, book, reg⟩
  have isIdle : quiet → c.host.cpls = [] → c.NothingToSend := fun ⟨_, _, faults, hev, posted, nonPosted⟩ cpls =>
    ⟨cpls, faults, hev, posted, nonPosted⟩
  refine ⟨fun h => ⟨fun nm nt an rdb => ?read, fun nm an barred => ?readBarred, fun nm silent => ?readSilent,
      fun un => ⟨?readUnnamed, fun active => ?writeUnnamed⟩, fun standby => ?writeStandby,
      fun active site power => ?errmaskWrite, fun active nm an barred => ?writeBarred,
      fun active nm an base barred => ?windowBarred,
      fun active block => ⟨fun st he => ?memRead, fun st => ?memBarred, fun window => ?memNoWindow⟩,
      fun active block => ⟨fun st free he inside unlogged => ?memWrite, fun st held => ?memHeld, fun st => ?memRefused⟩,
      fun active notHost => ?bellRefused, fun active host power own free he inside => ?bell,
      fun active enabled => ?intr, fun disabled => ?intrOff⟩,
    fun up block => ?badLength,
    fun h => ⟨fun cpls => ?credit, fun cpls replay credits some_ => ?creditFrees, fun cpls next => ?flit, fun cpls other => ?flitOther⟩,
    fun up => ⟨fun few => ?flitFalse, fun many => ?flitDown, ?linkDown, ?stillUp, fun from_ late => ?stall⟩,
    fun on dn power => ?trains, fun none_ => ?noStall, fun dn i hi => ?linkIsDown⟩
  case read =>
    exact ⟨_, exec_regrd tag addr, Chip.regrd_answered (isReady h) (Chip.hostRegRead_ok (isNamed nm) nt.1 nt.2 an rdb)⟩
  case readBarred => exact ⟨_, exec_regrd tag addr, Chip.regrd_answered (isReady h) (Chip.hostRegRead_refused (isNamed nm) an barred)⟩
  case readSilent => exact ⟨_, exec_regrd tag addr, Chip.regrd_answered (isReady h) (Chip.hostRegRead_silent (isNamed nm) silent)⟩
  case readUnnamed => exact ⟨_, exec_regrd tag addr, Chip.regrd_answered (isReady h) (Chip.hostRegRead_of_unnamed un)⟩
  case writeUnnamed =>
    exact ⟨_, exec_regwr tag addr v, (Chip.regwr_answered (isReady h) (.refl c) rfl (Chip.hostRegWrite_of_unnamed active un now v)).1⟩
  case writeStandby =>
    exact ⟨_, exec_regwr tag addr v, (Chip.regwr_answered (isReady h) (.refl c) rfl (Chip.hostRegWrite_of_standby standby now a v)).1⟩
  case errmaskWrite =>
    obtain ⟨answer, regs⟩ := Chip.regwr_answered (tag := tag.toNat) (isReady h) (c.wr_errmask_link v) rfl
      (Chip.hostRegWrite_errmask active (isReady h).up site power now v)
    exact ⟨_, exec_regwr tag errmask v, answer, (regs _).trans (c.rd_wr_same _ v)⟩
  case writeBarred =>
    obtain ⟨u, refusal, same, mem, reg, -⟩ := Chip.hostRegWrite_refused active (isNamed nm) an barred now v
    obtain ⟨answer, regs⟩ := Chip.regwr_answered (tag := tag.toNat) (isReady h) same mem refusal
    exact ⟨_, exec_regwr tag addr v, answer, (regs r).trans reg⟩
  case windowBarred =>
    obtain ⟨u, refusal, same, -, -, stands⟩ := Chip.hostRegWrite_refused active (isNamed nm) an barred now v
    have rest := (Chip.hostTake_answers (isReady h) same (Chip.hostDo_regwr (tag := tag.toNat) refusal)).2.2
    exact ⟨_, exec_regwr tag addr v, (Chip.stands_of_host rest 18 0).trans (stands k base)⟩
  case memRead =>
    obtain ⟨u, reads, same, mem⟩ := Chip.hostMemRead_reads active st he now n
    exact gives_memrd tag addr block (Chip.hostTake_answered (isReady h) same mem (Chip.hostDo_memrd reads))
  case memBarred =>
    exact gives_memrd tag addr block (Chip.hostTake_answered (isReady h) (.refl c) rfl
      (Chip.hostDo_memrd (Chip.hostMemRead_refused active st now n)))
  case memNoWindow =>
    have two := Chip.hostMemStatus_of_no_window window false
    have refusal := Chip.hostMemRead_refused active (by rw [two]; decide) now n
    rw [two] at refusal
    exact gives_memrd tag addr block (Chip.hostTake_answered (isReady h) (.refl c) rfl (Chip.hostDo_memrd refusal))
  case memWrite => exact gives_memwr addr block (Chip.memwr_writes (isReady h) active st free he unlogged now)
  case memHeld => exact gives_memwr addr block (Chip.memwr_waits (isReady h) active st held now)
  case memRefused =>
    exact gives_memwr addr block (Chip.hostTake_refused (isReady h) (Chip.hostDo_memwr (Chip.hostMemWrite_refused st now)))
  case bellRefused =>
    exact ⟨_, exec_doorbell q b, Chip.hostTake_refused (isReady h) (Chip.hostDo_doorbell (Chip.hostBell_refused notHost now))⟩
  case bell => exact ⟨_, exec_doorbell q b, Chip.doorbell_rings (isReady h) active host power own free he now⟩
  case intr => exact ⟨_, exec_intr t vec pos, Chip.intr_pends (isReady h) active enabled now⟩
  case intrOff => exact ⟨_, exec_intr t vec pos, Chip.intr_ignored (isReady h) disabled now⟩
  case badLength =>
    refine ⟨_, exec_memrd tag addr len, ?_⟩
    rw [if_neg (ne_true_of_eq_false block), Chip.hostBad, if_pos up]
    exact ⟨c.gf_hostErr (by decide), .sf _ _ _ (by simp)⟩
  case credit => exact ⟨_, exec_credit x y z, Chip.hostCredit_idle h.1 h.2.1 (isIdle h cpls) now z.toNat⟩
  case creditFrees =>
    obtain ⟨up, reqs, faults, hev, posted, nonPosted⟩ := h
    exact ⟨_, exec_credit x y z, Chip.hostCredit_frees up reqs faults hev posted nonPosted cpls replay credits some_ now⟩
  case flit => exact ⟨_, exec_flitReceive seq ack true bad, Chip.flitIn_next h.1 h.2.1 (isIdle h cpls) now next ack.toNat bad⟩
  case flitOther => exact ⟨_, exec_flitReceive seq ack true bad, Chip.flitIn_other h.1 h.2.1 (isIdle h cpls) now other ack.toNat bad⟩
  case flitFalse =>
    have law := exec_flitReceive (s := s) seq ack false bad
    rw [(Chip.flitIn_false up now seq.toNat ack.toNat bad).1 few] at law
    exact ⟨_, law, rfl, rfl⟩
  case flitDown =>
    have law := exec_flitReceive (s := s) seq ack false bad
    rw [(Chip.flitIn_false up now seq.toNat ack.toNat bad).2 many] at law
    exact ⟨_, law, Chip.hostDown_shows up (by decide) now⟩
  case linkDown => exact ⟨_, exec_hostLinkDown ok, Chip.hostDown_shows up (by cases ok <;> decide) now⟩
  case stillUp => rw [exec_hostLinkUp, Chip.hostTrained_of_up up]
  case stall => exact ⟨_, exec_creditStall, Chip.hostStall_shows up from_ late⟩
  case trains => exact ⟨_, exec_hostLinkUp x16, Chip.hostTrained_shows on dn power now x16⟩
  case noStall => rw [exec_creditStall, Chip.hostStall_of_none none_]
  case linkIsDown =>
    have take := fun q => Chip.hostTake_of_down dn now q
    have bad_ := Chip.hostBad_of_down dn
    simp only [List.mem_cons, List.not_mem_nil, or_false] at hi
    rcases hi with rfl | rfl | rfl | rfl | rfl | rfl | rfl | rfl | rfl
    · rw [exec_regrd, take]
    · rw [exec_regwr, take]
    · rw [exec_memrd, take, bad_, ite_self]
    · rw [exec_memwr, take, bad_, ite_self]
    · rw [exec_doorbell, take]
    · rw [exec_intr, take]
    · rw [exec_credit, Chip.hostCredit_of_down dn]
    · rw [exec_flitReceive, Chip.flitIn_of_down dn]
    · rw [exec_hostLinkDown, Chip.hostDown_of_down dn]

end Sys2Proof.Machine
end
